-- ==== Sys2Proof/Word.lean ====
section
/-!
DEFINITION. Word types of the YH4 model: registers, addresses and bytes are bit vectors (R11, R37), a sparse
table is a list of (key, value) pairs with strictly rising keys.
-/
namespace Sys2Proof

/-- A 32-bit vector register (R37). -/
abbrev Word := BitVec 32
/-- A 64-bit pair, address or system register (R37, R279). -/
abbrev DWord := BitVec 64
/-- The unit of memory (R11). -/
abbrev Byte := BitVec 8
/-- A run of bytes, lowest address first (R11). -/
abbrev Bytes := List (BitVec 8)
/-- A sparse table: (key, value) pairs, keys strictly rising. -/
abbrev Cells (α : Type) := List (Nat × α)

end Sys2Proof
end

