-- ==== Sys2Proof/Syntax.lean ====
section
/-!
DEFINITION. The syntax of Dumet: operand codes (R136, R137 and each entry of the instruction chapters), the
descriptors of the X forms (R217, R229), the arguments of the package's events, and the one inductive Instr with a
constructor for every row of the opcode table.
-/
namespace Sys2Proof

/-- A register field of the head or of an extension (R132, R134). -/
abbrev Reg := BitVec 8

/-- Guard and lookahead, carried by every instruction (R132, R135, R141). -/
structure Head where
  g  : BitVec 7
  gn : Bool
  la : BitVec 4
  deriving DecidableEq, Repr

/-- TY codes 0 to 10 (R136). -/
inductive Ty | s8 | z8 | s16 | z16 | s32 | z32 | s64 | z64 | f32 | f16 | bf16
  deriving DecidableEq, Repr
/-- Floating-point formats (R106); the TY codes 8 to 10 and the SUB format codes 0 to 2 (R173). -/
inductive Fmt | f32 | f16 | bf16
  deriving DecidableEq, Repr
/-- Rounding codes (R137). -/
inductive Rm | rn | rz | rp | rm
  deriving DecidableEq, Repr
/-- Ordering codes (R137). -/
inductive Ord | rlx | acq | rel | ar | seq
  deriving DecidableEq, Repr
/-- Scope codes (R137); `none` is code 0, read as .P. -/
inductive Scope | none | t | g | h | d | p | m | s
  deriving DecidableEq, Repr
/-- SUB of IADD and ISUB (R155). -/
inductive Carry | none | co | ci | cio
  deriving DecidableEq, Repr
/-- SUB of ISET and ISETV (R155). -/
inductive ICmp | eq | ne | lt | le | gt | ge
  deriving DecidableEq, Repr
/-- SUB of FSET and FSETV (R177). -/
inductive FCmp | eq | ne | lt | le | gt | ge | un | num
  deriving DecidableEq, Repr
/-- SUB of FSH (R160). -/
inductive FshDir | right | left
  deriving DecidableEq, Repr
/-- Load sizes (R136). -/
inductive LdSz | s8 | z8 | s16 | z16 | b32 | b64 | b128
  deriving DecidableEq, Repr
/-- Store sizes (R136). -/
inductive StSz | b8 | b16 | b32 | b64 | b128
  deriving DecidableEq, Repr
/-- Address modes (R146). -/
inductive Am | pair | slice | core | dsp
  deriving DecidableEq, Repr
/-- Atomic operations (R198). -/
inductive Aop | add | min | max | and | or | xor | exch | inc | dec
  deriving DecidableEq, Repr
/-- Reduction operations (R189). -/
inductive RedOp | add | min | max | and | or | xor
  deriving DecidableEq, Repr
/-- Votes (R190). -/
inductive VoteOp | any | all | uni | bal | act
  deriving DecidableEq, Repr
/-- Lane moves (R188). -/
inductive ShfOp | idx | up | dn
  deriving DecidableEq, Repr
/-- HCVT2 sub-operations (R184). -/
inductive HcvtOp | pk | upk | x
  deriving DecidableEq, Repr
/-- PREF levels (R192). -/
inductive PrefLv | l1 | l2
  deriving DecidableEq, Repr
/-- CFLUSH operations (R192). -/
inductive CfOp | l1 | cln | inv
  deriving DecidableEq, Repr
/-- HIRE window widths 8, 16, 32, 64 (R241). -/
inductive Win | w8 | w16 | w32 | w64
  deriving DecidableEq, Repr
/-- HIRE combine operations (R241). -/
inductive Comb | none | addS32 | addF32 | min | max | and | or | xor
  deriving DecidableEq, Repr
/-- TRET modes (R241). -/
inductive TretMode | retry | next | to
  deriving DecidableEq, Repr
/-- TINV kinds (R294). -/
inductive TinvKind | all | ctx | range
  deriving DecidableEq, Repr
/-- CINVR operations (R294). -/
inductive CinvOp | cln | inv | disc
  deriving DecidableEq, Repr
/-- Target of BRU: an immediate distance or a register pair (R166). -/
inductive BruTarget | imm (d : BitVec 32) | reg (b : Reg)
  deriving DecidableEq, Repr
/-- A memory offset in its S or W form (R146). -/
inductive Off | short (o : BitVec 8) | long (o : BitVec 32)
  deriving DecidableEq, Repr
/-- Operand formats of the matrix instructions (R217). -/
inductive MxFmt | bq | bx
  deriving DecidableEq, Repr
/-- The matrix descriptor, bits [127:64] (R217). -/
structure MxDesc where
  sb : BitVec 16
  sa : BitVec 16
  fb : MxFmt
  fa : MxFmt
  kbm1 : BitVec 3
  deriving DecidableEq, Repr
/-- Copy formats (R230). -/
inductive CpFmt | raw | bq8 | bq4 | bx16 | bf16 | fp16
  deriving DecidableEq, Repr
/-- The copy descriptor, bits [127:64] (R229). -/
structure CpDesc where
  fmt  : CpFmt
  tl   : BitVec 2
  sc   : Scope
  sstr : BitVec 18
  dstr : BitVec 17
  nrm1 : BitVec 10
  lnm1 : BitVec 10
  deriving DecidableEq, Repr

/-- Register classes of the LA check (R142). -/
inductive RegClass | vec | pred | acc
  deriving DecidableEq, Repr
/-- One register of a thread. -/
structure RegRef where
  cls : RegClass
  n   : Nat
  deriving DecidableEq, Repr
/-- A trap as it is taken: cause, address of the instruction, value and detail (R46, R255, R286). -/
structure Trap where
  cause : BitVec 8
  tpc   : BitVec 64
  val   : BitVec 64
  aux   : BitVec 32
  deriving DecidableEq, Repr
/-- Server classes (R300). -/
inductive SrvClass | ig | mx | cp | mc | fx
  deriving DecidableEq, Repr
/-- One server: class, engine, server id (R300, R314). -/
structure SrvKey where
  cls : SrvClass
  eng : Nat
  id  : Nat
  deriving DecidableEq, Repr
/-- A memory link ML0 to ML95 or a fabric link FX0 to FX15 (R5, R386). -/
structure LinkId where
  fab : Bool
  n   : Nat
  deriving DecidableEq, Repr
/-- A ring of a link (R388). -/
structure RingId where
  link : LinkId
  ring : Nat
  deriving DecidableEq, Repr
/-- A direction of a link, seen from this package (R373). -/
inductive Dir | outbound | inbound
  deriving DecidableEq, Repr
/-- Status of a scrub line (R366). -/
inductive ScrubStatus | clean | corrected | uncorrectable
  deriving DecidableEq, Repr
/-- What killed a gang: the cause code of R368, address consumed, pc and reporting member. -/
structure KillCause where
  code : Nat
  addr : BitVec 64
  pc   : BitVec 64
  hpos : Nat
  deriving DecidableEq, Repr
/-- What a domain request asks of its home slice (R372). -/
inductive DomOp | read | store | atomic (aop : Aop) (ty : Ty) | acas (ty : Ty)
  deriving DecidableEq, Repr
/-- A domain request arriving from a peer package (R315, R372, R390). -/
structure DomainReq where
  tag   : Nat
  link  : Nat
  src   : Nat
  fg    : Nat
  ctx   : Nat
  op    : DomOp
  va    : BitVec 64
  size  : Nat
  data  : Bytes
  data2 : Bytes
  poison : Bool
  clock : List Nat
  deriving DecidableEq, Repr
/-- A subscription request on its way to the publisher's core (R72, R73). -/
structure SubReq where
  th     : Nat
  d      : Reg
  gid    : Nat
  entry  : Nat
  soff   : Nat
  pmem   : Nat
  poff   : Nat
  len    : Nat
  prime  : Bool
  deriving DecidableEq, Repr
/-- An Ethernet frame as the port receives it (R330, R391, R392). -/
structure EthFrame where
  etype : Nat
  vid   : Nat
  pcp   : Nat
  fcsOk : Bool
  bytes : Bytes
  deriving DecidableEq, Repr
/-- A reservation asked of this package as a later hop of another package's route (R316). -/
structure HopReq where
  link : Nat
  sgrp : Nat
  hard : Bool
  q    : Nat
  t    : Nat
  tag  : Nat
  src  : Nat
  fg   : Nat
  via  : Nat
  deriving DecidableEq, Repr
/-- One flit: slot header, command word and its 128 data bytes (R370 to R372). -/
structure Flit where
  hdr  : BitVec 64
  cmd  : BitVec 128
  data : Bytes
  deriving DecidableEq, Repr
/-- One image of the boot bundle, with its measurement register, MR1 to MR5 by the numbers 0 to 4, and its signature (R403). -/
structure BootImage where
  bytes : Bytes
  mr    : Fin 5
  sig   : Bytes
  deriving DecidableEq, Repr
/-- The boot bundle of the boot flash (R403). -/
structure Bundle where
  rootKey : Bytes
  cert    : Bytes
  images  : List BootImage
  deriving DecidableEq, Repr

/-- Every row of spec/opcode_table.json: first the encoded instructions in S, W and X forms, then the events of the
other agents of the package (spec/95_what_each_step_holds.md). -/
inductive Instr where
  | iaddS (h : Head) (ty : Ty) (sat : Bool) (sub : Carry) (d : Reg) (a : Reg) (b : Reg) (c : Reg)
  | iaddW (h : Head) (ty : Ty) (sat : Bool) (sub : Carry) (d : Reg) (a : Reg) (imm : BitVec 32) (c : Reg)
  | isubS (h : Head) (ty : Ty) (sat : Bool) (sub : Carry) (d : Reg) (a : Reg) (b : Reg) (c : Reg)
  | isubW (h : Head) (ty : Ty) (sat : Bool) (sub : Carry) (d : Reg) (a : Reg) (imm : BitVec 32) (c : Reg)
  | imulS (h : Head) (ty : Ty) (sat : Bool) (d : Reg) (a : Reg) (b : Reg)
  | imulW (h : Head) (ty : Ty) (sat : Bool) (d : Reg) (a : Reg) (imm : BitVec 32)
  | imulhS (h : Head) (ty : Ty) (d : Reg) (a : Reg) (b : Reg)
  | imulhW (h : Head) (ty : Ty) (d : Reg) (a : Reg) (imm : BitVec 32)
  | imad (h : Head) (ty : Ty) (sat : Bool) (d : Reg) (a : Reg) (b : Reg) (c : Reg)
  | imadw (h : Head) (ty : Ty) (sat : Bool) (d : Reg) (a : Reg) (b : Reg) (c : Reg)
  | idivS (h : Head) (ty : Ty) (d : Reg) (a : Reg) (b : Reg)
  | idivW (h : Head) (ty : Ty) (d : Reg) (a : Reg) (imm : BitVec 32)
  | iremS (h : Head) (ty : Ty) (d : Reg) (a : Reg) (b : Reg)
  | iremW (h : Head) (ty : Ty) (d : Reg) (a : Reg) (imm : BitVec 32)
  | iminS (h : Head) (ty : Ty) (d : Reg) (a : Reg) (b : Reg)
  | iminW (h : Head) (ty : Ty) (d : Reg) (a : Reg) (imm : BitVec 32)
  | imaxS (h : Head) (ty : Ty) (d : Reg) (a : Reg) (b : Reg)
  | imaxW (h : Head) (ty : Ty) (d : Reg) (a : Reg) (imm : BitVec 32)
  | iabs (h : Head) (ty : Ty) (sat : Bool) (d : Reg) (a : Reg)
  | ineg (h : Head) (ty : Ty) (sat : Bool) (d : Reg) (a : Reg)
  | isad (h : Head) (ty : Ty) (sat : Bool) (d : Reg) (a : Reg) (b : Reg) (c : Reg)
  | iadd64S (h : Head) (ty : Ty) (sat : Bool) (d : Reg) (a : Reg) (b : Reg)
  | iadd64W (h : Head) (ty : Ty) (sat : Bool) (d : Reg) (a : Reg) (imm : BitVec 32)
  | isub64S (h : Head) (ty : Ty) (sat : Bool) (d : Reg) (a : Reg) (b : Reg)
  | isub64W (h : Head) (ty : Ty) (sat : Bool) (d : Reg) (a : Reg) (imm : BitVec 32)
  | imul64 (h : Head) (ty : Ty) (sat : Bool) (d : Reg) (a : Reg) (b : Reg)
  | andS (h : Head) (d : Reg) (a : Reg) (b : Reg)
  | andW (h : Head) (d : Reg) (a : Reg) (imm : BitVec 32)
  | orS (h : Head) (d : Reg) (a : Reg) (b : Reg)
  | orW (h : Head) (d : Reg) (a : Reg) (imm : BitVec 32)
  | xorS (h : Head) (d : Reg) (a : Reg) (b : Reg)
  | xorW (h : Head) (d : Reg) (a : Reg) (imm : BitVec 32)
  | andnS (h : Head) (d : Reg) (a : Reg) (b : Reg)
  | andnW (h : Head) (d : Reg) (a : Reg) (imm : BitVec 32)
  | ornS (h : Head) (d : Reg) (a : Reg) (b : Reg)
  | ornW (h : Head) (d : Reg) (a : Reg) (imm : BitVec 32)
  | not (h : Head) (d : Reg) (a : Reg)
  | shlS (h : Head) (d : Reg) (a : Reg) (b : Reg)
  | shlW (h : Head) (d : Reg) (a : Reg) (imm : BitVec 32)
  | shrS (h : Head) (d : Reg) (a : Reg) (b : Reg)
  | shrW (h : Head) (d : Reg) (a : Reg) (imm : BitVec 32)
  | sarS (h : Head) (d : Reg) (a : Reg) (b : Reg)
  | sarW (h : Head) (d : Reg) (a : Reg) (imm : BitVec 32)
  | rotS (h : Head) (d : Reg) (a : Reg) (b : Reg)
  | rotW (h : Head) (d : Reg) (a : Reg) (imm : BitVec 32)
  | fsh (h : Head) (dir : FshDir) (d : Reg) (a : Reg) (b : Reg) (c : Reg)
  | bfx (h : Head) (ty : Ty) (d : Reg) (a : Reg) (b : Reg) (c : Reg)
  | bfi (h : Head) (d : Reg) (a : Reg) (b : Reg) (c : Reg)
  | popc (h : Head) (wide : Bool) (d : Reg) (a : Reg)
  | clz (h : Head) (wide : Bool) (d : Reg) (a : Reg)
  | ctz (h : Head) (wide : Bool) (d : Reg) (a : Reg)
  | brev (h : Head) (wide : Bool) (d : Reg) (a : Reg)
  | permS (h : Head) (d : Reg) (a : Reg) (b : Reg)
  | permW (h : Head) (d : Reg) (a : Reg) (imm : BitVec 32)
  | isetS (h : Head) (ty : Ty) (cmp : ICmp) (d : Reg) (a : Reg) (b : Reg)
  | isetW (h : Head) (ty : Ty) (cmp : ICmp) (d : Reg) (a : Reg) (imm : BitVec 32)
  | isetvS (h : Head) (ty : Ty) (cmp : ICmp) (d : Reg) (a : Reg) (b : Reg)
  | isetvW (h : Head) (ty : Ty) (cmp : ICmp) (d : Reg) (a : Reg) (imm : BitVec 32)
  | sel (h : Head) (d : Reg) (a : Reg) (b : Reg) (c : Reg)
  | mov (h : Head) (wide : Bool) (d : Reg) (a : Reg)
  | movi (h : Head) (d : Reg) (imm : BitVec 32)
  | movw (h : Head) (d : Reg) (imm : BitVec 64)
  | plop (h : Head) (tt : BitVec 8) (d : Reg) (a : Reg) (b : Reg) (c : Reg)
  | p2v (h : Head) (bit : Bool) (d : Reg) (a : Reg)
  | v2p (h : Head) (bit : Bool) (d : Reg) (a : Reg)
  | getid (h : Head) (d : Reg) (code : BitVec 8)
  | br (h : Head) (cn : Bool) (a : Reg) (imm : BitVec 32)
  | bru (h : Head) (cn : Bool) (a : Reg) (tgt : BruTarget)
  | jmp (h : Head) (imm : BitVec 32)
  | call (h : Head) (d : Reg) (imm : BitVec 32)
  | callr (h : Head) (d : Reg) (a : Reg)
  | ret (h : Head) (a : Reg)
  | reform (h : Head) (a : Reg) (imm : BitVec 32)
  | exit (h : Head)
  | nopS (h : Head)
  | nopW (h : Head)
  | nopX (h : Head)
  | yield (h : Head)
  | nap (h : Head) (a : Reg)
  | faddS (h : Head) (fmt : Fmt) (rnd : Rm) (d : Reg) (a : Reg) (b : Reg)
  | faddW (h : Head) (fmt : Fmt) (rnd : Rm) (d : Reg) (a : Reg) (imm : BitVec 32)
  | fsubS (h : Head) (fmt : Fmt) (rnd : Rm) (d : Reg) (a : Reg) (b : Reg)
  | fsubW (h : Head) (fmt : Fmt) (rnd : Rm) (d : Reg) (a : Reg) (imm : BitVec 32)
  | fmulS (h : Head) (fmt : Fmt) (rnd : Rm) (d : Reg) (a : Reg) (b : Reg)
  | fmulW (h : Head) (fmt : Fmt) (rnd : Rm) (d : Reg) (a : Reg) (imm : BitVec 32)
  | ffma (h : Head) (fmt : Fmt) (rnd : Rm) (d : Reg) (a : Reg) (b : Reg) (c : Reg)
  | fdiv (h : Head) (fmt : Fmt) (rnd : Rm) (d : Reg) (a : Reg) (b : Reg)
  | fminS (h : Head) (fmt : Fmt) (d : Reg) (a : Reg) (b : Reg)
  | fminW (h : Head) (fmt : Fmt) (d : Reg) (a : Reg) (imm : BitVec 32)
  | fmaxS (h : Head) (fmt : Fmt) (d : Reg) (a : Reg) (b : Reg)
  | fmaxW (h : Head) (fmt : Fmt) (d : Reg) (a : Reg) (imm : BitVec 32)
  | fsetS (h : Head) (fmt : Fmt) (cmp : FCmp) (d : Reg) (a : Reg) (b : Reg)
  | fsetW (h : Head) (fmt : Fmt) (cmp : FCmp) (d : Reg) (a : Reg) (imm : BitVec 32)
  | fsetvS (h : Head) (fmt : Fmt) (cmp : FCmp) (d : Reg) (a : Reg) (b : Reg)
  | fsetvW (h : Head) (fmt : Fmt) (cmp : FCmp) (d : Reg) (a : Reg) (imm : BitVec 32)
  | fcls (h : Head) (fmt : Fmt) (d : Reg) (a : Reg)
  | frnd (h : Head) (fmt : Fmt) (rnd : Rm) (d : Reg) (a : Reg)
  | f2i (h : Head) (ty : Ty) (fmt : Fmt) (rnd : Rm) (d : Reg) (a : Reg)
  | i2f (h : Head) (ty : Ty) (fmt : Fmt) (rnd : Rm) (d : Reg) (a : Reg)
  | fcvt (h : Head) (dst : Fmt) (src : Fmt) (rnd : Rm) (d : Reg) (a : Reg)
  | rcp (h : Head) (fmt : Fmt) (rnd : Rm) (d : Reg) (a : Reg)
  | rsq (h : Head) (fmt : Fmt) (rnd : Rm) (d : Reg) (a : Reg)
  | sqrt (h : Head) (fmt : Fmt) (rnd : Rm) (d : Reg) (a : Reg)
  | exp2 (h : Head) (fmt : Fmt) (rnd : Rm) (d : Reg) (a : Reg)
  | log2 (h : Head) (fmt : Fmt) (rnd : Rm) (d : Reg) (a : Reg)
  | fstat (h : Head) (d : Reg)
  | hadd2 (h : Head) (fmt : Fmt) (rnd : Rm) (d : Reg) (a : Reg) (b : Reg)
  | hsub2 (h : Head) (fmt : Fmt) (rnd : Rm) (d : Reg) (a : Reg) (b : Reg)
  | hmul2 (h : Head) (fmt : Fmt) (rnd : Rm) (d : Reg) (a : Reg) (b : Reg)
  | hfma2 (h : Head) (fmt : Fmt) (rnd : Rm) (d : Reg) (a : Reg) (b : Reg) (c : Reg)
  | hmin2 (h : Head) (fmt : Fmt) (d : Reg) (a : Reg) (b : Reg)
  | hmax2 (h : Head) (fmt : Fmt) (d : Reg) (a : Reg) (b : Reg)
  | hcvt2 (h : Head) (op : HcvtOp) (fmt : Fmt) (rnd : Rm) (d : Reg) (a : Reg) (b : Reg)
  | vadd2 (h : Head) (ty : Ty) (sat : Bool) (d : Reg) (a : Reg) (b : Reg)
  | vsub2 (h : Head) (ty : Ty) (sat : Bool) (d : Reg) (a : Reg) (b : Reg)
  | vmin2 (h : Head) (ty : Ty) (d : Reg) (a : Reg) (b : Reg)
  | vmax2 (h : Head) (ty : Ty) (d : Reg) (a : Reg) (b : Reg)
  | vacsel (h : Head) (sat : Bool) (d : Reg) (a : Reg) (b : Reg) (c : Reg) (sv : Reg)
  | vshf (h : Head) (op : ShfOp) (d : Reg) (c : Reg) (a : Reg) (b : Reg)
  | vbfly (h : Head) (d : Reg) (c : Reg) (a : Reg) (mask : BitVec 5)
  | vred (h : Head) (op : RedOp) (ty : Ty) (sat : Bool) (rnd : Rm) (d : Reg) (a : Reg)
  | vscan (h : Head) (op : RedOp) (ty : Ty) (sat : Bool) (rnd : Rm) (d : Reg) (a : Reg)
  | vote (h : Head) (op : VoteOp) (d : Reg) (a : Reg)
  | ldS (h : Head) (ord : Ord) (sc : Scope) (sz : LdSz) (d : Reg) (a : Reg) (am : Am) (off : BitVec 8)
  | ldW (h : Head) (ord : Ord) (sc : Scope) (sz : LdSz) (d : Reg) (a : Reg) (am : Am) (off : BitVec 32)
  | stS (h : Head) (ord : Ord) (sc : Scope) (sz : StSz) (d : Reg) (a : Reg) (am : Am) (off : BitVec 8)
  | stW (h : Head) (ord : Ord) (sc : Scope) (sz : StSz) (d : Reg) (a : Reg) (am : Am) (off : BitVec 32)
  | atom (h : Head) (ord : Ord) (sc : Scope) (aop : Aop) (ty : Ty) (d : Reg) (a : Reg) (am : Am) (c : Reg) (off : BitVec 32)
  | acas (h : Head) (ord : Ord) (sc : Scope) (ty : Ty) (d : Reg) (ps : BitVec 7) (a : Reg) (am : Am) (c : Reg) (n : Reg) (off : BitVec 32)
  | red (h : Head) (ord : Ord) (sc : Scope) (aop : Aop) (ty : Ty) (a : Reg) (am : Am) (c : Reg) (off : BitVec 32)
  | prefS (h : Head) (lv : PrefLv) (a : Reg) (am : Am) (off : BitVec 8)
  | prefW (h : Head) (lv : PrefLv) (a : Reg) (am : Am) (off : BitVec 32)
  | cflushS (h : Head) (op : CfOp) (a : Reg) (am : Am) (off : BitVec 8)
  | cflushW (h : Head) (op : CfOp) (a : Reg) (am : Am) (off : BitVec 32)
  | fence (h : Head) (ord : Ord) (sc : Scope)
  | bar (h : Head) (hood : Bool) (k : BitVec 2)
  | bara (h : Head) (d : Reg) (k : BitVec 2)
  | barw (h : Head) (a : Reg) (k : BitVec 2)
  | subon (h : Head) (prime : Bool) (d : Reg) (a : Reg) (b : Reg) (c : Reg) (l : Reg)
  | suboff (h : Head) (d : Reg) (a : Reg)
  | subq (h : Head) (d : Reg) (a : Reg)
  | subfl (h : Head)
  | rmac (h : Head) (z : Bool) (d : Reg) (a : Reg) (b : Reg) (desc : MxDesc)
  | rmag (h : Head) (z : Bool) (d : Reg) (a : Reg) (b : Reg) (c : Reg) (desc : MxDesc)
  | acz (h : Head) (d : Reg)
  | acldS (h : Head) (d : Reg) (a : Reg) (am : Am) (off : BitVec 8)
  | acldW (h : Head) (d : Reg) (a : Reg) (am : Am) (off : BitVec 32)
  | acstS (h : Head) (z : Bool) (d : Reg) (a : Reg) (am : Am) (off : BitVec 8)
  | acstW (h : Head) (z : Bool) (d : Reg) (a : Reg) (am : Am) (off : BitVec 32)
  | acrd (h : Head) (d : Reg) (a : Reg) (e : BitVec 4)
  | acwr (h : Head) (d : Reg) (a : Reg) (e : BitVec 4)
  | acmul (h : Head) (rnd : Rm) (d : Reg) (a : Reg) (b : Reg)
  | cpi (h : Head) (d : Reg) (a : Reg) (b : Reg) (c : Reg) (desc : CpDesc)
  | cpo (h : Head) (d : Reg) (a : Reg) (b : Reg) (c : Reg) (desc : CpDesc)
  | cpl (h : Head) (d : Reg) (a : Reg) (b : Reg) (c : Reg) (desc : CpDesc)
  | cpr (h : Head) (d : Reg) (a : Reg) (b : Reg) (c : Reg) (desc : CpDesc)
  | cpf (h : Head) (d : Reg) (b : Reg) (c : Reg) (desc : CpDesc)
  | cpq (h : Head) (d : Reg) (a : Reg) (k : BitVec 2)
  | cpk (h : Head) (d : Reg) (a : Reg) (k : BitVec 2)
  | tlwS (h : Head) (a : Reg) (k : BitVec 2)
  | tlwW (h : Head) (imm : BitVec 32) (k : BitVec 2)
  | tlwCtr (h : Head) (sc : Scope) (d : Reg) (a : Reg) (am : Am) (off : Off)
  | tlr (h : Head) (iss : Bool) (d : Reg) (k : BitVec 2)
  | tladv (h : Head) (d : Reg) (k : BitVec 2)
  | hire (h : Head) (win : Win) (comb : Comb) (d : Reg) (a : Reg) (c : Reg) (imm : BitVec 32)
  | hjoin (h : Head) (d : Reg) (a : Reg) (b : Reg)
  | hsync (h : Head)
  | hrd (h : Head) (d : Reg) (k : BitVec 8)
  | hret (h : Head) (a : Reg)
  | hrel (h : Head)
  | lnch (h : Head) (d : Reg) (a : Reg) (q : BitVec 3)
  | trap (h : Head) (n : BitVec 8)
  | bkpt (h : Head)
  | tret (h : Head) (mode : TretMode) (a : Reg)
  | tmfr (h : Head) (d : Reg) (code : BitVec 8)
  | sysr (h : Head) (d : Reg) (a : Reg) (idx : BitVec 16)
  | sysw (h : Head) (d : Reg) (a : Reg) (idx : BitVec 16)
  | sysx (h : Head) (d : Reg) (a : Reg) (idx : BitVec 16)
  | eret (h : Head)
  | tinv (h : Head) (kind : TinvKind) (a : Reg) (b : Reg) (c : Reg)
  | cinvr (h : Head) (op : CinvOp) (a : Reg) (b : Reg) (c : Reg)
  | waiti (h : Head) (d : Reg) (a : Reg)
  | hamperAged (core : Nat) (entry : Nat)
  | hamperDraw (core : Nat)
  | waveExchange (core : Nat) (ig : Nat)
  | napExpire (core : Nat) (slot : Nat) (tag : Nat)
  | userTrapEntry (th : Nat) (trap : Trap)
  | supervisorTrapEntry (th : Nat) (trap : Trap)
  | helperIssueLimit (th : Nat)
  | homeSliceRequest (tag : Nat)
  | memoryResponse (tag : Nat) (data : Bytes) (poison : Bool)
  | domainRequest (req : DomainReq)
  | domainRefused (tag : Nat)
  | subonRequest (req : SubReq)
  | subonReply (req : SubReq) (status : Nat)
  | primingRead (core : Nat) (entry : Nat)
  | basketFlushTimer (pub : Nat) (sub : Nat)
  | basketApply (pub : Nat) (sub : Nat)
  | matrixPassComplete (pass : Nat)
  | copyUnit (copy : Nat)
  | copyComplete (copy : Nat)
  | serverReplenish (srv : SrvKey)
  | packetTake (hq : Nat)
  | hoodPlace (part : Nat)
  | placementReserve (launch : Nat)
  | groupLeave (gid : Nat)
  | gangKill (hood : Nat) (cause : KillCause)
  | watchdogExpire (ctx : Nat)
  | drainComplete (ctx : Nat)
  | drainLimitExpire (ctx : Nat)
  | saveComplete (ctx : Nat)
  | saveIncomplete (ctx : Nat)
  | sliceExpire (part : Nat)
  | remoteLaunchRequest (port : Nat) (payload : Bytes)
  | ethRxFrame (port : Nat) (frame : EthFrame)
  | ethTxFrame (ring : Nat)
  | enable (ctx : Nat)
  | teardown (ctx : Nat)
  | signal (ctx : Nat)
  | start (ctx : Nat)
  | drain (ctx : Nat)
  | save (ctx : Nat)
  | restore (ctx : Nat)
  | exportImage (ctx : Nat)
  | importImage (ctx : Nat)
  | sgig (sg : Nat) (op : BitVec 64)
  | sgmx (sg : Nat) (op : BitVec 64)
  | sgcp (sg : Nat) (op : BitVec 64)
  | lsrv (inst : Nat) (op : BitVec 64)
  | rbind (sg : Nat) (record : Bytes)
  | rbindHopRequest (req : HopReq)
  | rbindHopTimeout (sg : Nat)
  | runbind (sg : Nat) (pkg : Nat)
  | rmsync (ctx : Nat)
  | trreplay (fq : Nat) (op : BitVec 64)
  | frzero (op : BitVec 64)
  | retire (op : BitVec 64)
  | errinj (op : BitVec 64)
  | ttcommit (link : LinkId)
  | ttcommitShadowRequest (link : LinkId) (far : List (BitVec 64))
  | ttcommitTimeout (link : LinkId)
  | timetableTakeEffect (link : LinkId)
  | ringstep (ring : RingId) (op : BitVec 64)
  | rotate (link : LinkId) (op : BitVec 64)
  | lcadv (op : BitVec 64)
  | rbadv (op : BitVec 64)
  | mrext (mr : Nat) (digest : Bytes)
  | tbset (op : BitVec 64)
  | fqcfgWrite (fq : Nat) (v : BitVec 64)
  | fqheadWrite (fq : Nat) (v : BitVec 64)
  | lqcfgWrite (lq : Nat) (v : BitVec 64)
  | queueTailWrite (lq : Nat) (v : BitVec 64) (win : Bool)
  | erptrTailWrite (ring : Nat) (v : BitVec 64)
  | heatWrite (ring : RingId) (v : BitVec 64)
  | registerWrite (idx : Nat) (inst : Nat) (v : BitVec 64)
  | hostSelWrite (fn : Nat) (v : BitVec 64)
  | hostDataRead (fn : Nat)
  | hostDataWrite (fn : Nat) (v : BitVec 64)
  | hostExecWrite (fn : Nat) (v : BitVec 64)
  | refreshFrame (link : Nat)
  | scrubReturn (link : Nat) (line : Nat) (status : ScrubStatus)
  | scrubRepair (link : Nat)
  | linkSlot (link : LinkId) (pos : Nat)
  | drawerCommandExecute (link : Nat) (flit : Flit)
  | flitReceive (link : LinkId) (flit : Flit)
  | handBack (link : LinkId) (dir : Dir) (wl : Nat) (slot : Nat)
  | wavelengthTrained (link : LinkId) (dir : Dir) (wl : Nat)
  | wavelengthRejoin (link : LinkId) (dir : Dir) (wl : Nat)
  | wlthrWindowEnd (link : LinkId) (wl : Nat)
  | linkDown (link : LinkId)
  | linkDownTimeout (link : LinkId)
  | linkTrainDone (link : LinkId) (fout : Nat) (fin : Nat) (eoff : Nat) (peer : Nat)
  | heatTakeEffect (ring : RingId)
  | rotateTakeEffect (link : LinkId) (dir : Dir)
  | settleEnd (ring : RingId)
  | monUpdate (ring : RingId) (reading : Nat)
  | powerOn (bundle : Bundle)
  | wipeDone
  | pcieEnumeration
  | resetRequest
  | thermalTrip (die : Nat)
  | temperatureSample (die : Nat) (tj : BitVec 12)
  | functionLevelReset (vf : Nat)
  | getVersion (fn : Nat) (msg : Bytes)
  | getCapabilities (fn : Nat) (msg : Bytes)
  | negotiateAlgorithms (fn : Nat) (msg : Bytes)
  | getDigests (fn : Nat) (msg : Bytes)
  | getCertificate (fn : Nat) (msg : Bytes)
  | challenge (fn : Nat) (msg : Bytes)
  | getMeasurements (fn : Nat) (msg : Bytes)
  | spdmUnsupportedRequest (fn : Nat) (msg : Bytes)
  | ctxevtTime (ctx : Nat)
  | powerLoss
  deriving DecidableEq, Repr

end Sys2Proof
end

