-- ==== Sys2Proof/Machine/Fields.lean ====
section
/-!
DEFINITION. What an encoding says about its operands: the registers each instruction reads, writes and names
(R37, R40, R41, R134), the codes its FN accepts (R155, R173, R192, R217, R229, R230) and the opcode groups of R139,
R141 and R143.
-/
namespace Sys2Proof

/-- Instructions with memory-ordering codes a load accepts (R192). -/
def Ord.onLoad : Ord → Bool
  | .rlx | .acq | .seq => true
  | .rel | .ar => false
/-- Ordering codes a store or RED accepts (R192). -/
def Ord.onStore : Ord → Bool
  | .rlx | .rel | .seq => true
  | .acq | .ar => false
/-- A relaxed access carries no scope (R194). -/
def Ord.scopeOk (o : Ord) (s : Scope) : Bool := o != .rlx || s == .none
/-- The orderings of R85 with an acquire part. -/
def Ord.acquires : Ord → Bool
  | .acq | .ar | .seq => true
  | .rlx | .rel => false
/-- The orderings of R85 with a release part. -/
def Ord.releases : Ord → Bool
  | .rel | .ar | .seq => true
  | .rlx | .acq => false

/-- Types of at most 32 bits: TY 0 to 5 (R136). -/
def Ty.narrow : Ty → Bool
  | .s8 | .z8 | .s16 | .z16 | .s32 | .z32 => true
  | _ => false
/-- TY 6 and 7, which select pairs (R155). -/
def Ty.wide : Ty → Bool
  | .s64 | .z64 => true
  | _ => false
/-- TY 4 and 5. -/
def Ty.is32 : Ty → Bool
  | .s32 | .z32 => true
  | _ => false
/-- TY 2 and 3. -/
def Ty.is16 : Ty → Bool
  | .s16 | .z16 => true
  | _ => false
/-- TY 0 to 7. -/
def Ty.integral (t : Ty) : Bool := t.narrow || t.wide
/-- TY 4 to 7. -/
def Ty.is32or64 (t : Ty) : Bool := t.is32 || t.wide
/-- The S types read as signed (R156). -/
def Ty.signed : Ty → Bool
  | .s8 | .s16 | .s32 | .s64 => true
  | _ => false
/-- TY 9 and 10. -/
def Fmt.is16 : Fmt → Bool
  | .f16 | .bf16 => true
  | .f32 => false
/-- Types a reduction accepts (R189). -/
def RedOp.accepts (op : RedOp) (ty : Ty) : Bool :=
  match op with
  | .add | .min | .max => ty.is32 || ty == .f32
  | .and | .or | .xor => ty == .z32
/-- Types an atomic accepts (R198). -/
def Aop.accepts (op : Aop) (ty : Ty) : Bool :=
  match op with
  | .add | .min | .max => ty.is32or64 || ty == .f32
  | .and | .or | .xor => ty == .z32 || ty == .z64
  | .exch => ty == .z32 || ty == .z64 || ty == .f32
  | .inc | .dec => ty == .z32
/-- Registers of a load's destination (R136). -/
def LdSz.regs : LdSz → Nat
  | .b64 => 2
  | .b128 => 4
  | _ => 1
/-- Registers of a store's data (R136). -/
def StSz.regs : StSz → Nat
  | .b64 => 2
  | .b128 => 4
  | _ => 1
/-- Bytes of a load (R136). -/
def LdSz.bytes : LdSz → Nat
  | .s8 | .z8 => 1
  | .s16 | .z16 => 2
  | .b32 => 4
  | .b64 => 8
  | .b128 => 16
/-- Bytes of a store (R136). -/
def StSz.bytes : StSz → Nat
  | .b8 => 1
  | .b16 => 2
  | .b32 => 4
  | .b64 => 8
  | .b128 => 16
/-- Carry forms that read pC (R157). -/
def Carry.hasIn : Carry → Bool
  | .ci | .cio => true
  | _ => false
/-- Carry forms that write pC (R157). -/
def Carry.hasOut : Carry → Bool
  | .co | .cio => true
  | _ => false
/-- Copy formats with a scale array (R228, R230). -/
def CpFmt.scaled : CpFmt → Bool
  | .bq8 | .bq4 => true
  | _ => false

/-- The five copies (R228). -/
inductive CpKind | cpi | cpo | cpl | cpr | cpf
  deriving DecidableEq, Repr

/-- Natural row stride of a matrix operand with kb blocks (R118, R119, R217). -/
def MxFmt.natural (f : MxFmt) (kb : Nat) : Nat :=
  match f with
  | .bq => 128 * kb + 16
  | .bx => 256 * kb + 16
/-- kb of a matrix descriptor (R217). -/
def MxDesc.kb (m : MxDesc) : Nat := m.kbm1.toNat + 1
/-- A stride field is 0 or no smaller than the natural stride (R217). -/
def MxDesc.ok (m : MxDesc) : Bool :=
  (m.sa == 0 || decide (m.fa.natural m.kb ≤ 16 * m.sa.toNat)) &&
  (m.sb == 0 || decide (m.fb.natural m.kb ≤ 16 * m.sb.toNat))
/-- Combinations of format, instruction, length, scope and stride the tables of R229 and R230 list. -/
def CpDesc.ok (m : CpDesc) (k : CpKind) : Bool :=
  match k with
  | .cpi => m.fmt == .raw || ((m.fmt == .bq8 || m.fmt == .bq4 || m.fmt == .bx16) && decide (m.lnm1.toNat < 8))
  | .cpo => m.fmt == .raw || m.fmt == .bq8 || m.fmt == .bq4 || m.fmt == .bf16 || m.fmt == .fp16
  | .cpl => m.fmt == .raw
  | .cpr => m.fmt == .raw && (m.sc == .m || m.sc == .s)
  | .cpf => m.fmt == .raw && m.sstr == 0

/-- One register operand of an encoding: a vector register, pair or quad, a predicate, a group of 32 predicates
(R164), an accumulator, or no operand. -/
inductive Operand where
  | none
  | v (r : Reg)
  | w (r : Reg)
  | x (r : Reg)
  | p (r : Reg)
  | pg (r : Reg)
  | a (r : Reg)
  deriving DecidableEq, Repr

def Operand.vIf (c : Bool) (r : Reg) : Operand := if c then .v r else .none
def Operand.wIf (c : Bool) (r : Reg) : Operand := if c then .w r else .none
def Operand.pIf (c : Bool) (r : Reg) : Operand := if c then .p r else .none
def Operand.aIf (c : Bool) (r : Reg) : Operand := if c then .a r else .none
def Operand.vOrW (c : Bool) (r : Reg) : Operand := if c then .w r else .v r
/-- P2V and V2P name one predicate or a group of 32 (R164). -/
def Operand.pSel (c : Bool) (r : Reg) : Operand := if c then .p r else .pg r
/-- A register, pair or quad by count (R136). -/
def Operand.vsz (n : Nat) (r : Reg) : Operand := if n = 4 then .x r else if n = 2 then .w r else .v r
/-- The base register of an address mode (R146). -/
def Am.base (m : Am) (r : Reg) : Operand :=
  match m with
  | .pair => .w r
  | .slice | .core | .dsp => .v r
/-- The register target of BRU (R166). -/
def BruTarget.operand : BruTarget → Operand
  | .imm _ => .none
  | .reg b => .w b
/-- VOTE writes a predicate or a vector register (R190). -/
def VoteOp.operand (o : VoteOp) (d : Reg) : Operand :=
  match o with
  | .any | .all | .uni => .p d
  | .bal | .act => .v d

/-- Pairs are even, quads multiples of 4 (R37); predicates 0 to 95 or 127 (R40); groups 0, 32 or 64 (R164);
accumulators 0 to 7 (R134). -/
def Operand.static : Operand → Bool
  | .none => true
  | .v _ => true
  | .w r => r.toNat % 2 == 0
  | .x r => r.toNat % 4 == 0
  | .p r => decide (r.toNat < 96) || r == 127
  | .pg r => r == 0 || r == 32 || r == 64
  | .a r => decide (r.toNat < 8)
/-- Below the counts N of vector registers and A of accumulators (R37, R41, R43). -/
def Operand.inRange (n acc : Nat) : Operand → Bool
  | .v r => decide (r.toNat < n)
  | .w r => decide (r.toNat + 1 < n)
  | .x r => decide (r.toNat + 3 < n)
  | .a r => decide (r.toNat < acc)
  | .none | .p _ | .pg _ => true
/-- The single registers an operand covers; pT is none (R40). -/
def Operand.refs : Operand → List RegRef
  | .none => []
  | .v r => [⟨.vec, r.toNat⟩]
  | .w r => [⟨.vec, r.toNat⟩, ⟨.vec, r.toNat + 1⟩]
  | .x r => [⟨.vec, r.toNat⟩, ⟨.vec, r.toNat + 1⟩, ⟨.vec, r.toNat + 2⟩, ⟨.vec, r.toNat + 3⟩]
  | .p r => if r == 127 then [] else [⟨.pred, r.toNat⟩]
  | .pg r => (List.range 32).map fun i => ⟨.pred, r.toNat + i⟩
  | .a r => [⟨.acc, r.toNat⟩]

namespace Instr

/-- Guard and lookahead of an encoded instruction. -/
def head : Instr → Head
  | .iaddS h _ _ _ _ _ _ _ => h
  | .iaddW h _ _ _ _ _ _ _ => h
  | .isubS h _ _ _ _ _ _ _ => h
  | .isubW h _ _ _ _ _ _ _ => h
  | .imulS h _ _ _ _ _ => h
  | .imulW h _ _ _ _ _ => h
  | .imulhS h _ _ _ _ => h
  | .imulhW h _ _ _ _ => h
  | .imad h _ _ _ _ _ _ => h
  | .imadw h _ _ _ _ _ _ => h
  | .idivS h _ _ _ _ => h
  | .idivW h _ _ _ _ => h
  | .iremS h _ _ _ _ => h
  | .iremW h _ _ _ _ => h
  | .iminS h _ _ _ _ => h
  | .iminW h _ _ _ _ => h
  | .imaxS h _ _ _ _ => h
  | .imaxW h _ _ _ _ => h
  | .iabs h _ _ _ _ => h
  | .ineg h _ _ _ _ => h
  | .isad h _ _ _ _ _ _ => h
  | .iadd64S h _ _ _ _ _ => h
  | .iadd64W h _ _ _ _ _ => h
  | .isub64S h _ _ _ _ _ => h
  | .isub64W h _ _ _ _ _ => h
  | .imul64 h _ _ _ _ _ => h
  | .andS h _ _ _ => h
  | .andW h _ _ _ => h
  | .orS h _ _ _ => h
  | .orW h _ _ _ => h
  | .xorS h _ _ _ => h
  | .xorW h _ _ _ => h
  | .andnS h _ _ _ => h
  | .andnW h _ _ _ => h
  | .ornS h _ _ _ => h
  | .ornW h _ _ _ => h
  | .not h _ _ => h
  | .shlS h _ _ _ => h
  | .shlW h _ _ _ => h
  | .shrS h _ _ _ => h
  | .shrW h _ _ _ => h
  | .sarS h _ _ _ => h
  | .sarW h _ _ _ => h
  | .rotS h _ _ _ => h
  | .rotW h _ _ _ => h
  | .fsh h _ _ _ _ _ => h
  | .bfx h _ _ _ _ _ => h
  | .bfi h _ _ _ _ => h
  | .popc h _ _ _ => h
  | .clz h _ _ _ => h
  | .ctz h _ _ _ => h
  | .brev h _ _ _ => h
  | .permS h _ _ _ => h
  | .permW h _ _ _ => h
  | .isetS h _ _ _ _ _ => h
  | .isetW h _ _ _ _ _ => h
  | .isetvS h _ _ _ _ _ => h
  | .isetvW h _ _ _ _ _ => h
  | .sel h _ _ _ _ => h
  | .mov h _ _ _ => h
  | .movi h _ _ => h
  | .movw h _ _ => h
  | .plop h _ _ _ _ _ => h
  | .p2v h _ _ _ => h
  | .v2p h _ _ _ => h
  | .getid h _ _ => h
  | .br h _ _ _ => h
  | .bru h _ _ _ => h
  | .jmp h _ => h
  | .call h _ _ => h
  | .callr h _ _ => h
  | .ret h _ => h
  | .reform h _ _ => h
  | .exit h => h
  | .nopS h => h
  | .nopW h => h
  | .nopX h => h
  | .yield h => h
  | .nap h _ => h
  | .faddS h _ _ _ _ _ => h
  | .faddW h _ _ _ _ _ => h
  | .fsubS h _ _ _ _ _ => h
  | .fsubW h _ _ _ _ _ => h
  | .fmulS h _ _ _ _ _ => h
  | .fmulW h _ _ _ _ _ => h
  | .ffma h _ _ _ _ _ _ => h
  | .fdiv h _ _ _ _ _ => h
  | .fminS h _ _ _ _ => h
  | .fminW h _ _ _ _ => h
  | .fmaxS h _ _ _ _ => h
  | .fmaxW h _ _ _ _ => h
  | .fsetS h _ _ _ _ _ => h
  | .fsetW h _ _ _ _ _ => h
  | .fsetvS h _ _ _ _ _ => h
  | .fsetvW h _ _ _ _ _ => h
  | .fcls h _ _ _ => h
  | .frnd h _ _ _ _ => h
  | .f2i h _ _ _ _ _ => h
  | .i2f h _ _ _ _ _ => h
  | .fcvt h _ _ _ _ _ => h
  | .rcp h _ _ _ _ => h
  | .rsq h _ _ _ _ => h
  | .sqrt h _ _ _ _ => h
  | .exp2 h _ _ _ _ => h
  | .log2 h _ _ _ _ => h
  | .fstat h _ => h
  | .hadd2 h _ _ _ _ _ => h
  | .hsub2 h _ _ _ _ _ => h
  | .hmul2 h _ _ _ _ _ => h
  | .hfma2 h _ _ _ _ _ _ => h
  | .hmin2 h _ _ _ _ => h
  | .hmax2 h _ _ _ _ => h
  | .hcvt2 h _ _ _ _ _ _ => h
  | .vadd2 h _ _ _ _ _ => h
  | .vsub2 h _ _ _ _ _ => h
  | .vmin2 h _ _ _ _ => h
  | .vmax2 h _ _ _ _ => h
  | .vacsel h _ _ _ _ _ _ => h
  | .vshf h _ _ _ _ _ => h
  | .vbfly h _ _ _ _ => h
  | .vred h _ _ _ _ _ _ => h
  | .vscan h _ _ _ _ _ _ => h
  | .vote h _ _ _ => h
  | .ldS h _ _ _ _ _ _ _ => h
  | .ldW h _ _ _ _ _ _ _ => h
  | .stS h _ _ _ _ _ _ _ => h
  | .stW h _ _ _ _ _ _ _ => h
  | .atom h _ _ _ _ _ _ _ _ _ => h
  | .acas h _ _ _ _ _ _ _ _ _ _ => h
  | .red h _ _ _ _ _ _ _ _ => h
  | .prefS h _ _ _ _ => h
  | .prefW h _ _ _ _ => h
  | .cflushS h _ _ _ _ => h
  | .cflushW h _ _ _ _ => h
  | .fence h _ _ => h
  | .bar h _ _ => h
  | .bara h _ _ => h
  | .barw h _ _ => h
  | .subon h _ _ _ _ _ _ => h
  | .suboff h _ _ => h
  | .subq h _ _ => h
  | .subfl h => h
  | .rmac h _ _ _ _ _ => h
  | .rmag h _ _ _ _ _ _ => h
  | .acz h _ => h
  | .acldS h _ _ _ _ => h
  | .acldW h _ _ _ _ => h
  | .acstS h _ _ _ _ _ => h
  | .acstW h _ _ _ _ _ => h
  | .acrd h _ _ _ => h
  | .acwr h _ _ _ => h
  | .acmul h _ _ _ _ => h
  | .cpi h _ _ _ _ _ => h
  | .cpo h _ _ _ _ _ => h
  | .cpl h _ _ _ _ _ => h
  | .cpr h _ _ _ _ _ => h
  | .cpf h _ _ _ _ => h
  | .cpq h _ _ _ => h
  | .cpk h _ _ _ => h
  | .tlwS h _ _ => h
  | .tlwW h _ _ => h
  | .tlwCtr h _ _ _ _ _ => h
  | .tlr h _ _ _ => h
  | .tladv h _ _ => h
  | .hire h _ _ _ _ _ _ => h
  | .hjoin h _ _ _ => h
  | .hsync h => h
  | .hrd h _ _ => h
  | .hret h _ => h
  | .hrel h => h
  | .lnch h _ _ _ => h
  | .trap h _ => h
  | .bkpt h => h
  | .tret h _ _ => h
  | .tmfr h _ _ => h
  | .sysr h _ _ _ => h
  | .sysw h _ _ _ => h
  | .sysx h _ _ _ => h
  | .eret h => h
  | .tinv h _ _ _ _ => h
  | .cinvr h _ _ _ _ => h
  | .waiti h _ _ => h
  | _ => ⟨127, false, 0⟩

/-- Registers an instruction reads beside its guard. -/
def reads : Instr → List Operand
  | .iaddS _ _ _ sub _ a b c => [.v a, .v b, Operand.pIf sub.hasIn c]
  | .iaddW _ _ _ sub _ a _ c => [.v a, Operand.pIf sub.hasIn c]
  | .isubS _ _ _ sub _ a b c => [.v a, .v b, Operand.pIf sub.hasIn c]
  | .isubW _ _ _ sub _ a _ c => [.v a, Operand.pIf sub.hasIn c]
  | .imulS _ _ _ _ a b => [.v a, .v b]
  | .imulW _ _ _ _ a _ => [.v a]
  | .imulhS _ _ _ a b => [.v a, .v b]
  | .imulhW _ _ _ a _ => [.v a]
  | .imad _ _ _ _ a b c => [.v a, .v b, .v c]
  | .imadw _ _ _ _ a b c => [.v a, .v b, .w c]
  | .idivS _ _ _ a b => [.v a, .v b]
  | .idivW _ _ _ a _ => [.v a]
  | .iremS _ _ _ a b => [.v a, .v b]
  | .iremW _ _ _ a _ => [.v a]
  | .iminS _ _ _ a b => [.v a, .v b]
  | .iminW _ _ _ a _ => [.v a]
  | .imaxS _ _ _ a b => [.v a, .v b]
  | .imaxW _ _ _ a _ => [.v a]
  | .iabs _ _ _ _ a => [.v a]
  | .ineg _ _ _ _ a => [.v a]
  | .isad _ _ _ _ a b c => [.v a, .v b, .v c]
  | .iadd64S _ _ _ _ a b => [.w a, .w b]
  | .iadd64W _ _ _ _ a _ => [.w a]
  | .isub64S _ _ _ _ a b => [.w a, .w b]
  | .isub64W _ _ _ _ a _ => [.w a]
  | .imul64 _ _ _ _ a b => [.w a, .w b]
  | .andS _ _ a b => [.v a, .v b]
  | .andW _ _ a _ => [.v a]
  | .orS _ _ a b => [.v a, .v b]
  | .orW _ _ a _ => [.v a]
  | .xorS _ _ a b => [.v a, .v b]
  | .xorW _ _ a _ => [.v a]
  | .andnS _ _ a b => [.v a, .v b]
  | .andnW _ _ a _ => [.v a]
  | .ornS _ _ a b => [.v a, .v b]
  | .ornW _ _ a _ => [.v a]
  | .not _ _ a => [.v a]
  | .shlS _ _ a b => [.v a, .v b]
  | .shlW _ _ a _ => [.v a]
  | .shrS _ _ a b => [.v a, .v b]
  | .shrW _ _ a _ => [.v a]
  | .sarS _ _ a b => [.v a, .v b]
  | .sarW _ _ a _ => [.v a]
  | .rotS _ _ a b => [.v a, .v b]
  | .rotW _ _ a _ => [.v a]
  | .fsh _ _ _ a b c => [.v a, .v b, .v c]
  | .bfx _ _ _ a b c => [.v a, .v b, .v c]
  | .bfi _ d a b c => [.v a, .v b, .v c, .v d]
  | .popc _ wide _ a => [Operand.vOrW wide a]
  | .clz _ wide _ a => [Operand.vOrW wide a]
  | .ctz _ wide _ a => [Operand.vOrW wide a]
  | .brev _ wide _ a => [Operand.vOrW wide a]
  | .permS _ d a b => [.v a, .v b, .v d]
  | .permW _ d a _ => [.v a, .v d]
  | .isetS _ ty _ _ a b => [Operand.vOrW ty.wide a, Operand.vOrW ty.wide b]
  | .isetW _ ty _ _ a _ => [Operand.vOrW ty.wide a]
  | .isetvS _ ty _ _ a b => [Operand.vOrW ty.wide a, Operand.vOrW ty.wide b]
  | .isetvW _ ty _ _ a _ => [Operand.vOrW ty.wide a]
  | .sel _ _ a b c => [.v a, .v b, .p c]
  | .mov _ wide _ a => [Operand.vOrW wide a]
  | .plop _ _ _ a b c => [.p a, .p b, .p c]
  | .p2v _ bit _ a => [Operand.pSel bit a]
  | .v2p _ _ _ a => [.v a]
  | .br _ _ a _ => [.p a]
  | .bru _ _ a tgt => [.p a, tgt.operand]
  | .callr _ _ a => [.w a]
  | .ret _ a => [.w a]
  | .reform _ a _ => [.v a]
  | .nap _ a => [.v a]
  | .faddS _ _ _ _ a b => [.v a, .v b]
  | .faddW _ _ _ _ a _ => [.v a]
  | .fsubS _ _ _ _ a b => [.v a, .v b]
  | .fsubW _ _ _ _ a _ => [.v a]
  | .fmulS _ _ _ _ a b => [.v a, .v b]
  | .fmulW _ _ _ _ a _ => [.v a]
  | .ffma _ _ _ _ a b c => [.v a, .v b, .v c]
  | .fdiv _ _ _ _ a b => [.v a, .v b]
  | .fminS _ _ _ a b => [.v a, .v b]
  | .fminW _ _ _ a _ => [.v a]
  | .fmaxS _ _ _ a b => [.v a, .v b]
  | .fmaxW _ _ _ a _ => [.v a]
  | .fsetS _ _ _ _ a b => [.v a, .v b]
  | .fsetW _ _ _ _ a _ => [.v a]
  | .fsetvS _ _ _ _ a b => [.v a, .v b]
  | .fsetvW _ _ _ _ a _ => [.v a]
  | .fcls _ _ _ a => [.v a]
  | .frnd _ _ _ _ a => [.v a]
  | .f2i _ _ _ _ _ a => [.v a]
  | .i2f _ ty _ _ _ a => [Operand.vOrW ty.wide a]
  | .fcvt _ _ _ _ _ a => [.v a]
  | .rcp _ _ _ _ a => [.v a]
  | .rsq _ _ _ _ a => [.v a]
  | .sqrt _ _ _ _ a => [.v a]
  | .exp2 _ _ _ _ a => [.v a]
  | .log2 _ _ _ _ a => [.v a]
  | .hadd2 _ _ _ _ a b => [.v a, .v b]
  | .hsub2 _ _ _ _ a b => [.v a, .v b]
  | .hmul2 _ _ _ _ a b => [.v a, .v b]
  | .hfma2 _ _ _ _ a b c => [.v a, .v b, .v c]
  | .hmin2 _ _ _ a b => [.v a, .v b]
  | .hmax2 _ _ _ a b => [.v a, .v b]
  | .hcvt2 _ op _ _ _ a b => [.v a, Operand.vIf (op == .pk) b]
  | .vadd2 _ _ _ _ a b => [.v a, .v b]
  | .vsub2 _ _ _ _ a b => [.v a, .v b]
  | .vmin2 _ _ _ a b => [.v a, .v b]
  | .vmax2 _ _ _ a b => [.v a, .v b]
  | .vacsel _ _ _ a b c sv => [.v a, .v b, .v c, .v sv]
  | .vshf _ _ _ _ a b => [.v a, .v b]
  | .vbfly _ _ _ a _ => [.v a]
  | .vred _ _ _ _ _ _ a => [.v a]
  | .vscan _ _ _ _ _ _ a => [.v a]
  | .vote _ _ _ a => [.p a]
  | .ldS _ _ _ _ _ a am _ => [am.base a]
  | .ldW _ _ _ _ _ a am _ => [am.base a]
  | .stS _ _ _ sz d a am _ => [am.base a, Operand.vsz sz.regs d]
  | .stW _ _ _ sz d a am _ => [am.base a, Operand.vsz sz.regs d]
  | .atom _ _ _ _ ty _ a am c _ => [am.base a, Operand.vOrW ty.wide c]
  | .acas _ _ _ ty _ _ a am c n _ => [am.base a, Operand.vOrW ty.wide c, Operand.vOrW ty.wide n]
  | .red _ _ _ _ ty a am c _ => [am.base a, Operand.vOrW ty.wide c]
  | .prefS _ _ a am _ => [am.base a]
  | .prefW _ _ a am _ => [am.base a]
  | .cflushS _ _ a am _ => [am.base a]
  | .cflushW _ _ a am _ => [am.base a]
  | .barw _ a _ => [.v a]
  | .subon _ _ _ a b c l => [.v a, .v b, .v c, .v l]
  | .suboff _ _ a => [.v a]
  | .subq _ _ a => [.v a]
  | .rmac _ _ d a b _ => [.v a, .v b, .a d]
  | .rmag _ _ d a b c _ => [.v a, .v b, .v c, .a d]
  | .acldS _ _ a am _ => [am.base a]
  | .acldW _ _ a am _ => [am.base a]
  | .acstS _ _ d a am _ => [am.base a, .a d]
  | .acstW _ _ d a am _ => [am.base a, .a d]
  | .acrd _ _ a _ => [.a a]
  | .acwr _ _ a _ => [.v a]
  | .acmul _ _ _ a b => [.a a, .v b]
  | .cpi _ _ a b c desc => [.w a, .w b, Operand.wIf desc.fmt.scaled c]
  | .cpo _ _ a b c desc => [.w a, .w b, Operand.wIf desc.fmt.scaled c]
  | .cpl _ _ a b c desc => [.w a, .w b, Operand.wIf desc.fmt.scaled c]
  | .cpr _ _ a b c desc => [.w a, .w b, Operand.wIf desc.fmt.scaled c]
  | .cpf _ _ b c _ => [.w b, .v c]
  | .cpq _ _ a _ => [.w a]
  | .cpk _ _ a _ => [.w a]
  | .tlwS _ a _ => [.w a]
  | .tlwCtr _ _ d a am _ => [am.base a, .w d]
  | .hire _ _ _ _ a _ _ => [.v a]
  | .hjoin _ _ _ b => [.v b]
  | .hret _ a => [.v a]
  | .lnch _ _ a _ => [.w a]
  | .tret _ mode a => [Operand.wIf (mode == .to) a]
  | .sysr _ _ a _ => [.v a]
  | .sysw _ d a _ => [.v a, .w d]
  | .sysx _ d a _ => [.v a, .w d]
  | .tinv _ kind a b c => [Operand.vIf (kind != .all) a, Operand.wIf (kind == .range) b, Operand.vIf (kind == .range) c]
  | .cinvr _ _ a b c => [.v a, .w b, .v c]
  | .waiti _ _ a => [.v a]
  | _ => []

/-- Registers an instruction writes. -/
def writes : Instr → List Operand
  | .iaddS _ _ _ sub d _ _ c => [.v d, Operand.pIf sub.hasOut c]
  | .iaddW _ _ _ sub d _ _ c => [.v d, Operand.pIf sub.hasOut c]
  | .isubS _ _ _ sub d _ _ c => [.v d, Operand.pIf sub.hasOut c]
  | .isubW _ _ _ sub d _ _ c => [.v d, Operand.pIf sub.hasOut c]
  | .imulS _ _ _ d _ _ => [.v d]
  | .imulW _ _ _ d _ _ => [.v d]
  | .imulhS _ _ d _ _ => [.v d]
  | .imulhW _ _ d _ _ => [.v d]
  | .imad _ _ _ d _ _ _ => [.v d]
  | .imadw _ _ _ d _ _ _ => [.w d]
  | .idivS _ _ d _ _ => [.v d]
  | .idivW _ _ d _ _ => [.v d]
  | .iremS _ _ d _ _ => [.v d]
  | .iremW _ _ d _ _ => [.v d]
  | .iminS _ _ d _ _ => [.v d]
  | .iminW _ _ d _ _ => [.v d]
  | .imaxS _ _ d _ _ => [.v d]
  | .imaxW _ _ d _ _ => [.v d]
  | .iabs _ _ _ d _ => [.v d]
  | .ineg _ _ _ d _ => [.v d]
  | .isad _ _ _ d _ _ _ => [.v d]
  | .iadd64S _ _ _ d _ _ => [.w d]
  | .iadd64W _ _ _ d _ _ => [.w d]
  | .isub64S _ _ _ d _ _ => [.w d]
  | .isub64W _ _ _ d _ _ => [.w d]
  | .imul64 _ _ _ d _ _ => [.w d]
  | .andS _ d _ _ => [.v d]
  | .andW _ d _ _ => [.v d]
  | .orS _ d _ _ => [.v d]
  | .orW _ d _ _ => [.v d]
  | .xorS _ d _ _ => [.v d]
  | .xorW _ d _ _ => [.v d]
  | .andnS _ d _ _ => [.v d]
  | .andnW _ d _ _ => [.v d]
  | .ornS _ d _ _ => [.v d]
  | .ornW _ d _ _ => [.v d]
  | .not _ d _ => [.v d]
  | .shlS _ d _ _ => [.v d]
  | .shlW _ d _ _ => [.v d]
  | .shrS _ d _ _ => [.v d]
  | .shrW _ d _ _ => [.v d]
  | .sarS _ d _ _ => [.v d]
  | .sarW _ d _ _ => [.v d]
  | .rotS _ d _ _ => [.v d]
  | .rotW _ d _ _ => [.v d]
  | .fsh _ _ d _ _ _ => [.v d]
  | .bfx _ _ d _ _ _ => [.v d]
  | .bfi _ d _ _ _ => [.v d]
  | .popc _ _ d _ => [.v d]
  | .clz _ _ d _ => [.v d]
  | .ctz _ _ d _ => [.v d]
  | .brev _ wide d _ => [Operand.vOrW wide d]
  | .permS _ d _ _ => [.v d]
  | .permW _ d _ _ => [.v d]
  | .isetS _ _ _ d _ _ => [.p d]
  | .isetW _ _ _ d _ _ => [.p d]
  | .isetvS _ _ _ d _ _ => [.v d]
  | .isetvW _ _ _ d _ _ => [.v d]
  | .sel _ d _ _ _ => [.v d]
  | .mov _ wide d _ => [Operand.vOrW wide d]
  | .movi _ d _ => [.v d]
  | .movw _ d _ => [.w d]
  | .plop _ _ d _ _ _ => [.p d]
  | .p2v _ _ d _ => [.v d]
  | .v2p _ bit d _ => [Operand.pSel bit d]
  | .getid _ d code => [Operand.vOrW (code == 12 || code == 13) d]
  | .call _ d _ => [.w d]
  | .callr _ d _ => [.w d]
  | .faddS _ _ _ d _ _ => [.v d]
  | .faddW _ _ _ d _ _ => [.v d]
  | .fsubS _ _ _ d _ _ => [.v d]
  | .fsubW _ _ _ d _ _ => [.v d]
  | .fmulS _ _ _ d _ _ => [.v d]
  | .fmulW _ _ _ d _ _ => [.v d]
  | .ffma _ _ _ d _ _ _ => [.v d]
  | .fdiv _ _ _ d _ _ => [.v d]
  | .fminS _ _ d _ _ => [.v d]
  | .fminW _ _ d _ _ => [.v d]
  | .fmaxS _ _ d _ _ => [.v d]
  | .fmaxW _ _ d _ _ => [.v d]
  | .fsetS _ _ _ d _ _ => [.p d]
  | .fsetW _ _ _ d _ _ => [.p d]
  | .fsetvS _ _ _ d _ _ => [.v d]
  | .fsetvW _ _ _ d _ _ => [.v d]
  | .fcls _ _ d _ => [.v d]
  | .frnd _ _ _ d _ => [.v d]
  | .f2i _ ty _ _ d _ => [Operand.vOrW ty.wide d]
  | .i2f _ _ _ _ d _ => [.v d]
  | .fcvt _ _ _ _ d _ => [.v d]
  | .rcp _ _ _ d _ => [.v d]
  | .rsq _ _ _ d _ => [.v d]
  | .sqrt _ _ _ d _ => [.v d]
  | .exp2 _ _ _ d _ => [.v d]
  | .log2 _ _ _ d _ => [.v d]
  | .fstat _ d => [.v d]
  | .hadd2 _ _ _ d _ _ => [.v d]
  | .hsub2 _ _ _ d _ _ => [.v d]
  | .hmul2 _ _ _ d _ _ => [.v d]
  | .hfma2 _ _ _ d _ _ _ => [.v d]
  | .hmin2 _ _ d _ _ => [.v d]
  | .hmax2 _ _ d _ _ => [.v d]
  | .hcvt2 _ op _ _ d _ _ => [Operand.vOrW (op == .upk) d]
  | .vadd2 _ _ _ d _ _ => [.v d]
  | .vsub2 _ _ _ d _ _ => [.v d]
  | .vmin2 _ _ d _ _ => [.v d]
  | .vmax2 _ _ d _ _ => [.v d]
  | .vacsel _ _ d _ _ _ sv => [.v d, .v sv]
  | .vshf _ _ d c _ _ => [.v d, .p c]
  | .vbfly _ d c _ _ => [.v d, .p c]
  | .vred _ _ _ _ _ d _ => [.v d]
  | .vscan _ _ _ _ _ d _ => [.v d]
  | .vote _ op d _ => [op.operand d]
  | .ldS _ _ _ sz d _ _ _ => [Operand.vsz sz.regs d]
  | .ldW _ _ _ sz d _ _ _ => [Operand.vsz sz.regs d]
  | .atom _ _ _ _ ty d _ _ _ _ => [Operand.vOrW ty.wide d]
  | .acas _ _ _ ty d ps _ _ _ _ _ => [Operand.vOrW ty.wide d, .p (ps.zeroExtend 8)]
  | .bara _ d _ => [.v d]
  | .subon _ _ d _ _ _ _ => [.v d]
  | .suboff _ d _ => [.v d]
  | .subq _ d _ => [.w d]
  | .rmac _ _ d _ _ _ => [.a d]
  | .rmag _ _ d _ _ _ _ => [.a d]
  | .acz _ d => [.a d]
  | .acldS _ d _ _ _ => [.a d]
  | .acldW _ d _ _ _ => [.a d]
  | .acstS _ z d _ _ _ => [Operand.aIf z d]
  | .acstW _ z d _ _ _ => [Operand.aIf z d]
  | .acrd _ d _ _ => [.v d]
  | .acwr _ d _ _ => [.a d]
  | .acmul _ _ d _ _ => [.a d]
  | .cpi _ d _ _ _ _ => [.w d]
  | .cpo _ d _ _ _ _ => [.w d]
  | .cpl _ d _ _ _ _ => [.w d]
  | .cpr _ d _ _ _ _ => [.w d]
  | .cpf _ d _ _ _ => [.w d]
  | .cpq _ d _ _ => [.w d]
  | .cpk _ d _ _ => [.v d]
  | .tlr _ _ d _ => [.w d]
  | .tladv _ d _ => [.w d]
  | .hire _ _ _ d _ _ _ => [.v d]
  | .hjoin _ d a _ => [.v d, .p a]
  | .hrd _ d _ => [.v d]
  | .lnch _ d _ _ => [.p d]
  | .tmfr _ d code => [Operand.vOrW (code == 1 || code == 2) d]
  | .sysr _ d _ _ => [.w d]
  | .sysx _ d _ _ => [.w d]
  | .waiti _ d _ => [.v d]
  | _ => []

/-- Registers an instruction names without reading or writing them (R241). -/
def names : Instr → List Operand
  | .hire _ _ comb _ _ c _ => [Operand.vIf (comb != .none) c]
  | _ => []

/-- The FN codes and descriptor values the entry accepts (check 10 of R139, code 6). -/
def fnOk : Instr → Bool
  | .iaddS _ ty sat sub _ _ _ _ => ty.narrow && (!sat || sub == .none) && (sub == .none || ty.is32)
  | .iaddW _ ty sat sub _ _ _ _ => ty.narrow && (!sat || sub == .none) && (sub == .none || ty.is32)
  | .isubS _ ty sat sub _ _ _ _ => ty.narrow && (!sat || sub == .none) && (sub == .none || ty.is32)
  | .isubW _ ty sat sub _ _ _ _ => ty.narrow && (!sat || sub == .none) && (sub == .none || ty.is32)
  | .imulS _ ty _ _ _ _ => ty.narrow
  | .imulW _ ty _ _ _ _ => ty.narrow
  | .imulhS _ ty _ _ _ => ty.is32
  | .imulhW _ ty _ _ _ => ty.is32
  | .imad _ ty _ _ _ _ _ => ty.narrow
  | .imadw _ ty _ _ _ _ _ => ty.is32
  | .idivS _ ty _ _ _ => ty.is32
  | .idivW _ ty _ _ _ => ty.is32
  | .iremS _ ty _ _ _ => ty.is32
  | .iremW _ ty _ _ _ => ty.is32
  | .iminS _ ty _ _ _ => ty.narrow
  | .iminW _ ty _ _ _ => ty.narrow
  | .imaxS _ ty _ _ _ => ty.narrow
  | .imaxW _ ty _ _ _ => ty.narrow
  | .iabs _ ty _ _ _ => ty.narrow && ty.signed
  | .ineg _ ty _ _ _ => ty.narrow
  | .isad _ ty _ _ _ _ _ => ty.narrow
  | .iadd64S _ ty _ _ _ _ => ty.wide
  | .iadd64W _ ty _ _ _ _ => ty.wide
  | .isub64S _ ty _ _ _ _ => ty.wide
  | .isub64W _ ty _ _ _ _ => ty.wide
  | .imul64 _ ty _ _ _ _ => ty.wide
  | .bfx _ ty _ _ _ _ => ty.is32
  | .isetS _ ty _ _ _ _ => ty.integral
  | .isetW _ ty _ _ _ _ => ty.integral
  | .isetvS _ ty _ _ _ _ => ty.integral
  | .isetvW _ ty _ _ _ _ => ty.integral
  | .getid _ _ code => decide (code.toNat < 18)
  | .f2i _ ty _ _ _ _ => ty.integral
  | .i2f _ ty _ _ _ _ => ty.integral
  | .hadd2 _ fmt _ _ _ _ => fmt.is16
  | .hsub2 _ fmt _ _ _ _ => fmt.is16
  | .hmul2 _ fmt _ _ _ _ => fmt.is16
  | .hfma2 _ fmt _ _ _ _ _ => fmt.is16
  | .hmin2 _ fmt _ _ _ => fmt.is16
  | .hmax2 _ fmt _ _ _ => fmt.is16
  | .hcvt2 _ op fmt rnd _ _ _ => fmt.is16 && (op != .upk || rnd == .rn)
  | .vadd2 _ ty _ _ _ _ => ty.is16
  | .vsub2 _ ty _ _ _ _ => ty.is16
  | .vmin2 _ ty _ _ _ => ty.is16
  | .vmax2 _ ty _ _ _ => ty.is16
  | .vred _ op ty sat rnd _ _ => op.accepts ty && (!sat || (op == .add && ty.is32)) && (rnd == .rn || (op == .add && ty == .f32))
  | .vscan _ op ty sat rnd _ _ => op.accepts ty && (!sat || (op == .add && ty.is32)) && (rnd == .rn || (op == .add && ty == .f32))
  | .ldS _ ord sc _ _ _ _ _ => ord.onLoad && ord.scopeOk sc
  | .ldW _ ord sc _ _ _ _ _ => ord.onLoad && ord.scopeOk sc
  | .stS _ ord sc _ _ _ _ _ => ord.onStore && ord.scopeOk sc
  | .stW _ ord sc _ _ _ _ _ => ord.onStore && ord.scopeOk sc
  | .atom _ ord sc aop ty _ _ _ _ _ => aop.accepts ty && ord.scopeOk sc
  | .acas _ ord sc ty _ _ _ _ _ _ _ => ty.is32or64 && ord.scopeOk sc
  | .red _ ord sc aop ty _ _ _ _ => aop.accepts ty && aop != .exch && ord.onStore && ord.scopeOk sc
  | .fence _ ord _ => ord != .rlx
  | .bar _ hood k => (!hood || k == 0)
  | .rmac _ _ _ _ _ desc => desc.ok
  | .rmag _ _ _ _ _ _ desc => desc.ok
  | .cpi _ _ _ _ _ desc => desc.ok .cpi
  | .cpo _ _ _ _ _ desc => desc.ok .cpo
  | .cpl _ _ _ _ _ desc => desc.ok .cpl
  | .cpr _ _ _ _ _ desc => desc.ok .cpr
  | .cpf _ _ _ _ desc => desc.ok .cpf
  | .tmfr _ _ code => decide (code.toNat < 4)
  | _ => true

/-- Register fields in range whatever the thread (check 11 of R139, code 8): R37, R40, R41, R134, R164, R186, R241. -/
def regsOk (i : Instr) : Bool :=
  (i.reads ++ i.writes ++ i.names).all Operand.static &&
  match i with
  | .vacsel _ _ d _ _ _ sv => d != sv
  | .hrd _ _ k => decide (k.toNat < 64)
  | _ => true

end Instr

/-- Guard field 0 to 95 or 127 (check 6 of R139). -/
def Head.gOk (h : Head) : Bool := decide (h.g.toNat < 96) || h.g == 127

/-- Opcodes on which LA may be nonzero (R141). -/
def laAllowed (op : BitVec 8) : Bool :=
  (0xA0 ≤ op && op ≤ 0xA4) || op == 0xD8 || op == 0x64 || (0x6E ≤ op && op ≤ 0x72) || op == 0xC0 || op == 0xC1 ||
  (0xD0 ≤ op && op ≤ 0xD4)

/-- Opcodes a helper may not execute (R169, R214, R215, R242, R278). -/
def helperBad (op : BitVec 8) : Bool :=
  op == 0x46 || (0xA8 ≤ op && op ≤ 0xAA) || (0xC0 ≤ op && op ≤ 0xC7) || (0xD0 ≤ op && op ≤ 0xD6) || op == 0xDA ||
  op == 0xE0 || (0xE6 ≤ op && op ≤ 0xE9) || 0xF0 ≤ op

/-- Opcodes that end every LA window of their thread (R143, R259, R283, R296). -/
def endsLa (op : BitVec 8) : Bool :=
  op == 0x46 || op == 0x47 || op == 0x49 || op == 0x4A || (0xA7 ≤ op && op ≤ 0xAA) || op == 0xD8 ||
  (0xE0 ≤ op && op ≤ 0xE2) || op == 0xE7 || op == 0xE8 || op == 0xE9 || (0xF0 ≤ op && op ≤ 0xF3)

end Sys2Proof
end

