-- ==== Sys2Proof/Machine/IntAlu.lean ====
section
/-!
DEFINITION. Integer, logic, shift, bit-field and packed-integer results as functions of operand values
(R104, R105, R156 to R163, R185, R186). Exact results are integers, narrowed once at the end.
-/
namespace Sys2Proof.Machine

/-- Width of an integer type (R104). -/
def tyBits : Ty → Nat
  | .s8 | .z8 => 8
  | .s16 | .z16 | .f16 | .bf16 => 16
  | .s32 | .z32 | .f32 => 32
  | .s64 | .z64 => 64

/-- Least value of a type (R104). -/
def tyLo (ty : Ty) : Int := if ty.signed then -(2 ^ (tyBits ty - 1)) else 0
/-- Greatest value of a type (R104). -/
def tyHi (ty : Ty) : Int := if ty.signed then 2 ^ (tyBits ty - 1) - 1 else 2 ^ tyBits ty - 1
/-- Replacement of an out-of-range value by the nearest bound (R104). -/
def clampInt (lo hi y : Int) : Int := if y < lo then lo else if hi < y then hi else y
/-- clamp to the range of a type when SAT is set (R104). -/
def satTy (ty : Ty) (sat : Bool) (y : Int) : Int := if sat then clampInt (tyLo ty) (tyHi ty) y else y

/-- The low n bits of a number read as type ty: ext of R156. -/
def extTy (ty : Ty) (x : Nat) : Int :=
  let n := tyBits ty
  let u : Nat := x % 2 ^ n
  if ty.signed && decide (2 ^ (n - 1) ≤ u) then (u : Int) - 2 ^ n else (u : Int)
/-- The exact value y mod 2^n, extended to 32 bits (R156). -/
def narrowTy (ty : Ty) (y : Int) : Word := BitVec.ofInt 32 (extTy ty (y % 2 ^ tyBits ty).toNat)

/-- The narrow-type rule of R156 on an exact result. -/
def narrowSat (ty : Ty) (sat : Bool) (y : Int) : Word := narrowTy ty (satTy ty sat y)

/-- IADD without carry (R156). -/
def aluAdd (ty : Ty) (sat : Bool) (a b : Word) : Word := narrowSat ty sat (extTy ty a.toNat + extTy ty b.toNat)
/-- ISUB without borrow (R156). -/
def aluSub (ty : Ty) (sat : Bool) (a b : Word) : Word := narrowSat ty sat (extTy ty a.toNat - extTy ty b.toNat)
/-- IMUL (R156). -/
def aluMul (ty : Ty) (sat : Bool) (a b : Word) : Word := narrowSat ty sat (extTy ty a.toNat * extTy ty b.toNat)
/-- IMAD (R156). -/
def aluMad (ty : Ty) (sat : Bool) (a b c : Word) : Word :=
  narrowSat ty sat (extTy ty a.toNat * extTy ty b.toNat + extTy ty c.toNat)
/-- IMIN (R156). -/
def aluMin (ty : Ty) (a b : Word) : Word := narrowTy ty (min (extTy ty a.toNat) (extTy ty b.toNat))
/-- IMAX (R156). -/
def aluMax (ty : Ty) (a b : Word) : Word := narrowTy ty (max (extTy ty a.toNat) (extTy ty b.toNat))
/-- IABS (R156). -/
def aluAbs (ty : Ty) (sat : Bool) (a : Word) : Word := narrowSat ty sat ((extTy ty a.toNat).natAbs : Int)
/-- INEG (R156). -/
def aluNeg (ty : Ty) (sat : Bool) (a : Word) : Word := narrowSat ty sat (-extTy ty a.toNat)

/-- IADD with carry: the sum and the carry out (R157). -/
def addCarry (a b : Word) (cin : Bool) : Word × Bool :=
  let y := a.toNat + b.toNat + cin.toNat
  (BitVec.ofNat 32 y, decide (2 ^ 32 ≤ y))
/-- ISUB with borrow: the difference and the borrow out (R157). -/
def subBorrow (a b : Word) (cin : Bool) : Word × Bool :=
  let y : Int := (a.toNat : Int) - b.toNat - cin.toNat
  (BitVec.ofInt 32 y, decide (y < 0))

/-- IMULH (R158). -/
def aluMulh (ty : Ty) (a b : Word) : Word := BitVec.ofInt 32 ((extTy ty a.toNat * extTy ty b.toNat) / 2 ^ 32)
/-- The 64-bit type that matches a 32-bit one (R158). -/
def ty64Of (ty : Ty) : Ty := if ty.signed then .s64 else .z64
/-- IMADW (R158). -/
def aluMadw (ty : Ty) (sat : Bool) (a b : Word) (c : DWord) : DWord :=
  let t := ty64Of ty
  BitVec.ofInt 64 (satTy t sat (extTy ty a.toNat * extTy ty b.toNat + extTy t c.toNat))
/-- IDIV (R158). -/
def aluDiv (ty : Ty) (a b : Word) : Word :=
  if b = 0 then 0xFFFFFFFF
  else if ty.signed && a = 0x80000000 && b = 0xFFFFFFFF then 0x80000000
  else BitVec.ofInt 32 (Int.tdiv (extTy ty a.toNat) (extTy ty b.toNat))
/-- IREM (R158). -/
def aluRem (ty : Ty) (a b : Word) : Word :=
  if b = 0 then a
  else if ty.signed && a = 0x80000000 && b = 0xFFFFFFFF then 0
  else BitVec.ofInt 32 (Int.tmod (extTy ty a.toNat) (extTy ty b.toNat))
/-- ISAD (R158). -/
def aluSad (ty : Ty) (sat : Bool) (a b c : Word) : Word :=
  let y : Nat := (extTy ty a.toNat - extTy ty b.toNat).natAbs + c.toNat
  BitVec.ofNat 32 (if sat then min y (2 ^ 32 - 1) else y)

/-- IADD64 (R159). -/
def aluAdd64 (ty : Ty) (sat : Bool) (a b : DWord) : DWord :=
  BitVec.ofInt 64 (satTy ty sat (extTy ty a.toNat + extTy ty b.toNat))
/-- ISUB64 (R159). -/
def aluSub64 (ty : Ty) (sat : Bool) (a b : DWord) : DWord :=
  BitVec.ofInt 64 (satTy ty sat (extTy ty a.toNat - extTy ty b.toNat))
/-- IMUL64 (R159). -/
def aluMul64 (ty : Ty) (sat : Bool) (a b : DWord) : DWord :=
  BitVec.ofInt 64 (satTy ty sat (extTy ty a.toNat * extTy ty b.toNat))
/-- IMM32 extended to 64 bits by type (R159, R162). -/
def imm64 (ty : Ty) (imm : Word) : DWord := if ty.signed then imm.signExtend 64 else imm.zeroExtend 64

/-- SHL (R160). -/
def aluShl (a s : Word) : Word := if s.toNat < 32 then a <<< s.toNat else 0
/-- SHR (R160). -/
def aluShr (a s : Word) : Word := if s.toNat < 32 then a >>> s.toNat else 0
/-- SAR (R160). -/
def aluSar (a s : Word) : Word := a.sshiftRight (min s.toNat 31)
/-- ROT (R160). -/
def aluRot (a s : Word) : Word := a.rotateLeft (s.toNat % 32)
/-- FSH (R160). -/
def aluFsh (dir : FshDir) (a b c : Word) : Word :=
  let n := min c.toNat 32
  match dir with
  | .right => ((b ++ a : DWord) >>> n).extractLsb' 0 32
  | .left => ((a ++ b : DWord) <<< n).extractLsb' 32 32

/-- BFX (R161). -/
def aluBfx (ty : Ty) (a b c : Word) : Word :=
  let pos := b.toNat % 256
  let len := min (c.toNat % 256) 32
  if len = 0 then 0
  else
    let f : Nat := ((extTy ty a.toNat / 2 ^ pos) % 2 ^ len).toNat
    if ty.signed && decide (2 ^ (len - 1) ≤ f) then BitVec.ofInt 32 ((f : Int) - 2 ^ len) else BitVec.ofNat 32 f
/-- BFI (R161). -/
def aluBfi (a b c d : Word) : Word :=
  let pos := b.toNat % 256
  let len := min (c.toNat % 256) 32
  let mask : Word := BitVec.ofNat 32 ((2 ^ len - 1) * 2 ^ pos)
  (d &&& ~~~mask) ||| (BitVec.ofNat 32 (a.toNat * 2 ^ pos) &&& mask)
/-- Ones among the low n bits. -/
def popN : Nat → Nat → Nat
  | 0, _ => 0
  | n + 1, x => x % 2 + popN n (x / 2)
/-- Zeros below the first one among the low n bits. -/
def ctzN : Nat → Nat → Nat
  | 0, _ => 0
  | n + 1, x => if x % 2 = 1 then 0 else 1 + ctzN n (x / 2)
/-- The low n bits in reverse order. -/
def brevN : Nat → Nat → Nat
  | 0, _ => 0
  | n + 1, x => (x % 2) * 2 ^ n + brevN n (x / 2)
/-- Zeros above the last one among the low n bits. -/
def clzN (n x : Nat) : Nat := ctzN n (brevN n x)

/-- Byte k of a word. -/
def byteOf (x : Word) (k : Nat) : Nat := x.toNat / 2 ^ (8 * k) % 256
/-- One byte PERM selects (R161). -/
def permByte (a d : Word) (k : Nat) : Nat :=
  if k ≤ 3 then byteOf a k
  else if k ≤ 7 then byteOf d (k - 4)
  else if k ≤ 11 then (if 128 ≤ byteOf a (k - 8) then 255 else 0)
  else 0
/-- PERM (R161). -/
def aluPerm (a sel d : Word) : Word :=
  let k (i : Nat) : Nat := permByte a d (sel.toNat / 16 ^ i % 16)
  BitVec.ofNat 32 (k 0 + 256 * k 1 + 65536 * k 2 + 16777216 * k 3)

/-- The comparisons of ISET and ISETV (R162). -/
def cmpInt (c : ICmp) (a b : Int) : Bool :=
  match c with
  | .eq => a = b
  | .ne => a ≠ b
  | .lt => a < b
  | .le => a ≤ b
  | .gt => b < a
  | .ge => b ≤ a
/-- PLOP: the truth-table bit (R163). -/
def plop (tt : BitVec 8) (a b c : Bool) : Bool := tt.getLsbD (4 * a.toNat + 2 * b.toNat + c.toNat)

/-- Lane l of a packed register (R105). -/
def half (x : Word) (l : Nat) : Nat := x.toNat / 2 ^ (16 * l) % 65536
/-- A packed register of two lanes (R105). -/
def pack2 (lo hi : Nat) : Word := BitVec.ofNat 32 (lo % 65536 + 65536 * (hi % 65536))
/-- Both lanes of R105, each on its own. -/
def map2 (f : Nat → Nat → Nat) (a b : Word) : Word := pack2 (f (half a 0) (half b 0)) (f (half a 1) (half b 1))
/-- A 16-bit pattern of an exact lane result (R185). -/
def laneOf (y : Int) : Nat := (y % 65536).toNat
/-- VADD2 (R185). -/
def aluVadd2 (ty : Ty) (sat : Bool) (a b : Word) : Word :=
  map2 (fun x y => laneOf (satTy ty sat (extTy ty x + extTy ty y))) a b
/-- VSUB2 (R185). -/
def aluVsub2 (ty : Ty) (sat : Bool) (a b : Word) : Word :=
  map2 (fun x y => laneOf (satTy ty sat (extTy ty x - extTy ty y))) a b
/-- VMIN2 (R185). -/
def aluVmin2 (ty : Ty) (a b : Word) : Word := map2 (fun x y => laneOf (min (extTy ty x) (extTy ty y))) a b
/-- VMAX2 (R185). -/
def aluVmax2 (ty : Ty) (a b : Word) : Word := map2 (fun x y => laneOf (max (extTy ty x) (extTy ty y))) a b

/-- add16 of VACSEL (R186). -/
def add16 (sat : Bool) (a b : Nat) : Nat := if sat then min (a + b) 0xFFFF else (a + b) % 65536
/-- One successor of the butterfly: its metric and its decision bit (R186). -/
def butterfly (sat : Bool) (a x : Word) : Nat × Nat :=
  let c0 := add16 sat (half a 0) (half x 0)
  let c1 := add16 sat (half a 1) (half x 1)
  if c1 < c0 then (c1, 1) else (c0, 0)
/-- VACSEL: the new metrics and the new survivor word (R186). -/
def aluVacsel (sat : Bool) (a b c s : Word) : Word × Word :=
  let n0 := butterfly sat a b
  let n1 := butterfly sat a c
  (pack2 n0.1 n1.1, BitVec.ofNat 32 (4 * s.toNat + 2 * n1.2 + n0.2))

/-- The combine of an integer reduction (R189). -/
def reduceInt (op : RedOp) (ty : Ty) (sat : Bool) (a b : Word) : Word :=
  match op with
  | .add => aluAdd ty sat a b
  | .min => aluMin ty a b
  | .max => aluMax ty a b
  | .and => a &&& b
  | .or => a ||| b
  | .xor => a ^^^ b

end Sys2Proof.Machine
end

