-- ==== Sys2Proof/Machine/FloatAlu.lean ====
section
/-!
DEFINITION. Floating-point results as functions of bit patterns: formats (R106), one rounding of the exact result
(R107), canonical NaNs (R108), the operations of R109 to R111 and R175 to R184, and the trees of R112 and R113.
Finite values are sign, mantissa and binary exponent; every exact result is rounded once by roundTo.
-/
namespace Sys2Proof.Machine

/-- FP status flags (R47): NV, DZ, OF, UF, NX in bits 4 to 0. -/
abbrev Flags := BitVec 5
/-- Invalid operation. -/
def flagNV : Flags := 16
/-- Division by zero. -/
def flagDZ : Flags := 8
/-- Overflow. -/
def flagOF : Flags := 4
/-- Underflow. -/
def flagUF : Flags := 2
/-- Inexact. -/
def flagNX : Flags := 1

/-- Width of a format (R106). -/
def fmtBits : Fmt → Nat
  | .f32 => 32
  | .f16 | .bf16 => 16
/-- Width of the fraction field (R106). -/
def fracBits : Fmt → Nat
  | .f32 => 23
  | .f16 => 10
  | .bf16 => 7
/-- Exponent bias (R106). -/
def expBias : Fmt → Nat
  | .f32 | .bf16 => 127
  | .f16 => 15
/-- The all-ones exponent field (R106). -/
def expMax : Fmt → Nat
  | .f32 | .bf16 => 255
  | .f16 => 31
/-- The canonical NaN (R106). -/
def canonNaN : Fmt → Nat
  | .f32 => 0x7FC00000
  | .f16 => 0x7E00
  | .bf16 => 0x7FC0
/-- The sign bit's weight. -/
def signBit (f : Fmt) : Nat := 2 ^ (fmtBits f - 1)
/-- Infinity of a sign (R106). -/
def infOf (f : Fmt) (s : Bool) : Nat := (if s then signBit f else 0) + expMax f * 2 ^ fracBits f
/-- Zero of a sign (R106). -/
def zeroOf (f : Fmt) (s : Bool) : Nat := if s then signBit f else 0
/-- The largest finite value of a sign. -/
def maxOf (f : Fmt) (s : Bool) : Nat := infOf f s - 1
/-- The value 1.0. -/
def oneOf (f : Fmt) : Nat := expBias f * 2 ^ fracBits f

/-- What a bit pattern stands for (R106): a finite value is m · 2^e with its sign. -/
inductive FVal where
  | nan (signalling : Bool)
  | inf (s : Bool)
  | fin (s : Bool) (m : Nat) (e : Int)
  deriving DecidableEq, Repr

/-- The exponent field of a pattern. -/
def expField (f : Fmt) (x : Nat) : Nat := x / 2 ^ fracBits f % (expMax f + 1)
/-- The fraction field of a pattern. -/
def fracField (f : Fmt) (x : Nat) : Nat := x % 2 ^ fracBits f
/-- The sign of a pattern. -/
def signOf (f : Fmt) (x : Nat) : Bool := x / signBit f % 2 == 1

/-- Reading of a pattern (R106). -/
def fval (f : Fmt) (x : Nat) : FVal :=
  let e := expField f x
  let m := fracField f x
  if e = expMax f then
    if m = 0 then .inf (signOf f x) else .nan (m / 2 ^ (fracBits f - 1) == 0)
  else if e = 0 then .fin (signOf f x) m (1 - expBias f - fracBits f)
  else .fin (signOf f x) (m + 2 ^ fracBits f) ((e : Int) - expBias f - fracBits f)

/-- Number of bits of a number, by fuel. -/
def bitLen (x : Nat) : Nat := if x = 0 then 0 else Nat.log2 x + 1

/-- Whether the discarded part rounds the magnitude up (R107): `lo` of `2^sh`, on an even or odd mantissa. -/
def roundsUp (md : Rm) (s : Bool) (odd : Bool) (lo sh : Nat) : Bool :=
  match md with
  | .rn => decide (2 ^ sh < 2 * lo) || (decide (2 * lo = 2 ^ sh) && odd)
  | .rz => false
  | .rp => !s && decide (lo ≠ 0)
  | .rm => s && decide (lo ≠ 0)

/-- m · 2^e cut to a multiple of 2^q under a mode: the multiple and whether it is inexact. -/
def cutTo (md : Rm) (s : Bool) (m : Nat) (e q : Int) : Nat × Bool :=
  if q ≤ e then (m * 2 ^ (e - q).toNat, false)
  else
    let sh := (q - e).toNat
    let lo := m % 2 ^ sh
    let hi := m / 2 ^ sh
    (if roundsUp md s (hi % 2 == 1) lo sh then hi + 1 else hi, decide (lo ≠ 0))

/-- round_to(fmt, mode, y) of R107 for the exact y = ± m · 2^e with m > 0, and its flags; tininess is detected after
rounding. -/
def roundTo (f : Fmt) (md : Rm) (s : Bool) (m : Nat) (e : Int) : Nat × Flags :=
  if m = 0 then (zeroOf f s, 0)
  else
    let p : Int := fracBits f
    let emin : Int := 1 - expBias f
    let top : Int := e + bitLen m - 1
    let q := max top emin - p
    let (m', inexact) := cutTo md s m e q
    let carried := decide (2 ^ (fracBits f + 1) ≤ m')
    let m1 := if carried then m' / 2 else m'
    let q1 := if carried then q + 1 else q
    let biased : Int := q1 + p + expBias f
    if 2 ^ fracBits f ≤ m1 && decide ((expMax f : Int) ≤ biased) then
      let toInf := match md with
        | .rn => true
        | .rz => false
        | .rp => !s
        | .rm => s
      (if toInf then infOf f s else maxOf f s, flagOF ||| flagNX)
    else
      let ef : Nat := if 2 ^ fracBits f ≤ m1 then biased.toNat else 0
      let bits := zeroOf f s + ef * 2 ^ fracBits f + m1 % 2 ^ fracBits f
      let tiny := decide (top < emin) &&
        !(decide (top = emin - 1) && decide (2 ^ (fracBits f + 1) ≤ (cutTo md s m e (top - p)).1))
      (bits, (if inexact then flagNX else 0) ||| (if inexact && tiny then flagUF else 0))

/-- The canonical NaN, with NV when asked (R108). -/
def nanRes (f : Fmt) (nv : Bool) : Nat × Flags := (canonNaN f, if nv then flagNV else 0)
/-- Whether a value is a signalling NaN. -/
def FVal.isSig : FVal → Bool
  | .nan s => s
  | _ => false
/-- Whether a value is a NaN. -/
def FVal.isNaN : FVal → Bool
  | .nan _ => true
  | _ => false

/-- The exact sum of two finite values, rounded once; an exact zero of opposite signs is +0, or −0 under .RM
(R175). -/
def addFin (f : Fmt) (md : Rm) (s1 : Bool) (m1 : Nat) (e1 : Int) (s2 : Bool) (m2 : Nat) (e2 : Int) : Nat × Flags :=
  let e := min e1 e2
  let v1 : Int := (m1 : Int) * 2 ^ (e1 - e).toNat
  let v2 : Int := (m2 : Int) * 2 ^ (e2 - e).toNat
  let v := (if s1 then -v1 else v1) + (if s2 then -v2 else v2)
  if v = 0 then (zeroOf f (if s1 = s2 then s1 else md == .rm), 0)
  else roundTo f md (decide (v < 0)) v.natAbs e

/-- FADD of two values (R175). -/
def addVal (f : Fmt) (md : Rm) (a b : FVal) : Nat × Flags :=
  match a, b with
  | .nan x, b => nanRes f (x || b.isSig)
  | a, .nan y => nanRes f (y || a.isSig)
  | .inf s, .inf t => if s = t then (infOf f s, 0) else nanRes f true
  | .inf s, .fin _ _ _ => (infOf f s, 0)
  | .fin _ _ _, .inf t => (infOf f t, 0)
  | .fin s1 m1 e1, .fin s2 m2 e2 => addFin f md s1 m1 e1 s2 m2 e2
/-- A value with the opposite sign. -/
def FVal.neg : FVal → FVal
  | .nan x => .nan x
  | .inf s => .inf !s
  | .fin s m e => .fin (!s) m e

/-- FADD (R175). -/
def fAdd (f : Fmt) (md : Rm) (a b : Nat) : Nat × Flags := addVal f md (fval f a) (fval f b)
/-- FSUB (R175). -/
def fSub (f : Fmt) (md : Rm) (a b : Nat) : Nat × Flags := addVal f md (fval f a) (fval f b).neg

/-- FMUL of two values (R175). -/
def mulVal (f : Fmt) (md : Rm) (a b : FVal) : Nat × Flags :=
  match a, b with
  | .nan x, b => nanRes f (x || b.isSig)
  | a, .nan y => nanRes f (y || a.isSig)
  | .inf s, .inf t => (infOf f (s != t), 0)
  | .inf s, .fin t m _ => if m = 0 then nanRes f true else (infOf f (s != t), 0)
  | .fin s m _, .inf t => if m = 0 then nanRes f true else (infOf f (s != t), 0)
  | .fin s1 m1 e1, .fin s2 m2 e2 => roundTo f md (s1 != s2) (m1 * m2) (e1 + e2)
/-- FMUL (R175). -/
def fMul (f : Fmt) (md : Rm) (a b : Nat) : Nat × Flags := mulVal f md (fval f a) (fval f b)

/-- FFMA: one rounding of a · b + c; 0 · ∞ raises NV even when c is a quiet NaN (R175). -/
def fFma (f : Fmt) (md : Rm) (a b c : Nat) : Nat × Flags :=
  let z := fval f c
  let invalid := match fval f a, fval f b with
    | .inf _, .fin _ m _ => m == 0
    | .fin _ m _, .inf _ => m == 0
    | _, _ => false
  if (fval f a).isNaN || (fval f b).isNaN || z.isNaN || invalid then
    nanRes f ((fval f a).isSig || (fval f b).isSig || z.isSig || invalid)
  else match fval f a, fval f b with
    | .fin s1 m1 e1, .fin s2 m2 e2 =>
      match z with
      | .fin s3 m3 e3 => addFin f md (s1 != s2) (m1 * m2) (e1 + e2) s3 m3 e3
      | z => addVal f md (.fin (s1 != s2) (m1 * m2) (e1 + e2)) z
    | .inf s, .inf t => addVal f md (.inf (s != t)) z
    | .inf s, .fin t _ _ => addVal f md (.inf (s != t)) z
    | .fin s _ _, .inf t => addVal f md (.inf (s != t)) z
    | _, _ => nanRes f false

/-- The exact quotient m1 / m2 · 2^e rounded once: a quotient of at least 64 bits with a sticky bit below. -/
def divFin (f : Fmt) (md : Rm) (s : Bool) (m1 m2 : Nat) (e : Int) : Nat × Flags :=
  let k := 64 + bitLen m2
  let n := m1 * 2 ^ k
  roundTo f md s (2 * (n / m2) + (if n % m2 = 0 then 0 else 1)) (e - k - 1)

/-- FDIV of two values (R175). -/
def divVal (f : Fmt) (md : Rm) (a b : FVal) : Nat × Flags :=
  match a, b with
  | .nan x, b => nanRes f (x || b.isSig)
  | a, .nan y => nanRes f (y || a.isSig)
  | .inf _, .inf _ => nanRes f true
  | .inf s, .fin t _ _ => (infOf f (s != t), 0)
  | .fin s _ _, .inf t => (zeroOf f (s != t), 0)
  | .fin s m1 e1, .fin t m2 e2 =>
    if m2 = 0 then (if m1 = 0 then nanRes f true else (infOf f (s != t), flagDZ))
    else if m1 = 0 then (zeroOf f (s != t), 0)
    else divFin f md (s != t) m1 m2 (e1 - e2)
/-- FDIV (R175). -/
def fDiv (f : Fmt) (md : Rm) (a b : Nat) : Nat × Flags := divVal f md (fval f a) (fval f b)
/-- RCP: 1/a (R181). -/
def fRcp (f : Fmt) (md : Rm) (a : Nat) : Nat × Flags := divVal f md (.fin false 1 0) (fval f a)

/-- Bits of the integer square root, from bit n down. -/
def isqrtFrom : Nat → Nat → Nat → Nat
  | 0, x, r => if (r + 1) * (r + 1) ≤ x then r + 1 else r
  | n + 1, x, r =>
    let r' := r + 2 ^ (n + 1)
    isqrtFrom n x (if r' * r' ≤ x then r' else r)
/-- The integer square root. -/
def isqrt (x : Nat) : Nat := isqrtFrom (bitLen x / 2 + 1) x 0

/-- √(m · 2^e) for e even, rounded once. -/
def sqrtFin (f : Fmt) (md : Rm) (m : Nat) (e : Int) : Nat × Flags :=
  let x := m * 2 ^ 128
  let r := isqrt x
  roundTo f md false (2 * r + (if r * r = x then 0 else 1)) (e / 2 - 64 - 1)
/-- SQRT (R181). -/
def fSqrt (f : Fmt) (md : Rm) (a : Nat) : Nat × Flags :=
  match fval f a with
  | .nan x => nanRes f x
  | .inf s => if s then nanRes f true else (infOf f false, 0)
  | .fin s m e =>
    if m = 0 then (zeroOf f s, 0)
    else if s then nanRes f true
    else if e % 2 = 0 then sqrtFin f md m e else sqrtFin f md (2 * m) (e - 1)
/-- RSQ: 1/√a (R181). -/
def fRsq (f : Fmt) (md : Rm) (a : Nat) : Nat × Flags :=
  match fval f a with
  | .nan x => nanRes f x
  | .inf s => if s then nanRes f true else (zeroOf f false, 0)
  | .fin s m e =>
    if m = 0 then (infOf f s, flagDZ)
    else if s then nanRes f true
    else
      let k := 2 * (64 + bitLen m) + (if e % 2 = 0 then 0 else 1)
      let r := isqrt (2 ^ k / m)
      roundTo f md false (2 * r + (if r * r * m = 2 ^ k then 0 else 1)) (-((k : Int) + e) / 2 - 1)

/-- Bits below the point in the series of EXP2 and LOG2. -/
def serBits : Nat := 384
/-- Σ y^(2k+1) / (2k+1) over n terms, all scaled by 2^serBits: `t` is the power at hand. -/
def atanhSer : Nat → Nat → Nat → Nat → Nat
  | 0, _, _, _ => 0
  | n + 1, k, t, y2 => t / (2 * k + 1) + atanhSer n (k + 1) (t * y2 / 2 ^ serBits) y2
/-- ln x = 2 · artanh((x − 1)/(x + 1)) scaled by 2^serBits, for x = a / b in [1, 2]. -/
def lnRatio (a b : Nat) : Nat :=
  let y := (a - b) * 2 ^ serBits / (a + b)
  2 * atanhSer 130 0 y (y * y / 2 ^ serBits)
/-- ln 2 scaled by 2^serBits. -/
def ln2 : Nat := lnRatio 2 1
/-- Σ x^k / k! scaled by 2^serBits: `t` is the term at hand. -/
def expSer : Nat → Nat → Nat → Nat → Nat
  | 0, _, _, _ => 0
  | n + 1, k, t, x => t + expSer n (k + 1) (t * x / 2 ^ serBits / (k + 1)) x

/-- 2^(± m · 2^e) rounded once; an integral exponent is exact (R181). -/
def exp2Fin (f : Fmt) (md : Rm) (s : Bool) (m : Nat) (e : Int) : Nat × Flags :=
  if 0 ≤ e then
    let n : Int := min ((m * 2 ^ e.toNat : Nat) : Int) 4096
    roundTo f md false 1 (if s then -n else n)
  else
    let k := (-e).toNat
    let v : Int := if s then -(m : Int) else m
    let n := v / 2 ^ k
    let fr := (v % 2 ^ k).toNat
    if fr = 0 then roundTo f md false 1 (max (min n 4096) (-4096))
    else if 4096 ≤ n then roundTo f md false 1 4096
    else if n ≤ -4096 then roundTo f md false 1 (-4096)
    else roundTo f md false (2 * expSer 90 0 (2 ^ serBits) (fr * 2 ^ serBits / 2 ^ k * ln2 / 2 ^ serBits) + 1)
      (n - serBits - 1)
/-- EXP2 (R181). -/
def fExp2 (f : Fmt) (md : Rm) (a : Nat) : Nat × Flags :=
  match fval f a with
  | .nan x => nanRes f x
  | .inf s => (if s then zeroOf f false else infOf f false, 0)
  | .fin s m e => if m = 0 then (oneOf f, 0) else exp2Fin f md s m e

/-- An exact signed integer rounded once, zero as +0 (R111). -/
def roundInt (f : Fmt) (md : Rm) (v : Int) : Nat × Flags :=
  if v = 0 then (zeroOf f false, 0) else roundTo f md (decide (v < 0)) v.natAbs 0

/-- log2(m · 2^e) rounded once, for m > 0; a power of two is exact (R181). -/
def log2Fin (f : Fmt) (md : Rm) (m : Nat) (e : Int) : Nat × Flags :=
  let n := bitLen m - 1
  if m = 2 ^ n then roundInt f md (e + n)
  else
    let v : Int := (e + n) * 2 ^ serBits + (lnRatio m (2 ^ n) * 2 ^ serBits / ln2 : Nat)
    if 0 ≤ v then roundTo f md false (2 * v.natAbs + 1) (-serBits - 1)
    else roundTo f md true (2 * v.natAbs - 1) (-serBits - 1)
/-- LOG2 (R181). -/
def fLog2 (f : Fmt) (md : Rm) (a : Nat) : Nat × Flags :=
  match fval f a with
  | .nan x => nanRes f x
  | .inf s => if s then nanRes f true else (infOf f false, 0)
  | .fin s m e =>
    if m = 0 then (infOf f true, flagDZ) else if s then nanRes f true else log2Fin f md m e

/-- A magnitude order in which −0 lies below +0 (R176). -/
def ordKey (f : Fmt) (x : Nat) : Int :=
  let m := x % signBit f
  if signOf f x then -(m : Int) - 1 else m
/-- FMIN and FMAX: minimumNumber and maximumNumber (R176). -/
def fMinMax (f : Fmt) (isMax : Bool) (a b : Nat) : Nat × Flags :=
  let va := fval f a
  let vb := fval f b
  let nv : Flags := if va.isSig || vb.isSig then flagNV else 0
  if va.isNaN && vb.isNaN then (canonNaN f, nv)
  else if va.isNaN then (b, nv)
  else if vb.isNaN then (a, nv)
  else if (decide (ordKey f a < ordKey f b)) != isMax then (a, nv) else (b, nv)

/-- Value order, in which the zeros are equal (R177). -/
def cmpKey (f : Fmt) (x : Nat) : Int :=
  let m := x % signBit f
  if signOf f x then -(m : Int) else m
/-- FSET and FSETV (R177). -/
def fCmp (f : Fmt) (c : FCmp) (a b : Nat) : Bool × Flags :=
  let va := fval f a
  let vb := fval f b
  let un := va.isNaN || vb.isNaN
  let sig := va.isSig || vb.isSig
  let x := cmpKey f a
  let y := cmpKey f b
  match c with
  | .eq => (!un && decide (x = y), if sig then flagNV else 0)
  | .ne => (un || decide (x ≠ y), if sig then flagNV else 0)
  | .lt => (!un && decide (x < y), if un then flagNV else 0)
  | .le => (!un && decide (x ≤ y), if un then flagNV else 0)
  | .gt => (!un && decide (y < x), if un then flagNV else 0)
  | .ge => (!un && decide (y ≤ x), if un then flagNV else 0)
  | .un => (un, if sig then flagNV else 0)
  | .num => (!un, if sig then flagNV else 0)

/-- FCLS: one bit of [9:0] (R178). -/
def fClass (f : Fmt) (x : Nat) : Nat :=
  let s := signOf f x
  match fval f x with
  | .nan true => 256
  | .nan false => 512
  | .inf _ => if s then 1 else 128
  | .fin _ m _ =>
    if m = 0 then (if s then 8 else 16)
    else if expField f x = 0 then (if s then 4 else 32)
    else if s then 2 else 64

/-- FRND: an integral value of the same format, raising nothing but NV (R179). -/
def fRnd (f : Fmt) (md : Rm) (a : Nat) : Nat × Flags :=
  match fval f a with
  | .nan x => nanRes f x
  | .inf _ => (a, 0)
  | .fin s m e =>
    if 0 ≤ e then (a, 0)
    else
      let n := (cutTo md s m e 0).1
      if n = 0 then (zeroOf f s, 0) else ((roundTo f md s n 0).1, 0)

/-- F2I: the integer of the destination type, with NX or NV (R111, R180). -/
def fToInt (f : Fmt) (ty : Ty) (md : Rm) (a : Nat) : Int × Flags :=
  match fval f a with
  | .nan _ => (0, flagNV)
  | .inf s => (if s then tyLo ty else tyHi ty, flagNV)
  | .fin s m e =>
    let (n, inexact) := cutTo md s m e 0
    let v : Int := if s then -(n : Int) else n
    if v < tyLo ty then (tyLo ty, flagNV)
    else if tyHi ty < v then (tyHi ty, flagNV)
    else (v, if inexact then flagNX else 0)

/-- FCVT and the lanes of HCVT2 (R110, R180). -/
def fConvert (dst src : Fmt) (md : Rm) (a : Nat) : Nat × Flags :=
  match fval src a with
  | .nan x => nanRes dst x
  | .inf s => (infOf dst s, 0)
  | .fin s m e => if dst = src then (a, 0) else roundTo dst md s m e

/-- fadd_atomic: R175's sum under .RN, without flags (R198). -/
def faddAtomic (a b : Nat) : Nat := (fAdd .f32 .rn a b).1

/-- node(a, b) of R112: an absent operand is an identity. A value carries the flags of the nodes behind it. -/
def node {α : Type} (comb : α → α → α × Flags) (a b : Option (α × Flags)) : Option (α × Flags) :=
  match a, b with
  | none, b => b
  | a, none => a
  | some x, some y => some ((comb x.1 y.1).1, x.2 ||| y.2 ||| (comb x.1 y.1).2)
/-- The node of a scan: slot i keeps the flags of the nodes written into slot i only (R189). -/
def scanNode {α : Type} (comb : α → α → α × Flags) (a b : Option (α × Flags)) : Option (α × Flags) :=
  match a, b with
  | none, b => b
  | some x, none => some (x.1, 0)
  | some x, some y => some ((comb x.1 y.1).1, y.2 ||| (comb x.1 y.1).2)

/-- One level of the tree of R112 over a list of slots: neighbours at distance 2^k of every 2^(k+1) fold together,
so folding the list pairwise gives the slots of the next level. -/
def treeLevel {α : Type} (comb : α → α → α × Flags) : List (Option (α × Flags)) → List (Option (α × Flags))
  | a :: b :: l => node comb a b :: treeLevel comb l
  | l => l
/-- The root of the tree of R112 over 2^n slots. -/
def treeRoot {α : Type} (comb : α → α → α × Flags) : Nat → List (Option (α × Flags)) → Option (α × Flags)
  | 0, l => l.headD none
  | n + 1, l => treeRoot comb n (treeLevel comb l)

/-- One level of the scan of R113: slot i takes node(y[i − d], y[i]) for i ≥ d. -/
def scanLevel {α : Type} (comb : α → α → α × Flags) (d : Nat) (y : List (Option (α × Flags))) :
    List (Option (α × Flags)) :=
  y.take d ++ List.zipWith (scanNode comb) y (y.drop d)
/-- The levels k = n₀, n₀ + 1, … of the scan of R113. -/
def scanLevels {α : Type} (comb : α → α → α × Flags) : Nat → Nat → List (Option (α × Flags)) →
    List (Option (α × Flags))
  | 0, _, y => y
  | n + 1, k, y => scanLevels comb n (k + 1) (scanLevel comb (2 ^ k) y)

end Sys2Proof.Machine
end

