-- ==== Sys2Proof/WellFormed.lean ====
section
/-!
DEFINITION. Which terms of Instr are instructions: the guard names a predicate (R134), the codes are those the entry
accepts, the registers lie in range and, for an encoded instruction, LA is zero where R141 does not permit it.
-/
namespace Sys2Proof

/-- Encoded instructions on which LA may be nonzero (R141). -/
def Instr.takesLa : Instr → Bool
  | .fdiv _ _ _ _ _ _ => true
  | .rcp _ _ _ _ _ => true
  | .rsq _ _ _ _ _ => true
  | .sqrt _ _ _ _ _ => true
  | .exp2 _ _ _ _ _ => true
  | .log2 _ _ _ _ _ => true
  | .ldS _ _ _ _ _ _ _ _ => true
  | .ldW _ _ _ _ _ _ _ _ => true
  | .stS _ _ _ _ _ _ _ _ => true
  | .stW _ _ _ _ _ _ _ _ => true
  | .atom _ _ _ _ _ _ _ _ _ _ => true
  | .acas _ _ _ _ _ _ _ _ _ _ _ => true
  | .red _ _ _ _ _ _ _ _ _ => true
  | .rmac _ _ _ _ _ _ => true
  | .rmag _ _ _ _ _ _ _ => true
  | .cpi _ _ _ _ _ _ => true
  | .cpo _ _ _ _ _ _ => true
  | .cpl _ _ _ _ _ _ => true
  | .cpr _ _ _ _ _ _ => true
  | .cpf _ _ _ _ _ => true
  | .tlwS _ _ _ => true
  | .tlwW _ _ _ => true
  | .tlwCtr _ _ _ _ _ _ => true
  | _ => false

/-- A BR to REFORM or HIRE distance is a multiple of 4 (R147). -/
def Instr.distanceOk : Instr → Bool
  | .br _ _ _ imm => imm.toNat % 4 == 0
  | .bru _ _ _ (.imm d) => d.toNat % 4 == 0
  | .jmp _ imm => imm.toNat % 4 == 0
  | .call _ _ imm => imm.toNat % 4 == 0
  | .reform _ _ imm => imm.toNat % 4 == 0
  | .hire _ _ _ _ _ _ imm => imm.toNat % 4 == 0
  | _ => true

/-- Reserved values a form's other fields make reserved are zero: pC of IADD and ISUB without carry (R155), C of HIRE
under .NONE (R241), A, B, C of TINV (R294), A of TRET (R241), C of a copy without scales (R228), the high half of a
16-bit immediate (R174), B of HCVT2 but .PK (R184), A of VOTE.ACT (R190). -/
def Instr.reservedOk : Instr → Bool
  | .iaddS _ _ _ sub _ _ _ c => sub != .none || c == 0
  | .iaddW _ _ _ sub _ _ _ c => sub != .none || c == 0
  | .isubS _ _ _ sub _ _ _ c => sub != .none || c == 0
  | .isubW _ _ _ sub _ _ _ c => sub != .none || c == 0
  | .faddW _ fmt _ _ _ imm => fmt == .f32 || decide (imm.toNat < 65536)
  | .fsubW _ fmt _ _ _ imm => fmt == .f32 || decide (imm.toNat < 65536)
  | .fmulW _ fmt _ _ _ imm => fmt == .f32 || decide (imm.toNat < 65536)
  | .fminW _ fmt _ _ imm => fmt == .f32 || decide (imm.toNat < 65536)
  | .fmaxW _ fmt _ _ imm => fmt == .f32 || decide (imm.toNat < 65536)
  | .fsetW _ fmt _ _ _ imm => fmt == .f32 || decide (imm.toNat < 65536)
  | .fsetvW _ fmt _ _ _ imm => fmt == .f32 || decide (imm.toNat < 65536)
  | .hcvt2 _ op _ _ _ _ b => op == .pk || b == 0
  | .vote _ op _ a => op != .act || a == 127
  | .cpi _ _ _ _ c desc => desc.fmt.scaled || c == 0
  | .cpo _ _ _ _ c desc => desc.fmt.scaled || c == 0
  | .cpl _ _ _ _ c _ => c == 0
  | .cpr _ _ _ _ c _ => c == 0
  | .hire _ _ comb _ _ c _ => comb != .none || c == 0
  | .tret _ mode a => mode == .to || a == 0
  | .tinv _ kind a b c => (kind != .all || a == 0) && (kind == .range || (b == 0 && c == 0))
  | _ => true

/-- A well-formed instruction. -/
def Instr.wellFormed (i : Instr) : Bool :=
  i.head.gOk && i.fnOk && (i.head.la == 0 || i.takesLa) && i.regsOk && i.distanceOk && i.reservedOk

/-- i is a well-formed instruction. -/
def WellFormed (i : Instr) : Prop := i.wellFormed = true

end Sys2Proof
end

