-- ==== Sys2Proof/Decode.lean ====
section
/-!
DEFINITION. Decoding of instruction words (R129 to R147) and their encoder: the head's fields, the codes of each field,
the reserved bits of each form (R134, R138), and the checks 4, 6, 7, 9, 10 and 11 of R139 with their codes (R140).
-/
namespace Sys2Proof

/-- Bool as a bit. -/
def b1 (b : Bool) : BitVec 1 := if b then 1 else 0

/-- TY codes (R136). -/
def Ty.code : Ty → BitVec 4
  | .s8 => 0
  | .z8 => 1
  | .s16 => 2
  | .z16 => 3
  | .s32 => 4
  | .z32 => 5
  | .s64 => 6
  | .z64 => 7
  | .f32 => 8
  | .f16 => 9
  | .bf16 => 10
/-- Ty of its code. -/
def Ty.ofCode (x : BitVec 4) : Option Ty :=
  if x == 0 then some .s8 else if x == 1 then some .z8 else if x == 2 then some .s16 else if x == 3 then some .z16 else if x == 4 then some .s32 else if x == 5 then some .z32 else if x == 6 then some .s64 else if x == 7 then some .z64 else if x == 8 then some .f32 else if x == 9 then some .f16 else if x == 10 then some .bf16 else none

/-- RM codes (R137). -/
def Rm.code : Rm → BitVec 2
  | .rn => 0
  | .rz => 1
  | .rp => 2
  | .rm => 3
/-- Rm of its code. -/
def Rm.ofCode (x : BitVec 2) : Option Rm :=
  if x == 0 then some .rn else if x == 1 then some .rz else if x == 2 then some .rp else if x == 3 then some .rm else none

/-- ORD codes (R137). -/
def Ord.code : Ord → BitVec 3
  | .rlx => 0
  | .acq => 1
  | .rel => 2
  | .ar => 3
  | .seq => 4
/-- Ord of its code. -/
def Ord.ofCode (x : BitVec 3) : Option Ord :=
  if x == 0 then some .rlx else if x == 1 then some .acq else if x == 2 then some .rel else if x == 3 then some .ar else if x == 4 then some .seq else none

/-- SCOPE codes (R137). -/
def Scope.code : Scope → BitVec 3
  | .none => 0
  | .t => 1
  | .g => 2
  | .h => 3
  | .d => 4
  | .p => 5
  | .m => 6
  | .s => 7
/-- Scope of its code. -/
def Scope.ofCode (x : BitVec 3) : Option Scope :=
  if x == 0 then some .none else if x == 1 then some .t else if x == 2 then some .g else if x == 3 then some .h else if x == 4 then some .d else if x == 5 then some .p else if x == 6 then some .m else if x == 7 then some .s else Option.none

/-- SUB of IADD and ISUB (R155). -/
def Carry.code : Carry → BitVec 3
  | .none => 0
  | .co => 1
  | .ci => 2
  | .cio => 3
/-- Carry of its code. -/
def Carry.ofCode (x : BitVec 3) : Option Carry :=
  if x == 0 then some .none else if x == 1 then some .co else if x == 2 then some .ci else if x == 3 then some .cio else Option.none

/-- SUB of ISET and ISETV (R155). -/
def ICmp.code : ICmp → BitVec 3
  | .eq => 0
  | .ne => 1
  | .lt => 2
  | .le => 3
  | .gt => 4
  | .ge => 5
/-- ICmp of its code. -/
def ICmp.ofCode (x : BitVec 3) : Option ICmp :=
  if x == 0 then some .eq else if x == 1 then some .ne else if x == 2 then some .lt else if x == 3 then some .le else if x == 4 then some .gt else if x == 5 then some .ge else none

/-- SUB of FSET and FSETV (R177). -/
def FCmp.code : FCmp → BitVec 3
  | .eq => 0
  | .ne => 1
  | .lt => 2
  | .le => 3
  | .gt => 4
  | .ge => 5
  | .un => 6
  | .num => 7
/-- FCmp of its code. -/
def FCmp.ofCode (x : BitVec 3) : Option FCmp :=
  if x == 0 then some .eq else if x == 1 then some .ne else if x == 2 then some .lt else if x == 3 then some .le else if x == 4 then some .gt else if x == 5 then some .ge else if x == 6 then some .un else if x == 7 then some .num else none

/-- SUB of FSH (R155). -/
def FshDir.code : FshDir → BitVec 3
  | .right => 0
  | .left => 1
/-- FshDir of its code. -/
def FshDir.ofCode (x : BitVec 3) : Option FshDir :=
  if x == 0 then some .right else if x == 1 then some .left else none

/-- SZ codes of loads (R136). -/
def LdSz.code : LdSz → BitVec 4
  | .s8 => 0
  | .z8 => 1
  | .s16 => 2
  | .z16 => 3
  | .b32 => 4
  | .b64 => 5
  | .b128 => 6
/-- LdSz of its code. -/
def LdSz.ofCode (x : BitVec 4) : Option LdSz :=
  if x == 0 then some .s8 else if x == 1 then some .z8 else if x == 2 then some .s16 else if x == 3 then some .z16 else if x == 4 then some .b32 else if x == 5 then some .b64 else if x == 6 then some .b128 else none

/-- SZ codes of stores (R136). -/
def StSz.code : StSz → BitVec 4
  | .b8 => 0
  | .b16 => 2
  | .b32 => 4
  | .b64 => 5
  | .b128 => 6
/-- StSz of its code. -/
def StSz.ofCode (x : BitVec 4) : Option StSz :=
  if x == 0 then some .b8 else if x == 2 then some .b16 else if x == 4 then some .b32 else if x == 5 then some .b64 else if x == 6 then some .b128 else none

/-- AOP codes (R198). -/
def Aop.code : Aop → BitVec 4
  | .add => 0
  | .min => 1
  | .max => 2
  | .and => 3
  | .or => 4
  | .xor => 5
  | .exch => 6
  | .inc => 7
  | .dec => 8
/-- Aop of its code. -/
def Aop.ofCode (x : BitVec 4) : Option Aop :=
  if x == 0 then some .add else if x == 1 then some .min else if x == 2 then some .max else if x == 3 then some .and else if x == 4 then some .or else if x == 5 then some .xor else if x == 6 then some .exch else if x == 7 then some .inc else if x == 8 then some .dec else none

/-- SUB of VRED and VSCAN (R189). -/
def RedOp.code : RedOp → BitVec 3
  | .add => 0
  | .min => 1
  | .max => 2
  | .and => 3
  | .or => 4
  | .xor => 5
/-- RedOp of its code. -/
def RedOp.ofCode (x : BitVec 3) : Option RedOp :=
  if x == 0 then some .add else if x == 1 then some .min else if x == 2 then some .max else if x == 3 then some .and else if x == 4 then some .or else if x == 5 then some .xor else none

/-- SUB of VOTE (R190). -/
def VoteOp.code : VoteOp → BitVec 3
  | .any => 0
  | .all => 1
  | .uni => 2
  | .bal => 3
  | .act => 4
/-- VoteOp of its code. -/
def VoteOp.ofCode (x : BitVec 3) : Option VoteOp :=
  if x == 0 then some .any else if x == 1 then some .all else if x == 2 then some .uni else if x == 3 then some .bal else if x == 4 then some .act else none

/-- SUB of VSHF (R188). -/
def ShfOp.code : ShfOp → BitVec 3
  | .idx => 0
  | .up => 1
  | .dn => 2
/-- ShfOp of its code. -/
def ShfOp.ofCode (x : BitVec 3) : Option ShfOp :=
  if x == 0 then some .idx else if x == 1 then some .up else if x == 2 then some .dn else none

/-- SUB of HCVT2 (R184). -/
def HcvtOp.code : HcvtOp → BitVec 3
  | .pk => 0
  | .upk => 1
  | .x => 2
/-- HcvtOp of its code: SUB of HCVT2 as R184 gives it, though R173 lists it as a source format (log 72). -/
def HcvtOp.ofCode (x : BitVec 3) : Option HcvtOp :=
  if x == 0 then some .pk else if x == 1 then some .upk else if x == 2 then some .x else none

/-- Levels of PREF (R192). -/
def PrefLv.code : PrefLv → BitVec 4
  | .l1 => 0
  | .l2 => 1
/-- PrefLv of its code. -/
def PrefLv.ofCode (x : BitVec 4) : Option PrefLv :=
  if x == 0 then some .l1 else if x == 1 then some .l2 else none

/-- Operations of CFLUSH (R192). -/
def CfOp.code : CfOp → BitVec 4
  | .l1 => 0
  | .cln => 1
  | .inv => 2
/-- CfOp of its code. -/
def CfOp.ofCode (x : BitVec 4) : Option CfOp :=
  if x == 0 then some .l1 else if x == 1 then some .cln else if x == 2 then some .inv else none

/-- WIN codes (R241). -/
def Win.code : Win → BitVec 2
  | .w8 => 0
  | .w16 => 1
  | .w32 => 2
  | .w64 => 3
/-- Win of its code. -/
def Win.ofCode (x : BitVec 2) : Option Win :=
  if x == 0 then some .w8 else if x == 1 then some .w16 else if x == 2 then some .w32 else if x == 3 then some .w64 else none

/-- COMB codes (R241). -/
def Comb.code : Comb → BitVec 3
  | .none => 0
  | .addS32 => 1
  | .addF32 => 2
  | .min => 3
  | .max => 4
  | .and => 5
  | .or => 6
  | .xor => 7
/-- Comb of its code. -/
def Comb.ofCode (x : BitVec 3) : Option Comb :=
  if x == 0 then some .none else if x == 1 then some .addS32 else if x == 2 then some .addF32 else if x == 3 then some .min else if x == 4 then some .max else if x == 5 then some .and else if x == 6 then some .or else if x == 7 then some .xor else none

/-- MODE codes (R241). -/
def TretMode.code : TretMode → BitVec 2
  | .retry => 0
  | .next => 1
  | .to => 2
/-- TretMode of its code. -/
def TretMode.ofCode (x : BitVec 2) : Option TretMode :=
  if x == 0 then some .retry else if x == 1 then some .next else if x == 2 then some .to else none

/-- TINV kinds (R294). -/
def TinvKind.code : TinvKind → BitVec 2
  | .all => 0
  | .ctx => 1
  | .range => 2
/-- TinvKind of its code. -/
def TinvKind.ofCode (x : BitVec 2) : Option TinvKind :=
  if x == 0 then some .all else if x == 1 then some .ctx else if x == 2 then some .range else none

/-- CINVR operations (R294). -/
def CinvOp.code : CinvOp → BitVec 2
  | .cln => 0
  | .inv => 1
  | .disc => 2
/-- CinvOp of its code. -/
def CinvOp.ofCode (x : BitVec 2) : Option CinvOp :=
  if x == 0 then some .cln else if x == 1 then some .inv else if x == 2 then some .disc else none

/-- FA and FB codes (R217). -/
def MxFmt.code : MxFmt → BitVec 2
  | .bq => 0
  | .bx => 1
/-- MxFmt of its code. -/
def MxFmt.ofCode (x : BitVec 2) : Option MxFmt :=
  if x == 0 then some .bq else if x == 1 then some .bx else none

/-- FMT codes (R230). -/
def CpFmt.code : CpFmt → BitVec 4
  | .raw => 0
  | .bq8 => 1
  | .bq4 => 2
  | .bx16 => 3
  | .bf16 => 4
  | .fp16 => 5
/-- CpFmt of its code. -/
def CpFmt.ofCode (x : BitVec 4) : Option CpFmt :=
  if x == 0 then some .raw else if x == 1 then some .bq8 else if x == 2 then some .bq4 else if x == 3 then some .bx16 else if x == 4 then some .bf16 else if x == 5 then some .fp16 else none

/-- AM codes (R146). -/
def Am.code : Am → BitVec 2
  | .pair => 0
  | .slice => 1
  | .core => 2
  | .dsp => 3
/-- Am of its code. -/
def Am.ofCode (x : BitVec 2) : Am :=
  if x == 0 then .pair else if x == 1 then .slice else if x == 2 then .core else .dsp
/-- Floating-point formats as TY codes 8 to 10 (R136, R173). -/
def Fmt.tyCode : Fmt → BitVec 4
  | .f32 => 8
  | .f16 => 9
  | .bf16 => 10
/-- Format of a TY code. -/
def Fmt.ofTyCode (x : BitVec 4) : Option Fmt :=
  if x == 8 then some .f32 else if x == 9 then some .f16 else if x == 10 then some .bf16 else none
/-- Format codes of SUB (R173). -/
def Fmt.subCode : Fmt → BitVec 3
  | .f32 => 0
  | .f16 => 1
  | .bf16 => 2
/-- Format of a SUB code. -/
def Fmt.ofSubCode (x : BitVec 3) : Option Fmt :=
  if x == 0 then some .f32 else if x == 1 then some .f16 else if x == 2 then some .bf16 else none
/-- TY 5 and 7 select the single and the pair form of POPC to BREV and MOV (R155). -/
def wideCode (wide : Bool) : BitVec 4 := if wide then 7 else 5
/-- The form of a TY code. -/
def wideOf (x : BitVec 4) : Option Bool := if x == 5 then some false else if x == 7 then some true else none
/-- SUB of P2V and V2P: 0 group, 1 .B (R155). -/
def bitSub (b : Bool) : BitVec 3 := if b then 1 else 0
/-- The form of SUB. -/
def bitOfSub (x : BitVec 3) : Option Bool := if x == 0 then some false else if x == 1 then some true else none
/-- SCOPE of BAR: 2 for a group barrier, 3 for the hood barrier (R192). -/
def barScope (hood : Bool) : BitVec 3 := if hood then 3 else 2
/-- The barrier of a SCOPE code. -/
def barHood (x : BitVec 3) : Option Bool := if x == 2 then some false else if x == 3 then some true else none

/-- Whether BRU takes a register target (R166). -/
def BruTarget.isReg : BruTarget → Bool
  | .imm _ => false
  | .reg _ => true
/-- Field B of BRU. -/
def BruTarget.regField : BruTarget → BitVec 8
  | .imm _ => 0
  | .reg b => b
/-- IMM32 of BRU. -/
def BruTarget.ext : BruTarget → BitVec 32
  | .imm d => d
  | .reg _ => 0
/-- LEN of an offset form (R146). -/
def Off.len : Off → BitVec 2
  | .short _ => 0
  | .long _ => 1
/-- Field C of an offset. -/
def Off.cField : Off → BitVec 8
  | .short o => o
  | .long _ => 0
/-- IMM32 of an offset. -/
def Off.ext : Off → BitVec 32
  | .short _ => 0
  | .long o => o

/-- Descriptor of RMAC and RMAG (R217). -/
def MxDesc.bits (m : MxDesc) : BitVec 64 := 0#24 ++ m.sb ++ m.sa ++ 0#1 ++ m.fb.code ++ m.fa.code ++ m.kbm1
/-- Reading of a matrix descriptor. -/
def MxDesc.ofBits (x : BitVec 64) : Option MxDesc := do
  let fb ← MxFmt.ofCode (x.extractLsb' 5 2)
  let fa ← MxFmt.ofCode (x.extractLsb' 3 2)
  some ⟨x.extractLsb' 24 16, x.extractLsb' 8 16, fb, fa, x.extractLsb' 0 3⟩
/-- Descriptor of a copy (R229). -/
def CpDesc.bits (m : CpDesc) : BitVec 64 :=
  m.fmt.code ++ m.tl ++ m.sc.code ++ m.sstr ++ m.dstr ++ m.nrm1 ++ m.lnm1
/-- Reading of a copy descriptor. -/
def CpDesc.ofBits (x : BitVec 64) : Option CpDesc := do
  let fmt ← CpFmt.ofCode (x.extractLsb' 60 4)
  let sc ← Scope.ofCode (x.extractLsb' 55 3)
  some ⟨fmt, x.extractLsb' 58 2, sc, x.extractLsb' 37 18, x.extractLsb' 20 17, x.extractLsb' 10 10, x.extractLsb' 0 10⟩

/-- The fields of an instruction: its head (R132) and its extension, zero above the instruction's length (R133). -/
structure Raw where
  len : BitVec 2
  op  : BitVec 8
  g   : BitVec 7
  gn  : Bool
  d   : BitVec 8
  a   : BitVec 8
  b   : BitVec 8
  c   : BitVec 8
  la  : BitVec 4
  fn  : BitVec 10
  ext : BitVec 64
  deriving DecidableEq, Repr

namespace Raw

/-- Guard and lookahead. -/
def head (x : Raw) : Head := ⟨x.g, x.gn, x.la⟩
/-- FN[9:7]: SUB or ORD (R138). -/
def sub (x : Raw) : BitVec 3 := x.fn.extractLsb' 7 3
/-- FN[6]: SAT (R138). -/
def satBit (x : Raw) : BitVec 1 := x.fn.extractLsb' 6 1
/-- FN[5:4]: RM (R138). -/
def rm (x : Raw) : BitVec 2 := x.fn.extractLsb' 4 2
/-- FN[6:4]: SCOPE (R138). -/
def scope (x : Raw) : BitVec 3 := x.fn.extractLsb' 4 3
/-- FN[3:0]: TY or SZ (R138). -/
def ty (x : Raw) : BitVec 4 := x.fn.extractLsb' 0 4
/-- IMM32 of a W form (R133). -/
def imm32 (x : Raw) : BitVec 32 := x.ext.extractLsb' 0 32

/-- The instruction's bits [127:0] (R132, R133). -/
def pack (x : Raw) : BitVec 128 :=
  x.ext ++ x.fn ++ x.la ++ x.c ++ x.b ++ x.a ++ x.d ++ b1 x.gn ++ x.g ++ x.op ++ x.len
/-- The fields of bits [127:0]; bits above the length are no part of the instruction (R129). -/
def unpack (w : BitVec 128) : Raw :=
  let len := w.extractLsb' 0 2
  let ext : BitVec 64 := w.extractLsb' 64 64
  { len := len, op := w.extractLsb' 2 8, g := w.extractLsb' 10 7, gn := w.extractLsb' 17 1 == 1,
    d := w.extractLsb' 18 8, a := w.extractLsb' 26 8, b := w.extractLsb' 34 8, c := w.extractLsb' 42 8,
    la := w.extractLsb' 50 4, fn := w.extractLsb' 54 10,
    ext := if len == 0 then 0 else if len == 1 then ext &&& 0xFFFFFFFF else ext }

/-- Lengths an opcode permits; none for an unassigned opcode (R145). -/
def permitted (op : BitVec 8) : List (BitVec 2) :=
  match op.toNat with
  | 0x04 | 0x05 | 0x0A | 0x0B | 0x0C | 0x0F | 0x15 | 0x1A | 0x1B | 0x1C | 0x1D | 0x1E | 0x1F | 0x20 | 0x32 | 0x33 |
   0x36 | 0x37 | 0x38 | 0x39 | 0x44 | 0x45 | 0x47 | 0x49 | 0x4A | 0x63 | 0x64 | 0x69 | 0x6A | 0x6B | 0x6C | 0x6D |
   0x6E | 0x6F | 0x70 | 0x71 | 0x72 | 0x73 | 0x80 | 0x81 | 0x82 | 0x83 | 0x84 | 0x85 | 0x86 | 0x87 | 0x88 | 0x89 |
   0x8A | 0x90 | 0x91 | 0x92 | 0x93 | 0x94 | 0xA7 | 0xA8 | 0xA9 | 0xAA | 0xAC | 0xAD | 0xAE | 0xC2 | 0xC5 | 0xC6 |
   0xC7 | 0xD5 | 0xD6 | 0xD9 | 0xDA | 0xE1 | 0xE2 | 0xE3 | 0xE4 | 0xE5 | 0xE6 | 0xE7 | 0xE8 | 0xE9 | 0xEA | 0xF0 |
   0xF1 | 0xF2 | 0xF3 | 0xF4 | 0xF5 | 0xF6 => [0]
  | 0x00 | 0x01 | 0x02 | 0x03 | 0x06 | 0x07 | 0x08 | 0x09 | 0x0D | 0x0E | 0x10 | 0x11 | 0x12 | 0x13 | 0x14 | 0x16 |
   0x17 | 0x18 | 0x19 | 0x21 | 0x30 | 0x31 | 0x60 | 0x61 | 0x62 | 0x65 | 0x66 | 0x67 | 0x68 | 0xA0 | 0xA1 | 0xA5 |
   0xA6 | 0xC3 | 0xC4 | 0xD8 => [0, 1]
  | 0x34 | 0x40 | 0x41 | 0x42 | 0x43 | 0x46 | 0x8B | 0xA2 | 0xA4 | 0xAB | 0xE0 => [1]
  | 0x35 | 0xA3 | 0xC0 | 0xC1 | 0xD0 | 0xD1 | 0xD2 | 0xD3 | 0xD4 => [2]
  | 0x48 => [0, 1, 2]
  | _ => []

/-- The bits of each field an instruction uses. -/
structure Used where
  d   : BitVec 8
  a   : BitVec 8
  b   : BitVec 8
  c   : BitVec 8
  fn  : BitVec 10
  ext : BitVec 64
  deriving DecidableEq, Repr

/-- The bits the form at hand uses; every other bit is reserved (R134, R138, R147 and each entry). All of SUBON's B is its register, as the
table has it (R193; log 96). -/
def used (x : Raw) : Used :=
  match x.op.toNat with
  | 0x00 => if x.len == 0 then ⟨0xFF, 0xFF, 0xFF, (if x.sub == 0 then 0 else 0xFF), 0x3CF, 0⟩
    else ⟨0xFF, 0xFF, 0, (if x.sub == 0 then 0 else 0xFF), 0x3CF, 0xFFFFFFFF⟩
  | 0x01 => if x.len == 0 then ⟨0xFF, 0xFF, 0xFF, (if x.sub == 0 then 0 else 0xFF), 0x3CF, 0⟩
    else ⟨0xFF, 0xFF, 0, (if x.sub == 0 then 0 else 0xFF), 0x3CF, 0xFFFFFFFF⟩
  | 0x02 => if x.len == 0 then ⟨0xFF, 0xFF, 0xFF, 0, 0x3CF, 0⟩
    else ⟨0xFF, 0xFF, 0, 0, 0x3CF, 0xFFFFFFFF⟩
  | 0x03 => if x.len == 0 then ⟨0xFF, 0xFF, 0xFF, 0, 0x38F, 0⟩
    else ⟨0xFF, 0xFF, 0, 0, 0x38F, 0xFFFFFFFF⟩
  | 0x04 => ⟨0xFF, 0xFF, 0xFF, 0xFF, 0x3CF, 0⟩
  | 0x05 => ⟨0xFF, 0xFF, 0xFF, 0xFF, 0x3CF, 0⟩
  | 0x06 => if x.len == 0 then ⟨0xFF, 0xFF, 0xFF, 0, 0x38F, 0⟩
    else ⟨0xFF, 0xFF, 0, 0, 0x38F, 0xFFFFFFFF⟩
  | 0x07 => if x.len == 0 then ⟨0xFF, 0xFF, 0xFF, 0, 0x38F, 0⟩
    else ⟨0xFF, 0xFF, 0, 0, 0x38F, 0xFFFFFFFF⟩
  | 0x08 => if x.len == 0 then ⟨0xFF, 0xFF, 0xFF, 0, 0x38F, 0⟩
    else ⟨0xFF, 0xFF, 0, 0, 0x38F, 0xFFFFFFFF⟩
  | 0x09 => if x.len == 0 then ⟨0xFF, 0xFF, 0xFF, 0, 0x38F, 0⟩
    else ⟨0xFF, 0xFF, 0, 0, 0x38F, 0xFFFFFFFF⟩
  | 0x0A => ⟨0xFF, 0xFF, 0, 0, 0x3CF, 0⟩
  | 0x0B => ⟨0xFF, 0xFF, 0, 0, 0x3CF, 0⟩
  | 0x0C => ⟨0xFF, 0xFF, 0xFF, 0xFF, 0x3CF, 0⟩
  | 0x0D => if x.len == 0 then ⟨0xFF, 0xFF, 0xFF, 0, 0x3CF, 0⟩
    else ⟨0xFF, 0xFF, 0, 0, 0x3CF, 0xFFFFFFFF⟩
  | 0x0E => if x.len == 0 then ⟨0xFF, 0xFF, 0xFF, 0, 0x3CF, 0⟩
    else ⟨0xFF, 0xFF, 0, 0, 0x3CF, 0xFFFFFFFF⟩
  | 0x0F => ⟨0xFF, 0xFF, 0xFF, 0, 0x3CF, 0⟩
  | 0x10 => if x.len == 0 then ⟨0xFF, 0xFF, 0xFF, 0, 0x380, 0⟩
    else ⟨0xFF, 0xFF, 0, 0, 0x380, 0xFFFFFFFF⟩
  | 0x11 => if x.len == 0 then ⟨0xFF, 0xFF, 0xFF, 0, 0x380, 0⟩
    else ⟨0xFF, 0xFF, 0, 0, 0x380, 0xFFFFFFFF⟩
  | 0x12 => if x.len == 0 then ⟨0xFF, 0xFF, 0xFF, 0, 0x380, 0⟩
    else ⟨0xFF, 0xFF, 0, 0, 0x380, 0xFFFFFFFF⟩
  | 0x13 => if x.len == 0 then ⟨0xFF, 0xFF, 0xFF, 0, 0x380, 0⟩
    else ⟨0xFF, 0xFF, 0, 0, 0x380, 0xFFFFFFFF⟩
  | 0x14 => if x.len == 0 then ⟨0xFF, 0xFF, 0xFF, 0, 0x380, 0⟩
    else ⟨0xFF, 0xFF, 0, 0, 0x380, 0xFFFFFFFF⟩
  | 0x15 => ⟨0xFF, 0xFF, 0, 0, 0x380, 0⟩
  | 0x16 => if x.len == 0 then ⟨0xFF, 0xFF, 0xFF, 0, 0x380, 0⟩
    else ⟨0xFF, 0xFF, 0, 0, 0x380, 0xFFFFFFFF⟩
  | 0x17 => if x.len == 0 then ⟨0xFF, 0xFF, 0xFF, 0, 0x380, 0⟩
    else ⟨0xFF, 0xFF, 0, 0, 0x380, 0xFFFFFFFF⟩
  | 0x18 => if x.len == 0 then ⟨0xFF, 0xFF, 0xFF, 0, 0x380, 0⟩
    else ⟨0xFF, 0xFF, 0, 0, 0x380, 0xFFFFFFFF⟩
  | 0x19 => if x.len == 0 then ⟨0xFF, 0xFF, 0xFF, 0, 0x380, 0⟩
    else ⟨0xFF, 0xFF, 0, 0, 0x380, 0xFFFFFFFF⟩
  | 0x1A => ⟨0xFF, 0xFF, 0xFF, 0xFF, 0x380, 0⟩
  | 0x1B => ⟨0xFF, 0xFF, 0xFF, 0xFF, 0x38F, 0⟩
  | 0x1C => ⟨0xFF, 0xFF, 0xFF, 0xFF, 0x380, 0⟩
  | 0x1D => ⟨0xFF, 0xFF, 0, 0, 0x38F, 0⟩
  | 0x1E => ⟨0xFF, 0xFF, 0, 0, 0x38F, 0⟩
  | 0x1F => ⟨0xFF, 0xFF, 0, 0, 0x38F, 0⟩
  | 0x20 => ⟨0xFF, 0xFF, 0, 0, 0x38F, 0⟩
  | 0x21 => if x.len == 0 then ⟨0xFF, 0xFF, 0xFF, 0, 0x380, 0⟩
    else ⟨0xFF, 0xFF, 0, 0, 0x380, 0xFFFFFFFF⟩
  | 0x30 => if x.len == 0 then ⟨0xFF, 0xFF, 0xFF, 0, 0x38F, 0⟩
    else ⟨0xFF, 0xFF, 0, 0, 0x38F, 0xFFFFFFFF⟩
  | 0x31 => if x.len == 0 then ⟨0xFF, 0xFF, 0xFF, 0, 0x38F, 0⟩
    else ⟨0xFF, 0xFF, 0, 0, 0x38F, 0xFFFFFFFF⟩
  | 0x32 => ⟨0xFF, 0xFF, 0xFF, 0xFF, 0x380, 0⟩
  | 0x33 => ⟨0xFF, 0xFF, 0, 0, 0x38F, 0⟩
  | 0x34 => ⟨0xFF, 0, 0, 0, 0x380, 0xFFFFFFFF⟩
  | 0x35 => ⟨0xFF, 0, 0, 0, 0x380, 0xFFFFFFFFFFFFFFFF⟩
  | 0x36 => ⟨0xFF, 0xFF, 0xFF, 0xFF, 0x3CF, 0⟩
  | 0x37 => ⟨0xFF, 0xFF, 0, 0, 0x380, 0⟩
  | 0x38 => ⟨0xFF, 0xFF, 0, 0, 0x380, 0⟩
  | 0x39 => ⟨0xFF, 0xFF, 0, 0, 0x000, 0⟩
  | 0x40 => ⟨0, 0xFF, 0, 0, 0x003, 0xFFFFFFFC⟩
  | 0x41 => if x.fn.extractLsb' 1 1 == 1 then ⟨0, 0xFF, 0xFF, 0, 0x003, 0⟩ else ⟨0, 0xFF, 0, 0, 0x003, 0xFFFFFFFC⟩
  | 0x42 => ⟨0, 0, 0, 0, 0x000, 0xFFFFFFFC⟩
  | 0x43 => ⟨0xFF, 0, 0, 0, 0x000, 0xFFFFFFFC⟩
  | 0x44 => ⟨0xFF, 0xFF, 0, 0, 0x000, 0⟩
  | 0x45 => ⟨0, 0xFF, 0, 0, 0x000, 0⟩
  | 0x46 => ⟨0, 0xFF, 0, 0, 0x000, 0xFFFFFFFC⟩
  | 0x47 => ⟨0, 0, 0, 0, 0x000, 0⟩
  | 0x48 => ⟨0, 0, 0, 0, 0x000, 0⟩
  | 0x49 => ⟨0, 0, 0, 0, 0x000, 0⟩
  | 0x4A => ⟨0, 0xFF, 0, 0, 0x000, 0⟩
  | 0x60 => if x.len == 0 then ⟨0xFF, 0xFF, 0xFF, 0, 0x3BF, 0⟩
    else ⟨0xFF, 0xFF, 0, 0, 0x3BF, (if x.ty == 9 || x.ty == 10 then 0xFFFF else 0xFFFFFFFF)⟩
  | 0x61 => if x.len == 0 then ⟨0xFF, 0xFF, 0xFF, 0, 0x3BF, 0⟩
    else ⟨0xFF, 0xFF, 0, 0, 0x3BF, (if x.ty == 9 || x.ty == 10 then 0xFFFF else 0xFFFFFFFF)⟩
  | 0x62 => if x.len == 0 then ⟨0xFF, 0xFF, 0xFF, 0, 0x3BF, 0⟩
    else ⟨0xFF, 0xFF, 0, 0, 0x3BF, (if x.ty == 9 || x.ty == 10 then 0xFFFF else 0xFFFFFFFF)⟩
  | 0x63 => ⟨0xFF, 0xFF, 0xFF, 0xFF, 0x3BF, 0⟩
  | 0x64 => ⟨0xFF, 0xFF, 0xFF, 0, 0x3BF, 0⟩
  | 0x65 => if x.len == 0 then ⟨0xFF, 0xFF, 0xFF, 0, 0x3BF, 0⟩
    else ⟨0xFF, 0xFF, 0, 0, 0x3BF, (if x.ty == 9 || x.ty == 10 then 0xFFFF else 0xFFFFFFFF)⟩
  | 0x66 => if x.len == 0 then ⟨0xFF, 0xFF, 0xFF, 0, 0x3BF, 0⟩
    else ⟨0xFF, 0xFF, 0, 0, 0x3BF, (if x.ty == 9 || x.ty == 10 then 0xFFFF else 0xFFFFFFFF)⟩
  | 0x67 => if x.len == 0 then ⟨0xFF, 0xFF, 0xFF, 0, 0x3BF, 0⟩
    else ⟨0xFF, 0xFF, 0, 0, 0x3BF, (if x.ty == 9 || x.ty == 10 then 0xFFFF else 0xFFFFFFFF)⟩
  | 0x68 => if x.len == 0 then ⟨0xFF, 0xFF, 0xFF, 0, 0x3BF, 0⟩
    else ⟨0xFF, 0xFF, 0, 0, 0x3BF, (if x.ty == 9 || x.ty == 10 then 0xFFFF else 0xFFFFFFFF)⟩
  | 0x69 => ⟨0xFF, 0xFF, 0, 0, 0x3BF, 0⟩
  | 0x6A => ⟨0xFF, 0xFF, 0, 0, 0x3BF, 0⟩
  | 0x6B => ⟨0xFF, 0xFF, 0, 0, 0x3BF, 0⟩
  | 0x6C => ⟨0xFF, 0xFF, 0, 0, 0x3BF, 0⟩
  | 0x6D => ⟨0xFF, 0xFF, 0, 0, 0x3BF, 0⟩
  | 0x6E => ⟨0xFF, 0xFF, 0, 0, 0x3BF, 0⟩
  | 0x6F => ⟨0xFF, 0xFF, 0, 0, 0x3BF, 0⟩
  | 0x70 => ⟨0xFF, 0xFF, 0, 0, 0x3BF, 0⟩
  | 0x71 => ⟨0xFF, 0xFF, 0, 0, 0x3BF, 0⟩
  | 0x72 => ⟨0xFF, 0xFF, 0, 0, 0x3BF, 0⟩
  | 0x73 => ⟨0xFF, 0, 0, 0, 0x3B0, 0⟩
  | 0x80 => ⟨0xFF, 0xFF, 0xFF, 0, 0x3BF, 0⟩
  | 0x81 => ⟨0xFF, 0xFF, 0xFF, 0, 0x3BF, 0⟩
  | 0x82 => ⟨0xFF, 0xFF, 0xFF, 0, 0x3BF, 0⟩
  | 0x83 => ⟨0xFF, 0xFF, 0xFF, 0xFF, 0x3BF, 0⟩
  | 0x84 => ⟨0xFF, 0xFF, 0xFF, 0, 0x3BF, 0⟩
  | 0x85 => ⟨0xFF, 0xFF, 0xFF, 0, 0x3BF, 0⟩
  | 0x86 => ⟨0xFF, 0xFF, (if x.sub == 0 then 0xFF else 0), 0, 0x3BF, 0⟩
  | 0x87 => ⟨0xFF, 0xFF, 0xFF, 0, 0x3FF, 0⟩
  | 0x88 => ⟨0xFF, 0xFF, 0xFF, 0, 0x3FF, 0⟩
  | 0x89 => ⟨0xFF, 0xFF, 0xFF, 0, 0x3BF, 0⟩
  | 0x8A => ⟨0xFF, 0xFF, 0xFF, 0, 0x3BF, 0⟩
  | 0x8B => ⟨0xFF, 0xFF, 0xFF, 0xFF, 0x3FF, 0xFF⟩
  | 0x90 => ⟨0xFF, 0xFF, 0xFF, 0xFF, 0x3B0, 0⟩
  | 0x91 => ⟨0xFF, 0xFF, 0x1F, 0xFF, 0x3B0, 0⟩
  | 0x92 => ⟨0xFF, 0xFF, 0, 0, 0x3FF, 0⟩
  | 0x93 => ⟨0xFF, 0xFF, 0, 0, 0x3FF, 0⟩
  | 0x94 => ⟨0xFF, 0xFF, 0, 0, 0x3B0, 0⟩
  | 0xA0 => if x.len == 0 then ⟨0xFF, 0xFF, 0x03, 0xFF, 0x3FF, 0⟩
    else ⟨0xFF, 0xFF, 0x03, 0, 0x3FF, 0xFFFFFFFF⟩
  | 0xA1 => if x.len == 0 then ⟨0xFF, 0xFF, 0x03, 0xFF, 0x3FF, 0⟩
    else ⟨0xFF, 0xFF, 0x03, 0, 0x3FF, 0xFFFFFFFF⟩
  | 0xA2 => ⟨0xFF, 0xFF, 0x3F, 0xFF, 0x3FF, 0xFFFFFFFF⟩
  | 0xA3 => ⟨0xFF, 0xFF, 0x03, 0xFF, 0x3FF, 0xFFFFFFFF00007FFF⟩
  | 0xA4 => ⟨0, 0xFF, 0x3F, 0xFF, 0x3FF, 0xFFFFFFFF⟩
  | 0xA5 => if x.len == 0 then ⟨0, 0xFF, 0x03, 0xFF, 0x3FF, 0⟩
    else ⟨0, 0xFF, 0x03, 0, 0x3FF, 0xFFFFFFFF⟩
  | 0xA6 => if x.len == 0 then ⟨0, 0xFF, 0x03, 0xFF, 0x3FF, 0⟩
    else ⟨0, 0xFF, 0x03, 0, 0x3FF, 0xFFFFFFFF⟩
  | 0xA7 => ⟨0, 0, 0, 0, 0x3F0, 0⟩
  | 0xA8 => ⟨0, 0, 0, 0, 0x3F3, 0⟩
  | 0xA9 => ⟨0xFF, 0, 0, 0, 0x3F3, 0⟩
  | 0xAA => ⟨0, 0xFF, 0, 0, 0x3F3, 0⟩
  | 0xAB => ⟨0xFF, 0xFF, 0xFF, 0xFF, 0x3F1, 0xFF⟩
  | 0xAC => ⟨0xFF, 0xFF, 0, 0, 0x3F0, 0⟩
  | 0xAD => ⟨0xFF, 0xFF, 0, 0, 0x3F0, 0⟩
  | 0xAE => ⟨0, 0, 0, 0, 0x3F0, 0⟩
  | 0xC0 => ⟨0xFF, 0xFF, 0xFF, 0, 0x001, 0x000000FFFFFFFF7F⟩
  | 0xC1 => ⟨0xFF, 0xFF, 0xFF, 0xFF, 0x001, 0x000000FFFFFFFF7F⟩
  | 0xC2 => ⟨0xFF, 0, 0, 0, 0x000, 0⟩
  | 0xC3 => if x.len == 0 then ⟨0xFF, 0xFF, 0x03, 0xFF, 0x000, 0⟩
    else ⟨0xFF, 0xFF, 0x03, 0, 0x000, 0xFFFFFFFF⟩
  | 0xC4 => if x.len == 0 then ⟨0xFF, 0xFF, 0x03, 0xFF, 0x001, 0⟩
    else ⟨0xFF, 0xFF, 0x03, 0, 0x001, 0xFFFFFFFF⟩
  | 0xC5 => ⟨0xFF, 0xFF, 0, 0, 0x00F, 0⟩
  | 0xC6 => ⟨0xFF, 0xFF, 0, 0, 0x00F, 0⟩
  | 0xC7 => ⟨0xFF, 0xFF, 0xFF, 0, 0x030, 0⟩
  | 0xD0 => ⟨0xFF, 0xFF, 0xFF, (if x.ext.extractLsb' 60 4 == 1 || x.ext.extractLsb' 60 4 == 2 then 0xFF else 0), 0x000, 0xFFFFFFFFFFFFFFFF⟩
  | 0xD1 => ⟨0xFF, 0xFF, 0xFF, (if x.ext.extractLsb' 60 4 == 1 || x.ext.extractLsb' 60 4 == 2 then 0xFF else 0), 0x000, 0xFFFFFFFFFFFFFFFF⟩
  | 0xD2 => ⟨0xFF, 0xFF, 0xFF, 0, 0x000, 0xFFFFFFFFFFFFFFFF⟩
  | 0xD3 => ⟨0xFF, 0xFF, 0xFF, 0, 0x000, 0xFFFFFFFFFFFFFFFF⟩
  | 0xD4 => ⟨0xFF, 0, 0xFF, 0xFF, 0x000, 0xFFFFFFFFFFFFFFFF⟩
  | 0xD5 => ⟨0xFF, 0xFF, 0, 0, 0x003, 0⟩
  | 0xD6 => ⟨0xFF, 0xFF, 0, 0, 0x003, 0⟩
  | 0xD8 => if x.fn.extractLsb' 3 1 == 1 then ⟨0xFF, 0xFF, 0x03, if x.len == 0 then 0xFF else 0, 0x07B, if x.len == 0 then 0 else 0xFFFFFFFF⟩
    else ⟨0, if x.len == 0 then 0xFF else 0, 0, 0, 0x07B, if x.len == 0 then 0 else 0xFFFFFFFF⟩
  | 0xD9 => ⟨0xFF, 0, 0, 0, 0x00B, 0⟩
  | 0xDA => ⟨0xFF, 0, 0, 0, 0x003, 0⟩
  | 0xE0 => ⟨0xFF, 0xFF, 0, (if x.fn.extractLsb' 2 3 == 0 then 0 else 0xFF), 0x01F, 0xFFFFFFFC⟩
  | 0xE1 => ⟨0xFF, 0xFF, 0xFF, 0, 0x000, 0⟩
  | 0xE2 => ⟨0, 0, 0, 0, 0x000, 0⟩
  | 0xE3 => ⟨0xFF, 0xFF, 0, 0, 0x000, 0⟩
  | 0xE4 => ⟨0, 0xFF, 0, 0, 0x000, 0⟩
  | 0xE5 => ⟨0, 0, 0, 0, 0x000, 0⟩
  | 0xE6 => ⟨0xFF, 0xFF, 0, 0, 0x007, 0⟩
  | 0xE7 => ⟨0, 0, 0, 0xFF, 0x000, 0⟩
  | 0xE8 => ⟨0, 0, 0, 0, 0x000, 0⟩
  | 0xE9 => ⟨0, (if x.fn.extractLsb' 0 2 == 2 then 0xFF else 0), 0, 0, 0x003, 0⟩
  | 0xEA => ⟨0xFF, 0xFF, 0, 0, 0x000, 0⟩
  | 0xF0 => ⟨0xFF, 0xFF, 0xFF, 0xFF, 0x000, 0⟩
  | 0xF1 => ⟨0xFF, 0xFF, 0xFF, 0xFF, 0x000, 0⟩
  | 0xF2 => ⟨0xFF, 0xFF, 0xFF, 0xFF, 0x000, 0⟩
  | 0xF3 => ⟨0, 0, 0, 0, 0x000, 0⟩
  | 0xF4 => ⟨0, (if x.fn.extractLsb' 0 2 == 0 then 0 else 0xFF), (if x.fn.extractLsb' 0 2 == 0 || x.fn.extractLsb' 0 2 == 1 then 0 else 0xFF), (if x.fn.extractLsb' 0 2 == 0 || x.fn.extractLsb' 0 2 == 1 then 0 else 0xFF), 0x003, 0⟩
  | 0xF5 => ⟨0, 0xFF, 0xFF, 0xFF, 0x003, 0⟩
  | 0xF6 => ⟨0xFF, 0xFF, 0, 0, 0x000, 0⟩
  | _ => ⟨0, 0, 0, 0, 0, 0⟩

/-- Check 9 of R139: a reserved field or bit is nonzero. VOTE.ACT also needs field A = 127 (R190). -/
def reservedBad (x : Raw) : Bool :=
  let u := x.used
  x.d &&& ~~~u.d != 0 || x.a &&& ~~~u.a != 0 || x.b &&& ~~~u.b != 0 || x.c &&& ~~~u.c != 0 ||
  x.fn &&& ~~~u.fn != 0 || x.ext &&& ~~~u.ext != 0 || (x.op == 0x94 && x.sub == 4 && x.a != 127)

/-- The instruction of the fields, by the encoding table of its chapter; none when a code is not defined. -/
def build (x : Raw) : Option Instr :=
  match x.op.toNat with
  | 0x00 => if x.len == 0 then do let sub ← Carry.ofCode x.sub; let ty ← Ty.ofCode x.ty; some (.iaddS x.head ty (x.satBit == 1#1) sub x.d x.a x.b x.c)
    else do let sub ← Carry.ofCode x.sub; let ty ← Ty.ofCode x.ty; some (.iaddW x.head ty (x.satBit == 1#1) sub x.d x.a x.imm32 x.c)
  | 0x01 => if x.len == 0 then do let sub ← Carry.ofCode x.sub; let ty ← Ty.ofCode x.ty; some (.isubS x.head ty (x.satBit == 1#1) sub x.d x.a x.b x.c)
    else do let sub ← Carry.ofCode x.sub; let ty ← Ty.ofCode x.ty; some (.isubW x.head ty (x.satBit == 1#1) sub x.d x.a x.imm32 x.c)
  | 0x02 => if x.len == 0 then do guard (x.sub = 0); let ty ← Ty.ofCode x.ty; some (.imulS x.head ty (x.satBit == 1#1) x.d x.a x.b)
    else do guard (x.sub = 0); let ty ← Ty.ofCode x.ty; some (.imulW x.head ty (x.satBit == 1#1) x.d x.a x.imm32)
  | 0x03 => if x.len == 0 then do guard (x.sub = 0); let ty ← Ty.ofCode x.ty; some (.imulhS x.head ty x.d x.a x.b)
    else do guard (x.sub = 0); let ty ← Ty.ofCode x.ty; some (.imulhW x.head ty x.d x.a x.imm32)
  | 0x04 => do guard (x.sub = 0); let ty ← Ty.ofCode x.ty; some (.imad x.head ty (x.satBit == 1#1) x.d x.a x.b x.c)
  | 0x05 => do guard (x.sub = 0); let ty ← Ty.ofCode x.ty; some (.imadw x.head ty (x.satBit == 1#1) x.d x.a x.b x.c)
  | 0x06 => if x.len == 0 then do guard (x.sub = 0); let ty ← Ty.ofCode x.ty; some (.idivS x.head ty x.d x.a x.b)
    else do guard (x.sub = 0); let ty ← Ty.ofCode x.ty; some (.idivW x.head ty x.d x.a x.imm32)
  | 0x07 => if x.len == 0 then do guard (x.sub = 0); let ty ← Ty.ofCode x.ty; some (.iremS x.head ty x.d x.a x.b)
    else do guard (x.sub = 0); let ty ← Ty.ofCode x.ty; some (.iremW x.head ty x.d x.a x.imm32)
  | 0x08 => if x.len == 0 then do guard (x.sub = 0); let ty ← Ty.ofCode x.ty; some (.iminS x.head ty x.d x.a x.b)
    else do guard (x.sub = 0); let ty ← Ty.ofCode x.ty; some (.iminW x.head ty x.d x.a x.imm32)
  | 0x09 => if x.len == 0 then do guard (x.sub = 0); let ty ← Ty.ofCode x.ty; some (.imaxS x.head ty x.d x.a x.b)
    else do guard (x.sub = 0); let ty ← Ty.ofCode x.ty; some (.imaxW x.head ty x.d x.a x.imm32)
  | 0x0A => do guard (x.sub = 0); let ty ← Ty.ofCode x.ty; some (.iabs x.head ty (x.satBit == 1#1) x.d x.a)
  | 0x0B => do guard (x.sub = 0); let ty ← Ty.ofCode x.ty; some (.ineg x.head ty (x.satBit == 1#1) x.d x.a)
  | 0x0C => do guard (x.sub = 0); let ty ← Ty.ofCode x.ty; some (.isad x.head ty (x.satBit == 1#1) x.d x.a x.b x.c)
  | 0x0D => if x.len == 0 then do guard (x.sub = 0); let ty ← Ty.ofCode x.ty; some (.iadd64S x.head ty (x.satBit == 1#1) x.d x.a x.b)
    else do guard (x.sub = 0); let ty ← Ty.ofCode x.ty; some (.iadd64W x.head ty (x.satBit == 1#1) x.d x.a x.imm32)
  | 0x0E => if x.len == 0 then do guard (x.sub = 0); let ty ← Ty.ofCode x.ty; some (.isub64S x.head ty (x.satBit == 1#1) x.d x.a x.b)
    else do guard (x.sub = 0); let ty ← Ty.ofCode x.ty; some (.isub64W x.head ty (x.satBit == 1#1) x.d x.a x.imm32)
  | 0x0F => do guard (x.sub = 0); let ty ← Ty.ofCode x.ty; some (.imul64 x.head ty (x.satBit == 1#1) x.d x.a x.b)
  | 0x10 => if x.len == 0 then do guard (x.sub = 0); some (.andS x.head x.d x.a x.b)
    else do guard (x.sub = 0); some (.andW x.head x.d x.a x.imm32)
  | 0x11 => if x.len == 0 then do guard (x.sub = 0); some (.orS x.head x.d x.a x.b)
    else do guard (x.sub = 0); some (.orW x.head x.d x.a x.imm32)
  | 0x12 => if x.len == 0 then do guard (x.sub = 0); some (.xorS x.head x.d x.a x.b)
    else do guard (x.sub = 0); some (.xorW x.head x.d x.a x.imm32)
  | 0x13 => if x.len == 0 then do guard (x.sub = 0); some (.andnS x.head x.d x.a x.b)
    else do guard (x.sub = 0); some (.andnW x.head x.d x.a x.imm32)
  | 0x14 => if x.len == 0 then do guard (x.sub = 0); some (.ornS x.head x.d x.a x.b)
    else do guard (x.sub = 0); some (.ornW x.head x.d x.a x.imm32)
  | 0x15 => do guard (x.sub = 0); some (.not x.head x.d x.a)
  | 0x16 => if x.len == 0 then do guard (x.sub = 0); some (.shlS x.head x.d x.a x.b)
    else do guard (x.sub = 0); some (.shlW x.head x.d x.a x.imm32)
  | 0x17 => if x.len == 0 then do guard (x.sub = 0); some (.shrS x.head x.d x.a x.b)
    else do guard (x.sub = 0); some (.shrW x.head x.d x.a x.imm32)
  | 0x18 => if x.len == 0 then do guard (x.sub = 0); some (.sarS x.head x.d x.a x.b)
    else do guard (x.sub = 0); some (.sarW x.head x.d x.a x.imm32)
  | 0x19 => if x.len == 0 then do guard (x.sub = 0); some (.rotS x.head x.d x.a x.b)
    else do guard (x.sub = 0); some (.rotW x.head x.d x.a x.imm32)
  | 0x1A => do let dir ← FshDir.ofCode x.sub; some (.fsh x.head dir x.d x.a x.b x.c)
  | 0x1B => do guard (x.sub = 0); let ty ← Ty.ofCode x.ty; some (.bfx x.head ty x.d x.a x.b x.c)
  | 0x1C => do guard (x.sub = 0); some (.bfi x.head x.d x.a x.b x.c)
  | 0x1D => do guard (x.sub = 0); let wide ← wideOf x.ty; some (.popc x.head wide x.d x.a)
  | 0x1E => do guard (x.sub = 0); let wide ← wideOf x.ty; some (.clz x.head wide x.d x.a)
  | 0x1F => do guard (x.sub = 0); let wide ← wideOf x.ty; some (.ctz x.head wide x.d x.a)
  | 0x20 => do guard (x.sub = 0); let wide ← wideOf x.ty; some (.brev x.head wide x.d x.a)
  | 0x21 => if x.len == 0 then do guard (x.sub = 0); some (.permS x.head x.d x.a x.b)
    else do guard (x.sub = 0); some (.permW x.head x.d x.a x.imm32)
  | 0x30 => if x.len == 0 then do let cmp ← ICmp.ofCode x.sub; let ty ← Ty.ofCode x.ty; some (.isetS x.head ty cmp x.d x.a x.b)
    else do let cmp ← ICmp.ofCode x.sub; let ty ← Ty.ofCode x.ty; some (.isetW x.head ty cmp x.d x.a x.imm32)
  | 0x31 => if x.len == 0 then do let cmp ← ICmp.ofCode x.sub; let ty ← Ty.ofCode x.ty; some (.isetvS x.head ty cmp x.d x.a x.b)
    else do let cmp ← ICmp.ofCode x.sub; let ty ← Ty.ofCode x.ty; some (.isetvW x.head ty cmp x.d x.a x.imm32)
  | 0x32 => do guard (x.sub = 0); some (.sel x.head x.d x.a x.b x.c)
  | 0x33 => do guard (x.sub = 0); let wide ← wideOf x.ty; some (.mov x.head wide x.d x.a)
  | 0x34 => do guard (x.sub = 0); some (.movi x.head x.d x.imm32)
  | 0x35 => do guard (x.sub = 0); some (.movw x.head x.d x.ext)
  | 0x36 => some (.plop x.head (x.sub ++ x.satBit ++ x.ty) x.d x.a x.b x.c)
  | 0x37 => do let bit ← bitOfSub x.sub; some (.p2v x.head bit x.d x.a)
  | 0x38 => do let bit ← bitOfSub x.sub; some (.v2p x.head bit x.d x.a)
  | 0x39 => some (.getid x.head x.d x.a)
  | 0x40 => do guard (x.fn.extractLsb' 1 1 = 0); some (.br x.head ((x.fn.extractLsb' 0 1) == 1#1) x.a x.imm32)
  | 0x41 => some (.bru x.head ((x.fn.extractLsb' 0 1) == 1#1) x.a (if x.fn.extractLsb' 1 1 == 1 then .reg x.b else .imm x.imm32))
  | 0x42 => some (.jmp x.head x.imm32)
  | 0x43 => some (.call x.head x.d x.imm32)
  | 0x44 => some (.callr x.head x.d x.a)
  | 0x45 => some (.ret x.head x.a)
  | 0x46 => some (.reform x.head x.a x.imm32)
  | 0x47 => some (.exit x.head)
  | 0x48 => some (if x.len == 0 then .nopS x.head else if x.len == 1 then .nopW x.head else .nopX x.head)
  | 0x49 => some (.yield x.head)
  | 0x4A => some (.nap x.head x.a)
  | 0x60 => if x.len == 0 then do guard (x.sub = 0); let rnd ← Rm.ofCode x.rm; let fmt ← Fmt.ofTyCode x.ty; some (.faddS x.head fmt rnd x.d x.a x.b)
    else do guard (x.sub = 0); let rnd ← Rm.ofCode x.rm; let fmt ← Fmt.ofTyCode x.ty; some (.faddW x.head fmt rnd x.d x.a x.imm32)
  | 0x61 => if x.len == 0 then do guard (x.sub = 0); let rnd ← Rm.ofCode x.rm; let fmt ← Fmt.ofTyCode x.ty; some (.fsubS x.head fmt rnd x.d x.a x.b)
    else do guard (x.sub = 0); let rnd ← Rm.ofCode x.rm; let fmt ← Fmt.ofTyCode x.ty; some (.fsubW x.head fmt rnd x.d x.a x.imm32)
  | 0x62 => if x.len == 0 then do guard (x.sub = 0); let rnd ← Rm.ofCode x.rm; let fmt ← Fmt.ofTyCode x.ty; some (.fmulS x.head fmt rnd x.d x.a x.b)
    else do guard (x.sub = 0); let rnd ← Rm.ofCode x.rm; let fmt ← Fmt.ofTyCode x.ty; some (.fmulW x.head fmt rnd x.d x.a x.imm32)
  | 0x63 => do guard (x.sub = 0); let rnd ← Rm.ofCode x.rm; let fmt ← Fmt.ofTyCode x.ty; some (.ffma x.head fmt rnd x.d x.a x.b x.c)
  | 0x64 => do guard (x.sub = 0); let rnd ← Rm.ofCode x.rm; let fmt ← Fmt.ofTyCode x.ty; some (.fdiv x.head fmt rnd x.d x.a x.b)
  | 0x65 => if x.len == 0 then do guard (x.sub = 0); guard (x.rm = 0); let fmt ← Fmt.ofTyCode x.ty; some (.fminS x.head fmt x.d x.a x.b)
    else do guard (x.sub = 0); guard (x.rm = 0); let fmt ← Fmt.ofTyCode x.ty; some (.fminW x.head fmt x.d x.a x.imm32)
  | 0x66 => if x.len == 0 then do guard (x.sub = 0); guard (x.rm = 0); let fmt ← Fmt.ofTyCode x.ty; some (.fmaxS x.head fmt x.d x.a x.b)
    else do guard (x.sub = 0); guard (x.rm = 0); let fmt ← Fmt.ofTyCode x.ty; some (.fmaxW x.head fmt x.d x.a x.imm32)
  | 0x67 => if x.len == 0 then do let cmp ← FCmp.ofCode x.sub; guard (x.rm = 0); let fmt ← Fmt.ofTyCode x.ty; some (.fsetS x.head fmt cmp x.d x.a x.b)
    else do let cmp ← FCmp.ofCode x.sub; guard (x.rm = 0); let fmt ← Fmt.ofTyCode x.ty; some (.fsetW x.head fmt cmp x.d x.a x.imm32)
  | 0x68 => if x.len == 0 then do let cmp ← FCmp.ofCode x.sub; guard (x.rm = 0); let fmt ← Fmt.ofTyCode x.ty; some (.fsetvS x.head fmt cmp x.d x.a x.b)
    else do let cmp ← FCmp.ofCode x.sub; guard (x.rm = 0); let fmt ← Fmt.ofTyCode x.ty; some (.fsetvW x.head fmt cmp x.d x.a x.imm32)
  | 0x69 => do guard (x.sub = 0); guard (x.rm = 0); let fmt ← Fmt.ofTyCode x.ty; some (.fcls x.head fmt x.d x.a)
  | 0x6A => do guard (x.sub = 0); let rnd ← Rm.ofCode x.rm; let fmt ← Fmt.ofTyCode x.ty; some (.frnd x.head fmt rnd x.d x.a)
  | 0x6B => do let fmt ← Fmt.ofSubCode x.sub; let rnd ← Rm.ofCode x.rm; let ty ← Ty.ofCode x.ty; some (.f2i x.head ty fmt rnd x.d x.a)
  | 0x6C => do let fmt ← Fmt.ofSubCode x.sub; let rnd ← Rm.ofCode x.rm; let ty ← Ty.ofCode x.ty; some (.i2f x.head ty fmt rnd x.d x.a)
  | 0x6D => do let src ← Fmt.ofSubCode x.sub; let rnd ← Rm.ofCode x.rm; let dst ← Fmt.ofTyCode x.ty; some (.fcvt x.head dst src rnd x.d x.a)
  | 0x6E => do guard (x.sub = 0); let rnd ← Rm.ofCode x.rm; let fmt ← Fmt.ofTyCode x.ty; some (.rcp x.head fmt rnd x.d x.a)
  | 0x6F => do guard (x.sub = 0); let rnd ← Rm.ofCode x.rm; let fmt ← Fmt.ofTyCode x.ty; some (.rsq x.head fmt rnd x.d x.a)
  | 0x70 => do guard (x.sub = 0); let rnd ← Rm.ofCode x.rm; let fmt ← Fmt.ofTyCode x.ty; some (.sqrt x.head fmt rnd x.d x.a)
  | 0x71 => do guard (x.sub = 0); let rnd ← Rm.ofCode x.rm; let fmt ← Fmt.ofTyCode x.ty; some (.exp2 x.head fmt rnd x.d x.a)
  | 0x72 => do guard (x.sub = 0); let rnd ← Rm.ofCode x.rm; let fmt ← Fmt.ofTyCode x.ty; some (.log2 x.head fmt rnd x.d x.a)
  | 0x73 => do guard (x.sub = 0); guard (x.rm = 0); some (.fstat x.head x.d)
  | 0x80 => do guard (x.sub = 0); let rnd ← Rm.ofCode x.rm; let fmt ← Fmt.ofTyCode x.ty; some (.hadd2 x.head fmt rnd x.d x.a x.b)
  | 0x81 => do guard (x.sub = 0); let rnd ← Rm.ofCode x.rm; let fmt ← Fmt.ofTyCode x.ty; some (.hsub2 x.head fmt rnd x.d x.a x.b)
  | 0x82 => do guard (x.sub = 0); let rnd ← Rm.ofCode x.rm; let fmt ← Fmt.ofTyCode x.ty; some (.hmul2 x.head fmt rnd x.d x.a x.b)
  | 0x83 => do guard (x.sub = 0); let rnd ← Rm.ofCode x.rm; let fmt ← Fmt.ofTyCode x.ty; some (.hfma2 x.head fmt rnd x.d x.a x.b x.c)
  | 0x84 => do guard (x.sub = 0); guard (x.rm = 0); let fmt ← Fmt.ofTyCode x.ty; some (.hmin2 x.head fmt x.d x.a x.b)
  | 0x85 => do guard (x.sub = 0); guard (x.rm = 0); let fmt ← Fmt.ofTyCode x.ty; some (.hmax2 x.head fmt x.d x.a x.b)
  | 0x86 => do let op ← HcvtOp.ofCode x.sub; let rnd ← Rm.ofCode x.rm; let fmt ← Fmt.ofTyCode x.ty; some (.hcvt2 x.head op fmt rnd x.d x.a x.b)
  | 0x87 => do guard (x.sub = 0); guard (x.rm = 0); let ty ← Ty.ofCode x.ty; some (.vadd2 x.head ty (x.satBit == 1#1) x.d x.a x.b)
  | 0x88 => do guard (x.sub = 0); guard (x.rm = 0); let ty ← Ty.ofCode x.ty; some (.vsub2 x.head ty (x.satBit == 1#1) x.d x.a x.b)
  | 0x89 => do guard (x.sub = 0); guard (x.rm = 0); let ty ← Ty.ofCode x.ty; some (.vmin2 x.head ty x.d x.a x.b)
  | 0x8A => do guard (x.sub = 0); guard (x.rm = 0); let ty ← Ty.ofCode x.ty; some (.vmax2 x.head ty x.d x.a x.b)
  | 0x8B => do guard (x.sub = 0); guard (x.rm = 0); guard (x.ty = 3); some (.vacsel x.head (x.satBit == 1#1) x.d x.a x.b x.c (x.ext.extractLsb' 0 8))
  | 0x90 => do let op ← ShfOp.ofCode x.sub; guard (x.rm = 0); some (.vshf x.head op x.d x.c x.a x.b)
  | 0x91 => do guard (x.sub = 0); guard (x.rm = 0); some (.vbfly x.head x.d x.c x.a (x.b.extractLsb' 0 5))
  | 0x92 => do let op ← RedOp.ofCode x.sub; let rnd ← Rm.ofCode x.rm; let ty ← Ty.ofCode x.ty; some (.vred x.head op ty (x.satBit == 1#1) rnd x.d x.a)
  | 0x93 => do let op ← RedOp.ofCode x.sub; let rnd ← Rm.ofCode x.rm; let ty ← Ty.ofCode x.ty; some (.vscan x.head op ty (x.satBit == 1#1) rnd x.d x.a)
  | 0x94 => do let op ← VoteOp.ofCode x.sub; guard (x.rm = 0); some (.vote x.head op x.d x.a)
  | 0xA0 => if x.len == 0 then do let ord ← Ord.ofCode x.sub; let sc ← Scope.ofCode x.scope; let sz ← LdSz.ofCode x.ty; some (.ldS x.head ord sc sz x.d x.a (Am.ofCode (x.b.extractLsb' 0 2)) x.c)
    else do let ord ← Ord.ofCode x.sub; let sc ← Scope.ofCode x.scope; let sz ← LdSz.ofCode x.ty; some (.ldW x.head ord sc sz x.d x.a (Am.ofCode (x.b.extractLsb' 0 2)) x.imm32)
  | 0xA1 => if x.len == 0 then do let ord ← Ord.ofCode x.sub; let sc ← Scope.ofCode x.scope; let sz ← StSz.ofCode x.ty; some (.stS x.head ord sc sz x.d x.a (Am.ofCode (x.b.extractLsb' 0 2)) x.c)
    else do let ord ← Ord.ofCode x.sub; let sc ← Scope.ofCode x.scope; let sz ← StSz.ofCode x.ty; some (.stW x.head ord sc sz x.d x.a (Am.ofCode (x.b.extractLsb' 0 2)) x.imm32)
  | 0xA2 => do let ord ← Ord.ofCode x.sub; let sc ← Scope.ofCode x.scope; let ty ← Ty.ofCode x.ty; let aop ← Aop.ofCode (x.b.extractLsb' 2 4); some (.atom x.head ord sc aop ty x.d x.a (Am.ofCode (x.b.extractLsb' 0 2)) x.c x.imm32)
  | 0xA3 => do let ord ← Ord.ofCode x.sub; let sc ← Scope.ofCode x.scope; let ty ← Ty.ofCode x.ty; some (.acas x.head ord sc ty x.d (x.ext.extractLsb' 8 7) x.a (Am.ofCode (x.b.extractLsb' 0 2)) x.c (x.ext.extractLsb' 0 8) (x.ext.extractLsb' 32 32))
  | 0xA4 => do let ord ← Ord.ofCode x.sub; let sc ← Scope.ofCode x.scope; let ty ← Ty.ofCode x.ty; let aop ← Aop.ofCode (x.b.extractLsb' 2 4); some (.red x.head ord sc aop ty x.a (Am.ofCode (x.b.extractLsb' 0 2)) x.c x.imm32)
  | 0xA5 => if x.len == 0 then do guard (x.sub = 0); guard (x.scope = 0); let lv ← PrefLv.ofCode x.ty; some (.prefS x.head lv x.a (Am.ofCode (x.b.extractLsb' 0 2)) x.c)
    else do guard (x.sub = 0); guard (x.scope = 0); let lv ← PrefLv.ofCode x.ty; some (.prefW x.head lv x.a (Am.ofCode (x.b.extractLsb' 0 2)) x.imm32)
  | 0xA6 => if x.len == 0 then do guard (x.sub = 0); guard (x.scope = 0); let op ← CfOp.ofCode x.ty; some (.cflushS x.head op x.a (Am.ofCode (x.b.extractLsb' 0 2)) x.c)
    else do guard (x.sub = 0); guard (x.scope = 0); let op ← CfOp.ofCode x.ty; some (.cflushW x.head op x.a (Am.ofCode (x.b.extractLsb' 0 2)) x.imm32)
  | 0xA7 => do let ord ← Ord.ofCode x.sub; let sc ← Scope.ofCode x.scope; some (.fence x.head ord sc)
  | 0xA8 => do guard (x.sub = 0); let hood ← barHood x.scope; some (.bar x.head hood (x.fn.extractLsb' 0 2))
  | 0xA9 => do guard (x.sub = 0); guard (x.scope = 2); some (.bara x.head x.d (x.fn.extractLsb' 0 2))
  | 0xAA => do guard (x.sub = 0); guard (x.scope = 2); some (.barw x.head x.a (x.fn.extractLsb' 0 2))
  | 0xAB => do guard (x.sub = 0); guard (x.scope = 0); some (.subon x.head ((x.fn.extractLsb' 0 1) == 1#1) x.d x.a x.b x.c (x.ext.extractLsb' 0 8))
  | 0xAC => do guard (x.sub = 0); guard (x.scope = 0); some (.suboff x.head x.d x.a)
  | 0xAD => do guard (x.sub = 0); guard (x.scope = 0); some (.subq x.head x.d x.a)
  | 0xAE => do guard (x.sub = 0); guard (x.scope = 0); some (.subfl x.head)
  | 0xC0 => do let desc ← MxDesc.ofBits x.ext; some (.rmac x.head ((x.fn.extractLsb' 0 1) == 1#1) x.d x.a x.b desc)
  | 0xC1 => do let desc ← MxDesc.ofBits x.ext; some (.rmag x.head ((x.fn.extractLsb' 0 1) == 1#1) x.d x.a x.b x.c desc)
  | 0xC2 => some (.acz x.head x.d)
  | 0xC3 => if x.len == 0 then some (.acldS x.head x.d x.a (Am.ofCode (x.b.extractLsb' 0 2)) x.c)
    else some (.acldW x.head x.d x.a (Am.ofCode (x.b.extractLsb' 0 2)) x.imm32)
  | 0xC4 => if x.len == 0 then some (.acstS x.head ((x.fn.extractLsb' 0 1) == 1#1) x.d x.a (Am.ofCode (x.b.extractLsb' 0 2)) x.c)
    else some (.acstW x.head ((x.fn.extractLsb' 0 1) == 1#1) x.d x.a (Am.ofCode (x.b.extractLsb' 0 2)) x.imm32)
  | 0xC5 => some (.acrd x.head x.d x.a x.ty)
  | 0xC6 => some (.acwr x.head x.d x.a x.ty)
  | 0xC7 => do let rnd ← Rm.ofCode x.rm; some (.acmul x.head rnd x.d x.a x.b)
  | 0xD0 => do let desc ← CpDesc.ofBits x.ext; some (.cpi x.head x.d x.a x.b x.c desc)
  | 0xD1 => do let desc ← CpDesc.ofBits x.ext; some (.cpo x.head x.d x.a x.b x.c desc)
  | 0xD2 => do let desc ← CpDesc.ofBits x.ext; some (.cpl x.head x.d x.a x.b x.c desc)
  | 0xD3 => do let desc ← CpDesc.ofBits x.ext; some (.cpr x.head x.d x.a x.b x.c desc)
  | 0xD4 => do let desc ← CpDesc.ofBits x.ext; some (.cpf x.head x.d x.b x.c desc)
  | 0xD5 => some (.cpq x.head x.d x.a (x.fn.extractLsb' 0 2))
  | 0xD6 => some (.cpk x.head x.d x.a (x.fn.extractLsb' 0 2))
  | 0xD8 => if x.fn.extractLsb' 3 1 == 1 then do let sc ← Scope.ofCode x.scope; guard (x.fn.extractLsb' 0 2 = 0); some (.tlwCtr x.head sc x.d x.a (Am.ofCode (x.b.extractLsb' 0 2)) (if x.len == 0 then .short x.c else .long x.imm32))
    else if x.len == 0 then do guard (x.scope = 0); some (.tlwS x.head x.a (x.fn.extractLsb' 0 2))
    else do guard (x.scope = 0); some (.tlwW x.head x.imm32 (x.fn.extractLsb' 0 2))
  | 0xD9 => some (.tlr x.head ((x.fn.extractLsb' 3 1) == 1#1) x.d (x.fn.extractLsb' 0 2))
  | 0xDA => some (.tladv x.head x.d (x.fn.extractLsb' 0 2))
  | 0xE0 => do let comb ← Comb.ofCode (x.fn.extractLsb' 2 3); let win ← Win.ofCode (x.fn.extractLsb' 0 2); some (.hire x.head win comb x.d x.a x.c x.imm32)
  | 0xE1 => some (.hjoin x.head x.d x.a x.b)
  | 0xE2 => some (.hsync x.head)
  | 0xE3 => some (.hrd x.head x.d x.a)
  | 0xE4 => some (.hret x.head x.a)
  | 0xE5 => some (.hrel x.head)
  | 0xE6 => some (.lnch x.head x.d x.a (x.fn.extractLsb' 0 3))
  | 0xE7 => some (.trap x.head x.c)
  | 0xE8 => some (.bkpt x.head)
  | 0xE9 => do let mode ← TretMode.ofCode (x.fn.extractLsb' 0 2); some (.tret x.head mode x.a)
  | 0xEA => some (.tmfr x.head x.d x.a)
  | 0xF0 => some (.sysr x.head x.d x.a (x.c ++ x.b))
  | 0xF1 => some (.sysw x.head x.d x.a (x.c ++ x.b))
  | 0xF2 => some (.sysx x.head x.d x.a (x.c ++ x.b))
  | 0xF3 => some (.eret x.head)
  | 0xF4 => do let kind ← TinvKind.ofCode (x.fn.extractLsb' 0 2); some (.tinv x.head kind x.a x.b x.c)
  | 0xF5 => do let op ← CinvOp.ofCode (x.fn.extractLsb' 0 2); some (.cinvr x.head op x.a x.b x.c)
  | 0xF6 => some (.waiti x.head x.d x.a)
  | _ => none

/-- Checks 4 and 7 of R139: LEN, the opcode, and the length for the opcode; 0 when all pass (R140). -/
def opCheck (x : Raw) : Nat :=
  if x.len == 3 then 1
  else if (permitted x.op).isEmpty then 3
  else if (permitted x.op).contains x.len then 0 else 4

/-- A NOP with LA other than 0 is rejected with 7 (R141, check 10), though R171 calls its LA reserved: the model's choice (log 70).
Checks 4, 6, 7, 9, 10 and the part of 11 that needs no thread, in the order of R139; a rejection answers the code
of R140. Check 8 lies between 7 and 9 and is the issue's. -/
def decode (x : Raw) : Except Nat Instr :=
  if x.len == 3 then .error 1
  else if !x.head.gOk then .error 2
  else if x.opCheck != 0 then .error x.opCheck
  else if x.reservedBad then .error 5
  else match x.build with
    | none => .error 6
    | some i =>
      if !i.fnOk then .error 6
      else if x.la != 0 && !laAllowed x.op then .error 7
      else if !i.regsOk then .error 8
      else .ok i

end Raw

/-- Bytes from the lowest address up as one number (R129: little-endian). -/
def leNat : Bytes → Nat
  | [] => 0
  | b :: l => b.toNat + 256 * leNat l
/-- The low n bytes of a number, lowest first. -/
def leBytes : Nat → Nat → Bytes
  | 0, _ => []
  | n + 1, x => BitVec.ofNat 8 x :: leBytes n (x / 256)

/-- Decoding of an instruction's bits (R129, R139). -/
def decodeWord (w : BitVec 128) : Except Nat Instr := (Raw.unpack w).decode
/-- Decoding of the bytes at an instruction's address; bytes that are not there count as zero. -/
def decodeBytes (l : Bytes) : Except Nat Instr := decodeWord (BitVec.ofNat 128 (leNat (l.take 16)))
/-- Length in bytes of a LEN code (R129). -/
def lenBytes (len : BitVec 2) : Nat := 8 + 4 * len.toNat

/-- The host's reading of a table word: bit 0 is the lowest bit of the first byte (R129). -/
def decodeTableWord (nbits w : Nat) : Option Instr :=
  match decodeBytes (leBytes (nbits / 8) (w % 2 ^ nbits) ++ List.replicate 16 0) with
  | .ok i => some i
  | .error _ => none

/-- The encoder: the fields of an instruction, from the same tables. Events have no encoding; they answer LEN 0b11. -/
def Instr.raw : Instr → Raw
  | .iaddS h ty sat sub d a b c => ⟨0#2, 0x00, h.g, h.gn, d, a, b, c, h.la, (sub.code ++ (b1 sat) ++ 0#2 ++ ty.code), 0⟩
  | .iaddW h ty sat sub d a imm c => ⟨1#2, 0x00, h.g, h.gn, d, a, 0, c, h.la, (sub.code ++ (b1 sat) ++ 0#2 ++ ty.code), (0#32 ++ imm)⟩
  | .isubS h ty sat sub d a b c => ⟨0#2, 0x01, h.g, h.gn, d, a, b, c, h.la, (sub.code ++ (b1 sat) ++ 0#2 ++ ty.code), 0⟩
  | .isubW h ty sat sub d a imm c => ⟨1#2, 0x01, h.g, h.gn, d, a, 0, c, h.la, (sub.code ++ (b1 sat) ++ 0#2 ++ ty.code), (0#32 ++ imm)⟩
  | .imulS h ty sat d a b => ⟨0#2, 0x02, h.g, h.gn, d, a, b, 0, h.la, (0#3 ++ (b1 sat) ++ 0#2 ++ ty.code), 0⟩
  | .imulW h ty sat d a imm => ⟨1#2, 0x02, h.g, h.gn, d, a, 0, 0, h.la, (0#3 ++ (b1 sat) ++ 0#2 ++ ty.code), (0#32 ++ imm)⟩
  | .imulhS h ty d a b => ⟨0#2, 0x03, h.g, h.gn, d, a, b, 0, h.la, (0#6 ++ ty.code), 0⟩
  | .imulhW h ty d a imm => ⟨1#2, 0x03, h.g, h.gn, d, a, 0, 0, h.la, (0#6 ++ ty.code), (0#32 ++ imm)⟩
  | .imad h ty sat d a b c => ⟨0#2, 0x04, h.g, h.gn, d, a, b, c, h.la, (0#3 ++ (b1 sat) ++ 0#2 ++ ty.code), 0⟩
  | .imadw h ty sat d a b c => ⟨0#2, 0x05, h.g, h.gn, d, a, b, c, h.la, (0#3 ++ (b1 sat) ++ 0#2 ++ ty.code), 0⟩
  | .idivS h ty d a b => ⟨0#2, 0x06, h.g, h.gn, d, a, b, 0, h.la, (0#6 ++ ty.code), 0⟩
  | .idivW h ty d a imm => ⟨1#2, 0x06, h.g, h.gn, d, a, 0, 0, h.la, (0#6 ++ ty.code), (0#32 ++ imm)⟩
  | .iremS h ty d a b => ⟨0#2, 0x07, h.g, h.gn, d, a, b, 0, h.la, (0#6 ++ ty.code), 0⟩
  | .iremW h ty d a imm => ⟨1#2, 0x07, h.g, h.gn, d, a, 0, 0, h.la, (0#6 ++ ty.code), (0#32 ++ imm)⟩
  | .iminS h ty d a b => ⟨0#2, 0x08, h.g, h.gn, d, a, b, 0, h.la, (0#6 ++ ty.code), 0⟩
  | .iminW h ty d a imm => ⟨1#2, 0x08, h.g, h.gn, d, a, 0, 0, h.la, (0#6 ++ ty.code), (0#32 ++ imm)⟩
  | .imaxS h ty d a b => ⟨0#2, 0x09, h.g, h.gn, d, a, b, 0, h.la, (0#6 ++ ty.code), 0⟩
  | .imaxW h ty d a imm => ⟨1#2, 0x09, h.g, h.gn, d, a, 0, 0, h.la, (0#6 ++ ty.code), (0#32 ++ imm)⟩
  | .iabs h ty sat d a => ⟨0#2, 0x0A, h.g, h.gn, d, a, 0, 0, h.la, (0#3 ++ (b1 sat) ++ 0#2 ++ ty.code), 0⟩
  | .ineg h ty sat d a => ⟨0#2, 0x0B, h.g, h.gn, d, a, 0, 0, h.la, (0#3 ++ (b1 sat) ++ 0#2 ++ ty.code), 0⟩
  | .isad h ty sat d a b c => ⟨0#2, 0x0C, h.g, h.gn, d, a, b, c, h.la, (0#3 ++ (b1 sat) ++ 0#2 ++ ty.code), 0⟩
  | .iadd64S h ty sat d a b => ⟨0#2, 0x0D, h.g, h.gn, d, a, b, 0, h.la, (0#3 ++ (b1 sat) ++ 0#2 ++ ty.code), 0⟩
  | .iadd64W h ty sat d a imm => ⟨1#2, 0x0D, h.g, h.gn, d, a, 0, 0, h.la, (0#3 ++ (b1 sat) ++ 0#2 ++ ty.code), (0#32 ++ imm)⟩
  | .isub64S h ty sat d a b => ⟨0#2, 0x0E, h.g, h.gn, d, a, b, 0, h.la, (0#3 ++ (b1 sat) ++ 0#2 ++ ty.code), 0⟩
  | .isub64W h ty sat d a imm => ⟨1#2, 0x0E, h.g, h.gn, d, a, 0, 0, h.la, (0#3 ++ (b1 sat) ++ 0#2 ++ ty.code), (0#32 ++ imm)⟩
  | .imul64 h ty sat d a b => ⟨0#2, 0x0F, h.g, h.gn, d, a, b, 0, h.la, (0#3 ++ (b1 sat) ++ 0#2 ++ ty.code), 0⟩
  | .andS h d a b => ⟨0#2, 0x10, h.g, h.gn, d, a, b, 0, h.la, (0#10), 0⟩
  | .andW h d a imm => ⟨1#2, 0x10, h.g, h.gn, d, a, 0, 0, h.la, (0#10), (0#32 ++ imm)⟩
  | .orS h d a b => ⟨0#2, 0x11, h.g, h.gn, d, a, b, 0, h.la, (0#10), 0⟩
  | .orW h d a imm => ⟨1#2, 0x11, h.g, h.gn, d, a, 0, 0, h.la, (0#10), (0#32 ++ imm)⟩
  | .xorS h d a b => ⟨0#2, 0x12, h.g, h.gn, d, a, b, 0, h.la, (0#10), 0⟩
  | .xorW h d a imm => ⟨1#2, 0x12, h.g, h.gn, d, a, 0, 0, h.la, (0#10), (0#32 ++ imm)⟩
  | .andnS h d a b => ⟨0#2, 0x13, h.g, h.gn, d, a, b, 0, h.la, (0#10), 0⟩
  | .andnW h d a imm => ⟨1#2, 0x13, h.g, h.gn, d, a, 0, 0, h.la, (0#10), (0#32 ++ imm)⟩
  | .ornS h d a b => ⟨0#2, 0x14, h.g, h.gn, d, a, b, 0, h.la, (0#10), 0⟩
  | .ornW h d a imm => ⟨1#2, 0x14, h.g, h.gn, d, a, 0, 0, h.la, (0#10), (0#32 ++ imm)⟩
  | .not h d a => ⟨0#2, 0x15, h.g, h.gn, d, a, 0, 0, h.la, (0#10), 0⟩
  | .shlS h d a b => ⟨0#2, 0x16, h.g, h.gn, d, a, b, 0, h.la, (0#10), 0⟩
  | .shlW h d a imm => ⟨1#2, 0x16, h.g, h.gn, d, a, 0, 0, h.la, (0#10), (0#32 ++ imm)⟩
  | .shrS h d a b => ⟨0#2, 0x17, h.g, h.gn, d, a, b, 0, h.la, (0#10), 0⟩
  | .shrW h d a imm => ⟨1#2, 0x17, h.g, h.gn, d, a, 0, 0, h.la, (0#10), (0#32 ++ imm)⟩
  | .sarS h d a b => ⟨0#2, 0x18, h.g, h.gn, d, a, b, 0, h.la, (0#10), 0⟩
  | .sarW h d a imm => ⟨1#2, 0x18, h.g, h.gn, d, a, 0, 0, h.la, (0#10), (0#32 ++ imm)⟩
  | .rotS h d a b => ⟨0#2, 0x19, h.g, h.gn, d, a, b, 0, h.la, (0#10), 0⟩
  | .rotW h d a imm => ⟨1#2, 0x19, h.g, h.gn, d, a, 0, 0, h.la, (0#10), (0#32 ++ imm)⟩
  | .fsh h dir d a b c => ⟨0#2, 0x1A, h.g, h.gn, d, a, b, c, h.la, (dir.code ++ 0#7), 0⟩
  | .bfx h ty d a b c => ⟨0#2, 0x1B, h.g, h.gn, d, a, b, c, h.la, (0#6 ++ ty.code), 0⟩
  | .bfi h d a b c => ⟨0#2, 0x1C, h.g, h.gn, d, a, b, c, h.la, (0#10), 0⟩
  | .popc h wide d a => ⟨0#2, 0x1D, h.g, h.gn, d, a, 0, 0, h.la, (0#6 ++ (wideCode wide)), 0⟩
  | .clz h wide d a => ⟨0#2, 0x1E, h.g, h.gn, d, a, 0, 0, h.la, (0#6 ++ (wideCode wide)), 0⟩
  | .ctz h wide d a => ⟨0#2, 0x1F, h.g, h.gn, d, a, 0, 0, h.la, (0#6 ++ (wideCode wide)), 0⟩
  | .brev h wide d a => ⟨0#2, 0x20, h.g, h.gn, d, a, 0, 0, h.la, (0#6 ++ (wideCode wide)), 0⟩
  | .permS h d a b => ⟨0#2, 0x21, h.g, h.gn, d, a, b, 0, h.la, (0#10), 0⟩
  | .permW h d a imm => ⟨1#2, 0x21, h.g, h.gn, d, a, 0, 0, h.la, (0#10), (0#32 ++ imm)⟩
  | .isetS h ty cmp d a b => ⟨0#2, 0x30, h.g, h.gn, d, a, b, 0, h.la, (cmp.code ++ 0#3 ++ ty.code), 0⟩
  | .isetW h ty cmp d a imm => ⟨1#2, 0x30, h.g, h.gn, d, a, 0, 0, h.la, (cmp.code ++ 0#3 ++ ty.code), (0#32 ++ imm)⟩
  | .isetvS h ty cmp d a b => ⟨0#2, 0x31, h.g, h.gn, d, a, b, 0, h.la, (cmp.code ++ 0#3 ++ ty.code), 0⟩
  | .isetvW h ty cmp d a imm => ⟨1#2, 0x31, h.g, h.gn, d, a, 0, 0, h.la, (cmp.code ++ 0#3 ++ ty.code), (0#32 ++ imm)⟩
  | .sel h d a b c => ⟨0#2, 0x32, h.g, h.gn, d, a, b, c, h.la, (0#10), 0⟩
  | .mov h wide d a => ⟨0#2, 0x33, h.g, h.gn, d, a, 0, 0, h.la, (0#6 ++ (wideCode wide)), 0⟩
  | .movi h d imm => ⟨1#2, 0x34, h.g, h.gn, d, 0, 0, 0, h.la, (0#10), (0#32 ++ imm)⟩
  | .movw h d imm => ⟨2#2, 0x35, h.g, h.gn, d, 0, 0, 0, h.la, (0#10), imm⟩
  | .plop h tt d a b c => ⟨0#2, 0x36, h.g, h.gn, d, a, b, c, h.la, ((tt.extractLsb' 5 3) ++ (tt.extractLsb' 4 1) ++ 0#2 ++ (tt.extractLsb' 0 4)), 0⟩
  | .p2v h bit d a => ⟨0#2, 0x37, h.g, h.gn, d, a, 0, 0, h.la, ((bitSub bit) ++ 0#7), 0⟩
  | .v2p h bit d a => ⟨0#2, 0x38, h.g, h.gn, d, a, 0, 0, h.la, ((bitSub bit) ++ 0#7), 0⟩
  | .getid h d code => ⟨0#2, 0x39, h.g, h.gn, d, code, 0, 0, h.la, (0#10), 0⟩
  | .br h cn a imm => ⟨1#2, 0x40, h.g, h.gn, 0, a, 0, 0, h.la, (0#9 ++ (b1 cn)), (0#32 ++ imm)⟩
  | .bru h cn a tgt => ⟨1#2, 0x41, h.g, h.gn, 0, a, tgt.regField, 0, h.la, (0#8 ++ (b1 tgt.isReg) ++ (b1 cn)), (0#32 ++ tgt.ext)⟩
  | .jmp h imm => ⟨1#2, 0x42, h.g, h.gn, 0, 0, 0, 0, h.la, (0#10), (0#32 ++ imm)⟩
  | .call h d imm => ⟨1#2, 0x43, h.g, h.gn, d, 0, 0, 0, h.la, (0#10), (0#32 ++ imm)⟩
  | .callr h d a => ⟨0#2, 0x44, h.g, h.gn, d, a, 0, 0, h.la, (0#10), 0⟩
  | .ret h a => ⟨0#2, 0x45, h.g, h.gn, 0, a, 0, 0, h.la, (0#10), 0⟩
  | .reform h a imm => ⟨1#2, 0x46, h.g, h.gn, 0, a, 0, 0, h.la, (0#10), (0#32 ++ imm)⟩
  | .exit h => ⟨0#2, 0x47, h.g, h.gn, 0, 0, 0, 0, h.la, (0#10), 0⟩
  | .nopS h => ⟨0#2, 0x48, h.g, h.gn, 0, 0, 0, 0, h.la, (0#10), 0⟩
  | .nopW h => ⟨1#2, 0x48, h.g, h.gn, 0, 0, 0, 0, h.la, (0#10), 0⟩
  | .nopX h => ⟨2#2, 0x48, h.g, h.gn, 0, 0, 0, 0, h.la, (0#10), 0⟩
  | .yield h => ⟨0#2, 0x49, h.g, h.gn, 0, 0, 0, 0, h.la, (0#10), 0⟩
  | .nap h a => ⟨0#2, 0x4A, h.g, h.gn, 0, a, 0, 0, h.la, (0#10), 0⟩
  | .faddS h fmt rnd d a b => ⟨0#2, 0x60, h.g, h.gn, d, a, b, 0, h.la, (0#4 ++ rnd.code ++ fmt.tyCode), 0⟩
  | .faddW h fmt rnd d a imm => ⟨1#2, 0x60, h.g, h.gn, d, a, 0, 0, h.la, (0#4 ++ rnd.code ++ fmt.tyCode), (0#32 ++ imm)⟩
  | .fsubS h fmt rnd d a b => ⟨0#2, 0x61, h.g, h.gn, d, a, b, 0, h.la, (0#4 ++ rnd.code ++ fmt.tyCode), 0⟩
  | .fsubW h fmt rnd d a imm => ⟨1#2, 0x61, h.g, h.gn, d, a, 0, 0, h.la, (0#4 ++ rnd.code ++ fmt.tyCode), (0#32 ++ imm)⟩
  | .fmulS h fmt rnd d a b => ⟨0#2, 0x62, h.g, h.gn, d, a, b, 0, h.la, (0#4 ++ rnd.code ++ fmt.tyCode), 0⟩
  | .fmulW h fmt rnd d a imm => ⟨1#2, 0x62, h.g, h.gn, d, a, 0, 0, h.la, (0#4 ++ rnd.code ++ fmt.tyCode), (0#32 ++ imm)⟩
  | .ffma h fmt rnd d a b c => ⟨0#2, 0x63, h.g, h.gn, d, a, b, c, h.la, (0#4 ++ rnd.code ++ fmt.tyCode), 0⟩
  | .fdiv h fmt rnd d a b => ⟨0#2, 0x64, h.g, h.gn, d, a, b, 0, h.la, (0#4 ++ rnd.code ++ fmt.tyCode), 0⟩
  | .fminS h fmt d a b => ⟨0#2, 0x65, h.g, h.gn, d, a, b, 0, h.la, (0#6 ++ fmt.tyCode), 0⟩
  | .fminW h fmt d a imm => ⟨1#2, 0x65, h.g, h.gn, d, a, 0, 0, h.la, (0#6 ++ fmt.tyCode), (0#32 ++ imm)⟩
  | .fmaxS h fmt d a b => ⟨0#2, 0x66, h.g, h.gn, d, a, b, 0, h.la, (0#6 ++ fmt.tyCode), 0⟩
  | .fmaxW h fmt d a imm => ⟨1#2, 0x66, h.g, h.gn, d, a, 0, 0, h.la, (0#6 ++ fmt.tyCode), (0#32 ++ imm)⟩
  | .fsetS h fmt cmp d a b => ⟨0#2, 0x67, h.g, h.gn, d, a, b, 0, h.la, (cmp.code ++ 0#3 ++ fmt.tyCode), 0⟩
  | .fsetW h fmt cmp d a imm => ⟨1#2, 0x67, h.g, h.gn, d, a, 0, 0, h.la, (cmp.code ++ 0#3 ++ fmt.tyCode), (0#32 ++ imm)⟩
  | .fsetvS h fmt cmp d a b => ⟨0#2, 0x68, h.g, h.gn, d, a, b, 0, h.la, (cmp.code ++ 0#3 ++ fmt.tyCode), 0⟩
  | .fsetvW h fmt cmp d a imm => ⟨1#2, 0x68, h.g, h.gn, d, a, 0, 0, h.la, (cmp.code ++ 0#3 ++ fmt.tyCode), (0#32 ++ imm)⟩
  | .fcls h fmt d a => ⟨0#2, 0x69, h.g, h.gn, d, a, 0, 0, h.la, (0#6 ++ fmt.tyCode), 0⟩
  | .frnd h fmt rnd d a => ⟨0#2, 0x6A, h.g, h.gn, d, a, 0, 0, h.la, (0#4 ++ rnd.code ++ fmt.tyCode), 0⟩
  | .f2i h ty fmt rnd d a => ⟨0#2, 0x6B, h.g, h.gn, d, a, 0, 0, h.la, (fmt.subCode ++ 0#1 ++ rnd.code ++ ty.code), 0⟩
  | .i2f h ty fmt rnd d a => ⟨0#2, 0x6C, h.g, h.gn, d, a, 0, 0, h.la, (fmt.subCode ++ 0#1 ++ rnd.code ++ ty.code), 0⟩
  | .fcvt h dst src rnd d a => ⟨0#2, 0x6D, h.g, h.gn, d, a, 0, 0, h.la, (src.subCode ++ 0#1 ++ rnd.code ++ dst.tyCode), 0⟩
  | .rcp h fmt rnd d a => ⟨0#2, 0x6E, h.g, h.gn, d, a, 0, 0, h.la, (0#4 ++ rnd.code ++ fmt.tyCode), 0⟩
  | .rsq h fmt rnd d a => ⟨0#2, 0x6F, h.g, h.gn, d, a, 0, 0, h.la, (0#4 ++ rnd.code ++ fmt.tyCode), 0⟩
  | .sqrt h fmt rnd d a => ⟨0#2, 0x70, h.g, h.gn, d, a, 0, 0, h.la, (0#4 ++ rnd.code ++ fmt.tyCode), 0⟩
  | .exp2 h fmt rnd d a => ⟨0#2, 0x71, h.g, h.gn, d, a, 0, 0, h.la, (0#4 ++ rnd.code ++ fmt.tyCode), 0⟩
  | .log2 h fmt rnd d a => ⟨0#2, 0x72, h.g, h.gn, d, a, 0, 0, h.la, (0#4 ++ rnd.code ++ fmt.tyCode), 0⟩
  | .fstat h d => ⟨0#2, 0x73, h.g, h.gn, d, 0, 0, 0, h.la, (0#10), 0⟩
  | .hadd2 h fmt rnd d a b => ⟨0#2, 0x80, h.g, h.gn, d, a, b, 0, h.la, (0#4 ++ rnd.code ++ fmt.tyCode), 0⟩
  | .hsub2 h fmt rnd d a b => ⟨0#2, 0x81, h.g, h.gn, d, a, b, 0, h.la, (0#4 ++ rnd.code ++ fmt.tyCode), 0⟩
  | .hmul2 h fmt rnd d a b => ⟨0#2, 0x82, h.g, h.gn, d, a, b, 0, h.la, (0#4 ++ rnd.code ++ fmt.tyCode), 0⟩
  | .hfma2 h fmt rnd d a b c => ⟨0#2, 0x83, h.g, h.gn, d, a, b, c, h.la, (0#4 ++ rnd.code ++ fmt.tyCode), 0⟩
  | .hmin2 h fmt d a b => ⟨0#2, 0x84, h.g, h.gn, d, a, b, 0, h.la, (0#6 ++ fmt.tyCode), 0⟩
  | .hmax2 h fmt d a b => ⟨0#2, 0x85, h.g, h.gn, d, a, b, 0, h.la, (0#6 ++ fmt.tyCode), 0⟩
  | .hcvt2 h op fmt rnd d a b => ⟨0#2, 0x86, h.g, h.gn, d, a, b, 0, h.la, (op.code ++ 0#1 ++ rnd.code ++ fmt.tyCode), 0⟩
  | .vadd2 h ty sat d a b => ⟨0#2, 0x87, h.g, h.gn, d, a, b, 0, h.la, (0#3 ++ (b1 sat) ++ 0#2 ++ ty.code), 0⟩
  | .vsub2 h ty sat d a b => ⟨0#2, 0x88, h.g, h.gn, d, a, b, 0, h.la, (0#3 ++ (b1 sat) ++ 0#2 ++ ty.code), 0⟩
  | .vmin2 h ty d a b => ⟨0#2, 0x89, h.g, h.gn, d, a, b, 0, h.la, (0#6 ++ ty.code), 0⟩
  | .vmax2 h ty d a b => ⟨0#2, 0x8A, h.g, h.gn, d, a, b, 0, h.la, (0#6 ++ ty.code), 0⟩
  | .vacsel h sat d a b c sv => ⟨1#2, 0x8B, h.g, h.gn, d, a, b, c, h.la, (0#3 ++ (b1 sat) ++ 3#6), (0#56 ++ sv)⟩
  | .vshf h op d c a b => ⟨0#2, 0x90, h.g, h.gn, d, a, b, c, h.la, (op.code ++ 0#7), 0⟩
  | .vbfly h d c a mask => ⟨0#2, 0x91, h.g, h.gn, d, a, (0#3 ++ mask), c, h.la, (0#10), 0⟩
  | .vred h op ty sat rnd d a => ⟨0#2, 0x92, h.g, h.gn, d, a, 0, 0, h.la, (op.code ++ (b1 sat) ++ rnd.code ++ ty.code), 0⟩
  | .vscan h op ty sat rnd d a => ⟨0#2, 0x93, h.g, h.gn, d, a, 0, 0, h.la, (op.code ++ (b1 sat) ++ rnd.code ++ ty.code), 0⟩
  | .vote h op d a => ⟨0#2, 0x94, h.g, h.gn, d, a, 0, 0, h.la, (op.code ++ 0#7), 0⟩
  | .ldS h ord sc sz d a am off => ⟨0#2, 0xA0, h.g, h.gn, d, a, (0#6 ++ am.code), off, h.la, (ord.code ++ sc.code ++ sz.code), 0⟩
  | .ldW h ord sc sz d a am off => ⟨1#2, 0xA0, h.g, h.gn, d, a, (0#6 ++ am.code), 0, h.la, (ord.code ++ sc.code ++ sz.code), (0#32 ++ off)⟩
  | .stS h ord sc sz d a am off => ⟨0#2, 0xA1, h.g, h.gn, d, a, (0#6 ++ am.code), off, h.la, (ord.code ++ sc.code ++ sz.code), 0⟩
  | .stW h ord sc sz d a am off => ⟨1#2, 0xA1, h.g, h.gn, d, a, (0#6 ++ am.code), 0, h.la, (ord.code ++ sc.code ++ sz.code), (0#32 ++ off)⟩
  | .atom h ord sc aop ty d a am c off => ⟨1#2, 0xA2, h.g, h.gn, d, a, (0#2 ++ aop.code ++ am.code), c, h.la, (ord.code ++ sc.code ++ ty.code), (0#32 ++ off)⟩
  | .acas h ord sc ty d ps a am c n off => ⟨2#2, 0xA3, h.g, h.gn, d, a, (0#6 ++ am.code), c, h.la, (ord.code ++ sc.code ++ ty.code), (off ++ 0#17 ++ ps ++ n)⟩
  | .red h ord sc aop ty a am c off => ⟨1#2, 0xA4, h.g, h.gn, 0, a, (0#2 ++ aop.code ++ am.code), c, h.la, (ord.code ++ sc.code ++ ty.code), (0#32 ++ off)⟩
  | .prefS h lv a am off => ⟨0#2, 0xA5, h.g, h.gn, 0, a, (0#6 ++ am.code), off, h.la, (0#6 ++ lv.code), 0⟩
  | .prefW h lv a am off => ⟨1#2, 0xA5, h.g, h.gn, 0, a, (0#6 ++ am.code), 0, h.la, (0#6 ++ lv.code), (0#32 ++ off)⟩
  | .cflushS h op a am off => ⟨0#2, 0xA6, h.g, h.gn, 0, a, (0#6 ++ am.code), off, h.la, (0#6 ++ op.code), 0⟩
  | .cflushW h op a am off => ⟨1#2, 0xA6, h.g, h.gn, 0, a, (0#6 ++ am.code), 0, h.la, (0#6 ++ op.code), (0#32 ++ off)⟩
  | .fence h ord sc => ⟨0#2, 0xA7, h.g, h.gn, 0, 0, 0, 0, h.la, (ord.code ++ sc.code ++ 0#4), 0⟩
  | .bar h hood k => ⟨0#2, 0xA8, h.g, h.gn, 0, 0, 0, 0, h.la, (0#3 ++ (barScope hood) ++ 0#2 ++ k), 0⟩
  | .bara h d k => ⟨0#2, 0xA9, h.g, h.gn, d, 0, 0, 0, h.la, (8#8 ++ k), 0⟩
  | .barw h a k => ⟨0#2, 0xAA, h.g, h.gn, 0, a, 0, 0, h.la, (8#8 ++ k), 0⟩
  | .subon h prime d a b c l => ⟨1#2, 0xAB, h.g, h.gn, d, a, b, c, h.la, (0#9 ++ (b1 prime)), (0#56 ++ l)⟩
  | .suboff h d a => ⟨0#2, 0xAC, h.g, h.gn, d, a, 0, 0, h.la, (0#10), 0⟩
  | .subq h d a => ⟨0#2, 0xAD, h.g, h.gn, d, a, 0, 0, h.la, (0#10), 0⟩
  | .subfl h => ⟨0#2, 0xAE, h.g, h.gn, 0, 0, 0, 0, h.la, (0#10), 0⟩
  | .rmac h z d a b desc => ⟨2#2, 0xC0, h.g, h.gn, d, a, b, 0, h.la, (0#9 ++ (b1 z)), desc.bits⟩
  | .rmag h z d a b c desc => ⟨2#2, 0xC1, h.g, h.gn, d, a, b, c, h.la, (0#9 ++ (b1 z)), desc.bits⟩
  | .acz h d => ⟨0#2, 0xC2, h.g, h.gn, d, 0, 0, 0, h.la, (0#10), 0⟩
  | .acldS h d a am off => ⟨0#2, 0xC3, h.g, h.gn, d, a, (0#6 ++ am.code), off, h.la, (0#10), 0⟩
  | .acldW h d a am off => ⟨1#2, 0xC3, h.g, h.gn, d, a, (0#6 ++ am.code), 0, h.la, (0#10), (0#32 ++ off)⟩
  | .acstS h z d a am off => ⟨0#2, 0xC4, h.g, h.gn, d, a, (0#6 ++ am.code), off, h.la, (0#9 ++ (b1 z)), 0⟩
  | .acstW h z d a am off => ⟨1#2, 0xC4, h.g, h.gn, d, a, (0#6 ++ am.code), 0, h.la, (0#9 ++ (b1 z)), (0#32 ++ off)⟩
  | .acrd h d a e => ⟨0#2, 0xC5, h.g, h.gn, d, a, 0, 0, h.la, (0#6 ++ e), 0⟩
  | .acwr h d a e => ⟨0#2, 0xC6, h.g, h.gn, d, a, 0, 0, h.la, (0#6 ++ e), 0⟩
  | .acmul h rnd d a b => ⟨0#2, 0xC7, h.g, h.gn, d, a, b, 0, h.la, (0#4 ++ rnd.code ++ 0#4), 0⟩
  | .cpi h d a b c desc => ⟨2#2, 0xD0, h.g, h.gn, d, a, b, c, h.la, (0#10), desc.bits⟩
  | .cpo h d a b c desc => ⟨2#2, 0xD1, h.g, h.gn, d, a, b, c, h.la, (0#10), desc.bits⟩
  | .cpl h d a b c desc => ⟨2#2, 0xD2, h.g, h.gn, d, a, b, c, h.la, (0#10), desc.bits⟩
  | .cpr h d a b c desc => ⟨2#2, 0xD3, h.g, h.gn, d, a, b, c, h.la, (0#10), desc.bits⟩
  | .cpf h d b c desc => ⟨2#2, 0xD4, h.g, h.gn, d, 0, b, c, h.la, (0#10), desc.bits⟩
  | .cpq h d a k => ⟨0#2, 0xD5, h.g, h.gn, d, a, 0, 0, h.la, (0#8 ++ k), 0⟩
  | .cpk h d a k => ⟨0#2, 0xD6, h.g, h.gn, d, a, 0, 0, h.la, (0#8 ++ k), 0⟩
  | .tlwS h a k => ⟨0#2, 0xD8, h.g, h.gn, 0, a, 0, 0, h.la, (0#8 ++ k), 0⟩
  | .tlwW h imm k => ⟨1#2, 0xD8, h.g, h.gn, 0, 0, 0, 0, h.la, (0#8 ++ k), (0#32 ++ imm)⟩
  | .tlwCtr h sc d a am off => ⟨off.len, 0xD8, h.g, h.gn, d, a, (0#6 ++ am.code), off.cField, h.la, (0#3 ++ sc.code ++ 8#4), (0#32 ++ off.ext)⟩
  | .tlr h iss d k => ⟨0#2, 0xD9, h.g, h.gn, d, 0, 0, 0, h.la, (0#6 ++ (b1 iss) ++ 0#1 ++ k), 0⟩
  | .tladv h d k => ⟨0#2, 0xDA, h.g, h.gn, d, 0, 0, 0, h.la, (0#8 ++ k), 0⟩
  | .hire h win comb d a c imm => ⟨1#2, 0xE0, h.g, h.gn, d, a, 0, c, h.la, (0#5 ++ comb.code ++ win.code), (0#32 ++ imm)⟩
  | .hjoin h d a b => ⟨0#2, 0xE1, h.g, h.gn, d, a, b, 0, h.la, (0#10), 0⟩
  | .hsync h => ⟨0#2, 0xE2, h.g, h.gn, 0, 0, 0, 0, h.la, (0#10), 0⟩
  | .hrd h d k => ⟨0#2, 0xE3, h.g, h.gn, d, k, 0, 0, h.la, (0#10), 0⟩
  | .hret h a => ⟨0#2, 0xE4, h.g, h.gn, 0, a, 0, 0, h.la, (0#10), 0⟩
  | .hrel h => ⟨0#2, 0xE5, h.g, h.gn, 0, 0, 0, 0, h.la, (0#10), 0⟩
  | .lnch h d a q => ⟨0#2, 0xE6, h.g, h.gn, d, a, 0, 0, h.la, (0#7 ++ q), 0⟩
  | .trap h n => ⟨0#2, 0xE7, h.g, h.gn, 0, 0, 0, n, h.la, (0#10), 0⟩
  | .bkpt h => ⟨0#2, 0xE8, h.g, h.gn, 0, 0, 0, 0, h.la, (0#10), 0⟩
  | .tret h mode a => ⟨0#2, 0xE9, h.g, h.gn, 0, a, 0, 0, h.la, (0#8 ++ mode.code), 0⟩
  | .tmfr h d code => ⟨0#2, 0xEA, h.g, h.gn, d, code, 0, 0, h.la, (0#10), 0⟩
  | .sysr h d a idx => ⟨0#2, 0xF0, h.g, h.gn, d, a, idx.extractLsb' 0 8, idx.extractLsb' 8 8, h.la, (0#10), 0⟩
  | .sysw h d a idx => ⟨0#2, 0xF1, h.g, h.gn, d, a, idx.extractLsb' 0 8, idx.extractLsb' 8 8, h.la, (0#10), 0⟩
  | .sysx h d a idx => ⟨0#2, 0xF2, h.g, h.gn, d, a, idx.extractLsb' 0 8, idx.extractLsb' 8 8, h.la, (0#10), 0⟩
  | .eret h => ⟨0#2, 0xF3, h.g, h.gn, 0, 0, 0, 0, h.la, (0#10), 0⟩
  | .tinv h kind a b c => ⟨0#2, 0xF4, h.g, h.gn, 0, a, b, c, h.la, (0#8 ++ kind.code), 0⟩
  | .cinvr h op a b c => ⟨0#2, 0xF5, h.g, h.gn, 0, a, b, c, h.la, (0#8 ++ op.code), 0⟩
  | .waiti h d a => ⟨0#2, 0xF6, h.g, h.gn, d, a, 0, 0, h.la, (0#10), 0⟩
  | _ => ⟨3, 0, 0, false, 0, 0, 0, 0, 0, 0, 0⟩

/-- The instruction's bits [127:0], zero above its length. -/
def Instr.bits (i : Instr) : BitVec 128 := i.raw.pack
/-- Length of an encoded instruction in bytes (R129). -/
def Instr.size (i : Instr) : Nat := lenBytes i.raw.len
/-- The bytes of a well-formed instruction, lowest address first. -/
def encode (i : Instr) : Bytes := leBytes i.size i.bits.toNat

end Sys2Proof
end

