-- ==== Sys2Proof/Machine/Cells.lean ====
section
/-!
DEFINITION. Sparse tables: (key, value) lists with strictly rising keys, their reads and writes, and the canonical form
of byte stores, in which no entry holds what an unlisted address reads as.
-/
namespace Sys2Proof.Machine

/-- The value under a key. -/
def lookup {α : Type} : Cells α → Nat → Option α
  | [], _ => none
  | (j, x) :: l, k => if j = k then some x else lookup l k

/-- The table with a key set: the entry stands before the first larger key. -/
def put {α : Type} : Cells α → Nat → α → Cells α
  | [], k, x => [(k, x)]
  | (j, y) :: l, k, x =>
    if k < j then (k, x) :: (j, y) :: l
    else if j = k then (k, x) :: l
    else (j, y) :: put l k x

/-- The table without a key. -/
def del {α : Type} : Cells α → Nat → Cells α
  | [], _ => []
  | (j, y) :: l, k => if j = k then del l k else (j, y) :: del l k

/-- The value under a key, `d` where none is listed. -/
def lookupD {α : Type} (d : α) (c : Cells α) (k : Nat) : α := (lookup c k).getD d

/-- A key set to a value; a value equal to what an unlisted key reads as leaves no entry. -/
def putD {α : Type} [DecidableEq α] (d : α) (c : Cells α) (k : Nat) (x : α) : Cells α :=
  if x = d then del c k else put c k x

/-- A key's value changed by a function, where there is one. -/
def adjust {α : Type} (c : Cells α) (k : Nat) (f : α → α) : Cells α :=
  match lookup c k with
  | some x => put c k (f x)
  | none => c

/-- Keys strictly rising above a bound. -/
def risingFrom {α : Type} : Nat → Cells α → Bool
  | _, [] => true
  | n, (k, _) :: l => decide (n ≤ k) && risingFrom (k + 1) l
/-- Keys strictly rising. -/
def rising {α : Type} (c : Cells α) : Bool := risingFrom 0 c

/-- The entries a test keeps. -/
def keep {α : Type} (f : Nat → α → Bool) (c : Cells α) : Cells α := c.filter fun e => f e.1 e.2
/-- Every value changed by a function of its key. -/
def mapValues {α β : Type} (f : Nat → α → β) (c : Cells α) : Cells β := c.map fun e => (e.1, f e.1 e.2)

/-- The keys of a table. -/
def keysOf {α : Type} (c : Cells α) : List Nat := c.map Prod.fst

/-- The least key above or at a bound whose slot is free among `n` slots from `k`. -/
def freeFrom {α : Type} (c : Cells α) : Nat → Nat → Option Nat
  | 0, _ => none
  | n + 1, k => if (lookup c k).isNone then some k else freeFrom c n (k + 1)

/-- A number put into its place in a rising list. -/
def insertNat (x : Nat) : List Nat → List Nat
  | [] => [x]
  | y :: l => if x ≤ y then x :: y :: l else y :: insertNat x l
/-- Numbers in rising order. -/
def sortNat (l : List Nat) : List Nat := l.foldr insertNat []

end Sys2Proof.Machine
end

