-- ==== Sys2Proof/Config.lean ====
section
/-!
DEFINITION. What an implementation fixes and what the spec leaves open: figures of R5, R12 and R300, and the free
values, which are opaque constants without a body (each one is named in notes/assumptions).
-/
namespace Sys2Proof.Config

/-- Cores of a die, a 12 x 12 mesh (R5). -/
def coresPerDie : Nat := 144
/-- Cores of the package (R5). -/
def cores : Nat := 576
/-- Core cycles of a 128 ns frame (R12, R300). -/
def cyclesPerFrame : Nat := 384
/-- Memory links (R5). -/
def memLinks : Nat := 96
/-- Fabric links (R5). -/
def fabLinks : Nat := 16
/-- 3.0 GHz core cycles of a microsecond (R5). -/
def cyclesPerMicro : Nat := 3000

/-- Free 64-bit values, drawn with State.freeCtr (log 4). -/
opaque free : Nat → BitVec 64
/-- ROOTHASH and DEVHASH fuses (R403; log 5). -/
opaque rootHash : Bytes
opaque devHash : Bytes
/-- SM2 verification of a signature over a message by a key, in the layout the bundle uses (R403; log 5). -/
opaque sm2Verify : Bytes → Bytes → Bytes → Bool
/-- The signing key and the version that a signing certificate holds, whose layout the spec does not give (R403; log 5). -/
opaque certKey : Bytes → Bytes
opaque certVersion : Bytes → Nat
/-- Signature the device identity key makes over a transcript (R406; log 5). -/
opaque identitySign : Bytes → Bytes
/-- Capability and certificate bytes of the SPDM answers (R406; log 5). -/
opaque spdmCapabilities : Bytes
opaque certChain : Bytes
/-- Bytes of a saggar image after its header (R335, R338; log 6). -/
opaque imageByte : Nat → Nat → BitVec 8
/-- Bytes a saggar image of some captured bytes holds beyond them, below 4 GiB (R333, R335; log 6). -/
opaque imageOverhead : Nat → BitVec 32

end Sys2Proof.Config
end

