-- ==== Sys2Proof/Machine/State.lean ====
section
/-!
DEFINITION. The state of the package as plain data: threads, groups, launches, cores, memories, caches, servers, links,
system registers and the model's own queues; the reasons a step can stop; and the state after reset.
Tables are sparse (Cells); a key that is not listed holds the default the field's comment gives.
-/
namespace Sys2Proof.Machine

/-- Reasons the machine stops. -/
inductive Fault where
  /-- Raised by step while the package is without power and no power-on is waiting (R433, R437). Safe: nothing runs. -/
  | noPower
  deriving DecidableEq, Repr

/-- Reasons an instruction is refused. -/
inductive Refusal where
  /-- Raised by an arm of exec that has no meaning yet. Safe: the run ends. -/
  | notModelled (mnemonic : String)
  deriving DecidableEq, Repr

/-- Bytes with the 8-byte words that hold poison (R359): an unlisted byte reads as zero (R8). -/
structure Store where
  cells : List Host.Cell
  bad   : List Nat
  deriving DecidableEq, Repr

/-- An empty store: every byte zero, no poison (R8, R57). -/
def Store.zero : Store := ⟨[], []⟩


/-- An open lookahead window (R141, R144). -/
structure LaWin where
  pc   : BitVec 64
  left : Nat
  srcs : List RegRef
  dsts : List RegRef
  deriving DecidableEq, Repr

/-- An open HIRE of a recruiter (R243 to R251). -/
structure HireState where
  g       : Nat
  win     : Nat
  comb    : Comb
  c       : Reg
  snap    : Cells Word
  live    : List Nat
  done    : List Nat
  contrib : Cells Word
  flags   : BitVec 5
  trapped : Option (Nat × BitVec 8)
  arrived : List Nat
  phase   : Nat
  deriving DecidableEq, Repr

/-- Why a thread does not go on (R30, R32). -/
inductive Wait where
  | none
  /-- TLW, timeline form (R208). -/
  | timeline (k n : Nat)
  /-- TLW.CTR between two reads (R209). -/
  | counter
  /-- Arrived at BAR and waits for the phase `tok` to release (R205). -/
  | bar (k tok : Nat)
  /-- BARW on token `tok` (R205). -/
  | barw (k tok : Nat)
  /-- A second arrival waits for phase `tok` to release (R205). -/
  | rearm (k tok : Nat)
  /-- Arrived at BAR.H in hood phase `tok` (R79, R205). -/
  | hood (tok : Nat)
  /-- HJOIN waits for every helper to end (R250). -/
  | hjoin
  /-- HSYNC waits for its phase (R249). -/
  | hsync (phase : Nat)
  /-- Outstanding requests (R60). -/
  | resp
  /-- Range scoreboard, copy queue or server: tried again (R67, R69). -/
  | retry
  /-- A quarter that waits at issue for its MX server or for the matrix engine's decision (R222, R303). -/
  | quarter
  /-- Updates that core `pub` produced below `mark`, to one subscriber core or to all, are still to be applied (R78, R79,
  R81). -/
  | drain (pub : Nat) (sub : Option Nat) (mark : Nat)
  /-- The updates of a drain have been applied: the instruction goes on when it issues again. -/
  | drained
  /-- A SUBON request is under way (R211). -/
  | subon
  /-- A thread of a REFORM waits for a hamper entry (R26). -/
  | reform
  /-- Parked on fault record `fid` (R33, R351). -/
  | fault (fid : Nat)
  /-- NAP until core cycle `t` (R171). -/
  | nap (t : Nat)
  /-- WAITI on an event mask (R299). -/
  | event (mask : BitVec 5)
  /-- A system command that completes later; its result goes to pair `d` (R295). -/
  | sys (d : Reg)
  /-- CPK waits for copy `id` to stop; `d` receives the status (R240). -/
  | stop (id : Nat) (d : Reg)
  /-- A user trap, or a supervisor's, that is taken once the thread's earlier instructions have completed (R257, R287). -/
  | entry (sup : Bool) (t : Trap)
  /-- TINV has dropped its entries, and waits until the requests that were out then have been performed (R297, R354). -/
  | quiet (tags : List Nat)
  deriving DecidableEq, Repr

/-- Supervisor trap registers of a thread (R286). -/
structure SupRegs where
  trap   : Trap
  inTrap : Bool
  saveA  : BitVec 64
  saveB  : BitVec 64
  deriving DecidableEq, Repr

/-- Where a thread is in its life. -/
inductive ThStatus | live | filed | exited
  deriving DecidableEq, Repr

/-- One thread or helper. Its key is gid * 32768 + tid * 32 + hidx. `since` is the core cycle of the issue from which a parked
thread went back (R33); `bad` lists registers that hold an uncorrectable error (R357). -/
structure Thread where
  ctx    : Nat
  gid    : Nat
  tid    : Nat
  hidx   : Nat
  core   : Nat
  slot   : Nat
  lane   : Nat
  tag    : Nat
  status : ThStatus
  pc     : BitVec 64
  v      : Cells Word
  p      : BitVec 96
  a      : Cells Word
  fp     : BitVec 5
  trap   : Trap
  hand   : Bool
  sup    : SupRegs
  las    : List LaWin
  wait   : Wait
  since  : Nat
  pend   : Nat
  hire   : Option HireState
  bad    : List RegRef
  issued : Nat
  skew   : Bool
  slice  : Store
  deriving DecidableEq, Repr

/-- A barrier: phase number and who has arrived (R204). -/
structure Barrier where
  phase   : Nat
  arrived : List Nat
  deriving DecidableEq, Repr

/-- A timeline (R207): `out` lists completed numbers above `completed`, `adv` the numbers TLADV took. -/
structure Timeline where
  issued    : Nat
  completed : Nat
  out       : List Nat
  adv       : List Nat
  deriving DecidableEq, Repr

/-- A resident work-group (R17 to R19). -/
structure Group where
  ctx    : Nat
  launch : Nat
  hood   : Nat
  hpos   : Nat
  core   : Nat
  n      : Nat
  slots  : List Nat
  alloc  : Store
  bars   : Cells Barrier
  tls    : Cells Timeline
  deriving DecidableEq, Repr

/-- A resident hood (R17, R19, R328); `dying` while a kill waits for the started units of its copies (R363). -/
structure Hood where
  ctx    : Nat
  launch : Nat
  index  : Nat
  die    : Nat
  x0     : Nat
  y0     : Nat
  groups : List Nat
  left   : List Nat
  bar    : Barrier
  dying  : Option KillCause
  deriving DecidableEq, Repr

/-- The fields of a launch packet (R325). -/
structure Packet where
  entry   : BitVec 64
  arg     : BitVec 64
  gx : Nat
  gy : Nat
  gz : Nat
  nx : Nat
  ny : Nat
  nz : Nat
  hw : Nat
  hh : Nat
  hg : Nat
  regs    : Nat
  acc     : Nat
  slice   : Nat
  scratch : Nat
  prot    : Bool
  replay  : Bool
  prio    : Nat
  rscope  : Nat
  sgrp    : Nat
  handler : BitVec 64
  w0a : BitVec 64
  w0v : BitVec 64
  w1a : BitVec 64
  w1v : BitVec 64
  ca  : BitVec 64
  cv  : BitVec 64
  deriving DecidableEq, Repr

/-- A launch record (R327, R329, R364). -/
structure Launch where
  ctx      : Nat
  hq       : Nat
  head     : Nat
  pkt      : Packet
  deadline : Nat
  next     : Nat
  relaunch : List Nat
  kills    : Cells Nat
  left     : Nat
  waitFrom : Option Nat
  reserved : Bool
  adding   : Bool
  deriving DecidableEq, Repr

/-- A wave slot in use (R31). `since` is the first core cycle in which an active wave may issue (R32), and `passed` counts, by
tag, how often a ready fragment has been passed over (R22). -/
structure Wave where
  gid    : Nat
  age    : Int
  active : Bool
  last   : Nat
  since  : Nat
  passed : Cells Nat
  deriving DecidableEq, Repr

/-- A hamper (R25 to R28): threads with their filing times. A filing time or a wave's age restored from an image may lie before
this package's first cycle (R337). -/
structure Hamper where
  gid    : Nat
  target : BitVec 64
  key    : BitVec 32
  ths    : List (Nat × Int)
  aged   : Bool
  forced : Bool
  madeAt : Nat
  deriving DecidableEq, Repr

/-- A thread that waits for a hamper entry (R26). -/
structure ReformWait where
  th     : Nat
  target : BitVec 64
  key    : BitVec 32
  deriving DecidableEq, Repr

/-- A piece of physical core scratchpad: a group's allocation or a thread's lane slice (R66). -/
inductive Place | alloc (gid : Nat) | slice (th : Nat)
  deriving DecidableEq, Repr
/-- Kinds of scoreboard entry (R66). -/
inductive ScoreKind | write | read | pin
  deriving DecidableEq, Repr
/-- Who holds a scoreboard entry (R66). -/
inductive Holder | copy (id : Nat) | pass (id : Nat)
  deriving DecidableEq, Repr
/-- A range scoreboard entry (R66). -/
structure Score where
  kind  : ScoreKind
  place : Place
  lo    : Nat
  hi    : Nat
  owner : Holder
  deriving DecidableEq, Repr

/-- A subscription entry, inbound or outbound (R71): tentative until `final` (R73), `closed` while its SUBOFF waits (R81). `prime` counts the 128-byte pieces still to be read (R80). -/
structure SubEntry where
  hood  : Nat
  smem  : Nat
  soff  : Nat
  pmem  : Nat
  poff  : Nat
  len   : Nat
  final : Bool
  prime : Option Nat
  closed : Bool
  deriving DecidableEq, Repr
/-- An update on its way to a subscriber (R75). -/
structure Update where
  hood : Nat
  smem : Nat
  soff : Nat
  off  : Nat
  data : Bytes
  seq  : Nat
  deriving DecidableEq, Repr
/-- The stream of a pair of cores: the open basket and the baskets flushed (R76, R77), of which the first `paid` have passed
their flush point (R83). -/
structure Stream where
  basket : List Update
  since  : Nat
  sent   : List (List Update)
  paid   : Nat
  deriving DecidableEq, Repr

/-- The per-core structures: hampers, scoreboard, subscription entries, counters; `kept` are freed hamper entries kept for
waiting threads (R26); the background turn of the copy engine, and the core cycle at which it starts its next unit (R235, R300,
R306); the core cycle at which the matrix engine is free (R222). -/
structure CoreState where
  hampers : Cells Hamper
  reformQ : List ReformWait
  kept    : List Nat
  lastDraw : Option Nat
  score   : List Score
  subIn   : Cells SubEntry
  subOut  : Cells SubEntry
  produced : Nat
  cpTurn  : Nat
  cpNext  : Nat
  mxFree  : Nat
  deriving DecidableEq, Repr

/-- Progress of a copy (R239). -/
inductive CpState | queued | moving | paused (why : Nat)
  deriving DecidableEq, Repr
/-- A unit of a copy that has started and is not written yet: its number, how many answers of peers are out, and the pieces that have
come for it: destination, bytes, poison (R234, R413). -/
structure CopyUnit where
  num     : Nat
  unacked : Nat
  got     : List (Nat × Bytes × Bool)
  deriving DecidableEq, Repr
/-- A copy record (R233 to R238). `next` is the unit it starts next, and `units` are those that have started and are not written
yet. -/
structure CopyRec where
  core  : Nat
  gid   : Nat
  th    : Nat
  kind  : CpKind
  desc  : CpDesc
  src   : BitVec 64
  dst   : BitVec 64
  scl   : BitVec 64
  fill  : BitVec 32
  num   : Nat
  next  : Nat
  total : Nat
  state : CpState
  stop  : Bool
  snap  : Option Bytes
  snapBad : List Nat
  units : List CopyUnit
  deriving DecidableEq, Repr

/-- One quarter's matrix work (R216 to R223): threads with the offset of their A row. `inst` is common to the quarters of one
instruction of a protected launch (R221), `cycle` is the issue cycle of the first quarter of its engine pass, and `due` the core
cycle in which that pass ends: none while the quarter holds its pins and waits for the engine. -/
structure Pass where
  core : Nat
  gid  : Nat
  d    : Nat
  z    : Bool
  fa   : MxFmt
  fb   : MxFmt
  kb   : Nat
  rows : List (Nat × Nat)
  bOff : Nat
  sb   : Nat
  prot : Bool
  inst : Nat
  cycle : Nat
  due  : Option Nat
  deriving DecidableEq, Repr

/-- Where the data of a response goes. -/
inductive Dest where
  | none
  | load (d : Reg) (sz : LdSz)
  | old (d : Reg) (n : Nat)
  | acas (d : Reg) (n : Nat) (ps : BitVec 7)
  | acc (d : Reg) (piece : Nat)
  | counter (d : Reg)
  /-- A unit of a copy: the destination address of the bytes read, or none for the acknowledgement of a store (R234). -/
  | copy (id : Nat) (unit : Nat) (at_ : Option Nat)
  /-- A piece of ACST.Z: the accumulator is zeroed once every piece is stored (R227). -/
  | zero (d : Reg)
  deriving DecidableEq, Repr
/-- What a request asks of the home slice (R61, R198, R200). -/
inductive ReqOp where
  | load
  | store (data : Bytes)
  | atomic (aop : Aop) (ty : Ty) (opnd : BitVec 64)
  | acas (ty : Ty) (cmp new : BitVec 64)
  deriving DecidableEq, Repr
/-- A request to a home slice or to a peer package that waits to be served (R60 to R62), made in core cycle `cycle` by the
instruction at `pc`. `fill` says that its line has been asked of the drawer, and whether it has come (R373); `release` marks the own
write of a .M release, which is in the domain clock once it has been performed (R95). -/
structure MemReq where
  th    : Nat
  ctx   : Nat
  core  : Nat
  cycle : Nat
  pc    : BitVec 64
  va    : BitVec 64
  size  : Nat
  op    : ReqOp
  dest  : Dest
  domain : Bool
  link  : Option Nat
  las   : List LaWin
  served : Bool
  fill  : Option Bool
  release : Bool
  deriving DecidableEq, Repr

/-- A line of L1 or L2 (R63 to R65, R347, R359): lookup tag, canonical name, data, permissions. -/
structure Line where
  ctxAsid : Nat
  vline   : Nat
  asid    : Nat
  cline   : Nat
  pa      : Nat
  data    : List Host.Cell
  dirty   : Bool
  r       : Bool
  w       : Bool
  poison  : Bool
  stamp   : Nat
  sgrp    : Nat
  deriving DecidableEq, Repr

/-- A block of an instruction cache (R131). -/
structure IBlock where
  core   : Nat
  ctx    : Nat
  launch : Nat
  block  : Nat
  bytes  : Bytes
  deriving DecidableEq, Repr

/-- A translation-cache entry (R350). -/
structure TcEntry where
  die   : Nat
  part  : Nat
  asid  : Nat
  base  : Nat
  size  : Nat
  pa    : Nat
  r     : Bool
  w     : Bool
  stamp : Nat
  lvl   : Nat
  entry : BitVec 64
  deriving DecidableEq, Repr

/-- A remap entry as the filter loaded it (R349). -/
structure RemapEntry where
  index : Nat
  p     : Bool
  w     : Bool
  r     : Bool
  lbase : Nat
  cbase : Nat
  pages : Nat
  casid : Nat
  deriving DecidableEq, Repr

/-- Who waits on a fault record (R351). -/
inductive Requester where
  | thread (th : Nat)
  | copy (id : Nat)
  | queue (hq : Nat)
  | adder (launch : Nat)
  | domain (req : DomainReq)
  deriving DecidableEq, Repr
/-- An outstanding fault record (R351, R352). -/
structure FaultRec where
  ctx    : Nat
  fq     : Nat
  die    : Nat
  page   : Nat
  asid   : Nat
  kind   : Nat
  joined : List Requester
  deriving DecidableEq, Repr
/-- A record that waits for room in its ring (R293). -/
structure FqWait where
  fq    : Nat
  bytes : Bytes
  deriving DecidableEq, Repr

/-- Server state (R302): remaining budget, deadline, hold, pending work, subscription byte count (R83). -/
structure Server where
  q     : Int
  d     : Nat
  held  : Bool
  pend  : Bool
  bytes : Nat
  deriving DecidableEq, Repr

/-- Who gave a command whose result comes later: an agent outside, a thread with the pair that receives the result, or a PCIe
function's window (R285, R295). -/
inductive Asker where
  | outside
  | thread (k : Nat) (d : Reg)
  | window (fn : Nat)
  deriving DecidableEq, Repr

/-- A bound route (R315, R316): peer context, (link, entry) of the first hop, the hops' packages and links, and the number under
which the later hops know the binding. -/
structure Route where
  peer  : Nat
  link  : Nat
  entry : Nat
  hops  : List (Nat × Nat)
  id    : Nat
  deriving DecidableEq, Repr
/-- A binding whose later hops have still to answer, or that is being removed from the hops `left`, the nearest last, with the sum
and status of the hop that failed (R316). -/
structure RouteBuild where
  sg    : Nat
  pkg   : Nat
  peer  : Nat
  hop   : Nat
  hops  : List (Nat × Nat × Bool × Nat × Nat)
  first : Nat × Nat
  since : Nat
  who   : Option Asker
  id    : Nat
  fails : Option (Nat × Nat)
  left  : List Nat
  deriving DecidableEq, Repr

/-- A flit that has not yet had its slot, its acknowledgement or its answer (R373, R382): a transaction, or another flit this end
sends. `pos` and `tick` are the position and frame in which it was first issued; of its response `back` is the time at the fixed
latency of that issue, and `due` the time at the latency of its present issue (R378, R385), in units of 1/14 ns; of a response of
this end `due` is when it may leave. `again` says that it has been replayed, `far` that it belongs to the far end's positions
(R427), `undo` and `undoBad` hold the bytes a write of a drawer line replaced and whether they were poisoned (R384), `paid` counts the
slots that have been charged before they were given: that of a copy's flit and that of the vector clock before it (R413), and `copy` is
the copy it belongs to. -/
structure Txn where
  sgrp : Nat
  ctx  : Nat
  tag  : Nat
  flit : Flit
  pos  : Option Nat
  tick : Nat
  again : Bool
  back : Nat
  due  : Nat
  far  : Bool
  undo : Bytes
  undoBad : Bool
  paid : Nat
  copy : Option Nat
  deriving DecidableEq, Repr
/-- One direction of a link (R380, R383): `since` and `slot` are the frame and slot of the hand-back. -/
structure DirState where
  wlOut   : Option Nat
  wlDown  : List Nat
  trained : Bool
  rejoin  : Option Nat
  handed  : Nat
  since   : Nat
  slot    : Nat
  deriving DecidableEq, Repr
/-- A delay kept for the record of its event: the context, its largest delay in frames, the tick of the start, the cause, and for a
retrain its direction (R368, R385). -/
structure Stall where
  ctx    : Nat
  frames : Nat
  start  : Nat
  cause  : Nat
  dir    : Option Dir
  deriving DecidableEq, Repr
/-- Link state beyond its registers (R371 to R384): `last` is the latest slot given, `lastClock` and `clockIn` the domain
clocks sent and received by fabric group (R390); `commit` is the frame at which the timetable `adopt` takes effect, and
`shadowAsk` the frame at which the far end was asked for its shadow, with this end's own in `asked`, by `commitWho`; `heldAsk` is
the far end's shadow while its commit waits for this end's, and `nextCommit` lists who asked for a commit that waits for its turn
(R283, R376); `refreshed` is the last frame whose rows were queued (R366),
`windows` the start of each wavelength's window (R383), and `stalled` lists the delays of the present events (R385); `turn` is the background group whose turn it is (R306). `maint` waits
for maintenance positions, `replies` for the slots of the far end's positions, `ackOut` is the last acknowledgement sent, and `gap`
the slots from the arrival of a request to its response (R378). `lanes` names the stripe that each deserializer lane reads, and
`farTurns` the slots at which the far end's transmit rings rotate (R389). -/
structure LinkState where
  seqOut : Nat
  seqIn  : Nat
  ackIn  : Nat
  nak    : Bool
  queue  : List Txn
  flight : List Txn
  outDir : DirState
  inDir  : DirState
  commit : Option Nat
  shadowAsk : Option Nat
  commitWho : Asker
  asked  : List DWord
  heldAsk : Option (List DWord)
  nextCommit : List Asker
  adopt  : List DWord
  refreshed : Option Nat
  windows : Cells Nat
  turn    : Nat
  downAt : Option Nat
  lastClock : Cells (List Nat)
  clockIn : Cells (List Nat)
  last    : Option Nat
  rotate : List (Dir × Nat × Asker)
  stalled : List Stall
  maint  : List Flit
  replies : List Txn
  ackOut : Nat
  gap    : Nat
  lanes  : List Nat
  farTurns : List Nat
  deriving DecidableEq, Repr

/-- A ring whose heater change has still to take effect, with the code that is in force until then, or settles (R388, R420): `effect` and
`settleEnd` are core cycles. `level` is what its photodiode reads at present, and `readings` are those of its last 16 settled
frames. -/
structure RingState where
  effect : Option Nat
  old : Nat
  settleEnd : Option Nat
  level : Nat
  readings : List Nat
  deriving DecidableEq, Repr

/-- A saggar image (R335, R337): what the context left the cores with. -/
structure Saggar where
  header   : Bytes
  records  : Bytes
  launches : Cells Launch
  hoods    : Cells Hood
  groups   : Cells Group
  threads  : Cells Thread
  waves    : Cells Wave
  hampers  : List Hamper
  reformQ  : List ReformWait
  copies   : Cells CopyRec
  passes   : Cells Pass
  scores   : List (Nat × Score)
  subs     : List SubEntry
  dsp      : Cells Store
  savedAt  : Nat
  deriving DecidableEq, Repr

/-- A PCIe function's register window (R285). -/
structure HostWin where
  sel  : BitVec 64
  exec : BitVec 64
  data : BitVec 64
  deriving DecidableEq, Repr

/-- Bring-up and power (R401, R433, R435); `lock` is the reference clock's lock (R437). -/
structure Power where
  on      : Bool
  lock    : Bool
  booted  : Bool
  trained : Bool
  pcie    : Bool
  deriving DecidableEq, Repr

/-- Fault injection armed by ERRINJ (R369). -/
structure Inject where
  code : Nat
  unc  : Bool
  loc  : Nat
  deriving DecidableEq, Repr

/-- A saved image that a peer package holds under a ticket, with the pages it would stream (R339, R340): what an IMPORT of
that ticket would bring. The environment places these. -/
structure Offer where
  pkg    : Nat
  ticket : BitVec 128
  image  : Saggar
  size   : Nat
  pages  : List (Nat × Nat × List Host.Cell)
  deriving DecidableEq, Repr

/-- What leaves the package. -/
inductive OutMsg where
  | msix (vec : Nat)
  | ethernet (port : Nat) (frame : Bytes)
  | spdm (answer : Bytes)
  /-- A flit on a fabric link. -/
  | domain (link : Nat) (tag : Nat) (flit : Flit)
  /-- A flit on a memory link, of either end. -/
  | drawer (link : Nat) (flit : Flit)
  /-- The image that a peer package pulls under a ticket, with its pages (R340). -/
  | excursion (o : Offer)
  deriving DecidableEq, Repr

/-- What a packet of the on-die network carries (R321): a request to its home slice, a response, a basket, the data of a copy's unit,
or what changes nothing where it arrives. -/
inductive NetItem where
  | request (tag : Nat)
  | response (i : Instr)
  | basket (pub sub : Nat)
  | unit (copy : Nat)
  | none
  deriving DecidableEq, Repr
/-- A packet that waits at a router output (R321): its channel, the input it came by, its flits still to pass, the network cycle of
its injection, and whether its head flit has passed. -/
structure NetPacket where
  vc    : Nat
  input : Nat
  flits : Nat
  since : Nat
  begun : Bool
  item  : NetItem
  deriving DecidableEq, Repr
/-- A router output (R321): its packets in their order of arrival, how many flits it has sent since the last one of VC3, the deficits
of VC0 and VC2 with the one being visited, the input each channel served last, and the network cycle of its last flit. -/
structure RouterOut where
  queue   : List NetPacket
  since3  : Nat
  deficit : Nat
  visit   : Nat
  turn    : Cells Nat
  last    : Option Nat
  deriving DecidableEq, Repr

/-- The whole package. -/
structure State where
  clk      : Nat
  tick     : Nat
  tickSet  : Option Nat
  frameOff : Nat
  power    : Power
  sys      : Cells DWord
  drawer   : Store
  drawers  : List Nat
  dsp      : Cells Store
  threads  : Cells Thread
  groups   : Cells Group
  hoods    : Cells Hood
  launches : Cells Launch
  heads    : Cells Bytes
  waves    : Cells Wave
  cores    : Cells CoreState
  streams  : Cells Stream
  copies   : Cells CopyRec
  passes   : Cells Pass
  reqs     : Cells MemReq
  l1       : Cells Line
  l2       : Cells Line
  icache   : List IBlock
  tc       : List TcEntry
  remap    : Cells (List RemapEntry)
  faults   : Cells FaultRec
  fqWait   : List FqWait
  stuckQ   : List Nat
  domWait  : List DomainReq
  servers  : Cells Server
  routes   : Cells Route
  builds   : List RouteBuild
  unbinds  : List (Asker × List Nat)
  hops     : Cells (Nat × Nat × Nat)
  clocks   : Cells (List Nat)
  routers  : Cells RouterOut
  links    : Cells LinkState
  rings    : Cells RingState
  saggars  : Cells Saggar
  tickets  : Cells (BitVec 128)
  ticketTo : Cells Nat
  offers   : List Offer
  wins     : Cells HostWin
  watch    : Cells Nat
  deficits : Cells Nat
  turns    : Cells Nat
  sliceNext : Cells Nat
  ethTurn  : Cells Nat
  pfc      : Cells Nat
  flash    : Option Bundle
  lcNext   : Option Nat
  lcDue    : Option Nat
  spdmLog  : Bytes
  inject   : List Inject
  struck   : List (Nat × Nat × Bool)
  found    : List (Nat × Nat × Bool)
  scrubFix : List (Nat × Nat)
  ceSeen   : Cells (Nat × Nat)
  outbox   : List OutMsg
  inbox    : List Instr
  cur      : List Nat
  rivals   : List Nat
  cursor   : Nat
  fresh    : Nat
  stamp    : Nat
  freeCtr  : Nat
  cmdResult : BitVec 64
  deriving DecidableEq, Repr

/-- The machine right after reset: nothing resident, every memory zero (R8, R401), no system register away from its
reset value, the wipe in progress (WIPESTAT, R401), power on. -/
def State.reset : State :=
  { clk := 0, tick := 0, tickSet := none, frameOff := 0,
    power := { on := true, lock := false, booted := false, trained := false, pcie := false },
    sys := [], drawer := Store.zero, drawers := List.range 96, dsp := [],
    threads := [], groups := [], hoods := [], launches := [], heads := [], waves := [], cores := [], streams := [], copies := [],
    passes := [], reqs := [], l1 := [], l2 := [], icache := [], tc := [], remap := [], faults := [], fqWait := [],
    stuckQ := [], domWait := [], servers := [], routes := [], builds := [], unbinds := [], hops := [], clocks := [], routers := [], links := [], rings := [], saggars := [], tickets := [], ticketTo := [], offers := [],
    wins := [], watch := [], deficits := [], turns := [], sliceNext := [], ethTurn := [], pfc := [], flash := none, lcNext := none, lcDue := none, spdmLog := [], inject := [], struck := [], found := [], scrubFix := [], ceSeen := [], outbox := [], inbox := [], cur := [], rivals := [],
    cursor := 0, fresh := 1, stamp := 0, freeCtr := 0, cmdResult := 0 }

end Sys2Proof.Machine
end

