-- ==== Sys2Proof/Machine/Base.lean ====
section
/-!
DEFINITION. Reading and writing the parts of the state: bit fields, system registers (R279), threads, groups, launches
and contexts. Every part has one home; these are the accessors all meanings use.
-/
namespace Sys2Proof.Machine

/-- Bits [hi:lo] of a 64-bit register (R11). -/
def bits (x : DWord) (hi lo : Nat) : Nat := x.toNat / 2 ^ lo % 2 ^ (hi + 1 - lo)
/-- A 64-bit register with bits [hi:lo] set to v. -/
def setBits (x : DWord) (hi lo v : Nat) : DWord :=
  let w := 2 ^ (hi + 1 - lo)
  BitVec.ofNat 64 (x.toNat - (x.toNat / 2 ^ lo % w) * 2 ^ lo + (v % w) * 2 ^ lo)

/-- Reset value of a system register by index and instance (R13; the maps of R286 to R434). The fuses of LCSTATE, RBCNT
and DEVID are log 2. -/
def sysReset (idx inst : Nat) : DWord :=
  match idx with
  | 0x1006 => 0xFFFFFFFFFFFFFFFF
  | 0x2000 => 0xFFFF
  | 0x3000 => if inst = 0 then setBits (setBits (setBits 0x80000000FFFFFFFF 51 40 4095) 39 32 0xFF) 31 0 0xFFFFFFFF else 0
  | 0x3001 | 0x3003 | 0x3004 => if inst = 0 then 0xFFFFFFFFFFFFFFFF else 0
  | 0x3002 => if inst = 0 then 0xFFFFFFFFFFFFFFFF else if inst = 1 then 0xFFFFFFFF else 0
  | 0x3005 | 0x3006 => if inst < 4 then 0xFFFFFFFFFFFFFFFF else 0
  | 0x3007 => if inst = 0 then setBits 0 43 32 3072 else 0
  | 0x3008 => if inst = 0 then setBits 0 42 32 1024 else 0
  | 0x3009 => if inst = 0 then setBits (setBits 0 52 32 1015808) 20 0 1032192 else 0
  | 0x300A => if inst = 0 then setBits 0 48 32 65536 else 0
  | 0x3030 => setBits (setBits 0 63 63 1) 62 60 1
  | 0x4000 => setBits 0 51 45 1
  | 0x5000 => setBits (setBits (setBits 0 63 63 1) 51 32 2000) 19 0 100
  | 0x8010 => setBits 0 63 61 (if inst % 32 = 31 then 2 else 1)
  | 0x9010 => setBits 0 63 61 (if inst % 64 = 63 then 2 else if inst % 2 = 0 then 1 else 4)
  | 0x8021 | 0x9021 => setBits (setBits 0 63 60 3) 31 0 0x10000
  | 0x8030 | 0x9030 => setBits (setBits 0 58 56 (inst % 8)) 11 0 2048
  | 0xB000 => setBits 0 63 48 0x0E44
  | 0xB006 => setBits (setBits 0 27 16 920) 11 0 800
  | _ => 0

/-- Key of a system register instance. -/
def sysKey (idx inst : Nat) : Nat := idx * 4294967296 + inst

namespace State

/-- The stored value of a system register instance (R279). -/
def reg (s : State) (idx inst : Nat) : DWord := lookupD (sysReset idx inst) s.sys (sysKey idx inst)
/-- A system register instance set. -/
def setReg (s : State) (idx inst : Nat) (v : DWord) : State :=
  { s with sys := putD (sysReset idx inst) s.sys (sysKey idx inst) v }
/-- Bits [hi:lo] of a system register. -/
def fld (s : State) (idx inst hi lo : Nat) : Nat := bits (s.reg idx inst) hi lo
/-- A system register with bits [hi:lo] set. -/
def setFld (s : State) (idx inst hi lo v : Nat) : State := s.setReg idx inst (setBits (s.reg idx inst) hi lo v)

end State

/-- No trap taken (R39, R46). -/
def Trap.none : Trap := ⟨0, 0, 0, 0⟩
/-- Supervisor registers at a thread's start (R286). -/
def SupRegs.zero : SupRegs := ⟨Trap.none, false, 0, 0⟩
/-- A thread at launch, before its argument pointer is placed (R39). -/
def Thread.zero : Thread :=
  { ctx := 0, gid := 0, tid := 0, hidx := 0, core := 0, slot := 0, lane := 0, tag := 0, status := .live,
    pc := 0, v := [], p := 0, a := [], fp := 0, trap := Trap.none, hand := false, sup := SupRegs.zero, las := [],
    wait := .none, since := 0, pend := 0, hire := none, bad := [], issued := 0, skew := false, slice := Store.zero }
/-- A packet of zeros. -/
def Packet.zero : Packet :=
  { entry := 0, arg := 0, gx := 0, gy := 0, gz := 0, nx := 0, ny := 0, nz := 0, hw := 0, hh := 0, hg := 0, regs := 0,
    acc := 0, slice := 0, scratch := 0, prot := false, replay := false, prio := 0, rscope := 0, sgrp := 0,
    handler := 0, w0a := 0, w0v := 0, w1a := 0, w1v := 0, ca := 0, cv := 0 }
/-- A launch record of zeros. -/
def Launch.zero : Launch :=
  { ctx := 0, hq := 0, head := 0, pkt := Packet.zero, deadline := 0, next := 0, relaunch := [], kills := [], left := 0,
    waitFrom := none, reserved := false, adding := false }
/-- A group with nothing in it. -/
def Group.zero : Group :=
  { ctx := 0, launch := 0, hood := 0, hpos := 0, core := 0, n := 0, slots := [], alloc := Store.zero, bars := [],
    tls := [] }
/-- A hood with no groups. -/
def Hood.zero : Hood :=
  { ctx := 0, launch := 0, index := 0, die := 0, x0 := 0, y0 := 0, groups := [], left := [], bar := ⟨0, []⟩, dying := none }
/-- A core with nothing in its hampers, scoreboard and subscription entries. -/
def CoreState.zero : CoreState :=
  { hampers := [], reformQ := [], kept := [], lastDraw := none, score := [], subIn := [], subOut := [], produced := 0
    cpTurn := 0, cpNext := 0, mxFree := 0 }
/-- A timeline at residence: issued and completed are 0 (R207). -/
def Timeline.zero : Timeline := ⟨0, 0, [], []⟩

/-- The header of a flit that waits for its slot: its KIND (R371). -/
def kindHdr (kind : Nat) : DWord := setBits 0 30 28 kind
/-- A transaction that waits for its first slot. -/
def Txn.new (sgrp ctx tag : Nat) (flit : Flit) (tick : Nat) : Txn := ⟨sgrp, ctx, tag, flit, none, tick, false, 0, 0, false, [], false, 0, none⟩
/-- A link direction at rest. -/
def DirState.zero : DirState := ⟨none, [], false, none, 0, 0, 0⟩
/-- A link before anything has passed: sequence numbers 0, queues empty (R371). -/
def LinkState.zero : LinkState :=
  { seqOut := 0, seqIn := 0, ackIn := 65535, nak := false, queue := [], flight := [], outDir := DirState.zero
    inDir := DirState.zero, commit := none, shadowAsk := none, commitWho := .outside, asked := [], heldAsk := none, nextCommit := [], adopt := [], refreshed := none
    windows := [], turn := 0, downAt := none, lastClock := [], clockIn := [], last := none, rotate := [], stalled := [], maint := [], replies := [], ackOut := 65535, gap := 80
    lanes := List.range 8, farTurns := [] }

/-- A router output with nothing to send: no limit on VC3 stands (R321). -/
def RouterOut.zero : RouterOut := ⟨[], 15, 0, 0, [], none⟩
/-- A window in which nothing has been written (R285). -/
def HostWin.zero : HostWin := ⟨0, 0, 0⟩

/-- Key of a thread or helper. -/
def threadKey (gid tid hidx : Nat) : Nat := gid * 32768 + tid * 32 + hidx

namespace State

/-- A thread by key. -/
def thread (s : State) (k : Nat) : Thread := lookupD Thread.zero s.threads k
/-- A thread set. -/
def setThread (s : State) (k : Nat) (th : Thread) : State := { s with threads := put s.threads k th }
/-- A thread changed, if it is there. -/
def modThread (s : State) (k : Nat) (f : Thread → Thread) : State := { s with threads := adjust s.threads k f }
/-- A group by id. -/
def group (s : State) (g : Nat) : Group := lookupD Group.zero s.groups g
/-- A group changed, if it is there. -/
def modGroup (s : State) (g : Nat) (f : Group → Group) : State := { s with groups := adjust s.groups g f }
/-- A launch record by id. -/
def launch (s : State) (l : Nat) : Launch := lookupD Launch.zero s.launches l
/-- A hood by id. -/
def hood (s : State) (h : Nat) : Hood := lookupD Hood.zero s.hoods h
/-- A hood changed, if it is there. -/
def modHood (s : State) (h : Nat) (f : Hood → Hood) : State := { s with hoods := adjust s.hoods h f }
/-- A core's structures. -/
def core (s : State) (c : Nat) : CoreState := lookupD CoreState.zero s.cores c
/-- A core's structures changed. -/
def modCore (s : State) (c : Nat) (f : CoreState → CoreState) : State :=
  { s with cores := putD CoreState.zero s.cores c (f (s.core c)) }
/-- The packet of a thread's launch. -/
def pktOf (s : State) (th : Thread) : Packet := (s.launch (s.group th.gid).launch).pkt
/-- The group's packet. -/
def groupPkt (s : State) (g : Nat) : Packet := (s.launch (s.group g).launch).pkt

/-- Declared vector registers of a thread: 32 in a helper (R37, R43). -/
def nRegs (s : State) (th : Thread) : Nat := if th.hidx = 0 then (s.pktOf th).regs else 32
/-- Declared accumulators: none in a helper (R41, R43). -/
def nAcc (s : State) (th : Thread) : Nat := if th.hidx = 0 then (s.pktOf th).acc else 0
/-- Whether a thread's launch is protected (R34). -/
def prot (s : State) (th : Thread) : Bool := (s.pktOf th).prot
/-- Die of a core number 0 to 575. -/
def dieOf (c : Nat) : Nat := c / 144

/-- Link number within the table of links: memory links 0 to 95, fabric links from 96 up. -/
def linkKey (l : LinkId) : Nat := if l.fab then 96 + l.n else l.n
/-- The link under a key of the table of links. -/
def linkOf (k : Nat) : LinkId := if k < 96 then ⟨false, k⟩ else ⟨true, k - 96⟩
/-- A link's state. -/
def link (s : State) (l : LinkId) : LinkState := lookupD LinkState.zero s.links (linkKey l)
/-- A link's state changed. -/
def modLink (s : State) (l : LinkId) (f : LinkState → LinkState) : State :=
  { s with links := putD LinkState.zero s.links (linkKey l) (f (s.link l)) }

/-- A function's window (R285). -/
def hostWin (s : State) (fn : Nat) : HostWin := lookupD HostWin.zero s.wins fn
/-- A function's window set. -/
def setHostWin (s : State) (fn : Nat) (w : HostWin) : State := { s with wins := put s.wins fn w }
/-- The core cycle within the present frame (R12, R370). -/
def frameClk (s : State) : Nat := (s.clk + s.frameOff) % 384
/-- Number of the present 0.5 ns of the time base: the slot of the links, and the cycle of the on-die network (R12, R370). -/
def slotNow (s : State) : Nat := s.tick * 256 + s.frameClk * 2 / 3
/-- The present time of the links in units of 1/14 ns (R378). -/
def unitNow (s : State) : Nat := s.tick * 1792 + s.frameClk * 1792 / 384

/-- PRIV of a context (R277). -/
def priv (s : State) (ctx : Nat) : Nat := s.fld 0x1000 ctx 62 61
/-- STATE of a context (R290). -/
def ctxState (s : State) (ctx : Nat) : Nat := s.fld 0x1003 ctx 63 61
/-- Contexts that are not FREE, ascending. -/
def liveContexts (s : State) : List Nat :=
  (s.sys.filter fun e => decide (e.1 / 4294967296 = 0x1003) && decide (bits e.2 63 61 ≠ 0)).map fun e => e.1 % 4294967296
/-- STATE of a context set. -/
def setCtxState (s : State) (ctx v : Nat) : State := s.setFld 0x1003 ctx 63 61 v
/-- Server group of a context (R290). -/
def sgrpOf (s : State) (ctx : Nat) : Nat := s.fld 0x1000 ctx 39 32
/-- Partition of a context (R290). -/
def partOf (s : State) (ctx : Nat) : Nat := s.fld 0x1000 ctx 60 56
/-- Canonical ASID of a context (R290). -/
def asidOf (s : State) (ctx : Nat) : Nat := s.fld 0x1000 ctx 55 40

/-- A fresh identifier. -/
def bump (s : State) : State := { s with fresh := s.fresh + 1 }
/-- A message leaves the package. -/
def emit (s : State) (m : OutMsg) : State := { s with outbox := s.outbox ++ [m] }
/-- An event that another part of the package makes due at once (its own step follows). -/
def post (s : State) (i : Instr) : State := { s with inbox := s.inbox ++ [i] }
/-- A value the spec leaves open, drawn from the free values (log 1). -/
def freeWord (s : State) : DWord := Config.free s.freeCtr
/-- The next free value. -/
def drawFree (s : State) : State := { s with freeCtr := s.freeCtr + 1 }

/-- Keys of the live threads of a wave slot. -/
def waveThreads (s : State) (core slot : Nat) : List Nat :=
  (s.threads.filter fun e => e.2.core == core && e.2.slot == slot && e.2.status == .live).map Prod.fst
/-- Key of a wave slot. -/
def waveKey (core slot : Nat) : Nat := core * 64 + slot
/-- Waits for a scoreboard entry, a copy record, a server or a queue are tried again (R67, R69, R222). -/
def wakeRetry (s : State) : State :=
  { s with threads := mapValues (fun _ th => if th.wait = .retry then { th with wait := .none } else th) s.threads }

end State

/-- A byte of a store: zero where nothing is listed (R8). -/
def Store.byte (m : Store) (a : Nat) : Byte := lookupD 0 m.cells a
/-- A byte of a store set; the canonical form lists no zero byte. -/
def Store.setByte (m : Store) (a : Nat) (b : Byte) : Store := { m with cells := putD 0 m.cells a b }
/-- Bytes from an address up. -/
def Store.read (m : Store) (a : Nat) : Nat → Bytes
  | 0 => []
  | n + 1 => m.byte a :: Store.read m (a + 1) n
/-- Bytes written from an address up. -/
def Store.write (m : Store) (a : Nat) : Bytes → Store
  | [] => m
  | b :: l => Store.write (m.setByte a b) (a + 1) l
/-- Whether bytes of a store hold poison, kept per 8-byte word (R359). -/
def Store.poisoned (m : Store) (a n : Nat) : Bool := m.bad.any fun g => decide (8 * g < a + n) && decide (a < 8 * g + 8)
/-- A write of n bytes at a clears the poison of every granule of `unit` bytes it covers in full (R359). -/
def Store.clearPoison (m : Store) (unit a n : Nat) : Store :=
  { m with bad := m.bad.filter fun g => !(decide (a ≤ 8 * g / unit * unit) && decide (8 * g / unit * unit + unit ≤ a + n)) }
/-- Poison in every granule of `unit` bytes that n bytes at a reach (R359). -/
def Store.addPoison (m : Store) (unit a n : Nat) : Store :=
  let lo := a / unit * unit
  let hi := (a + n + unit - 1) / unit * unit
  let gs := (List.range ((hi - lo) / 8)).map (· + lo / 8)
  { m with bad := gs ++ m.bad.filter fun g => !gs.contains g }
/-- A plain write of bytes to on-chip storage: the bytes land, and words written in full lose their poison. -/
def Store.put (m : Store) (a : Nat) (l : Bytes) : Store := (m.write a l).clearPoison 8 a l.length
/-- The canonical form of a byte store: rising addresses and no zero byte listed. -/
def Memory.wf (m : Store) : Bool := rising m.cells && m.cells.all fun e => e.2 != 0

end Sys2Proof.Machine
end

