-- ==== Sys2Proof/Machine/Operands.lean ====
section
/-!
DEFINITION. Operand access: vector registers, pairs and quads (R37), predicates (R40), accumulators (R41), the guard
(R135) and the address of a memory operand (R146).
-/
namespace Sys2Proof.Machine
namespace Thread

/-- A vector register (R37). -/
def rv (th : Thread) (r : Reg) : Word := lookupD 0 th.v r.toNat
/-- A vector register by number. -/
def rvn (th : Thread) (n : Nat) : Word := lookupD 0 th.v n
/-- A pair: v(K) in bits [31:0] and v(K + 1) in bits [63:32] (R37). -/
def rw (th : Thread) (r : Reg) : DWord := th.rvn (r.toNat + 1) ++ th.rvn r.toNat
/-- A quad, vK lowest (R37). -/
def rx (th : Thread) (r : Reg) : BitVec 128 :=
  th.rvn (r.toNat + 3) ++ th.rvn (r.toNat + 2) ++ th.rvn (r.toNat + 1) ++ th.rvn r.toNat
/-- A predicate; 127 names pT, which reads as 1 (R40). -/
def rp (th : Thread) (r : Reg) : Bool := if r = 127 then true else th.p.getLsbD r.toNat
/-- Element e of an accumulator (R41). -/
def ra (th : Thread) (r : Reg) (e : Nat) : Word := lookupD 0 th.a (16 * r.toNat + e)

/-- A vector register by number set. -/
def wvn (th : Thread) (n : Nat) (x : Word) : Thread := { th with v := putD 0 th.v n x }
/-- A vector register set. -/
def wv (th : Thread) (r : Reg) (x : Word) : Thread := th.wvn r.toNat x
/-- A pair set (R37). -/
def ww (th : Thread) (r : Reg) (x : DWord) : Thread :=
  (th.wvn r.toNat (x.extractLsb' 0 32)).wvn (r.toNat + 1) (x.extractLsb' 32 32)
/-- A quad set (R37). -/
def wx (th : Thread) (r : Reg) (x : BitVec 128) : Thread :=
  ((((th.wvn r.toNat (x.extractLsb' 0 32)).wvn (r.toNat + 1) (x.extractLsb' 32 32)).wvn (r.toNat + 2)
    (x.extractLsb' 64 32)).wvn (r.toNat + 3) (x.extractLsb' 96 32))
/-- A register or pair set by width (R155). -/
def wvw (th : Thread) (wide : Bool) (r : Reg) (x : DWord) : Thread :=
  if wide then th.ww r x else th.wv r (x.extractLsb' 0 32)
/-- A register or pair by width, zero above 32 bits for a register (R155). -/
def rvw (th : Thread) (wide : Bool) (r : Reg) : DWord := if wide then th.rw r else (th.rv r).zeroExtend 64
/-- A predicate set; a write of pT is discarded (R40). -/
def wp (th : Thread) (r : Reg) (b : Bool) : Thread :=
  if r = 127 then th
  else { th with p := (th.p &&& ~~~(1#96 <<< r.toNat)) ||| ((b1 b).zeroExtend 96 <<< r.toNat) }
/-- 32 predicates from pK up set (R164). -/
def wpg (th : Thread) (r : Reg) (x : Word) : Thread :=
  { th with p := (th.p &&& ~~~(0xFFFFFFFF#96 <<< r.toNat)) ||| (x.zeroExtend 96 <<< r.toNat) }
/-- 32 predicates from pK up (R164). -/
def rpg (th : Thread) (r : Reg) : Word := (th.p >>> r.toNat).extractLsb' 0 32
/-- Element e of an accumulator set (R41). -/
def wa (th : Thread) (r : Reg) (e : Nat) (x : Word) : Thread := { th with a := putD 0 th.a (16 * r.toNat + e) x }
/-- The 16 elements of an accumulator. -/
def rarow (th : Thread) (r : Reg) : List Word := (List.range 16).map (th.ra r)
/-- The 16 elements of an accumulator set from element e up. -/
def warow (th : Thread) (r : Reg) (e : Nat) : List Word → Thread
  | [] => th
  | x :: l => warow (th.wa r e x) r (e + 1) l

/-- Whether the guard makes a thread active (R135). -/
def active (th : Thread) (h : Head) : Bool := th.rp (h.g.zeroExtend 8) != h.gn

/-- The address of a memory operand (R146). -/
def ea (th : Thread) (am : Am) (a : Reg) (off : DWord) : DWord :=
  let low : Word := th.rv a + off.extractLsb' 0 32
  match am with
  | .pair => th.rw a + off
  | .slice => 0xC000000000000000 ||| low.zeroExtend 64
  | .core => 0xD000000000000000 ||| low.zeroExtend 64
  | .dsp => 0xF000000000000000 ||| low.zeroExtend 64

end Thread

/-- Offset of an S form (R146). -/
def offS (c : BitVec 8) : DWord := c.signExtend 64
/-- Offset of a W form (R146). -/
def offW (i : BitVec 32) : DWord := i.signExtend 64
/-- Offset of either form. -/
def offOf : Off → DWord
  | .short c => offS c
  | .long i => offW i

end Sys2Proof.Machine
end

