-- ==== Sys2Proof/Machine/Flags.lean ====
section
/-!
DEFINITION. The floating-point status word (R47): raising, reading and clearing flags, and the results of the
floating-point forms written to registers with their flags (R174, R183, R184).
-/
namespace Sys2Proof.Machine

/-- Flags are sticky: an instruction sets the flags it raises and clears none (R47). -/
def Thread.raise (th : Thread) (fl : Flags) : Thread := { th with fp := th.fp ||| fl }
/-- The status word read by FSTAT (R47). -/
def Thread.fpWord (th : Thread) : Word := th.fp.zeroExtend 32
/-- The status word cleared (R182). -/
def Thread.fpClear (th : Thread) : Thread := { th with fp := 0 }

/-- The pattern a scalar form reads: bits [15:0] in a 16-bit format (R174). -/
def fpIn (f : Fmt) (x : Word) : Nat := x.toNat % 2 ^ fmtBits f
/-- A scalar result and its flags written to vD, with bits [31:16] zero in a 16-bit format (R174). -/
def Thread.wf (th : Thread) (d : Reg) (r : Nat × Flags) : Thread := (th.wv d (BitVec.ofNat 32 r.1)).raise r.2

/-- Both lanes of a packed form, with the flags of both (R183). -/
def packed2 (f : Nat → Nat × Flags) (g : Nat → Nat × Flags) : Nat × Flags :=
  ((f 0).1 % 65536 + 65536 * ((g 1).1 % 65536), (f 0).2 ||| (g 1).2)
/-- A packed form of two operands (R183). -/
def half2 (op : Nat → Nat → Nat × Flags) (a b : Word) : Nat × Flags :=
  packed2 (fun l => op (half a l) (half b l)) (fun l => op (half a l) (half b l))
/-- A packed form of three operands (R183). -/
def half3 (op : Nat → Nat → Nat → Nat × Flags) (a b c : Word) : Nat × Flags :=
  packed2 (fun l => op (half a l) (half b l) (half c l)) (fun l => op (half a l) (half b l) (half c l))

/-- The 16-bit format other than the named one (R184). -/
def otherHalf : Fmt → Fmt
  | .f16 => .bf16
  | .bf16 => .f16
  | .f32 => .f32

/-- HCVT2.PK (R184). -/
def hcvtPk (f : Fmt) (md : Rm) (a b : Word) : Nat × Flags :=
  packed2 (fun _ => fConvert f .f32 md a.toNat) (fun _ => fConvert f .f32 md b.toNat)
/-- HCVT2.X (R184). -/
def hcvtX (f : Fmt) (md : Rm) (a : Word) : Nat × Flags :=
  packed2 (fun l => fConvert f (otherHalf f) md (half a l)) (fun l => fConvert f (otherHalf f) md (half a l))
/-- HCVT2.UPK: both lanes widened to binary32 (R184). -/
def hcvtUpk (f : Fmt) (a : Word) : DWord × Flags :=
  let lo := fConvert .f32 f .rn (half a 0)
  let hi := fConvert .f32 f .rn (half a 1)
  (BitVec.ofNat 32 hi.1 ++ BitVec.ofNat 32 lo.1, lo.2 ||| hi.2)

/-- The combine of a reduction on words with its flags (R189). -/
def reduceWord (op : RedOp) (ty : Ty) (sat : Bool) (md : Rm) (a b : Word) : Word × Flags :=
  if ty = .f32 then
    let r := match op with
      | .add => fAdd .f32 md a.toNat b.toNat
      | .max => fMinMax .f32 true a.toNat b.toNat
      | _ => fMinMax .f32 false a.toNat b.toNat
    (BitVec.ofNat 32 r.1, r.2)
  else (reduceInt op ty sat a b, 0)

end Sys2Proof.Machine
end

