-- ==== Sys2Proof/Machine/Servers.lean ====
section
/-!
DEFINITION. Servers (R300 to R310): which server a piece of work is charged to, its budget and deadline, charging,
holding, replenishment and wake-up.
-/
namespace Sys2Proof.Machine

/-- Number of a server class (R314). -/
def srvClassNum : SrvClass → Nat
  | .ig => 0
  | .mx => 1
  | .cp => 2
  | .mc => 3
  | .fx => 4
/-- Key of a server: the instance of R314. -/
def srvNat (k : SrvKey) : Nat := srvClassNum k.cls * 536870912 + k.eng * 256 + k.id
/-- Capacity of an engine of a class in a frame (R300). -/
def srvCapacity : SrvClass → Nat
  | .ig | .mx => 384
  | .cp => 192
  | .mc | .fx => 256
/-- Core of an IG, MX or CP engine (R300). -/
def srvCore (k : SrvKey) : Nat := if k.cls = .ig then k.eng / 4 else k.eng
/-- LSRV instance of a link-server entry (R313). -/
def lsrvInst (fab : Bool) (link entry : Nat) : Nat := (if fab then 2147483648 else 0) + link * 256 + entry
/-- The register that configures a server: its template or its link-server entry (R301, R313). -/
def State.srvReg (s : State) (k : SrvKey) : DWord :=
  match k.cls with
  | .ig => s.reg 0x4002 k.id
  | .mx => s.reg 0x4003 k.id
  | .cp => s.reg 0x4004 k.id
  | .mc => s.reg 0x4100 (lsrvInst false k.eng k.id)
  | .fx => s.reg 0x4100 (lsrvInst true k.eng k.id)

/-- Cluster of a core on its die (R328): 3 x 3 cores. -/
def clusterOf (core : Nat) : Nat :=
  let x := core % 144 % 12
  let y := core % 144 / 12
  x / 3 + 4 * (y / 3)
/-- Whether a partition owns a core's cluster (R393). -/
def State.partHasCore (s : State) (part core : Nat) : Bool :=
  (s.reg 0x3001 part).getLsbD (16 * State.dieOf core + clusterOf core)

/-- Whether a server is installed at its engine (R301): its register is enabled and, for the core classes, the core
lies in the partition of the server group. -/
def State.srvInstalled (s : State) (k : SrvKey) : Bool :=
  (s.srvReg k).getLsbD 63 &&
  match k.cls with
  | .ig | .mx | .cp => s.partHasCore (s.fld 0x4000 k.id 62 58) (srvCore k)
  | .mc | .fx => true
/-- Whether an installed server is hard (R304). -/
def State.srvHard (s : State) (k : SrvKey) : Bool := (s.srvReg k).getLsbD 62
/-- Budget Q of a server (R302). -/
def State.srvQ (s : State) (k : SrvKey) : Nat := bits (s.srvReg k) 23 0
/-- Period T of a server (R302). -/
def State.srvT (s : State) (k : SrvKey) : Nat := bits (s.srvReg k) 47 24

/-- A server when it is installed: q and d are 0 (R302). -/
def Server.zero : Server := { q := 0, d := 0, held := false, pend := false, bytes := 0 }
/-- A server's state. -/
def State.srv (s : State) (k : SrvKey) : Server := lookupD Server.zero s.servers (srvNat k)
/-- A server's state set. -/
def State.setSrv (s : State) (k : SrvKey) (x : Server) : State :=
  { s with servers := putD Server.zero s.servers (srvNat k) x }

/-- n replenishments: q := q + Q and d := d + T each (R304). -/
def Server.renew (x : Server) (budget period n : Nat) : Server :=
  { x with q := x.q + n * budget, d := (x.d + n * period) % 2 ^ 48 }
/-- Replenishments until q > 0. -/
def needed (q : Int) (budget : Nat) : Nat := if 0 < q then 0 else q.natAbs / budget + 1
/-- What a server becomes when a charge leaves it exhausted (R304). -/
def exhaust (x : Server) (hard : Bool) (budget period tick : Nat) : Server :=
  if 0 < x.q then x
  else if !hard then x.renew budget period (needed x.q budget)
  else if tick < x.d then { x with held := true }
  else
    let y := x.renew budget period (min (needed x.q budget) ((tick - x.d) / period + 1))
    { y with held := decide (y.q ≤ 0) }

/-- The constant-bandwidth wake-up of a server that becomes active at tick t (R305). -/
def wakeUp (x : Server) (budget period tick : Nat) : Server :=
  if x.held then { x with pend := true }
  else if x.d ≤ tick || decide (((x.d - tick) * budget : Nat) < x.q * period) then
    { x with pend := true, q := budget, d := (tick + period) % 2 ^ 48 }
  else { x with pend := true }

/-- Work arrives at a server (R305). -/
def State.arrive (s : State) (k : SrvKey) : State :=
  if !s.srvInstalled k || (s.srv k).pend then s
  else s.setSrv k (wakeUp (s.srv k) (s.srvQ k) (s.srvT k) s.tick)
/-- A charge (R302, R304); work without a server charges nothing (R306). -/
def State.charge (s : State) (k : SrvKey) (units : Nat) : State :=
  if !s.srvInstalled k then s
  else
    let x := (s.arrive k).srv k
    (s.arrive k).setSrv k (exhaust { x with q := x.q - units } (s.srvHard k) (s.srvQ k) (s.srvT k) s.tick)
/-- A hard server that waits for its deadline holds its work (R304). -/
def State.heldNow (s : State) (k : SrvKey) : Bool := s.srvInstalled k && (s.srv k).held
/-- Replenishment of a held server at the frame in which tick reaches d (R304). -/
def State.replenish (s : State) (k : SrvKey) : State :=
  let x := s.srv k
  if !s.srvInstalled k || !x.held || decide (s.tick < x.d) then s
  else
    let y := x.renew (s.srvQ k) (s.srvT k) 1
    s.setSrv k { y with held := decide (y.q ≤ 0) }

/-- Server of a link entry (R307). -/
def linkSrv (l : LinkId) (e : Nat) : SrvKey := ⟨if l.fab then .fx else .mc, l.n, e⟩
/-- Server group of a link entry (R313). -/
def State.entryGroup (s : State) (l : LinkId) (e : Nat) : Nat := s.fld 0x4100 (lsrvInst l.fab l.n e) 61 54
/-- Entries of a link that serve a server group (R307). -/
def State.groupEntries (s : State) (l : LinkId) (sg : Nat) : List Nat :=
  (List.range 32).filter fun e => s.srvInstalled (linkSrv l e) && s.entryGroup l e == sg
/-- No entry of a context's server group lets work start on a link: each is hard and held, or its q is used up by the slots that work
already started still owes (R302, R304). Slots of a fabric link are charged as the work starts (R413). -/
def State.linkShort (s : State) (ctx : Nat) (l : LinkId) : Bool :=
  let es := s.groupEntries l (s.sgrpOf ctx)
  let owed := if l.fab then 0 else ((s.link l).queue.filter fun t => t.sgrp == s.sgrpOf ctx).length
  !es.isEmpty && es.all fun e =>
    let x := (s.arrive (linkSrv l e)).srv (linkSrv l e)
    s.srvHard (linkSrv l e) && (x.held || decide (x.q ≤ (owed : Int)))

/-- Issue group of a wave slot: slots 0 to 15 are those of IG0, and so on (log 3). -/
def igOf (slot : Nat) : Nat := slot / 16
/-- The IG server of a context at a wave slot of a core (R300, R301). -/
def State.igKey (s : State) (ctx core slot : Nat) : SrvKey := ⟨.ig, 4 * core + igOf slot, s.sgrpOf ctx⟩
/-- The MX server of a context on a core. -/
def State.mxKey (s : State) (ctx core : Nat) : SrvKey := ⟨.mx, core, s.sgrpOf ctx⟩
/-- The CP server of a context on a core. -/
def State.cpKey (s : State) (ctx core : Nat) : SrvKey := ⟨.cp, core, s.sgrpOf ctx⟩

end Sys2Proof.Machine
end

