-- ==== Sys2Proof/Machine/Wipe.lean ====
section
/-!
DEFINITION. Taking a context's work off the device: wiping its on-chip state (R8, R291), the context fault (R291), and
the events other contexts see of it (CSTATE of R290).
-/
namespace Sys2Proof.Machine
namespace State

/-- Whether a group belongs to a context. -/
def groupCtx (s : State) (g : Nat) : Nat := (s.group g).ctx

/-- Hampers that threads wait for: distinct group, target and key (R26). -/
def awaited : List ReformWait → Nat
  | [] => 0
  | w :: l => awaited l + if l.any fun x => x.th / 32768 == w.th / 32768 && x.target == w.target && x.key == w.key then 0 else 1
/-- Entries are freed: each is kept for a hamper that threads wait for, while there is one without an entry (R26). -/
def keepFreed (c : CoreState) (freed : List Nat) : CoreState :=
  { c with kept := (c.kept ++ freed).take (awaited c.reformQ) }
/-- What a core keeps when a set of groups leaves it: `gone` says which groups, `goneHood` which hoods. -/
def coreWithout (gone goneHood : Nat → Bool) (goneCopy gonePass : Nat → Bool) (c : CoreState) : CoreState :=
  keepFreed { c with
    hampers := keep (fun _ h => !gone h.gid) c.hampers
    reformQ := c.reformQ.filter fun w => !gone (w.th / 32768)
    score := c.score.filter fun e => match e.owner with
      | .copy i => !goneCopy i
      | .pass i => !gonePass i
    subIn := keep (fun _ e => !goneHood e.hood) c.subIn
    subOut := keep (fun _ e => !goneHood e.hood) c.subOut }
    ((c.hampers.filter fun e => gone e.2.gid).map Prod.fst)

/-- Every group that satisfies a test leaves its core with its threads, copies, matrix passes, requests, hampers,
scoreboard and subscription entries and updates; its hoods too where the test on hoods says so (R82, R363). -/
def removeGroups (s : State) (gone goneHood : Nat → Bool) : State :=
  let goneCopy i := match lookup s.copies i with
    | some c => gone c.gid
    | none => false
  let gonePass i := match lookup s.passes i with
    | some p => gone p.gid
    | none => false
  { s with
    threads := keep (fun k _ => !gone (k / 32768)) s.threads
    groups := keep (fun k _ => !gone k) s.groups
    hoods := keep (fun k _ => !goneHood k) s.hoods
    waves := keep (fun _ w => !gone w.gid) s.waves
    cores := mapValues (fun _ c => coreWithout gone goneHood goneCopy gonePass c) s.cores
    streams := mapValues (fun _ t => { t with
      basket := t.basket.filter fun u => !goneHood u.hood
      sent := t.sent.map fun b => b.filter fun u => !goneHood u.hood }) s.streams
    copies := keep (fun _ c => !gone c.gid) s.copies
    passes := keep (fun _ p => !gone p.gid) s.passes
    reqs := keep (fun _ r => !gone (r.th / 32768)) s.reqs
    cur := s.cur.filter fun k => !gone (k / 32768) }

/-- Whether some other context that is not FREE names the server group of a context. -/
def shareDsp (s : State) (ctx : Nat) : Bool :=
  s.liveContexts.any fun c => c != ctx && s.sgrpOf c == s.sgrpOf ctx
/-- Bytes of a store outside [lo, hi). -/
def storeOutside (m : Store) (lo hi : Nat) : Store :=
  { cells := m.cells.filter fun e => decide (e.1 < lo) || decide (hi ≤ e.1)
    bad := m.bad.filter fun g => decide (8 * g + 8 ≤ lo) || decide (hi ≤ 8 * g) }
/-- A 64 KiB unit of die scratchpad lies in the window of an enabled server group other than one (R312, R320). -/
def unitOfOther (s : State) (sg u : Nat) : Bool :=
  (List.range 256).any fun g => g != sg && s.fld 0x4000 g 63 63 == 1 && decide (s.fld 0x4001 g 9 0 ≤ u) &&
    decide (u < s.fld 0x4001 g 9 0 + s.fld 0x4001 g 41 32)
/-- The die-scratchpad window of a server group zeroed on all dies, but for units that have since been given to another enabled group
(R59, R320). -/
def zeroWindow (s : State) (sg : Nat) : State :=
  ((List.range (s.fld 0x4001 sg 41 32)).map (s.fld 0x4001 sg 9 0 + ·)).foldl (fun t u =>
    if s.unitOfOther sg u then t
    else { t with dsp := mapValues (fun _ m => storeOutside m (65536 * u) (65536 * (u + 1))) t.dsp }) s

/-- A context's on-chip state is wiped: its groups, launches, L1 lines, instruction blocks, fault records and read packets go,
and, where `window` says so, its die-scratchpad window unless another context shares it (R8, R291, R352). -/
def wipeContext (s : State) (ctx : Nat) (window : Bool) : State :=
  let gone g := (s.group g).ctx == ctx && (lookup s.groups g).isSome
  let s1 := s.removeGroups gone (fun h => (s.hood h).ctx == ctx && (lookup s.hoods h).isSome)
  let s2 := { s1 with
    launches := keep (fun _ l => l.ctx != ctx) s1.launches
    l1 := keep (fun _ l => l.ctxAsid != s.asidOf ctx) s1.l1
    icache := s1.icache.filter fun b => b.ctx != ctx
    faults := keep (fun _ f => f.ctx != ctx) s1.faults
    stuckQ := s1.stuckQ.filter fun q => s.fld 0x5100 q 47 32 != ctx
    watch := del s1.watch ctx }
  if !window || s.shareDsp ctx then s2 else s2.zeroWindow (s.sgrpOf ctx)

/-- Contexts in whose reach a context lies (R282): device supervisors and the supervisors of its partition. -/
def overseers (s : State) (ctx : Nat) : List Nat :=
  (s.sys.filter fun e => decide (e.1 / 4294967296 = 0x1000) &&
    (decide (bits e.2 62 61 = 2) || (decide (bits e.2 62 61 = 1) && decide (bits e.2 60 56 = s.partOf ctx)))).map
    fun e => e.1 % 4294967296
/-- An event bit of CTXEV set in every context that oversees another (R290). -/
def raiseEvent (s : State) (ctx bit : Nat) : State :=
  (s.overseers ctx).foldl (fun s c => s.setFld 0x1005 c bit bit 1) s
/-- CSTATE is raised: a context entered FAULTED or SAVED (R290). -/
def raiseCstate (s : State) (ctx : Nat) : State := s.raiseEvent ctx 3

/-- A context fault: the on-chip state is wiped, FCLASS recorded and STATE set to FAULTED (R291). A FREE or FAULTED
context takes none. -/
def contextFault (s : State) (ctx cls : Nat) : State :=
  if s.ctxState ctx = 0 || s.ctxState ctx = 6 then s
  else
    (((s.wipeContext ctx true).setCtxState ctx 6).setFld 0x1003 ctx 55 48 cls).raiseCstate ctx

end State
end Sys2Proof.Machine
end

