-- ==== Sys2Proof/Machine/Translate.lean ====
section
/-!
DEFINITION. Memory-side translation: the drawer's capacity and channels (R396), the page walk (R343 to R346), frame tags
(R348), the remap filter (R349) and the translation caches (R350).
-/
namespace Sys2Proof.Machine

/-- The value of little-endian bytes (R11). -/
def ofBytes : Bytes → Nat
  | [] => 0
  | b :: l => b.toNat + 256 * ofBytes l
/-- n little-endian bytes of a value (R11). -/
def toBytes : Nat → Nat → Bytes
  | 0, _ => []
  | n + 1, x => BitVec.ofNat 8 x :: toBytes n (x / 256)

/-- What a translation fault records (R351): kind, level, entry read, tag found, remap index. -/
structure FaultInfo where
  kind  : Nat
  level : Nat
  entry : DWord
  tag   : DWord
  ridx  : Nat
  deriving DecidableEq, Repr
/-- A leaf a walk reached, with the page it covers (R345). -/
structure Leaf where
  pa   : Nat
  base : Nat
  size : Nat
  r    : Bool
  w    : Bool
  lvl  : Nat
  entry : DWord
  deriving DecidableEq, Repr
/-- The outcome of a translation: a leaf, a replayable fault, or poison met in a table (R346). -/
inductive Walk where
  | ok (l : Leaf)
  | fault (f : FaultInfo)
  | poison
  deriving DecidableEq, Repr

namespace State

/-- Drawer capacity in bytes: 32 GiB for each drawer present (R396). -/
def drawerCap (s : State) : Nat := s.drawers.length * 34359738368
/-- Channel of a physical address: the memory link that carries it (R396). -/
def channelOf (s : State) (pa : Nat) : Nat := s.drawers.getD (pa / 256 % s.drawers.length) 0
/-- Offset of a physical address within its channel (R396). -/
def channelOff (s : State) (pa : Nat) : Nat := pa / 256 / s.drawers.length * 256 + pa % 256
/-- Physical address of an offset in the channel of a link (R396). -/
def channelPa (s : State) (link off : Nat) : Nat :=
  (off / 256 * s.drawers.length + s.drawers.idxOf link) * 256 + off % 256
/-- A little-endian 8-byte word of the drawer. -/
def drawer64 (s : State) (pa : Nat) : DWord := BitVec.ofNat 64 (ofBytes (s.drawer.read pa 8))
/-- Errors that ERRINJ armed for a drawer location that a write reaches: each waits in `struck` for the scrub of its line (R369). -/
def injected (s : State) (pa n : Nat) : State :=
  let hit (x : Inject) : Bool := x.code == 13 && decide (pa ≤ x.loc) && decide (x.loc < pa + n)
  if s.inject.isEmpty then s
  else { s with
    inject := s.inject.filter fun x => !hit x
    struck := s.struck ++ (s.inject.filter hit).map fun x => (s.channelOf x.loc, s.channelOff x.loc / 128, x.unc) }
/-- Errors of lines that a write covers in full are gone (R367). -/
def mended (s : State) (pa n : Nat) : List (Nat × Nat × Bool) :=
  s.struck.filter fun e =>
    let at_ := s.channelPa e.1 (128 * e.2.1)
    !(decide (pa ≤ at_) && decide (at_ + 128 ≤ pa + n))
/-- Bytes written to the drawer: lines of 128 bytes covered in full lose their poison and their errors (R359, R367). -/
def drawerWrite (s : State) (pa : Nat) (l : Bytes) : State :=
  { s with drawer := (s.drawer.write pa l).clearPoison 128 pa l.length, struck := s.mended pa l.length }.injected pa l.length

/-- Whether a frame address lies in a range given in GiB. -/
def inGiB (pa base size : Nat) : Bool :=
  decide (1073741824 * base ≤ pa) && decide (pa < 1073741824 * (base + size))
/-- Whether a walk may use a frame: the partition's range, or SHRANGE for a renamed access, below the drawer's capacity
(R396). -/
def frameOk (s : State) (part : Nat) (renamed : Bool) (pa : Nat) : Bool :=
  decide (pa < s.drawerCap) &&
  (inGiB pa (s.fld 0x3007 part 11 0) (s.fld 0x3007 part 43 32) ||
    (renamed && inGiB pa (s.fld 0x3010 0 11 0) (s.fld 0x3010 0 43 32)))

/-- Bytes one entry of a level covers (R343). -/
def levelSize (lvl : Nat) : Nat := 4096 * 512 ^ lvl
/-- Entries a leaf's span code covers at a level; none where R345 gives no such leaf. -/
def leafSpan (lvl code : Nat) : Option Nat :=
  match lvl, code with
  | 0, 0 | 1, 0 | 2, 0 => some 1
  | 0, 1 => some 4
  | 0, 2 => some 16
  | 0, 3 => some 64
  | 1, 1 => some 8
  | 1, 2 => some 64
  | _, _ => none
/-- Physical address named by an entry's FRAME (R344). -/
def pteFrame (e : DWord) : Nat := 4096 * bits e 45 12
/-- malformed(e, lvl) of R346; a table pointer with a nonzero SPAN is (R344; log 97). -/
def malformed (e : DWord) (lvl : Nat) : Bool :=
  bits e 63 52 != 0 || bits e 48 46 != 0 || bits e 11 4 != 0 ||
  if e.getLsbD 1 then
    match leafSpan lvl (bits e 51 49) with
    | none => true
    | some n => pteFrame e % (n * levelSize lvl) != 0
  else lvl == 0 || bits e 51 49 != 0

/-- An error in a drawer line that its next read or scrub finds: whether it is uncorrectable (R358, R369). -/
def errorAt (s : State) (pa : Nat) : Option Bool :=
  (s.struck.find? fun e => e.1 == s.channelOf pa && e.2.1 == s.channelOff pa / 128).map fun e => e.2.2
/-- A line of the drawer holds an uncorrectable error that no valid copy in L2 repairs (R361). -/
def brokenAt (s : State) (pa : Nat) : Bool :=
  s.errorAt pa == some true && !s.l2.any fun e => e.2.pa == pa / 128 * 128 && !e.2.poison
/-- The channel controller checks a line it reads: an error there is found, and what follows from it is a step of its own; one it
corrects stays in the line until the line is written (R358, R361, R367). -/
def checkLine (s : State) (pa : Nat) : State :=
  let link := s.channelOf pa
  let line := s.channelOff pa / 128
  match s.errorAt pa with
  | none => s
  | some unc =>
    { s with struck := s.struck.filter fun e => !(unc && e.1 == link && e.2.1 == line), found := s.found ++ [(link, line, unc)] }

/-- The walk from a table frame at a level (R346): entries come from the drawer; every table frame and the page's frame
are checked against the partition (R396); a poisoned entry is consumed (R346). -/
def walkFrom (s : State) (part : Nat) (renamed : Bool) (va : Nat) : Nat → Nat → Walk
  | lvl, f =>
    let at_ := f + 8 * (va / levelSize lvl % 512)
    if s.drawer.poisoned at_ 8 || s.brokenAt at_ then .poison
    else
      let e := s.drawer64 at_
      if !e.getLsbD 0 || malformed e lvl then .fault ⟨1, lvl, e, 0, 0xFFFF⟩
      else if e.getLsbD 1 then
        let size := (leafSpan lvl (bits e 51 49)).getD 1 * levelSize lvl
        let pa := pteFrame e + va % size
        if s.frameOk part renamed pa then
          .ok ⟨pa, va / size * size, size, e.getLsbD 2, e.getLsbD 3, lvl, e⟩
        else .fault ⟨1, lvl, e, 0, 0xFFFF⟩
      else if !s.frameOk part renamed (pteFrame e) then .fault ⟨1, lvl, e, 0, 0xFFFF⟩
      else match lvl with
        | 0 => .fault ⟨1, 0, e, 0, 0xFFFF⟩
        | l + 1 => walkFrom s part renamed va l (pteFrame e)

/-- Addresses of the entries a walk reads, from a table frame at a level (R346). -/
def walkReads (s : State) (part : Nat) (renamed : Bool) (va : Nat) : Nat → Nat → List Nat
  | lvl, f =>
    let at_ := f + 8 * (va / levelSize lvl % 512)
    let e := s.drawer64 at_
    if !e.getLsbD 0 || malformed e lvl || e.getLsbD 1 || !s.frameOk part renamed (pteFrame e) then [at_]
    else match lvl with
      | 0 => [at_]
      | l + 1 => at_ :: walkReads s part renamed va l (pteFrame e)
/-- The walk of canonical name (A, VA) from ASROOT (R346); a refused root frame is LEVEL 5 (R351, R396). -/
def walk (s : State) (part : Nat) (renamed : Bool) (asid va : Nat) : Walk :=
  let root := s.reg 0x6000 asid
  if s.frameOk part renamed (pteFrame root) then s.walkFrom part renamed va 4 (pteFrame root)
  else .fault ⟨1, 5, root, 0, 0xFFFF⟩

/-- Address of a frame's tag (R348). -/
def tagAddr (s : State) (frame : Nat) : Nat := 4096 * s.fld 0x6006 0 45 12 + 8 * frame
/-- The tag of a frame (R348). -/
def frameTag (s : State) (frame : Nat) : DWord := s.drawer64 (s.tagAddr frame)
/-- A frame's tag written. -/
def setFrameTag (s : State) (frame : Nat) (t : DWord) : State := s.drawerWrite (s.tagAddr frame) (toBytes 8 t.toNat)
/-- The tag that names a canonical page, beside a frame's RETIRED bit (R348, R361). -/
def tagOf (old : DWord) (asid va : Nat) : DWord :=
  setBits (setBits (setBits old 63 63 1) 62 47 asid) 44 0 (va / 4096)
/-- A frame's tag cannot be read: its line is poisoned, or holds an error that nothing repairs (R358, R360; log 85). -/
def tagBad (s : State) (frame : Nat) : Bool := s.drawer.poisoned (s.tagAddr frame) 8 || s.brokenAt (s.tagAddr frame)
/-- check_tag (R348, R361): the state with the tag written, or the fault. -/
def checkTag (s : State) (asid va : Nat) (l : Leaf) : Except FaultInfo State :=
  let t := s.frameTag (l.pa / 4096)
  if !t.getLsbD 63 then
    if t.getLsbD 46 then .error ⟨1, l.lvl, l.entry, 0, 0xFFFF⟩
    else .ok (s.setFrameTag (l.pa / 4096) (tagOf t asid va))
  else if bits t 62 47 = asid && bits t 44 0 = va / 4096 then .ok s
  else .error ⟨3, 0xFF, BitVec.ofNat 64 (l.pa / 4096 * 4096), t, 0xFFFF⟩

/-! ### Translation caches -/

/-- The translation-cache entry of a partition on a die that serves an address (R350). -/
def tcFind (s : State) (die part asid va : Nat) : Option TcEntry :=
  s.tc.find? fun e => e.die == die && e.part == part && e.asid == asid && decide (e.base ≤ va) &&
    decide (va < e.base + e.size)
/-- The least recently used entry of a partition on a die. -/
def tcOldest (s : State) (die part : Nat) : Option Nat :=
  ((s.tc.filter fun e => e.die == die && e.part == part).map TcEntry.stamp).min?
/-- A leaf entered in a partition's share of a die's translation cache, in the place of one of the same page (R350). -/
def tcFill (s0 : State) (die part asid : Nat) (l : Leaf) : State :=
  let s : State := { s0 with tc := s0.tc.filter fun e => !(e.die == die && e.part == part && e.asid == asid && e.base == l.base) }
  let quota := s.fld 0x6003 part 14 0
  let own := s.tc.filter fun e => e.die == die && e.part == part
  let e : TcEntry := ⟨die, part, asid, l.base, l.size, l.pa - (l.pa % l.size), l.r, l.w, s.stamp, l.lvl, l.entry⟩
  if quota = 0 then s
  else
    let rest := if own.length < quota then s.tc
      else s.tc.filter fun x => !(x.die == die && x.part == part && some x.stamp == s.tcOldest die part)
    { s with tc := rest ++ [e], stamp := s.stamp + 1 }
/-- A hit updates the entry's recency (R350). -/
def tcTouch (s : State) (e : TcEntry) : State :=
  { s with tc := s.tc.map (fun x => if x = e then { x with stamp := s.stamp } else x), stamp := s.stamp + 1 }

/-- A walk, with the check of every line it reads (R346, R358). -/
def walkChecked (s : State) (part : Nat) (renamed : Bool) (asid va : Nat) : State × Walk :=
  (if s.struck.isEmpty then s else (s.walkReads part renamed va 4 (pteFrame (s.reg 0x6000 asid))).foldl checkLine s,
    s.walk part renamed asid va)
/-- The cached leaf of a partition on a die that serves an address and may be used (R350, R396). -/
def cachedLeaf (s : State) (die part : Nat) (renamed : Bool) (asid va : Nat) : Option (TcEntry × Leaf) :=
  (s.tcFind die part asid va).bind fun e =>
    if s.frameOk part renamed (e.pa + (va - e.base)) then
      some (e, ⟨e.pa + (va - e.base), e.base, e.size, e.r, e.w, e.lvl, e.entry⟩)
    else none

/-! ### The remap filter -/

/-- What the filter makes of an address of a context (R349): its canonical ASID and address, whether it was renamed, the
permissions of the remap entry and the entry's index. -/
structure Named where
  asid : Nat
  va : Nat
  renamed : Bool
  r : Bool
  w : Bool
  present : Bool
  ridx : Nat

/-- The valid remap entry that covers an address (R349). -/
def remapEntry (s : State) (ctx va : Nat) : Option RemapEntry :=
  (lookupD [] s.remap ctx).find? fun e => decide (4096 * e.lbase ≤ va) && decide (va < 4096 * (e.lbase + e.pages))
/-- The canonical name of an address of a context (R63, R349). -/
def canon (s : State) (ctx va : Nat) : Named :=
  match s.remapEntry ctx va with
  | some e => ⟨e.casid, 4096 * e.cbase + (va - 4096 * e.lbase), true, e.r, e.w, e.p, e.index⟩
  | none => ⟨s.asidOf ctx, va, false, true, true, true, 0xFFFF⟩

end State
end Sys2Proof.Machine
end

