-- ==== Sys2Proof/Machine/Caches.lean ====
section
/-!
DEFINITION. L1 and L2 (R61, R63 to R65, R317, R318, R347, R359), the home slice's service of an access, fault records
(R293, R351, R352), and the reading and writing of global memory by every party.
-/
namespace Sys2Proof.Machine

/-- Bits [hi:lo] of a number. -/
def nb (x hi lo : Nat) : Nat := x / 2 ^ lo % 2 ^ (hi + 1 - lo)
/-- Home die, slice and set of a canonical line (R65). -/
def homeOf (asid line : Nat) : Nat × Nat × Nat :=
  ((nb line 1 0) ^^^ (nb line 13 12) ^^^ (nb line 25 24) ^^^ (nb line 37 36) ^^^ (nb asid 1 0),
   (nb line 7 2) ^^^ (nb line 19 14) ^^^ (nb line 31 26) ^^^ (nb line 43 38) ^^^ (nb asid 7 2),
   (nb line 17 8) ^^^ (nb line 47 38) ^^^ (nb asid 15 6))
/-- Key of way 0 of an L2 set: 1,024 sets of 32 ways in each of 4 x 64 slices (R65). -/
def l2Base (asid line : Nat) : Nat :=
  let h := homeOf asid line
  ((h.1 * 64 + h.2.1) * 1024 + h.2.2) * 32
/-- Key of way 0 of an L1 set: VA[14:7] of the lookup tag (R65). -/
def l1Base (core va : Nat) : Nat := (core * 256 + nb va 14 7) * 8

/-- Bytes of a line. -/
def Line.read (l : Line) (off n : Nat) : Bytes := Store.read ⟨l.data, []⟩ off n
/-- A line with bytes written; it is dirty. -/
def Line.write (l : Line) (off : Nat) (b : Bytes) : Line :=
  { l with data := (Store.write ⟨l.data, []⟩ off b).cells, dirty := true, poison := l.poison && decide (b.length < 128) }

/-- What a home slice answers an access with: a new state and the line, a fault, or poison met by the walk. -/
inductive Served where
  | ok (s : State) (l : Line)
  | fault (s : State) (f : FaultInfo) (acc : Nat)
  | poison (s : State)

/-- An access to a line as the slice sees it. -/
structure Access where
  ctx : Nat
  va  : Nat
  needR : Bool
  needW : Bool
  acc : Nat

namespace State

/-! ### L2 -/

/-- The way of a set that holds a canonical line (R65). -/
def l2Find (s : State) (asid line : Nat) : Option (Nat × Line) :=
  (List.range 32).findSome? fun w =>
    match lookup s.l2 (l2Base asid line + w) with
    | some l => if l.asid = asid && l.cline = line then some (l2Base asid line + w, l) else none
    | none => none
/-- Ways of a mask, ascending. -/
def maskWays (n mask : Nat) : List Nat := (List.range n).filter fun w => mask.testBit w
/-- The way a fill takes: the lowest invalid way of the mask, else the one whose stamp is oldest (R317). -/
def fillWay (c : Cells Line) (base : Nat) (ways : List Nat) : Option Nat :=
  match ways.find? fun w => (lookup c (base + w)).isNone with
  | some w => some (base + w)
  | none =>
    let st (w : Nat) : Nat := match lookup c (base + w) with
      | some l => l.stamp
      | none => 0
    (ways.find? fun w => ways.all fun v => decide (st w < st v) || (st w == st v && decide (w ≤ v))).map (base + ·)
/-- A line written back to the drawer (R317, R359). -/
def writeBack (s : State) (l : Line) : State :=
  if !l.dirty then s
  else
    let s1 := s.drawerWrite l.pa (l.read 0 128)
    if l.poison then { s1 with drawer := s1.drawer.addPoison 128 l.pa 128 } else s1
/-- Whether the partition that owns an L2 way is the context's (R318). -/
def ownsWay (s : State) (ctx way : Nat) : Bool := (s.fld 0x3000 (s.partOf ctx) 31 0).testBit way
/-- A line set in L2. -/
def setL2 (s : State) (k : Nat) (l : Line) : State := { s with l2 := put s.l2 k l }
/-- The command flit of a line on its memory link: 1 reads it, 2 writes it (R372). -/
def lineFlit (s : State) (op pa tag : Nat) (poison : Bool) (data : Bytes) : Flit :=
  ⟨kindHdr 1, BitVec.ofNat 128 (op * 2 ^ 124 + poison.toNat * 2 ^ 85 + tag % 2097152 * 2 ^ 64 + s.channelOff pa % 2 ^ 35), data⟩
/-- A transaction for a context waits for a slot of the memory link that carries a line; its server is charged when the link
grants it (R302, R307). -/
def askDrawer (s : State) (ctx pa tag : Nat) (f : Flit) (undo : Bytes) (bad : Bool) : State :=
  s.modLink ⟨false, s.channelOf pa⟩ fun l =>
    { l with queue := l.queue ++ [{ Txn.new (s.sgrpOf ctx) ctx tag f s.tick with undo := undo, undoBad := bad }] }
/-- A read of a line asked of the drawer for a context. -/
def askRead (s : State) (ctx pa tag : Nat) : State :=
  s.askDrawer ctx pa tag (s.lineFlit 1 (pa / 128 * 128) tag false (List.replicate 128 0)) [] false
/-- A dirty line written back for a context, which its MC server's slot is charged to (R302, R317). The drawer holds the bytes at
once; the transaction carries them, and those they replace (log 35). -/
def cleanLine (s : State) (ctx : Nat) (l : Line) : State :=
  if l.dirty then
    (s.writeBack l).bump.askDrawer ctx l.pa s.fresh (s.lineFlit 2 l.pa s.fresh l.poison (l.read 0 128)) (s.drawer.read l.pa 128)
      (s.drawer.poisoned l.pa 128)
  else s
/-- A line leaves a way for a context: it is written back if dirty (R317). -/
def evictL2 (s : State) (ctx k : Nat) : State :=
  match lookup s.l2 k with
  | some l => { s.cleanLine ctx l with l2 := del s.l2 k }
  | none => s
/-- A line brought from the drawer into a way of the context's L2 mask, or served without a way (R61, R317); `come` says that its
transaction has been answered already. The controller checks the line; an uncorrectable error is read as poison (R358, R361). -/
def fillL2 (s : State) (come : Bool) (ctx : Nat) (n : Named) (lf : Leaf) : State × Line × Option Nat :=
  let line := n.va / 128
  let pa := lf.pa / 128 * 128
  let l : Line := {
    ctxAsid := n.asid, vline := line, asid := n.asid, cline := line, pa := pa
    data := (s.drawer.cells.filter fun e => decide (pa ≤ e.1) && decide (e.1 < pa + 128)).map fun e => (e.1 - pa, e.2),
    dirty := false, r := lf.r, w := lf.w, poison := s.drawer.poisoned pa 128 || s.errorAt pa == some true, stamp := s.stamp, sgrp := s.sgrpOf ctx }
  let s0 := if come then s else (s.bump.askRead ctx pa s.fresh).checkLine pa
  match fillWay s0.l2 (l2Base n.asid line) (maskWays 32 (s.fld 0x4000 (s.sgrpOf ctx) 31 0)) with
  | some k => ({ (s0.evictL2 ctx k).setL2 k l with stamp := s.stamp + 1 }, l, some k)
  | none => (s0, l, none)

/-- A translation of a named line at its home die with the permission and tag checks (R346 to R348); the controller checks the tag's
line, and poison there is met as in a table (R358; log 85). A cached leaf that lacks the permission is walked again; a leaf that has
passed every check is cached (R350). -/
def translate (s : State) (ctx : Nat) (n : Named) (needR needW : Bool) : State × Walk :=
  let die := (homeOf n.asid (n.va / 128)).1
  let part := s.partOf ctx
  let lacks (l : Leaf) : Bool := (needR && !l.r) || (needW && !l.w)
  let checked (t : State) (l : Leaf) (cached : Bool) : State × Walk :=
    if lacks l then (t, .fault ⟨2, l.lvl, l.entry, 0, 0xFFFF⟩)
    else if t.tagBad (l.pa / 4096) then (t.checkLine (t.tagAddr (l.pa / 4096)), .poison)
    else match (t.checkLine (t.tagAddr (l.pa / 4096))).checkTag n.asid n.va l with
      | .ok t' => (if cached then t' else t'.tcFill die part n.asid l, .ok l)
      | .error f => (t, .fault f)
  let walked : State × Walk :=
    match s.walkChecked part n.renamed n.asid n.va with
    | (t, .ok l) => checked t l false
    | x => x
  match s.cachedLeaf die part n.renamed n.asid n.va with
  | some (e, l) => if lacks l then walked else checked (s.tcTouch e) l true
  | none => walked

/-- The home slice serves one access to a line: a hit, an upgrade, or a fill from the drawer (R61, R341, R347, R349). The
permission of a remap entry is applied first; its LEVEL and ENTRY are open (log 1). -/
def serveWith (s : State) (come : Bool) (a : Access) : Served :=
  let n := s.canon a.ctx a.va
  if !n.present then .fault s ⟨4, 0xFF, 0, 0, n.ridx⟩ a.acc
  else if (a.needR && !n.r) || (a.needW && !n.w) then
    .fault s.drawFree ⟨2, (s.freeWord.toNat) % 256, s.freeWord, 0, n.ridx⟩ a.acc
  else
    match s.l2Find n.asid (n.va / 128) with
    | some (k, l) =>
      let s1 := if s.ownsWay a.ctx (k % 32) then
          { s.setL2 k { l with stamp := s.stamp } with stamp := s.stamp + 1 }
        else s
      if (!a.needR || l.r) && (!a.needW || l.w) then .ok s1 l
      else match s1.translate a.ctx n (a.needR && !l.r) (a.needW && !l.w) with
        | (s2, .ok lf) =>
          let l' := { l with r := l.r || lf.r, w := l.w || lf.w }
          .ok (s2.setL2 k { l' with stamp := (if s.ownsWay a.ctx (k % 32) then s.stamp else l.stamp) }) l'
        | (s2, .fault f) => .fault s2 { f with ridx := n.ridx } (if a.needW then 6 else a.acc)
        | (s2, .poison) => .poison s2
    | none =>
      match s.translate a.ctx n a.needR a.needW with
      | (s2, .ok lf) => let r := s2.fillL2 come a.ctx n lf; .ok r.1 r.2.1
      | (s2, .fault f) => .fault s2 { f with ridx := n.ridx } a.acc
      | (s2, .poison) => .poison s2

/-- An access served with the drawer transaction it may need. -/
def serve (s : State) (a : Access) : Served := s.serveWith false a

/-! ### L1 -/

/-- The way of an L1 set that holds a context's line (R63). -/
def l1Find (s : State) (core ctx va : Nat) : Option (Nat × Line) :=
  (List.range 8).findSome? fun w =>
    match lookup s.l1 (l1Base core va + w) with
    | some l => if l.ctxAsid = s.asidOf ctx && l.vline = va / 128 then some (l1Base core va + w, l) else none
    | none => none
/-- A line filled into a core's L1 with the remap entry's permissions; a poisoned line is not (R317, R347, R359). -/
def fillL1 (s : State) (core ctx va : Nat) (l : Line) : State :=
  let n := s.canon ctx va
  if l.poison then s
  else match fillWay s.l1 (l1Base core va) (maskWays 8 (s.fld 0x4000 (s.sgrpOf ctx) 39 32)) with
    | some k => { s with
        l1 := put s.l1 k { l with
          ctxAsid := s.asidOf ctx, vline := va / 128, r := l.r && n.r, w := l.w && n.w
          dirty := false, stamp := s.stamp }
        stamp := s.stamp + 1 }
    | none => s
/-- Every L1 copy of a canonical line is invalidated (R64). -/
def dropL1 (s : State) (asid line : Nat) : State :=
  { s with l1 := keep (fun _ l => !(l.asid == asid && l.cline == line)) s.l1 }

/-! ### Reads and writes of global memory through the home slice -/

/-- Bytes written into a served line: the L1 copies go first, the line turns dirty, and a line without a way is written
to the drawer (R61, R64). -/
def writeLine (s : State) (ctx va : Nat) (l : Line) (b : Bytes) : State :=
  let s1 := s.dropL1 l.asid l.cline
  match s1.l2Find l.asid l.cline with
  | some (k, cur) => s1.setL2 k (cur.write (va % 128) b)
  | none => s1.cleanLine ctx (l.write (va % 128) b)

/-- A read of bytes within a line for a party; the bytes and whether they are poisoned. -/
def readGlobal (s : State) (a : Access) (n : Nat) : Except Served (State × Bytes × Bool) :=
  match s.serve a with
  | .ok s' l => .ok (s', l.read (a.va % 128) n, l.poison)
  | x => .error x
/-- A write of bytes within a line for a party. -/
def writeGlobal (s : State) (a : Access) (b : Bytes) : Except Served State :=
  match s.serve a with
  | .ok s' l => .ok (s'.writeLine a.ctx a.va l b)
  | x => .error x

end State
end Sys2Proof.Machine
end

