-- ==== Sys2Proof/Machine/Router.lean ====
section
/-!
DEFINITION. The on-die network (R321): packets on four virtual channels, and what a router output sends next. The outputs are the
last ones on a packet's way, those to the L2 slices and to the cores (log 78).
-/
namespace Sys2Proof.Machine

/-- Virtual channels: requests, responses, bulk and control (R321). -/
def vcRequest : Nat := 0
def vcResponse : Nat := 1
def vcBulk : Nat := 2
def vcControl : Nat := 3
/-- Flits of 64 bytes that a packet of n bytes takes: at least its head flit (R321). -/
def flitsOf (n : Nat) : Nat := max 1 ((n + 63) / 64)
/-- The router output to an L2 slice: 64 of each die (R65). -/
def sliceOut (die slice : Nat) : Nat := die * 64 + slice
/-- The router output to a core. -/
def coreOut (core : Nat) : Nat := 256 + core
/-- Quantum of a channel in the deficit round-robin (R321). -/
def vcQuantum (vc : Nat) : Nat := if vc = 0 then 2 else 1

namespace RouterOut

/-- A channel has a flit that waits. -/
def has (r : RouterOut) (vc : Nat) : Bool := r.queue.any fun p => p.vc == vc
/-- The channel an output serves next: VC3 where none of the last 15 flits was one of it or nothing else waits, then VC1, then VC0
and VC2 by deficit round-robin (R321). -/
def channel (r : RouterOut) : Option Nat :=
  if r.has 3 && (decide (15 ≤ r.since3) || !(r.has 0 || r.has 1 || r.has 2)) then some 3
  else if r.has 1 then some 1
  else if r.has 0 && r.has 2 then some (if r.deficit = 0 then 2 - r.visit else r.visit)
  else if r.has 0 then some 0
  else if r.has 2 then some 2
  else none
/-- The oldest head flit of a channel that has waited 1,024 network cycles or more (R321). -/
def oldest (q : List NetPacket) (now : Nat) : Option NetPacket :=
  let late := q.filter fun p => decide (p.since + 1024 ≤ now)
  late.find? fun p => late.all fun e => decide (p.since ≤ e.since)
/-- The packet of a channel whose flit passes: the one that holds the channel, else the oldest late one, else that of the next input
in turn (R321). -/
def packet (r : RouterOut) (vc now : Nat) : Option NetPacket :=
  let q := r.queue.filter fun p => p.vc == vc
  let far (p : NetPacket) : Nat := (p.input + 4096 - lookupD 0 r.turn vc) % 4096
  match q.find? NetPacket.begun, oldest q now with
  | some p, _ => some p
  | none, some p => some p
  | none, none => q.find? fun p => q.all fun e => decide (far p ≤ far e)
/-- Deficit and visited channel after a flit of VC0 or VC2; a channel whose queue empties has none (R321). -/
def spend (r : RouterOut) (vc : Nat) : RouterOut :=
  if vc = 0 || vc = 2 then
    let d := if r.visit = vc && r.deficit ≠ 0 then r.deficit else vcQuantum vc
    { r with visit := vc, deficit := if r.has vc then d - 1 else 0 }
  else r
/-- One flit of a packet passes: its last one takes the packet out (R321). -/
def pass (r : RouterOut) (p : NetPacket) (now : Nat) : RouterOut :=
  let rest := if p.flits ≤ 1 then r.queue.erase p
    else r.queue.map fun e => if e = p then { p with flits := p.flits - 1, begun := true } else e
  { r with queue := rest, turn := put r.turn p.vc (p.input + 1), since3 := if p.vc = 3 then 0 else min 15 (r.since3 + 1)
           last := some now }.spend p.vc

end RouterOut

namespace State

/-- A router output. -/
def router (s : State) (o : Nat) : RouterOut := lookupD RouterOut.zero s.routers o
/-- A packet of n bytes is injected towards an output (R321). -/
def sendPacket (s : State) (o vc input n : Nat) (item : NetItem) : State :=
  let r := s.router o
  { s with routers := putD RouterOut.zero s.routers o { r with queue := r.queue ++ [⟨vc, input, flitsOf n, s.slotNow, false, item⟩] } }
/-- What a packet brings where its last flit arrives: a response is taken by a step of its own; a request or a basket is then no longer
on its way. -/
def arrived (s : State) (i : NetItem) : State :=
  match i with
  | .response x => s.post x
  | _ => s
/-- A router output sends its next flit, if it has one (R321). -/
def routeFlit (s : State) (o : Nat) : State :=
  let r := s.router o
  match r.channel.bind fun vc => r.packet vc s.slotNow with
  | none => s
  | some p =>
    let s1 := { s with routers := putD RouterOut.zero s.routers o (r.pass p s.slotNow) }
    if p.flits ≤ 1 then s1.arrived p.item else s1
/-- A router output that may send a flit in this network cycle (R321). -/
def routeDue (s : State) : Option Nat :=
  (s.routers.find? fun r => !r.2.queue.isEmpty && r.2.last != some s.slotNow).map Prod.fst
/-- Packets on their way that carry something. -/
def onWay (s : State) (i : NetItem) : Nat := (s.routers.map fun r => (r.2.queue.filter fun p => p.item == i).length).sum
/-- The output to the home slice of an address of a context (R65). -/
def sliceOf (s : State) (ctx va : Nat) : Nat :=
  let n := s.canon ctx va
  let h := homeOf n.asid (n.va / 128)
  sliceOut h.1 h.2.1

end State
end Sys2Proof.Machine
end

