-- ==== Sys2Proof/Machine/Records.lean ====
section
/-!
DEFINITION. Fault queues: the 64-byte records (R351, R368), writing them (R293), outstanding faults and the requests
joined to them (R351, R352).
-/
namespace Sys2Proof.Machine

/-- A 64-byte record by its fields (R351, R368). -/
structure Rec where
  va   : DWord := 0
  ctx  : Nat := 0
  kind : Nat := 0
  b11  : Nat := 0
  b12  : Nat := 0
  die  : Nat := 0
  h14  : Nat := 0
  q16  : Nat := 0
  h24  : Nat := 0
  h26  : Nat := 0
  w28  : Nat := 0
  q32  : Nat := 0
  q40  : Nat := 0
  w48  : Nat := 0
/-- The bytes of a record; bytes 52 to 63 are zero (R351). -/
def Rec.bytes (r : Rec) : Bytes :=
  toBytes 8 r.va.toNat ++ toBytes 2 r.ctx ++ toBytes 1 r.kind ++ toBytes 1 r.b11 ++ toBytes 1 r.b12 ++ toBytes 1 r.die ++
  toBytes 2 r.h14 ++ toBytes 8 r.q16 ++ toBytes 2 r.h24 ++ toBytes 2 r.h26 ++ toBytes 4 r.w28 ++ toBytes 8 r.q32 ++
  toBytes 8 r.q40 ++ toBytes 4 r.w48 ++ toBytes 12 0

namespace State

/-- Records a fault queue holds: TAIL − HEAD (R292). -/
def fqCount (s : State) (q : Nat) : Nat :=
  (s.fld 0x2003 q 31 0 + 4294967296 - s.fld 0x2002 q 31 0) % 4294967296
/-- Capacity of a fault queue (R292). -/
def fqSize (s : State) (q : Nat) : Nat := 2 ^ s.fld 0x2000 q 31 28
/-- Fault queue of a context (R290). -/
def fqOf (s : State) (ctx : Nat) : Nat := s.fld 0x1000 ctx 31 24
/-- A failed record write disables the queue, and every context that names it takes a context fault (R293). -/
def ringFail (s : State) (q : Nat) : State :=
  let s1 := (s.setFld 0x2000 q 63 63 0).setFld 0x2004 q 2 2 1
  let s2 := { s1 with fqWait := s1.fqWait.filter fun w => w.fq != q }
  (s2.liveContexts.filter fun c => s2.fqOf c == q).foldl (fun s c => s.contextFault c 2) s2
/-- A record written at the tail of a queue with room (R293). -/
def writeRecord (s : State) (q : Nat) (b : Bytes) : State :=
  let owner := s.fld 0x2000 q 47 32
  let tail := s.fld 0x2003 q 31 0
  let va := s.fld 0x2001 q 56 0 + 64 * (tail % s.fqSize q)
  if s.ctxState owner = 0 then s.ringFail q
  else match s.writeGlobal ⟨owner, va, false, true, 1⟩ b with
    | .error _ => s.ringFail q
    | .ok s1 =>
      let s2 := s1.setFld 0x2003 q 31 0 (tail + 1)
      if s.fqCount q = 0 && s.fld 0x2000 q 15 0 ≠ 0xFFFF then s2.emit (.msix (s.fld 0x2000 q 15 0)) else s2
/-- A record for a context: written, kept waiting while its ring is full, or a context fault when the queue is disabled
(R293). -/
def addRecord (s : State) (ctx : Nat) (b : Bytes) : State :=
  let q := s.fqOf ctx
  if s.fld 0x2000 q 63 63 = 0 then s.contextFault ctx 2
  else if s.fqCount q < s.fqSize q && !(s.fqWait.any fun w => w.fq == q) then s.writeRecord q b
  else { s.setFld 0x2004 q 1 1 1 with fqWait := s.fqWait ++ [⟨q, b⟩] }
/-- Waiting records of a queue are written while there is room (R293). -/
def drainRecords (s : State) (q : Nat) : State :=
  s.fqWait.foldl (fun t w =>
    if w.fq = q && t.fld 0x2000 q 63 63 = 1 && t.fqCount q < t.fqSize q then
      { t with fqWait := t.fqWait.erase w }.writeRecord q w.bytes
    else t) s

/-! ### Outstanding faults -/

/-- A fault identifier that no outstanding record has, of 32 bits (R351, R352). -/
def freeFid (s : State) : Nat :=
  (((List.range (s.faults.length + 1)).map fun i => (s.fresh + i) % 4294967296).find? fun f => (lookup s.faults f).isNone).getD 0
/-- A request faults: it joins the outstanding record of its context, page and kind on the die, or a new record is written
(R351). The answer is the fault's identifier; none when the queue is disabled. -/
def raiseFault (s : State) (who : Requester) (ctx acc : Nat) (named : DWord) (n : Named) (f : FaultInfo) :
    State × Option Nat :=
  let die := (homeOf n.asid (n.va / 128)).1
  match s.faults.find? fun e => e.2.ctx == ctx && e.2.page == n.va / 4096 && e.2.asid == n.asid && e.2.kind == f.kind &&
      e.2.die == die with
  | some e => ({ s with faults := put s.faults e.1 { e.2 with joined := e.2.joined ++ [who] } }, some e.1)
  | none =>
    if s.fld 0x2000 (s.fqOf ctx) 63 63 = 0 then (s.contextFault ctx 2, none)
    else
      let fid := s.freeFid
      let s1 := { s.bump with faults := put s.faults fid ⟨ctx, s.fqOf ctx, die, n.va / 4096, n.asid, f.kind, [who]⟩ }
      let r : Rec := { va := named, ctx := ctx, kind := f.kind, b11 := acc, b12 := f.level, die := die, q16 := n.va
                       h24 := n.asid, h26 := n.ridx, q32 := f.entry.toNat, q40 := f.tag.toNat, w48 := fid }
      (s1.addRecord ctx r.bytes, some fid)
/-- Requests a test picks are withdrawn from every record; a record without requests is no longer outstanding (R352). -/
def withdraw (s : State) (gone : Requester → Bool) : State :=
  let left : Cells FaultRec := mapValues (fun _ r => { r with joined := r.joined.filter fun x => !gone x }) s.faults
  { s with faults := keep (fun _ r => !r.joined.isEmpty) left }

end State
end Sys2Proof.Machine
end

