-- ==== Sys2Proof/Machine/Fragments.lean ====
section
/-!
DEFINITION. Fragments of a wave (R21, R22): when a thread and a fragment are ready, the address at which a fragment stands, the
threads of a fragment that have not yet executed its instruction, and the server a fragment issues under.
-/
namespace Sys2Proof.Machine
namespace State

/-- The event bits of a context: the latched ones, TIME and FQ (R290). -/
def events (s : State) (ctx : Nat) : BitVec 5 :=
  let latched := s.fld 0x1005 ctx 4 0
  let time := if (s.reg 0x1006 ctx).toNat ≤ s.tick then 4 else 0
  let fq := if (List.range 64).any fun q => s.fqCount q != 0 && s.fld 0x2000 q 47 32 == ctx then 1 else 0
  BitVec.ofNat 5 latched ||| BitVec.ofNat 5 time ||| BitVec.ofNat 5 fq

/-- Server group whose turn it is among background quarters of a matrix engine (R306). -/
def mxTurn (s : State) (core : Nat) : Nat := lookupD 0 s.turns (2304 + core)
/-- A quarter waits for the matrix engine and may be issued: its context issues, and no IG server holds it (R222, R303, R306). -/
def quarterWaits (s : State) (th : Thread) : Bool :=
  let ig := s.igKey th.ctx th.core th.slot
  th.status == .live && decide (th.wait = Wait.quarter) && (s.ctxState th.ctx == 2 || s.ctxState th.ctx == 3) && !s.heldNow ig
/-- The MX servers, or background groups, for which quarters wait at a matrix engine, none of them held. -/
def mxPending (s : State) (core : Nat) : List SrvKey :=
  ((s.threads.filter fun e => e.2.core == core && s.quarterWaits e.2).map fun e => s.mxKey e.2.ctx core).filter fun k => !s.heldNow k
/-- The matrix engine admits a quarter of this server: of all that wait, it has the least deadline, then the lower id; a background
quarter is admitted in its turn when no served one waits (R303, R304, R306). -/
def mxAdmits (s : State) (key : SrvKey) : Bool :=
  let others := (s.mxPending key.eng).filter fun k => k.id != key.id
  let far (k : SrvKey) : Nat := (k.id + 256 - s.mxTurn key.eng) % 256
  if s.srvInstalled key then
    !s.heldNow key && others.all fun o => !s.srvInstalled o || decide ((s.srv key).d < (s.srv o).d) ||
      ((s.srv key).d == (s.srv o).d && decide (key.id < o.id))
  else others.all fun o => !s.srvInstalled o && decide (far key ≤ far o)

/-- One of some requests has still to be performed (R297). -/
def accessOut (s : State) (tags : List Nat) : Bool := s.reqs.any fun r => tags.contains r.1 && !r.2.served
/-- The gang of a thread is being killed: it issues no more (R363). -/
def dyingThread (s : State) (th : Thread) : Bool := (s.hood (s.group th.gid).hood).dying.isSome
/-- A thread is ready: it is resident in a wave, of a gang that is not being killed, has no request outstanding, and its wait is over (R22, R30); one at TLW.CTR
looks again once in a core cycle (R209; log 50). -/
def threadReady (s : State) (th : Thread) : Bool :=
  th.status == .live && th.pend == 0 && !s.dyingThread th &&
  match th.wait with
  | .none | .drained => true
  | .counter => decide (th.since < s.clk)
  | .nap t => decide (t ≤ s.clk)
  | .event m => m == 0 || s.events th.ctx &&& m != 0
  | .quarter => s.mxAdmits (s.mxKey th.ctx th.core)
  | .quiet tags => !s.accessOut tags
  | _ => false

/-- Distinct values of a list, in the order of their first places. -/
def distinct : List Nat → List Nat
  | [] => []
  | x :: l => x :: (distinct l).filter (· != x)
/-- Live threads of a wave with a tag: a fragment (R21), in ascending lane order. -/
def fragment (s : State) (core slot tag : Nat) : List Nat :=
  let ks := (s.waveThreads core slot).filter fun k => (s.thread k).tag == tag
  (List.range 32).flatMap fun l => ks.filter fun k => (s.thread k).lane == l
/-- A fragment is ready when every thread of it is (R22). -/
def fragmentReady (s : State) (core slot tag : Nat) : Bool :=
  (s.fragment core slot tag).all fun k => s.threadReady (s.thread k)
/-- Tags of the fragments of a wave. -/
def waveTags (s : State) (core slot : Nat) : List Nat := distinct ((s.waveThreads core slot).map fun k => (s.thread k).tag)
/-- Tags of the ready fragments of a wave. -/
def readyTags (s : State) (core slot : Nat) : List Nat := (s.waveTags core slot).filter (s.fragmentReady core slot)
/-- Address at which a fragment stands. While some of its threads still wait to execute an instruction that the others have
executed, it stands there: at the least of its threads' addresses (log 59). -/
def fragmentPc (s : State) (core slot tag : Nat) : Nat :=
  ((s.fragment core slot tag).map fun k => (s.thread k).pc.toNat).min?.getD 0
/-- The threads of a fragment that stand at its address: those that issue. -/
def frontier (s : State) (core slot tag : Nat) : List Nat :=
  (s.fragment core slot tag).filter fun k => (s.thread k).pc.toNat == s.fragmentPc core slot tag
/-- Every thread of a fragment stands at its address. -/
def fragmentWhole (s : State) (core slot tag : Nat) : Bool :=
  (s.fragment core slot tag).all fun k => (s.thread k).pc.toNat == s.fragmentPc core slot tag
/-- Whom a thread shares fragments with: a helper only with helpers of the same HIRE, named by their recruiter (R245). -/
def kinOf (s : State) (k : Nat) : Option Nat := if (s.thread k).hidx = 0 then none else some (k - (s.thread k).hidx)
/-- The fellowship of a fragment: that of its threads. -/
def fragmentKin (s : State) (core slot tag : Nat) : Option Nat := ((s.fragment core slot tag).head?.map s.kinOf).getD none
/-- The IG server a thread issues under: its wave slot's, in a helper that of its recruiter (R31, R245). -/
def issueKey (s : State) (k : Nat) : SrvKey :=
  let r := s.thread (k - (s.thread k).hidx)
  s.igKey r.ctx r.core r.slot
/-- The IG server of a fragment. -/
def fragmentKey (s : State) (core slot tag : Nat) : SrvKey :=
  match s.fragment core slot tag with
  | k :: _ => s.issueKey k
  | [] => s.igKey 0 core slot

/-- The tag of the fragment at hand, if some of its threads have executed the instruction before: a live thread of the wave
with the tag of one at hand stands elsewhere. -/
def begunTag (s : State) (th : Thread) (cur : List Nat) : Option Nat :=
  (s.threads.find? fun e => e.2.core == th.core && e.2.slot == th.slot && e.2.status == .live && e.2.pc != th.pc &&
    cur.any fun k => (s.thread k).tag == e.2.tag).map fun e => e.2.tag

end State
end Sys2Proof.Machine
end

