-- ==== Sys2Proof/Machine/Ops.lean ====
section
/-!
DEFINITION. The issue of an instruction by a fragment: active threads (R135), the checks of R139 that need the thread,
LA windows (R141 to R143), snapshot registers (R246), the split of a fragment (R21, R33), and TAKING A TRAP: one shared
operation for user traps (R257, R258), supervisor traps (R287, R288) and traps in helpers (R251), with the returns from
them beside it (R259, R296).
-/
namespace Sys2Proof.Machine

/-! ### Taking a trap -/

/-- Cause codes of R255 and R287. -/
def causeIllegal : BitVec 8 := 1
def causeFetchXb : BitVec 8 := 2
def causeLaViol : BitVec 8 := 3
def causeUnifViol : BitVec 8 := 4
def causeQmask : BitVec 8 := 5
def causeSnapWr : BitVec 8 := 6
def causeHelperF : BitVec 8 := 7
def causeAddr : BitVec 8 := 8
def causeMisalign : BitVec 8 := 9
def causeScrBound : BitVec 8 := 10
def causePriv : BitVec 8 := 11
def causeUserTrap : BitVec 8 := 12
def causeBkpt : BitVec 8 := 13
def causeSysIdx : BitVec 8 := 14
def causeSysOwn : BitVec 8 := 15
def causeSysInst : BitVec 8 := 16
def causeSysVal : BitVec 8 := 17

namespace State

/-- A user trap of a thread: the trap registers are written and the thread enters handler state at the launch's handler;
without a handler, or in handler state, the trap is a context fault (R257, R258). -/
def takeUserTrap (s : State) (k : Nat) (t : Trap) : State :=
  let th := s.thread k
  let handler := (s.pktOf th).handler
  if handler = 0 || th.hand then s.contextFault th.ctx 1
  else s.setThread k { th with trap := t, hand := true, pc := handler, las := [], wait := .none }

/-- A supervisor trap of a thread: SCAUSE, SEPC, SVAL and SAUX are written, INTRAP is set and the thread runs from
CTXVEC; a trap in trap state, or with CTXVEC = 0, is a context fault (R287, R288). -/
def takeSupervisorTrap (s : State) (k : Nat) (t : Trap) : State :=
  let th := s.thread k
  let vec := s.reg 0x1002 th.ctx
  if vec = 0 || th.sup.inTrap then s.contextFault th.ctx 1
  else s.setThread k
    { th with sup := { th.sup with trap := t, inTrap := true }, pc := vec, las := [], wait := .none }

/-- The threads waiting at HSYNC leave it when every participant has arrived (R249). -/
def releaseHsync (s : State) (rk : Nat) : State :=
  match (s.thread rk).hire with
  | none => s
  | some h =>
    if h.arrived.contains 0 && h.live.all fun i => h.arrived.contains i || (s.thread (rk + i)).status == .exited then
      (0 :: h.live).foldl (fun s i => s.modThread (rk + i) fun th => { th with wait := .none })
        (s.modThread rk fun th => { th with hire := some { h with arrived := [], phase := h.phase + 1 } })
    else s

/-- A helper ends: its lane slot and pool entry are free, HSYNC and HJOIN count it out (R248, R249, R250). `rk` is its
recruiter's key and `i` its hidx. -/
def endHelper (s : State) (rk i : Nat) : State :=
  match (s.thread rk).hire with
  | none => { s with threads := del s.threads (rk + i) }
  | some h =>
    let h' := { h with live := h.live.filter (· != i), arrived := h.arrived.filter (· != i) }
    let s1 := ({ s with threads := del s.threads (rk + i) }).modThread rk fun th =>
      { th with hire := some h', wait := if h'.live.isEmpty && decide (th.wait = Wait.hjoin) then .none else th.wait }
    s1.releaseHsync rk

/-- A helper is stopped, by force or by another's trap (R251, R253). While accesses of it are outstanding its end, a release, is still to
come (R102): it has left its lane and the pool, HSYNC counts it no longer, and HJOIN waits for the last answer. -/
def stopHelper (s : State) (rk i : Nat) : State :=
  if (s.thread (rk + i)).pend = 0 then s.endHelper rk i
  else (s.modThread (rk + i) fun th => { th with status := .exited, wait := .resp }).releaseHsync rk
/-- A stopped helper ends with its last outstanding access (R102). -/
def endStopped (s : State) (k : Nat) : State :=
  let th := s.thread k
  if th.hidx ≠ 0 && th.status == .exited && th.pend == 0 then s.endHelper (k - th.hidx) th.hidx else s
/-- Every helper of a recruiter stops (R251). -/
def stopHelpers (s : State) (rk : Nat) : State :=
  match (s.thread rk).hire with
  | none => s
  | some h => h.live.foldl (fun s i => s.stopHelper rk i) s
/-- Every helper of a recruiter ends with it (R170, R253). -/
def endHelpers (s : State) (rk : Nat) : State :=
  match (s.thread rk).hire with
  | none => s
  | some h => h.live.foldl (fun s i => s.endHelper rk i) s

/-- A trap in a helper: the first is kept for the recruiter's HJOIN, and every helper of the HIRE stops with its
contribution and flags discarded (R251, R252). -/
def takeHelperTrap (s : State) (k : Nat) (t : Trap) : State :=
  let th := s.thread k
  let rk := k - th.hidx
  (s.modThread rk fun r => { r with hire := r.hire.map fun h =>
    { h with trapped := some (h.trapped.getD (th.hidx, t.cause)), contrib := [], flags := 0 } }).stopHelpers rk

/-- TAKING A TRAP: the one operation every precise trap goes through (R257, R287; in a helper R251). HELPER_F closes the
HIRE (R251). A thread that an earlier trap of the same issue has taken off the device takes none (R251, R291). -/
def takeTrap (s0 : State) (k : Nat) (t : Trap) : State :=
  let s := if t.cause = causeHelperF then s0.modThread k fun th => { th with hire := none } else s0
  match lookup s.threads k with
  | none => s
  | some th =>
    if th.hidx ≠ 0 then s.takeHelperTrap k t
    else if s.priv th.ctx = 0 then s.takeUserTrap k t
    else s.takeSupervisorTrap k t

/-- The entry of a thread to a handler, a user's or a supervisor's: the thread waits until its earlier instructions have completed, and
then enters it as a fragment of its own; in a helper the trap stops the helpers of its HIRE (R33, R252, R257, R287). -/
def enterTrap (s : State) (sup : Bool) (k : Nat) (t : Trap) : State :=
  match lookup s.threads k with
  | none => s
  | some th =>
    if th.hidx ≠ 0 then s.takeHelperTrap k t
    else if th.pend ≠ 0 then s.setThread k { th with wait := .entry sup t }
    else
      let s1 := (s.setThread k { th with tag := s.fresh }).bump
      if sup then s1.takeSupervisorTrap k t else s1.takeUserTrap k t

/-- A trap put into its place by thread. -/
def insertTrap (x : Nat × Trap) : List (Nat × Trap) → List (Nat × Trap)
  | [] => [x]
  | y :: l => if x.1 ≤ y.1 then x :: y :: l else y :: insertTrap x l
/-- The traps of one issue are taken in the order of their threads, so that of the helpers of a HIRE the lowest hidx is
reported (R251). -/
def takeTraps (s : State) (ts : List (Nat × Trap)) : State :=
  (ts.foldr insertTrap []).foldl (fun t e => t.takeTrap e.1 e.2) s

end State

/-- Return from a user handler: the thread leaves handler state and resumes at `pc` (R259). -/
def leaveHandler (pc : DWord) (th : Thread) : Thread := { th with hand := false, pc := pc }
/-- Return from a supervisor trap: INTRAP is cleared and the thread resumes at SEPC (R296). -/
def leaveSupervisor (th : Thread) : Thread := { th with sup := { th.sup with inTrap := false }, pc := th.sup.trap.tpc }

/-! ### What an instruction does in one thread -/

/-- What comes of an instruction in one active thread: it is done in a new state, it traps, it is held and issues again when
its wait ends, or its own effect is under way and the threads after it execute when it has come to an end (R284). -/
inductive Lane where
  | done (s : State)
  | trap (cause : BitVec 8) (val : DWord) (aux : Word)
  | hold (s : State) (w : Wait)
  | last (s : State)

/-- The fragment at issue: the state before, the threads that take part, in ascending lane order (R187), and whether the instruction
orders its threads, so that one that is held holds those after it (R233, R254, R284). -/
structure Env where
  before  : State
  present : List Nat
  inOrder : Bool

/-- What an instruction does for thread k; the thread's pc already names the next instruction. -/
abbrev Body := Env → Nat → State → Lane

/-- A result that changes the thread alone. -/
def onThread (f : Env → Nat → Thread → Thread) : Body := fun env k s => .done (s.modThread k (f env k))

/-! ### Lookahead and snapshot checks -/

/-- The registers an instruction reads, with its guard (R141). -/
def Instr.readRefs (i : Instr) : List RegRef :=
  (Operand.p (i.head.g.zeroExtend 8)).refs ++ i.reads.flatMap Operand.refs
/-- The registers an instruction writes (R141). -/
def Instr.writeRefs (i : Instr) : List RegRef := i.writes.flatMap Operand.refs

/-- TAUX of LA_VIOL (R142). -/
def refCode (r : RegRef) : Word :=
  BitVec.ofNat 32 ((match r.cls with
    | .vec => 0
    | .pred => 256
    | .acc => 512) + r.n)

/-- The first register through which an instruction breaks a window: it reads or writes a result, or writes a source
(R142). Where several registers clash, the model takes the first it reads, the guard before the operands, then the first it writes:
its choice (log 67). -/
def windowClash (i : Instr) (w : LaWin) : Option RegRef :=
  match (Instr.readRefs i).find? w.dsts.contains with
  | some r => some r
  | none => (Instr.writeRefs i).find? fun r => w.dsts.contains r || w.srcs.contains r
/-- The LA_VIOL of a thread at an instruction, if there is one (R142): the opening address and the register. Of several windows it
breaks, the model reports the oldest: its choice (log 67). -/
def laClash (i : Instr) (th : Thread) : Option (DWord × RegRef) :=
  th.las.findSome? fun w => (windowClash i w).map fun r => (w.pc, r)
/-- Instructions on which no LA_VIOL arises: those of R143 and FSTAT (R182). -/
def laExempt (i : Instr) : Bool := endsLa i.raw.op || i.raw.op == 0x73

/-- Windows after one more instruction has passed (R141). -/
def laTick (las : List LaWin) : List LaWin :=
  (las.map fun w => { w with left := w.left - 1 }).filter fun w => w.left != 0
/-- The windows of a thread behind an instruction: each counts it, the instructions of R143 end them, and an LA opens
one (R141, R143). -/
def laAfter (i : Instr) (act : Bool) (th : Thread) : List LaWin :=
  let rest := if act && endsLa i.raw.op then [] else laTick th.las
  if act && i.head.la != 0 then
    rest ++ [⟨th.pc, i.head.la.toNat, Instr.readRefs i, Instr.writeRefs i⟩]
  else rest

/-- The lowest snapshot register an instruction of a recruiter writes (R246); HJOIN closes the HIRE first. A second HIRE's vD counts as one
(log 71). -/
def snapWrite (i : Instr) (th : Thread) : Option Nat :=
  match th.hire with
  | none => none
  | some h =>
    if i.raw.op == 0xE1 || th.hidx ≠ 0 then none
    else ((Instr.writeRefs i).filter fun r => r.cls == .vec && decide (r.n < h.win)).map RegRef.n |>.min?

/-! ### The issue -/

/-- Registers of a HIRE window (R241). -/
def Win.size : Win → Nat
  | .w8 => 8
  | .w16 => 16
  | .w32 => 32
  | .w64 => 64
/-- The window of a HIRE lies below the thread's register count, and HRD names a register of the open window (R241,
R247). -/
def windowRange (i : Instr) (n : Nat) (open_ : Option Nat) : Bool :=
  match i with
  | .hire _ win _ _ _ _ _ => decide (Win.size win ≤ n)
  | .hrd _ _ k => match open_ with
    | some w => decide (k.toNat < w)
    | none => true
  | _ => true
/-- Width of the open HIRE a thread belongs to: its own, or its recruiter's in a helper (R247). -/
def openWin (s : State) (k : Nat) (th : Thread) : Option Nat := (s.thread (k - th.hidx)).hire.map HireState.win

/-- TVAL of an ILLEGAL_ENC or PRIV: the instruction's bits [63:0] (R140, R255). -/
def Instr.tval (i : Instr) : DWord := i.bits.extractLsb' 0 64

/-- A trap found before an instruction executes in one thread: checks 8 and 11 of R139, then LA_VIOL (R142), then
SNAP_WR (R246). R154 and R172 do not name SNAP_WR among the traps of their chapters, and R243 calls the write of a HIRE's vD no
snapshot write: the model lets R246 hold for all of them, a second HIRE's vD among them (log 71). The order of the last two checks
is log 7. -/
def preTrap (s : State) (i : Instr) (k : Nat) (th : Thread) : Option (BitVec 8 × DWord × Word) :=
  if th.hidx ≠ 0 && helperBad i.raw.op then some (causeIllegal, Instr.tval i, 9)
  else if 0xF0 ≤ i.raw.op && decide (s.priv th.ctx = 0) then some (causePriv, Instr.tval i, 0)
  else if !((i.reads ++ i.writes ++ i.names).all fun o => o.static && o.inRange (s.nRegs th) (s.nAcc th)) ||
      !windowRange i (s.nRegs th) (openWin s k th) then
    some (causeIllegal, Instr.tval i, 8)
  else match (if laExempt i then none else laClash i th) with
    | some (pc, r) => some (causeLaViol, pc, refCode r)
    | none => (snapWrite i th).map fun n => (causeSnapWr, BitVec.ofNat 64 n, 0)

/-- A thread goes back to an instruction to be parked there: it joins the threads of its kind that the same issue parked, or
forms a fragment of its own (R33). -/
def State.park (s : State) (k cycle : Nat) (pc : DWord) (las : List LaWin) (w : Wait) : State :=
  let th := s.thread k
  let mate := s.threads.find? fun e => e.2.core == th.core && e.2.slot == th.slot && e.2.status == .live &&
    e.2.pc == pc && e.2.since == cycle && s.kinOf e.1 == s.kinOf k && match e.2.wait with
      | .fault _ => true
      | _ => false
  let s1 := s.modThread k fun th => { th with pc := pc, las := las, wait := w, since := cycle, tag := (mate.map fun e => e.2.tag).getD s.fresh }
  if mate.isSome then s1 else s1.bump

/-- The instruction is behind every thread of the fragment: pc and LA windows (R135, R141). -/
def advance (i : Instr) (th : Thread) : Thread :=
  { th with pc := th.pc + BitVec.ofNat 64 i.size, las := laAfter i (th.active i.head) th, wait := .none
            issued := th.issued + 1
            bad := if th.active i.head then th.bad.filter fun r => !(Instr.writeRefs i).contains r else th.bad }

/-- What is left of an issue: the state, the threads that trapped with their traps, whether a thread has executed the
instruction or trapped at it, the threads that stay in the fragment and execute it when it issues again, and whether the threads
still to come are among them. -/
structure Issued where
  s     : State
  traps : List (Nat × Trap)
  ran   : Bool
  left  : List Nat
  stop  : Bool

/-- A thread that has not executed the instruction after all: pc, windows and counts as before it (R33). Its registers
stand as they are, since another thread may have written them through the window. -/
def unadvance (b th : Thread) : Thread :=
  { th with pc := b.pc, las := b.las, wait := b.wait, issued := b.issued, bad := b.bad }

/-- A wait with which a thread leaves its fragment at the instruction: parked on a fault, for a hamper entry, for the phase of a second
arrival, or for an event, while the others complete it (R26, R33, R205, R299). -/
def Wait.leaves : Wait → Bool
  | .fault _ | .reform | .rearm _ _ | .event _ => true
  | _ => false
/-- A wait with which an instruction has issued: what it asked for ends it, or it is the first read of TLW.CTR (R26, R209, R211).
`before` is what the thread waited for when it issued. -/
def Wait.issued (before : Wait) : Wait → Bool
  | .reform | .subon => true
  | .counter => decide (before ≠ .counter)
  | _ => false

/-- Opcodes whose threads perform their accesses one behind the other: copies, LNCH and the system instructions (R233, R254, R284). -/
def ordersLanes (op : BitVec 8) : Bool := (0xD0 ≤ op && op ≤ 0xD4) || op == 0xE6 || 0xF0 ≤ op
/-- One thread's share of an issue. A thread that traps or is held has executed nothing (R33). Threads execute in ascending lane
order, and those after one that is held go on at once (R67) unless the instruction orders them (R233, R254, R284). A thread that a
lower lane's share has taken off the device executes nothing (R291). -/
def runLane (env : Env) (body : Body) (r : Issued) (k : Nat) : Issued :=
  let b := env.before.thread k
  if (lookup r.s.threads k).isNone then r
  else if r.stop then { r with s := r.s.modThread k (unadvance b), left := r.left ++ [k] }
  else match body env k r.s with
  | .done s => { r with s := s, ran := true }
  | .last s => { r with s := s, ran := true, stop := true }
  | .trap c v x => { r with s := r.s.modThread k (unadvance b), traps := r.traps ++ [(k, ⟨c, b.pc, v, x⟩)], ran := true }
  | .hold s w =>
    let s1 := s.modThread k fun th => { unadvance b th with wait := w, since := env.before.clk }
    let r1 := { r with s := s1, ran := r.ran || b.wait.issued w }
    if w.leaves then r1 else { r1 with left := r.left ++ [k], stop := env.inOrder }

/-- Instructions at which a protected launch compares the lanes of a pair (R35, R278). -/
def compares (op : BitVec 8) : Bool :=
  op == 0xA1 || op == 0xA2 || op == 0xA3 || op == 0xA4 || op == 0xC4 || (0xD0 ≤ op && op ≤ 0xD4) ||
  (0x40 ≤ op && op ≤ 0x46) || op == 0xE6 || op == 0xF0 || op == 0xF1 || op == 0xF2

/-- Why a thread of an issue stays in the fragment or leaves it: its next address and, where it leaves, its way. A thread left at
the instruction counts with those behind it (R21). Traps make one parked fragment, faults another (R33); threads at a barrier
leave it as one fragment (R23). -/
def splitKey (next : DWord) (left trapped : List Nat) (k : Nat) (th : Thread) : DWord × Wait :=
  if left.contains k then (next, .none)
  else if trapped.contains k then (th.pc, .resp)
  else match th.wait with
    | .fault _ => (th.pc, .fault 0)
    | .reform | .bar _ _ | .barw _ _ | .rearm _ _ | .hood _ | .event _ => (th.pc, th.wait)
    | _ => (th.pc, .none)

/-- The tag of a thread's part of a fragment and whether it is a new one: that of a thread of the same key before it, the fragment's
own for the first part, else a fresh one (R21). -/
def splitPart (from_ fresh : Nat) (key : DWord × Wait) (seen : List (Nat × (DWord × Wait) × Nat)) : Nat × Bool :=
  match seen.find? fun e => e.1 == from_ && e.2.1 == key with
  | some e => (e.2.2, false)
  | none => if seen.any fun e => e.1 == from_ then (fresh, true) else (from_, false)

/-- The threads at hand after an issue, `ks`, as fragments: those of one key form one fragment. `base` names the fragment a thread
was in, or for all of them the one they have merged into; the first part of it keeps its tag, every other part forms a fragment of
its own (R21, R33). Threads that have left the fragment already, as at a barrier's release, keep the tag they got there. -/
def retag (s0 s : State) (key : Nat → Thread → DWord × Wait) (base : Nat → Nat) :
    List Nat → List (Nat × (DWord × Wait) × Nat) → State
  | [], _ => s
  | k :: ks, seen =>
    match lookup s.threads k with
    | none => retag s0 s key base ks seen
    | some th =>
      if th.tag ≠ (s0.thread k).tag then retag s0 s key base ks seen
      else
        let part := splitPart (base th.tag) s.fresh (key k th) seen
        let s1 := if part.1 = th.tag then s else s.setThread k { th with tag := part.1 }
        retag s0 (if part.2 then s1.bump else s1) key base ks (seen ++ [(base th.tag, key k th, part.1)])

namespace State

/-- A fragment of a wave has issued: its count starts again, and every other fragment that was ready when it was chosen has been passed
over (R22). -/
def passOver (s : State) (core slot : Nat) (issued : List Nat) (w : Wave) : Wave :=
  let kept := keep (fun t _ => !issued.contains t && (s.waveTags core slot).contains t) w.passed
  { w with last := s.clk, passed := (s.rivals.filter fun t => !issued.contains t).foldl (fun c t =>
    put c t (lookupD 0 c t + 1)) kept }
/-- Server group whose turn it is among background waves of an issue group (R306). -/
def turnOf (s : State) (core ig : Nat) : Nat := lookupD 0 s.turns (4 * core + ig)
/-- The turn of an issue group set to the group behind one that has issued. -/
def setTurn (s : State) (core ig sg : Nat) : State := { s with turns := putD 0 s.turns (4 * core + ig) ((sg + 1) % 256) }

end State

/-- The end of an issue in state s0. If no thread has executed the instruction, the fragment was not ready for it: nothing has
issued, and the issue group chooses again (R22). Otherwise the wave has issued and the IG server is charged one issue cycle, once
for each instruction: not when threads left behind execute it later, nor at a further read of TLW.CTR (R31, R302, R309). -/
def settle (s0 s : State) (ran : Bool) : State :=
  let k0 := s0.cur.headD 0
  let th := s0.thread k0
  if !ran then { s with cur := [], cursor := min s.cursor (4 * th.core + igOf th.slot) }
  else
    let begun := s0.begunTag th s0.cur
    let first := s0.cur.any fun k => some (s0.thread k).tag != begun && decide ((s0.thread k).wait ≠ Wait.counter)
    let count : Wave → Wave := s0.passOver th.core th.slot (s0.cur.map fun k => (s0.thread k).tag)
    let s1 := { s with cur := [], waves := adjust s.waves (State.waveKey th.core th.slot) count }
    let key := s0.issueKey k0
    if !first then s1 else if s1.srvInstalled key then s1.charge key 1 else s1.setTurn th.core (igOf th.slot) key.id

/-- The end of an issue: the fragment splits and the issue is counted (R21, R31, R33). -/
def endIssue (s0 s : State) (size : Nat) (left trapped : List Nat) (ran : Bool) : State :=
  let th0 := s0.thread (s0.cur.headD 0)
  let next := th0.pc + BitVec.ofNat 64 size
  let begun := s0.begunTag th0 s0.cur
  let base (t : Nat) : Nat := if ran then begun.getD th0.tag else t
  let seen := begun.toList.map fun t => (base t, (next, Wait.none), t)
  settle s0 (retag s0 s (splitKey next left trapped) base s0.cur seen) ran

/-- An instruction in one active thread behind the checks that come before it (R139, R142, R246). -/
def guarded (i : Instr) (body : Body) : Body := fun env k s =>
  match preTrap env.before i k (env.before.thread k) with
  | some t => .trap t.1 t.2.1 t.2.2
  | none => body env k s
/-- The first of some threads in which an instruction reads a register that holds an uncorrectable error (R357, R360). -/
def badReader (s : State) (i : Instr) (ks : List Nat) : Option Nat :=
  ks.find? fun k => (Instr.readRefs i).any (s.thread k).bad.contains
/-- The gang of the fragment at hand is to be killed at its instruction, which executes in no thread (R35, R360). -/
def killIssue (s : State) (cause k : Nat) : State :=
  let g := s.group (s.thread k).gid
  { s with cur := [] }.post (.gangKill g.hood ⟨cause, 0, (s.thread k).pc, g.hpos⟩)

/-- Issue of instruction i by the fragment at hand. -/
def issue (i : Instr) (body : Body) (s : State) : Host.Outcome State Fault Refusal :=
  match s.cur with
  | [] => .next s
  | k0 :: _ =>
    let act := s.cur.filter fun k => (s.thread k).active i.head
    let present := act.filter fun k => (preTrap s i k (s.thread k)).isNone
    if compares i.raw.op && present.any fun k => (s.thread k).skew then
      .next (killIssue s 2 k0)
    else match badReader s i present with
    | some k => .next (killIssue s 1 k)
    | none =>
      let s1 := s.cur.foldl (fun t k => t.modThread k (advance i)) s
      let r := act.foldl (runLane ⟨s, present, ordersLanes i.raw.op⟩ (guarded i body)) ⟨s1, [], act.isEmpty, [], false⟩
      let s3 := if r.ran then r.s
        else (s.cur.filter fun k => !act.contains k).foldl (fun t k => t.modThread k (unadvance (s.thread k))) r.s
      .next (endIssue s (s3.takeTraps r.traps) i.size r.left (r.traps.map Prod.fst) r.ran)

end Sys2Proof.Machine
end

