-- ==== Sys2Proof/Machine/IntInstrs.lean ====
section
/-!
DEFINITION. Integer, logic, bit-field, comparison, move and predicate instructions (R154 to R165): opcodes 0x00 to 0x39.
-/
namespace Sys2Proof.Machine

/-- 1 or 0 in a register. -/
def boolWord (b : Bool) : Word := if b then 1 else 0
/-- The comparison of ISET and ISETV on the operands of a type (R162). -/
def cmpTy (ty : Ty) (c : ICmp) (a b : DWord) : Bool := cmpInt c (extTy ty a.toNat) (extTy ty b.toNat)
/-- IMM32 as the second operand of a comparison (R156, R162). -/
def immTy (ty : Ty) (imm : Word) : DWord := if ty.wide then imm64 ty imm else imm.zeroExtend 64

/-- IADD with its carry forms (R156, R157). -/
def Thread.addInto (th : Thread) (ty : Ty) (sat : Bool) (sub : Carry) (d c : Reg) (a b : Word) : Thread :=
  if sub = .none then th.wv d (aluAdd ty sat a b)
  else
    let r := addCarry a b (sub.hasIn && th.rp c)
    if sub.hasOut then (th.wv d r.1).wp c r.2 else th.wv d r.1
/-- ISUB with its borrow forms (R156, R157). -/
def Thread.subInto (th : Thread) (ty : Ty) (sat : Bool) (sub : Carry) (d c : Reg) (a b : Word) : Thread :=
  if sub = .none then th.wv d (aluSub ty sat a b)
  else
    let r := subBorrow a b (sub.hasIn && th.rp c)
    if sub.hasOut then (th.wv d r.1).wp c r.2 else th.wv d r.1

/-- Issue cycles left of the IG server of the thread's context at the issue group of its own wave slot, saturated at 0; all ones for
background work (R44, R165). Whether GETID's own issue
cycle counts is open: the model reads q before that charge (log 68). -/
def srvqValue (s : State) (th : Thread) : Word :=
  let k := s.igKey th.ctx th.core th.slot
  if s.srvInstalled k then BitVec.ofNat 32 (s.srv k).q.toNat else 0xFFFFFFFF
/-- The ID values (R19, R34, R44, R165); a helper's record carries its recruiter's tid, group and core. -/
def idValue (s : State) (th : Thread) (code : BitVec 8) : DWord :=
  let g := s.group th.gid
  let p := s.pktOf th
  let hood := (s.hood g.hood).index
  let n : Nat := match code.toNat with
    | 0 => th.tid
    | 1 => hood % p.nx
    | 2 => hood / p.nx % p.ny
    | 3 => hood / p.nx / p.ny
    | 4 => p.hw * p.hh * p.hg
    | 5 => hood
    | 6 => g.hpos
    | 7 => th.lane
    | 8 => th.lane / 8
    | 9 => th.core % 144
    | 10 => th.core / 144
    | 11 => s.fld 0xB001 0 6 0
    | 12 => s.clk
    | 13 => s.tick
    | 14 => (srvqValue s th).toNat
    | 15 => th.ctx
    | 16 => p.prot.toNat
    | _ => th.hidx
  BitVec.ofNat 64 n

/-- IADD_S (R156, R157). -/
def execIaddS (h : Head) (ty : Ty) (sat : Bool) (sub : Carry) (d : Reg) (a : Reg) (b : Reg) (c : Reg) (s : State) :
    Host.Outcome State Fault Refusal :=
  issue (.iaddS h ty sat sub d a b c) (onThread fun _ _ th => th.addInto ty sat sub d c (th.rv a) (th.rv b)) s

/-- IADD_W (R156, R157). -/
def execIaddW (h : Head) (ty : Ty) (sat : Bool) (sub : Carry) (d : Reg) (a : Reg) (imm : BitVec 32) (c : Reg) (s :
    State) : Host.Outcome State Fault Refusal :=
  issue (.iaddW h ty sat sub d a imm c) (onThread fun _ _ th => th.addInto ty sat sub d c (th.rv a) imm) s

/-- ISUB_S (R156, R157). -/
def execIsubS (h : Head) (ty : Ty) (sat : Bool) (sub : Carry) (d : Reg) (a : Reg) (b : Reg) (c : Reg) (s : State) :
    Host.Outcome State Fault Refusal :=
  issue (.isubS h ty sat sub d a b c) (onThread fun _ _ th => th.subInto ty sat sub d c (th.rv a) (th.rv b)) s

/-- ISUB_W (R156, R157). -/
def execIsubW (h : Head) (ty : Ty) (sat : Bool) (sub : Carry) (d : Reg) (a : Reg) (imm : BitVec 32) (c : Reg) (s :
    State) : Host.Outcome State Fault Refusal :=
  issue (.isubW h ty sat sub d a imm c) (onThread fun _ _ th => th.subInto ty sat sub d c (th.rv a) imm) s

/-- IMUL_S (R156). -/
def execImulS (h : Head) (ty : Ty) (sat : Bool) (d : Reg) (a : Reg) (b : Reg) (s : State) : Host.Outcome State Fault
    Refusal :=
  issue (.imulS h ty sat d a b) (onThread fun _ _ th => th.wv d (aluMul ty sat (th.rv a) (th.rv b))) s

/-- IMUL_W (R156). -/
def execImulW (h : Head) (ty : Ty) (sat : Bool) (d : Reg) (a : Reg) (imm : BitVec 32) (s : State) : Host.Outcome
    State Fault Refusal :=
  issue (.imulW h ty sat d a imm) (onThread fun _ _ th => th.wv d (aluMul ty sat (th.rv a) imm)) s

/-- IMULH_S (R158). -/
def execImulhS (h : Head) (ty : Ty) (d : Reg) (a : Reg) (b : Reg) (s : State) : Host.Outcome State Fault Refusal :=
  issue (.imulhS h ty d a b) (onThread fun _ _ th => th.wv d (aluMulh ty (th.rv a) (th.rv b))) s

/-- IMULH_W (R158). -/
def execImulhW (h : Head) (ty : Ty) (d : Reg) (a : Reg) (imm : BitVec 32) (s : State) : Host.Outcome State Fault
    Refusal :=
  issue (.imulhW h ty d a imm) (onThread fun _ _ th => th.wv d (aluMulh ty (th.rv a) imm)) s

/-- IMAD (R156). -/
def execImad (h : Head) (ty : Ty) (sat : Bool) (d : Reg) (a : Reg) (b : Reg) (c : Reg) (s : State) : Host.Outcome
    State Fault Refusal :=
  issue (.imad h ty sat d a b c) (onThread fun _ _ th => th.wv d (aluMad ty sat (th.rv a) (th.rv b) (th.rv c))) s

/-- IMADW (R158). -/
def execImadw (h : Head) (ty : Ty) (sat : Bool) (d : Reg) (a : Reg) (b : Reg) (c : Reg) (s : State) : Host.Outcome
    State Fault Refusal :=
  issue (.imadw h ty sat d a b c) (onThread fun _ _ th => th.ww d (aluMadw ty sat (th.rv a) (th.rv b) (th.rw c))) s

/-- IDIV_S (R158). -/
def execIdivS (h : Head) (ty : Ty) (d : Reg) (a : Reg) (b : Reg) (s : State) : Host.Outcome State Fault Refusal :=
  issue (.idivS h ty d a b) (onThread fun _ _ th => th.wv d (aluDiv ty (th.rv a) (th.rv b))) s

/-- IDIV_W (R158). -/
def execIdivW (h : Head) (ty : Ty) (d : Reg) (a : Reg) (imm : BitVec 32) (s : State) : Host.Outcome State Fault
    Refusal :=
  issue (.idivW h ty d a imm) (onThread fun _ _ th => th.wv d (aluDiv ty (th.rv a) imm)) s

/-- IREM_S (R158). -/
def execIremS (h : Head) (ty : Ty) (d : Reg) (a : Reg) (b : Reg) (s : State) : Host.Outcome State Fault Refusal :=
  issue (.iremS h ty d a b) (onThread fun _ _ th => th.wv d (aluRem ty (th.rv a) (th.rv b))) s

/-- IREM_W (R158). -/
def execIremW (h : Head) (ty : Ty) (d : Reg) (a : Reg) (imm : BitVec 32) (s : State) : Host.Outcome State Fault
    Refusal :=
  issue (.iremW h ty d a imm) (onThread fun _ _ th => th.wv d (aluRem ty (th.rv a) imm)) s

/-- IMIN_S (R156). -/
def execIminS (h : Head) (ty : Ty) (d : Reg) (a : Reg) (b : Reg) (s : State) : Host.Outcome State Fault Refusal :=
  issue (.iminS h ty d a b) (onThread fun _ _ th => th.wv d (aluMin ty (th.rv a) (th.rv b))) s

/-- IMIN_W (R156). -/
def execIminW (h : Head) (ty : Ty) (d : Reg) (a : Reg) (imm : BitVec 32) (s : State) : Host.Outcome State Fault
    Refusal :=
  issue (.iminW h ty d a imm) (onThread fun _ _ th => th.wv d (aluMin ty (th.rv a) imm)) s

/-- IMAX_S (R156). -/
def execImaxS (h : Head) (ty : Ty) (d : Reg) (a : Reg) (b : Reg) (s : State) : Host.Outcome State Fault Refusal :=
  issue (.imaxS h ty d a b) (onThread fun _ _ th => th.wv d (aluMax ty (th.rv a) (th.rv b))) s

/-- IMAX_W (R156). -/
def execImaxW (h : Head) (ty : Ty) (d : Reg) (a : Reg) (imm : BitVec 32) (s : State) : Host.Outcome State Fault
    Refusal :=
  issue (.imaxW h ty d a imm) (onThread fun _ _ th => th.wv d (aluMax ty (th.rv a) imm)) s

/-- IABS (R156). -/
def execIabs (h : Head) (ty : Ty) (sat : Bool) (d : Reg) (a : Reg) (s : State) : Host.Outcome State Fault Refusal :=
  issue (.iabs h ty sat d a) (onThread fun _ _ th => th.wv d (aluAbs ty sat (th.rv a))) s

/-- INEG (R156). -/
def execIneg (h : Head) (ty : Ty) (sat : Bool) (d : Reg) (a : Reg) (s : State) : Host.Outcome State Fault Refusal :=
  issue (.ineg h ty sat d a) (onThread fun _ _ th => th.wv d (aluNeg ty sat (th.rv a))) s

/-- ISAD (R158). -/
def execIsad (h : Head) (ty : Ty) (sat : Bool) (d : Reg) (a : Reg) (b : Reg) (c : Reg) (s : State) : Host.Outcome
    State Fault Refusal :=
  issue (.isad h ty sat d a b c) (onThread fun _ _ th => th.wv d (aluSad ty sat (th.rv a) (th.rv b) (th.rv c))) s

/-- IADD64_S (R159). -/
def execIadd64S (h : Head) (ty : Ty) (sat : Bool) (d : Reg) (a : Reg) (b : Reg) (s : State) : Host.Outcome State
    Fault Refusal :=
  issue (.iadd64S h ty sat d a b) (onThread fun _ _ th => th.ww d (aluAdd64 ty sat (th.rw a) (th.rw b))) s

/-- IADD64_W (R159). -/
def execIadd64W (h : Head) (ty : Ty) (sat : Bool) (d : Reg) (a : Reg) (imm : BitVec 32) (s : State) : Host.Outcome
    State Fault Refusal :=
  issue (.iadd64W h ty sat d a imm) (onThread fun _ _ th => th.ww d (aluAdd64 ty sat (th.rw a) (imm64 ty imm))) s

/-- ISUB64_S (R159). -/
def execIsub64S (h : Head) (ty : Ty) (sat : Bool) (d : Reg) (a : Reg) (b : Reg) (s : State) : Host.Outcome State
    Fault Refusal :=
  issue (.isub64S h ty sat d a b) (onThread fun _ _ th => th.ww d (aluSub64 ty sat (th.rw a) (th.rw b))) s

/-- ISUB64_W (R159). -/
def execIsub64W (h : Head) (ty : Ty) (sat : Bool) (d : Reg) (a : Reg) (imm : BitVec 32) (s : State) : Host.Outcome
    State Fault Refusal :=
  issue (.isub64W h ty sat d a imm) (onThread fun _ _ th => th.ww d (aluSub64 ty sat (th.rw a) (imm64 ty imm))) s

/-- IMUL64 (R159). -/
def execImul64 (h : Head) (ty : Ty) (sat : Bool) (d : Reg) (a : Reg) (b : Reg) (s : State) : Host.Outcome State
    Fault Refusal :=
  issue (.imul64 h ty sat d a b) (onThread fun _ _ th => th.ww d (aluMul64 ty sat (th.rw a) (th.rw b))) s

/-- AND_S (R160). -/
def execAndS (h : Head) (d : Reg) (a : Reg) (b : Reg) (s : State) : Host.Outcome State Fault Refusal :=
  issue (.andS h d a b) (onThread fun _ _ th => th.wv d (th.rv a &&& (th.rv b))) s

/-- AND_W (R160). -/
def execAndW (h : Head) (d : Reg) (a : Reg) (imm : BitVec 32) (s : State) : Host.Outcome State Fault Refusal :=
  issue (.andW h d a imm) (onThread fun _ _ th => th.wv d (th.rv a &&& imm)) s

/-- OR_S (R160). -/
def execOrS (h : Head) (d : Reg) (a : Reg) (b : Reg) (s : State) : Host.Outcome State Fault Refusal :=
  issue (.orS h d a b) (onThread fun _ _ th => th.wv d (th.rv a ||| (th.rv b))) s

/-- OR_W (R160). -/
def execOrW (h : Head) (d : Reg) (a : Reg) (imm : BitVec 32) (s : State) : Host.Outcome State Fault Refusal :=
  issue (.orW h d a imm) (onThread fun _ _ th => th.wv d (th.rv a ||| imm)) s

/-- XOR_S (R160). -/
def execXorS (h : Head) (d : Reg) (a : Reg) (b : Reg) (s : State) : Host.Outcome State Fault Refusal :=
  issue (.xorS h d a b) (onThread fun _ _ th => th.wv d (th.rv a ^^^ (th.rv b))) s

/-- XOR_W (R160). -/
def execXorW (h : Head) (d : Reg) (a : Reg) (imm : BitVec 32) (s : State) : Host.Outcome State Fault Refusal :=
  issue (.xorW h d a imm) (onThread fun _ _ th => th.wv d (th.rv a ^^^ imm)) s

/-- ANDN_S (R160). -/
def execAndnS (h : Head) (d : Reg) (a : Reg) (b : Reg) (s : State) : Host.Outcome State Fault Refusal :=
  issue (.andnS h d a b) (onThread fun _ _ th => th.wv d (th.rv a &&& ~~~(th.rv b))) s

/-- ANDN_W (R160). -/
def execAndnW (h : Head) (d : Reg) (a : Reg) (imm : BitVec 32) (s : State) : Host.Outcome State Fault Refusal :=
  issue (.andnW h d a imm) (onThread fun _ _ th => th.wv d (th.rv a &&& ~~~imm)) s

/-- ORN_S (R160). -/
def execOrnS (h : Head) (d : Reg) (a : Reg) (b : Reg) (s : State) : Host.Outcome State Fault Refusal :=
  issue (.ornS h d a b) (onThread fun _ _ th => th.wv d (th.rv a ||| ~~~(th.rv b))) s

/-- ORN_W (R160). -/
def execOrnW (h : Head) (d : Reg) (a : Reg) (imm : BitVec 32) (s : State) : Host.Outcome State Fault Refusal :=
  issue (.ornW h d a imm) (onThread fun _ _ th => th.wv d (th.rv a ||| ~~~imm)) s

/-- NOT (R160). -/
def execNot (h : Head) (d : Reg) (a : Reg) (s : State) : Host.Outcome State Fault Refusal :=
  issue (.not h d a) (onThread fun _ _ th => th.wv d (~~~(th.rv a))) s

/-- SHL_S (R160). -/
def execShlS (h : Head) (d : Reg) (a : Reg) (b : Reg) (s : State) : Host.Outcome State Fault Refusal :=
  issue (.shlS h d a b) (onThread fun _ _ th => th.wv d (aluShl (th.rv a) (th.rv b))) s

/-- SHL_W (R160). -/
def execShlW (h : Head) (d : Reg) (a : Reg) (imm : BitVec 32) (s : State) : Host.Outcome State Fault Refusal :=
  issue (.shlW h d a imm) (onThread fun _ _ th => th.wv d (aluShl (th.rv a) imm)) s

/-- SHR_S (R160). -/
def execShrS (h : Head) (d : Reg) (a : Reg) (b : Reg) (s : State) : Host.Outcome State Fault Refusal :=
  issue (.shrS h d a b) (onThread fun _ _ th => th.wv d (aluShr (th.rv a) (th.rv b))) s

/-- SHR_W (R160). -/
def execShrW (h : Head) (d : Reg) (a : Reg) (imm : BitVec 32) (s : State) : Host.Outcome State Fault Refusal :=
  issue (.shrW h d a imm) (onThread fun _ _ th => th.wv d (aluShr (th.rv a) imm)) s

/-- SAR_S (R160). -/
def execSarS (h : Head) (d : Reg) (a : Reg) (b : Reg) (s : State) : Host.Outcome State Fault Refusal :=
  issue (.sarS h d a b) (onThread fun _ _ th => th.wv d (aluSar (th.rv a) (th.rv b))) s

/-- SAR_W (R160). -/
def execSarW (h : Head) (d : Reg) (a : Reg) (imm : BitVec 32) (s : State) : Host.Outcome State Fault Refusal :=
  issue (.sarW h d a imm) (onThread fun _ _ th => th.wv d (aluSar (th.rv a) imm)) s

/-- ROT_S (R160). -/
def execRotS (h : Head) (d : Reg) (a : Reg) (b : Reg) (s : State) : Host.Outcome State Fault Refusal :=
  issue (.rotS h d a b) (onThread fun _ _ th => th.wv d (aluRot (th.rv a) (th.rv b))) s

/-- ROT_W (R160). -/
def execRotW (h : Head) (d : Reg) (a : Reg) (imm : BitVec 32) (s : State) : Host.Outcome State Fault Refusal :=
  issue (.rotW h d a imm) (onThread fun _ _ th => th.wv d (aluRot (th.rv a) imm)) s

/-- FSH (R160). -/
def execFsh (h : Head) (dir : FshDir) (d : Reg) (a : Reg) (b : Reg) (c : Reg) (s : State) : Host.Outcome State Fault
    Refusal :=
  issue (.fsh h dir d a b c) (onThread fun _ _ th => th.wv d (aluFsh dir (th.rv a) (th.rv b) (th.rv c))) s

/-- BFX (R161). -/
def execBfx (h : Head) (ty : Ty) (d : Reg) (a : Reg) (b : Reg) (c : Reg) (s : State) : Host.Outcome State Fault
    Refusal :=
  issue (.bfx h ty d a b c) (onThread fun _ _ th => th.wv d (aluBfx ty (th.rv a) (th.rv b) (th.rv c))) s

/-- BFI (R161). -/
def execBfi (h : Head) (d : Reg) (a : Reg) (b : Reg) (c : Reg) (s : State) : Host.Outcome State Fault Refusal :=
  issue (.bfi h d a b c) (onThread fun _ _ th => th.wv d (aluBfi (th.rv a) (th.rv b) (th.rv c) (th.rv d))) s

/-- POPC (R161). -/
def execPopc (h : Head) (wide : Bool) (d : Reg) (a : Reg) (s : State) : Host.Outcome State Fault Refusal :=
  issue (.popc h wide d a) (onThread fun _ _ th => th.wv d (BitVec.ofNat 32 (popN (if wide then 64 else 32) (th.rvw wide a).toNat))) s

/-- CLZ (R161). -/
def execClz (h : Head) (wide : Bool) (d : Reg) (a : Reg) (s : State) : Host.Outcome State Fault Refusal :=
  issue (.clz h wide d a) (onThread fun _ _ th => th.wv d (BitVec.ofNat 32 (clzN (if wide then 64 else 32) (th.rvw wide a).toNat))) s

/-- CTZ (R161). -/
def execCtz (h : Head) (wide : Bool) (d : Reg) (a : Reg) (s : State) : Host.Outcome State Fault Refusal :=
  issue (.ctz h wide d a) (onThread fun _ _ th => th.wv d (BitVec.ofNat 32 (ctzN (if wide then 64 else 32) (th.rvw wide a).toNat))) s

/-- BREV (R161). -/
def execBrev (h : Head) (wide : Bool) (d : Reg) (a : Reg) (s : State) : Host.Outcome State Fault Refusal :=
  issue (.brev h wide d a) (onThread fun _ _ th => th.wvw wide d (BitVec.ofNat 64 (brevN (if wide then 64 else 32) (th.rvw wide a).toNat))) s

/-- PERM_S (R161). -/
def execPermS (h : Head) (d : Reg) (a : Reg) (b : Reg) (s : State) : Host.Outcome State Fault Refusal :=
  issue (.permS h d a b) (onThread fun _ _ th => th.wv d (aluPerm (th.rv a) (th.rv b) (th.rv d))) s

/-- PERM_W (R161). -/
def execPermW (h : Head) (d : Reg) (a : Reg) (imm : BitVec 32) (s : State) : Host.Outcome State Fault Refusal :=
  issue (.permW h d a imm) (onThread fun _ _ th => th.wv d (aluPerm (th.rv a) imm (th.rv d))) s

/-- ISET_S (R162). -/
def execIsetS (h : Head) (ty : Ty) (cmp : ICmp) (d : Reg) (a : Reg) (b : Reg) (s : State) : Host.Outcome State Fault
    Refusal :=
  issue (.isetS h ty cmp d a b) (onThread fun _ _ th => th.wp d (cmpTy ty cmp (th.rvw ty.wide a) (th.rvw ty.wide b))) s

/-- ISET_W (R162). -/
def execIsetW (h : Head) (ty : Ty) (cmp : ICmp) (d : Reg) (a : Reg) (imm : BitVec 32) (s : State) : Host.Outcome
    State Fault Refusal :=
  issue (.isetW h ty cmp d a imm) (onThread fun _ _ th => th.wp d (cmpTy ty cmp (th.rvw ty.wide a) (immTy ty imm))) s

/-- ISETV_S (R162). -/
def execIsetvS (h : Head) (ty : Ty) (cmp : ICmp) (d : Reg) (a : Reg) (b : Reg) (s : State) : Host.Outcome State
    Fault Refusal :=
  issue (.isetvS h ty cmp d a b) (onThread fun _ _ th => th.wv d (boolWord (cmpTy ty cmp (th.rvw ty.wide a) (th.rvw ty.wide b)))) s

/-- ISETV_W (R162). -/
def execIsetvW (h : Head) (ty : Ty) (cmp : ICmp) (d : Reg) (a : Reg) (imm : BitVec 32) (s : State) : Host.Outcome
    State Fault Refusal :=
  issue (.isetvW h ty cmp d a imm) (onThread fun _ _ th => th.wv d (boolWord (cmpTy ty cmp (th.rvw ty.wide a) (immTy ty imm)))) s

/-- SEL (R162). -/
def execSel (h : Head) (d : Reg) (a : Reg) (b : Reg) (c : Reg) (s : State) : Host.Outcome State Fault Refusal :=
  issue (.sel h d a b c) (onThread fun _ _ th => th.wv d (if th.rp c then th.rv a else th.rv b)) s

/-- MOV (R162). -/
def execMov (h : Head) (wide : Bool) (d : Reg) (a : Reg) (s : State) : Host.Outcome State Fault Refusal :=
  issue (.mov h wide d a) (onThread fun _ _ th => th.wvw wide d (th.rvw wide a)) s

/-- MOVI (R162). -/
def execMovi (h : Head) (d : Reg) (imm : BitVec 32) (s : State) : Host.Outcome State Fault Refusal :=
  issue (.movi h d imm) (onThread fun _ _ th => th.wv d imm) s

/-- MOVW (R162). -/
def execMovw (h : Head) (d : Reg) (imm : BitVec 64) (s : State) : Host.Outcome State Fault Refusal :=
  issue (.movw h d imm) (onThread fun _ _ th => th.ww d imm) s

/-- PLOP (R163). -/
def execPlop (h : Head) (tt : BitVec 8) (d : Reg) (a : Reg) (b : Reg) (c : Reg) (s : State) : Host.Outcome State
    Fault Refusal :=
  issue (.plop h tt d a b c) (onThread fun _ _ th => th.wp d (plop tt (th.rp a) (th.rp b) (th.rp c))) s

/-- P2V (R164). -/
def execP2v (h : Head) (bit : Bool) (d : Reg) (a : Reg) (s : State) : Host.Outcome State Fault Refusal :=
  issue (.p2v h bit d a) (onThread fun _ _ th => th.wv d (if bit then boolWord (th.rp a) else th.rpg a)) s

/-- V2P (R164). -/
def execV2p (h : Head) (bit : Bool) (d : Reg) (a : Reg) (s : State) : Host.Outcome State Fault Refusal :=
  issue (.v2p h bit d a) (onThread fun _ _ th => if bit then th.wp d (th.rv a != 0) else th.wpg d (th.rv a)) s

/-- GETID (R44, R165). -/
def execGetid (h : Head) (d : Reg) (code : BitVec 8) (s : State) : Host.Outcome State Fault Refusal :=
  issue (.getid h d code) (fun env k s => .done (s.modThread k fun th => th.wvw (code == 12 || code == 13) d (idValue env.before th code))) s

end Sys2Proof.Machine
end

