-- ==== Sys2Proof/Machine/FloatInstrs.lean ====
section
/-!
DEFINITION. Floating-point and packed instructions (R172 to R186): opcodes 0x60 to 0x8B.
-/
namespace Sys2Proof.Machine

/-- The integer F2I writes: narrow types extended to 32 bits by their sign (R180). -/
def intResult (ty : Ty) (y : Int) : DWord := if ty.wide then BitVec.ofInt 64 y else (BitVec.ofInt 32 y).zeroExtend 64
/-- HCVT2 by its sub-operation (R184). -/
def Thread.hcvt2Into (th : Thread) (op : HcvtOp) (f : Fmt) (md : Rm) (d : Reg) (a b : Word) : Thread :=
  match op with
  | .pk => th.wf d (hcvtPk f md a b)
  | .upk => (th.ww d (hcvtUpk f a).1).raise (hcvtUpk f a).2
  | .x => th.wf d (hcvtX f md a)
/-- VACSEL writes the metrics and the survivor word (R186). -/
def Thread.vacselInto (th : Thread) (sat : Bool) (d sv : Reg) (a b c : Word) : Thread :=
  let r := aluVacsel sat a b c (th.rv sv)
  (th.wv d r.1).wv sv r.2

/-- FADD_S (R175). -/
def execFaddS (h : Head) (fmt : Fmt) (rnd : Rm) (d : Reg) (a : Reg) (b : Reg) (s : State) : Host.Outcome State Fault
    Refusal :=
  issue (.faddS h fmt rnd d a b) (onThread fun _ _ th => th.wf d (fAdd fmt rnd (fpIn fmt (th.rv a)) (fpIn fmt (th.rv b)))) s

/-- FADD_W (R175). -/
def execFaddW (h : Head) (fmt : Fmt) (rnd : Rm) (d : Reg) (a : Reg) (imm : BitVec 32) (s : State) : Host.Outcome
    State Fault Refusal :=
  issue (.faddW h fmt rnd d a imm) (onThread fun _ _ th => th.wf d (fAdd fmt rnd (fpIn fmt (th.rv a)) (fpIn fmt imm))) s

/-- FSUB_S (R175). -/
def execFsubS (h : Head) (fmt : Fmt) (rnd : Rm) (d : Reg) (a : Reg) (b : Reg) (s : State) : Host.Outcome State Fault
    Refusal :=
  issue (.fsubS h fmt rnd d a b) (onThread fun _ _ th => th.wf d (fSub fmt rnd (fpIn fmt (th.rv a)) (fpIn fmt (th.rv b)))) s

/-- FSUB_W (R175). -/
def execFsubW (h : Head) (fmt : Fmt) (rnd : Rm) (d : Reg) (a : Reg) (imm : BitVec 32) (s : State) : Host.Outcome
    State Fault Refusal :=
  issue (.fsubW h fmt rnd d a imm) (onThread fun _ _ th => th.wf d (fSub fmt rnd (fpIn fmt (th.rv a)) (fpIn fmt imm))) s

/-- FMUL_S (R175). -/
def execFmulS (h : Head) (fmt : Fmt) (rnd : Rm) (d : Reg) (a : Reg) (b : Reg) (s : State) : Host.Outcome State Fault
    Refusal :=
  issue (.fmulS h fmt rnd d a b) (onThread fun _ _ th => th.wf d (fMul fmt rnd (fpIn fmt (th.rv a)) (fpIn fmt (th.rv b)))) s

/-- FMUL_W (R175). -/
def execFmulW (h : Head) (fmt : Fmt) (rnd : Rm) (d : Reg) (a : Reg) (imm : BitVec 32) (s : State) : Host.Outcome
    State Fault Refusal :=
  issue (.fmulW h fmt rnd d a imm) (onThread fun _ _ th => th.wf d (fMul fmt rnd (fpIn fmt (th.rv a)) (fpIn fmt imm))) s

/-- FFMA (R175). -/
def execFfma (h : Head) (fmt : Fmt) (rnd : Rm) (d : Reg) (a : Reg) (b : Reg) (c : Reg) (s : State) : Host.Outcome
    State Fault Refusal :=
  issue (.ffma h fmt rnd d a b c) (onThread fun _ _ th => th.wf d (fFma fmt rnd (fpIn fmt (th.rv a)) (fpIn fmt (th.rv b)) (fpIn fmt (th.rv c)))) s

/-- FDIV (R175). -/
def execFdiv (h : Head) (fmt : Fmt) (rnd : Rm) (d : Reg) (a : Reg) (b : Reg) (s : State) : Host.Outcome State Fault
    Refusal :=
  issue (.fdiv h fmt rnd d a b) (onThread fun _ _ th => th.wf d (fDiv fmt rnd (fpIn fmt (th.rv a)) (fpIn fmt (th.rv b)))) s

/-- FMIN_S (R176). -/
def execFminS (h : Head) (fmt : Fmt) (d : Reg) (a : Reg) (b : Reg) (s : State) : Host.Outcome State Fault Refusal :=
  issue (.fminS h fmt d a b) (onThread fun _ _ th => th.wf d (fMinMax fmt false (fpIn fmt (th.rv a)) (fpIn fmt (th.rv b)))) s

/-- FMIN_W (R176). -/
def execFminW (h : Head) (fmt : Fmt) (d : Reg) (a : Reg) (imm : BitVec 32) (s : State) : Host.Outcome State Fault
    Refusal :=
  issue (.fminW h fmt d a imm) (onThread fun _ _ th => th.wf d (fMinMax fmt false (fpIn fmt (th.rv a)) (fpIn fmt imm))) s

/-- FMAX_S (R176). -/
def execFmaxS (h : Head) (fmt : Fmt) (d : Reg) (a : Reg) (b : Reg) (s : State) : Host.Outcome State Fault Refusal :=
  issue (.fmaxS h fmt d a b) (onThread fun _ _ th => th.wf d (fMinMax fmt true (fpIn fmt (th.rv a)) (fpIn fmt (th.rv b)))) s

/-- FMAX_W (R176). -/
def execFmaxW (h : Head) (fmt : Fmt) (d : Reg) (a : Reg) (imm : BitVec 32) (s : State) : Host.Outcome State Fault
    Refusal :=
  issue (.fmaxW h fmt d a imm) (onThread fun _ _ th => th.wf d (fMinMax fmt true (fpIn fmt (th.rv a)) (fpIn fmt imm))) s

/-- FSET_S (R177). -/
def execFsetS (h : Head) (fmt : Fmt) (cmp : FCmp) (d : Reg) (a : Reg) (b : Reg) (s : State) : Host.Outcome State
    Fault Refusal :=
  issue (.fsetS h fmt cmp d a b) (onThread fun _ _ th => (th.wp d (fCmp fmt cmp (fpIn fmt (th.rv a)) (fpIn fmt (th.rv b))).1).raise (fCmp fmt cmp (fpIn fmt (th.rv a)) (fpIn fmt (th.rv b))).2) s

/-- FSET_W (R177). -/
def execFsetW (h : Head) (fmt : Fmt) (cmp : FCmp) (d : Reg) (a : Reg) (imm : BitVec 32) (s : State) : Host.Outcome
    State Fault Refusal :=
  issue (.fsetW h fmt cmp d a imm) (onThread fun _ _ th => (th.wp d (fCmp fmt cmp (fpIn fmt (th.rv a)) (fpIn fmt imm)).1).raise (fCmp fmt cmp (fpIn fmt (th.rv a)) (fpIn fmt imm)).2) s

/-- FSETV_S (R177). -/
def execFsetvS (h : Head) (fmt : Fmt) (cmp : FCmp) (d : Reg) (a : Reg) (b : Reg) (s : State) : Host.Outcome State
    Fault Refusal :=
  issue (.fsetvS h fmt cmp d a b) (onThread fun _ _ th => (th.wv d (boolWord (fCmp fmt cmp (fpIn fmt (th.rv a)) (fpIn fmt (th.rv b))).1)).raise (fCmp fmt cmp (fpIn fmt (th.rv a)) (fpIn fmt (th.rv b))).2) s

/-- FSETV_W (R177). -/
def execFsetvW (h : Head) (fmt : Fmt) (cmp : FCmp) (d : Reg) (a : Reg) (imm : BitVec 32) (s : State) : Host.Outcome
    State Fault Refusal :=
  issue (.fsetvW h fmt cmp d a imm) (onThread fun _ _ th => (th.wv d (boolWord (fCmp fmt cmp (fpIn fmt (th.rv a)) (fpIn fmt imm)).1)).raise (fCmp fmt cmp (fpIn fmt (th.rv a)) (fpIn fmt imm)).2) s

/-- FCLS (R178). -/
def execFcls (h : Head) (fmt : Fmt) (d : Reg) (a : Reg) (s : State) : Host.Outcome State Fault Refusal :=
  issue (.fcls h fmt d a) (onThread fun _ _ th => th.wv d (BitVec.ofNat 32 (fClass fmt (fpIn fmt (th.rv a))))) s

/-- FRND (R179). -/
def execFrnd (h : Head) (fmt : Fmt) (rnd : Rm) (d : Reg) (a : Reg) (s : State) : Host.Outcome State Fault Refusal :=
  issue (.frnd h fmt rnd d a) (onThread fun _ _ th => th.wf d (fRnd fmt rnd (fpIn fmt (th.rv a)))) s

/-- F2I (R111, R180). -/
def execF2i (h : Head) (ty : Ty) (fmt : Fmt) (rnd : Rm) (d : Reg) (a : Reg) (s : State) : Host.Outcome State Fault
    Refusal :=
  issue (.f2i h ty fmt rnd d a) (onThread fun _ _ th => (th.wvw ty.wide d (intResult ty (fToInt fmt ty rnd (fpIn fmt (th.rv a))).1)).raise (fToInt fmt ty rnd (fpIn fmt (th.rv a))).2) s

/-- I2F (R111, R180). -/
def execI2f (h : Head) (ty : Ty) (fmt : Fmt) (rnd : Rm) (d : Reg) (a : Reg) (s : State) : Host.Outcome State Fault
    Refusal :=
  issue (.i2f h ty fmt rnd d a) (onThread fun _ _ th => th.wf d (roundInt fmt rnd (extTy ty (th.rvw ty.wide a).toNat))) s

/-- FCVT (R110, R180). -/
def execFcvt (h : Head) (dst : Fmt) (src : Fmt) (rnd : Rm) (d : Reg) (a : Reg) (s : State) : Host.Outcome State
    Fault Refusal :=
  issue (.fcvt h dst src rnd d a) (onThread fun _ _ th => th.wf d (fConvert dst src rnd (fpIn src (th.rv a)))) s

/-- RCP (R181). -/
def execRcp (h : Head) (fmt : Fmt) (rnd : Rm) (d : Reg) (a : Reg) (s : State) : Host.Outcome State Fault Refusal :=
  issue (.rcp h fmt rnd d a) (onThread fun _ _ th => th.wf d (fRcp fmt rnd (fpIn fmt (th.rv a)))) s

/-- RSQ (R181). -/
def execRsq (h : Head) (fmt : Fmt) (rnd : Rm) (d : Reg) (a : Reg) (s : State) : Host.Outcome State Fault Refusal :=
  issue (.rsq h fmt rnd d a) (onThread fun _ _ th => th.wf d (fRsq fmt rnd (fpIn fmt (th.rv a)))) s

/-- SQRT (R181). -/
def execSqrt (h : Head) (fmt : Fmt) (rnd : Rm) (d : Reg) (a : Reg) (s : State) : Host.Outcome State Fault Refusal :=
  issue (.sqrt h fmt rnd d a) (onThread fun _ _ th => th.wf d (fSqrt fmt rnd (fpIn fmt (th.rv a)))) s

/-- EXP2 (R181). -/
def execExp2 (h : Head) (fmt : Fmt) (rnd : Rm) (d : Reg) (a : Reg) (s : State) : Host.Outcome State Fault Refusal :=
  issue (.exp2 h fmt rnd d a) (onThread fun _ _ th => th.wf d (fExp2 fmt rnd (fpIn fmt (th.rv a)))) s

/-- LOG2 (R181). -/
def execLog2 (h : Head) (fmt : Fmt) (rnd : Rm) (d : Reg) (a : Reg) (s : State) : Host.Outcome State Fault Refusal :=
  issue (.log2 h fmt rnd d a) (onThread fun _ _ th => th.wf d (fLog2 fmt rnd (fpIn fmt (th.rv a)))) s

/-- FSTAT (R182). -/
def execFstat (h : Head) (d : Reg) (s : State) : Host.Outcome State Fault Refusal :=
  issue (.fstat h d) (onThread fun _ _ th => (th.wv d th.fpWord).fpClear) s

/-- HADD2 (R183). -/
def execHadd2 (h : Head) (fmt : Fmt) (rnd : Rm) (d : Reg) (a : Reg) (b : Reg) (s : State) : Host.Outcome State Fault
    Refusal :=
  issue (.hadd2 h fmt rnd d a b) (onThread fun _ _ th => th.wf d (half2 (fAdd fmt rnd) (th.rv a) (th.rv b))) s

/-- HSUB2 (R183). -/
def execHsub2 (h : Head) (fmt : Fmt) (rnd : Rm) (d : Reg) (a : Reg) (b : Reg) (s : State) : Host.Outcome State Fault
    Refusal :=
  issue (.hsub2 h fmt rnd d a b) (onThread fun _ _ th => th.wf d (half2 (fSub fmt rnd) (th.rv a) (th.rv b))) s

/-- HMUL2 (R183). -/
def execHmul2 (h : Head) (fmt : Fmt) (rnd : Rm) (d : Reg) (a : Reg) (b : Reg) (s : State) : Host.Outcome State Fault
    Refusal :=
  issue (.hmul2 h fmt rnd d a b) (onThread fun _ _ th => th.wf d (half2 (fMul fmt rnd) (th.rv a) (th.rv b))) s

/-- HFMA2 (R183). -/
def execHfma2 (h : Head) (fmt : Fmt) (rnd : Rm) (d : Reg) (a : Reg) (b : Reg) (c : Reg) (s : State) : Host.Outcome
    State Fault Refusal :=
  issue (.hfma2 h fmt rnd d a b c) (onThread fun _ _ th => th.wf d (half3 (fFma fmt rnd) (th.rv a) (th.rv b) (th.rv c))) s

/-- HMIN2 (R183). -/
def execHmin2 (h : Head) (fmt : Fmt) (d : Reg) (a : Reg) (b : Reg) (s : State) : Host.Outcome State Fault Refusal :=
  issue (.hmin2 h fmt d a b) (onThread fun _ _ th => th.wf d (half2 (fMinMax fmt false) (th.rv a) (th.rv b))) s

/-- HMAX2 (R183). -/
def execHmax2 (h : Head) (fmt : Fmt) (d : Reg) (a : Reg) (b : Reg) (s : State) : Host.Outcome State Fault Refusal :=
  issue (.hmax2 h fmt d a b) (onThread fun _ _ th => th.wf d (half2 (fMinMax fmt true) (th.rv a) (th.rv b))) s

/-- HCVT2 (R184). -/
def execHcvt2 (h : Head) (op : HcvtOp) (fmt : Fmt) (rnd : Rm) (d : Reg) (a : Reg) (b : Reg) (s : State) :
    Host.Outcome State Fault Refusal :=
  issue (.hcvt2 h op fmt rnd d a b) (onThread fun _ _ th => th.hcvt2Into op fmt rnd d (th.rv a) (th.rv b)) s

/-- VADD2 (R185). -/
def execVadd2 (h : Head) (ty : Ty) (sat : Bool) (d : Reg) (a : Reg) (b : Reg) (s : State) : Host.Outcome State Fault
    Refusal :=
  issue (.vadd2 h ty sat d a b) (onThread fun _ _ th => th.wv d (aluVadd2 ty sat (th.rv a) (th.rv b))) s

/-- VSUB2 (R185). -/
def execVsub2 (h : Head) (ty : Ty) (sat : Bool) (d : Reg) (a : Reg) (b : Reg) (s : State) : Host.Outcome State Fault
    Refusal :=
  issue (.vsub2 h ty sat d a b) (onThread fun _ _ th => th.wv d (aluVsub2 ty sat (th.rv a) (th.rv b))) s

/-- VMIN2 (R185). -/
def execVmin2 (h : Head) (ty : Ty) (d : Reg) (a : Reg) (b : Reg) (s : State) : Host.Outcome State Fault Refusal :=
  issue (.vmin2 h ty d a b) (onThread fun _ _ th => th.wv d (aluVmin2 ty (th.rv a) (th.rv b))) s

/-- VMAX2 (R185). -/
def execVmax2 (h : Head) (ty : Ty) (d : Reg) (a : Reg) (b : Reg) (s : State) : Host.Outcome State Fault Refusal :=
  issue (.vmax2 h ty d a b) (onThread fun _ _ th => th.wv d (aluVmax2 ty (th.rv a) (th.rv b))) s

/-- VACSEL (R186). -/
def execVacsel (h : Head) (sat : Bool) (d : Reg) (a : Reg) (b : Reg) (c : Reg) (sv : Reg) (s : State) : Host.Outcome
    State Fault Refusal :=
  issue (.vacsel h sat d a b c sv) (onThread fun _ _ th => th.vacselInto sat d sv (th.rv a) (th.rv b) (th.rv c)) s

end Sys2Proof.Machine
end

