-- ==== Sys2Proof/Machine/CrossLane.lean ====
section
/-!
DEFINITION. Cross-lane instructions (R187 to R191): opcodes 0x90 to 0x94. They read the other lanes as they stand before the instruction.
-/
namespace Sys2Proof.Machine

/-- The threads an instruction of thread k takes part with: the present threads, or a helper alone (R187, R191). -/
def Env.peers (env : Env) (k : Nat) : List Nat := if (env.before.thread k).hidx ≠ 0 then [k] else env.present
/-- Cross-lane width: 32, or 16 in a protected launch (R187). -/
def Env.width (env : Env) (k : Nat) : Nat := if env.before.prot (env.before.thread k) then 16 else 32
/-- Levels of the tree: 5, or 4 in a protected launch (R112). -/
def Env.levels (env : Env) (k : Nat) : Nat := if env.before.prot (env.before.thread k) then 4 else 5
/-- The present thread at lane i (R187). -/
def Env.atLane (env : Env) (k i : Nat) : Option Nat := (env.peers k).find? fun j => (env.before.thread j).lane == i
/-- vA of every lane, absent lanes absent, with no flags yet (R189). -/
def Env.slots (env : Env) (k : Nat) (a : Reg) : List (Option (Word × Flags)) :=
  (List.range (env.width k)).map fun i => (env.atLane k i).map fun j => ((env.before.thread j).rv a, 0)
/-- pA of every lane, absent lanes absent (R190). -/
def Env.votes (env : Env) (k : Nat) (a : Reg) : List (Option Bool) :=
  (List.range (env.width k)).map fun i => (env.atLane k i).map fun j => (env.before.thread j).rp a

/-- The lane VSHF names; none where the exact difference is negative (R188). -/
def shfLane (op : ShfOp) (i b : Nat) : Option Nat :=
  match op with
  | .idx => some b
  | .up => if b ≤ i then some (i - b) else none
  | .dn => some (i + b)
/-- VSHF and VBFLY: the register of the named lane, or the thread's own with the predicate false (R188). -/
def shuffle (lane : Env → Nat → Nat → Option Nat) (d c a : Reg) : Body := fun env k s =>
  let own := env.before.thread k
  match (lane env k own.lane).bind fun j => if j < env.width k then env.atLane k j else none with
  | some j => .done (s.modThread k fun th => (th.wv d ((env.before.thread j).rv a)).wp c true)
  | none => .done (s.modThread k fun th => (th.wv d (own.rv a)).wp c false)

/-- A slot's value and flags written to a present thread (R189). -/
def Thread.takeSlot (th : Thread) (d : Reg) (x : Option (Word × Flags)) : Thread :=
  match x with
  | some r => (th.wv d r.1).raise r.2
  | none => th
/-- The word with bit i set where lane i satisfies a test (R190). -/
def ballot (f : Option Bool → Bool) (l : List (Option Bool)) : Nat :=
  l.foldr (fun x n => 2 * n + (f x).toNat) 0
/-- The result of VOTE (R190). -/
def Thread.voteInto (th : Thread) (op : VoteOp) (d : Reg) (l : List (Option Bool)) : Thread :=
  match op with
  | .any => th.wp d (l.any (· == some true))
  | .all => th.wp d (l.all (· != some false))
  | .uni => th.wp d (!(l.any (· == some true) && l.any (· == some false)))
  | .bal => th.wv d (BitVec.ofNat 32 (ballot (· == some true) l))
  | .act => th.wv d (BitVec.ofNat 32 (ballot Option.isSome l))

/-- VSHF (R187, R188). -/
def execVshf (h : Head) (op : ShfOp) (d : Reg) (c : Reg) (a : Reg) (b : Reg) (s : State) : Host.Outcome State Fault
    Refusal :=
  issue (.vshf h op d c a b) (shuffle (fun env k i => shfLane op i ((env.before.thread k).rv b).toNat) d c a) s

/-- VBFLY (R187, R188). -/
def execVbfly (h : Head) (d : Reg) (c : Reg) (a : Reg) (mask : BitVec 5) (s : State) : Host.Outcome State Fault
    Refusal :=
  issue (.vbfly h d c a mask) (shuffle (fun _ _ i => some (i ^^^ mask.toNat)) d c a) s

/-- VRED (R189). -/
def execVred (h : Head) (op : RedOp) (ty : Ty) (sat : Bool) (rnd : Rm) (d : Reg) (a : Reg) (s : State) :
    Host.Outcome State Fault Refusal :=
  issue (.vred h op ty sat rnd d a) (fun env k s => .done (s.modThread k fun th => th.takeSlot d (treeRoot (reduceWord op ty sat rnd) (env.levels k) (env.slots k a)))) s

/-- VSCAN (R189). -/
def execVscan (h : Head) (op : RedOp) (ty : Ty) (sat : Bool) (rnd : Rm) (d : Reg) (a : Reg) (s : State) :
    Host.Outcome State Fault Refusal :=
  issue (.vscan h op ty sat rnd d a) (fun env k s => .done (s.modThread k fun th => th.takeSlot d ((scanLevels (reduceWord op ty sat rnd) (env.levels k) 0 (env.slots k a)).getD th.lane none))) s

/-- VOTE (R190). -/
def execVote (h : Head) (op : VoteOp) (d : Reg) (a : Reg) (s : State) : Host.Outcome State Fault Refusal :=
  issue (.vote h op d a) (fun env k s => .done (s.modThread k fun th => th.voteInto op d (env.votes k a))) s

end Sys2Proof.Machine
end

