-- ==== Sys2Proof/Machine/Sched.lean ====
section
/-!
DEFINITION. Readiness of threads and waves (R22, R30, R32), exchange of waves (R32), barriers (R204 to R206, R79),
hampers (R25 to R28), the end of threads and helpers (R170, R248).
-/
namespace Sys2Proof.Machine
namespace State

/-- A wave is ready when one of its fragments is (R32). -/
def waveReady (s : State) (core slot : Nat) : Bool := !(s.readyTags core slot).isEmpty
/-- A thread is held by a long-latency event: an L1 miss, a timeline wait, a barrier wait, a full copy queue, a CPK, a subscription
flush, or parking (R32, R240). -/
def heldLong (s : State) (k : Nat) : Bool :=
  match (s.thread k).wait with
  | .timeline _ _ | .counter | .bar _ _ | .barw _ _ | .rearm _ _ | .hood _ | .retry | .drain _ _ _ | .subon | .fault _ | .stop _ _ => true
  | _ => s.reqs.any fun r => r.2.th == k
/-- Every fragment of a wave is held by a long-latency event (R32). -/
def waveHeld (s : State) (core slot : Nat) : Bool :=
  (s.waveTags core slot).all fun t => !s.fragmentReady core slot t && (s.fragment core slot t).any s.heldLong

/-- Slots of an issue group, with their waves (R31). -/
def igWaves (s : State) (core ig : Nat) : List (Nat × Wave) :=
  (List.range 16).filterMap fun i => (lookup s.waves (waveKey core (16 * ig + i))).map fun w => (16 * ig + i, w)
/-- The oldest of some waves, the lower slot on a tie (R31). -/
def oldest : List (Nat × Wave) → Option (Nat × Wave)
  | [] => none
  | x :: l => match oldest l with
    | none => some x
    | some y => if y.2.age < x.2.age then some y else some x
/-- The oldest ready pending wave of an issue group (R32). -/
def nextPending (s : State) (core ig : Nat) : Option (Nat × Wave) :=
  oldest ((s.igWaves core ig).filter fun w => !w.2.active && s.waveReady core w.1)
/-- A wave's set changed; in the active set it may issue from core cycle `since` on (R32). -/
def setActive (s : State) (core slot : Nat) (b : Bool) (since : Nat) : State :=
  { s with waves := adjust s.waves (waveKey core slot) fun w => { w with active := b, since := since } }
/-- An active wave and a pending one change sets: the pending wave is eligible in the next core cycle (R32). -/
def swapWaves (s : State) (core out in_ : Nat) : State :=
  (s.setActive core out false s.clk).setActive core in_ true (s.clk + 1)
/-- An active wave is exchanged with the oldest ready pending wave, if there is one (R32). -/
def exchange (s : State) (core slot : Nat) : State :=
  match s.nextPending core (igOf slot) with
  | none => s
  | some p => s.swapWaves core slot p.1
/-- Active waves of an issue group; a slot whose threads have all been filed or have exited holds no wave (R31, R32). -/
def activeWaves (s : State) (core ig : Nat) : List (Nat × Wave) :=
  (s.igWaves core ig).filter fun w => w.2.active && !(s.waveThreads core w.1).isEmpty
/-- A slot without threads gets some again: its wave enters an active set of fewer than 8 at once (R32). -/
def refillSlot (s : State) (core slot : Nat) : State :=
  if (s.waveThreads core slot).isEmpty then s.setActive core slot (decide ((s.activeWaves core (igOf slot)).length < 8)) s.clk else s
/-- Whether a context's threads issue: it is RUNNING or DRAINING (R334, R335). -/
def ctxIssues (s : State) (c : Nat) : Bool := s.ctxState c == 2 || s.ctxState c == 3
/-- The core cycles after which a ready pending wave no longer waits for an active one to be held (log 60). -/
def pendingLimit : Nat := 4096
/-- Of some waves the one that has not issued for longest, the first on a tie. -/
def longest : List (Nat × Wave) → Option (Nat × Wave)
  | [] => none
  | x :: l => match longest l with
    | none => some x
    | some y => if y.2.last < x.2.last then some y else some x
/-- R30 gives every ready wave its turn: of the ready pending waves that have not issued for 4,096 core cycles the one that has waited
longest, and the active wave it takes the place of, the one longest in the active set of those that have issued in it or have been in it
as long. When this happens and which wave leaves are the model's choice (log 60). -/
def overdue (s : State) (core ig : Nat) : Option (Nat × Nat) :=
  let late := (s.igWaves core ig).filter fun w =>
    !w.2.active && s.waveReady core w.1 && decide (w.2.last + pendingLimit ≤ s.clk) && s.ctxIssues (s.group w.2.gid).ctx
  let act := (s.activeWaves core ig).filter fun w =>
    decide (w.2.since ≤ s.clk) && (decide (w.2.since ≤ w.2.last) || decide (w.2.since + pendingLimit ≤ s.clk))
  (longest late).bind fun p =>
    (act.find? fun w => act.all fun v => decide (w.2.since ≤ v.2.since)).map fun w => (w.1, p.1)
/-- The exchange of an issue group: a wave moves into an active set of fewer than 8, or takes the place of an active
wave all of whose fragments are held by long-latency events, the lowest slot first (R32; log 60), or of one that has had its turn
(R30). -/
def exchangeIg (s : State) (core ig : Nat) : State :=
  match s.nextPending core ig with
  | none => s
  | some p =>
    if (s.activeWaves core ig).length < 8 then s.setActive core p.1 true s.clk
    else match (s.activeWaves core ig).find? fun w => s.waveHeld core w.1 with
      | some w => s.swapWaves core w.1 p.1
      | none => match s.overdue core ig with
        | some (out, in_) => s.swapWaves core out in_
        | none => s

/-! ### Barriers -/

/-- Keys of the threads of a group that have not exited; helpers are not among them (R204). -/
def participants (s : State) (gid : Nat) : List Nat :=
  (s.threads.filter fun e => e.2.gid == gid && e.2.hidx == 0 && e.2.status != .exited).map Prod.fst
/-- Whether phase v has released when the barrier is in phase p (R205). -/
def phasePast (p v : Nat) : Bool :=
  let d := (p + (4294967296 - v % 4294967296)) % 4294967296
  decide (d ≠ 0) && decide (d < 2147483648)
/-- Threads that leave a barrier together: those of one wave at one pc form one fragment (R23, R206). -/
def joinReleased (s : State) : List Nat → List (Nat × Nat × DWord × Nat) → State
  | [], _ => s
  | k :: ks, seen =>
    let th := s.thread k
    match seen.find? fun e => e.1 == th.core && e.2.1 == th.slot && e.2.2.1 == th.pc with
    | some e => joinReleased (s.modThread k fun th => { th with wait := .none, tag := e.2.2.2 }) ks seen
    | none =>
      joinReleased (s.modThread k fun th => { th with wait := .none, tag := s.fresh }).bump ks
        ((th.core, th.slot, th.pc, s.fresh) :: seen)
/-- Barrier k of a group (R204). -/
def barrier (s : State) (gid k : Nat) : Barrier := lookupD ⟨0, []⟩ (s.group gid).bars k
/-- A barrier set. -/
def setBarrier (s : State) (gid k : Nat) (b : Barrier) : State :=
  s.modGroup gid fun g => { g with bars := putD ⟨0, []⟩ g.bars k b }
/-- A wait at barrier k that a new phase ends (R205). -/
def barDone (k phase : Nat) : Wait → Bool
  | .bar j t => j == k && phasePast phase t
  | .barw j t => j == k && phasePast phase t
  | .rearm j t => j == k && phasePast phase t
  | _ => false
/-- A phase of a group barrier releases when every participant has arrived (R204). -/
def releaseBar (s : State) (gid k : Nat) : State :=
  let b := s.barrier gid k
  let ps := s.participants gid
  if ps.isEmpty || !ps.all b.arrived.contains then s
  else
    let phase := (b.phase + 1) % 4294967296
    let s1 := s.setBarrier gid k ⟨phase, []⟩
    s1.joinReleased (ps.filter fun j => barDone k phase (s1.thread j).wait) []

/-- Updates of a hood still on their way (R79). -/
def hoodUpdates (s : State) (hood : Nat) : Bool :=
  s.streams.any fun e => (e.2.basket ++ e.2.sent.flatten).any fun u => u.hood == hood
/-- The hood barrier releases when every thread of the hood has arrived and every update of the hood has been applied
(R79, R204). -/
def releaseHood (s : State) (hood : Nat) : State :=
  let h := s.hood hood
  let ps := h.groups.flatMap s.participants
  if ps.isEmpty || !ps.all h.bar.arrived.contains || s.hoodUpdates hood then s
  else
    let s1 := s.modHood hood fun h => { h with bar := ⟨(h.bar.phase + 1) % 4294967296, []⟩ }
    s1.joinReleased (ps.filter fun j => match (s1.thread j).wait with
      | .hood _ => true
      | _ => false) []
/-- The barriers of a group and its hood after a participant has left (R170). -/
def releaseAll (s : State) (gid : Nat) : State :=
  let s1 := (List.range 4).foldl (fun s k => s.releaseBar gid k) s
  s1.releaseHood (s1.group gid).hood

/-! ### Ends of threads and helpers -/

/-- A helper ends of itself, by HRET with a contribution or by HREL with none: its done bit is set (R248). -/
def finishHelper (s : State) (k : Nat) (contrib : Option Word) : State :=
  let th := s.thread k
  let rk := k - th.hidx
  let s1 := s.modThread rk fun r => { r with hire := r.hire.map fun h =>
    { h with
      done := h.done ++ [th.hidx]
      contrib := match contrib with
        | some x => put h.contrib th.hidx x
        | none => h.contrib
      flags := if contrib.isSome then h.flags ||| th.fp else h.flags } }
  s1.endHelper rk th.hidx
/-- A helper is forcibly released: its done bit stays clear and it contributes nothing (R102, R253). -/
def forceRelease (s : State) (k : Nat) : State := s.stopHelper (k - (s.thread k).hidx) (s.thread k).hidx

/-- EXIT of a thread that is no helper (R170). -/
def exitThread (s : State) (k : Nat) : State :=
  let s1 := (s.endHelpers k).modThread k fun th =>
    { th with status := .exited, las := [], hire := none, wait := .none }
  s1.releaseAll (s1.thread k).gid

/-! ### Hampers -/

/-- Home lane of a thread (R18, R34). -/
def homeLane (s : State) (th : Thread) : Nat := if s.prot th then th.tid % 16 else th.tid % 32
/-- The least filing time in a hamper. -/
def hamperOldest (h : Hamper) : Int := (h.ths.map Prod.snd).min?.getD 0
/-- A hamper holds a thread for every home lane (R27, R34). -/
def hamperFull (s : State) (h : Hamper) : Bool :=
  let n := if (s.groupPkt h.gid).prot then 16 else 32
  (List.range n).all fun l => h.ths.any fun t => s.homeLane (s.thread t.1) == l
/-- A hamper may be drawn in this cycle: it became full, aged or forced in an earlier one (R27). -/
def drawable (s : State) (h : Hamper) : Bool := (s.hamperFull h || h.aged || h.forced) && decide (h.madeAt < s.clk)
/-- The order of draws (R27). -/
def drawBefore (a b : Nat × Hamper) : Bool :=
  let x := a.2
  let y := b.2
  if x.forced != y.forced then x.forced
  else if hamperOldest x ≠ hamperOldest y then decide (hamperOldest x < hamperOldest y)
  else if x.target ≠ y.target then decide (x.target.toNat < y.target.toNat)
  else if x.key ≠ y.key then decide (x.key.toNat < y.key.toNat)
  else decide (a.1 < b.1)
/-- The first of some hampers in the order of draws. -/
def firstDraw : List (Nat × Hamper) → Option (Nat × Hamper)
  | [] => none
  | x :: l => match firstDraw l with
    | none => some x
    | some y => if drawBefore y x then some y else some x

/-- The hamper of a key in a core's store (R25). -/
def findHamper (c : CoreState) (gid : Nat) (target : DWord) (key : Word) : Option Nat :=
  (c.hampers.find? fun e => e.2.gid == gid && e.2.target == target && e.2.key == key).map Prod.fst
/-- A thread leaves its wave and is filed in a hamper's entry at a time (R25). -/
def fileInto (s : State) (core entry k t : Nat) : State :=
  (s.modCore core fun c => { c with hampers := adjust c.hampers entry fun h =>
    { h with ths := h.ths ++ [(k, (t : Int))], madeAt := if h.forced || h.aged || s.hamperFull h then h.madeAt else t } }).modThread k fun th =>
      { th with status := .filed, wait := .none, las := [] }
/-- A new hamper in an entry, with its first thread (R26). -/
def newHamper (s : State) (core entry k t : Nat) (target : DWord) (key : Word) : State :=
  let h : Hamper := ⟨(s.thread k).gid, target, key, [], false, false, t⟩
  (s.modCore core fun c => { c with hampers := put c.hampers entry h }).fileInto core entry k t
/-- The group's hamper with the oldest thread becomes forced (R26). -/
def forceOldest (s : State) (core gid : Nat) : State :=
  let own := (s.core core).hampers.filter fun e => e.2.gid == gid
  match own.find? fun e => own.all fun f => decide (hamperOldest e.2 ≤ hamperOldest f.2) with
  | none => s
  | some e => s.modCore core fun c => { c with hampers := adjust c.hampers e.1 fun h =>
      { h with forced := true, madeAt := s.clk } }
/-- The lowest entry that holds no hamper and is not kept for a waiting thread (R26). -/
def spareEntry (c : CoreState) : Option Nat :=
  (List.range 128).find? fun e => (lookup c.hampers e).isNone && !c.kept.contains e
/-- REFORM of one thread; none when it waits for an entry, as it does behind a thread that waits for the same hamper (R26). -/
def reformThread (s : State) (k : Nat) (target : DWord) (key : Word) : Option State :=
  let th := s.thread k
  let c := s.core th.core
  match findHamper c th.gid target key with
  | some e => some (s.fileInto th.core e k s.clk)
  | none =>
    if c.reformQ.any fun w => w.th / 32768 == th.gid && w.target == target && w.key == key then none
    else (spareEntry c).map fun e => s.newHamper th.core e k s.clk target key
/-- The thread that has waited longest for an entry takes a kept one in the cycle after its freeing, which is its filing time
(R26); those of the same hamper are filed with it. -/
def takeFreed (s : State) (core entry : Nat) : State :=
  match (s.core core).reformQ with
  | [] => s
  | w :: _ =>
    let same (x : ReformWait) : Bool := x.th / 32768 == w.th / 32768 && x.target == w.target && x.key == w.key
    let mine := (s.core core).reformQ.filter same
    let h : Hamper := ⟨w.th / 32768, w.target, w.key, [], false, false, s.clk⟩
    let s1 := s.modCore core fun c =>
      { c with reformQ := c.reformQ.filter (fun x => !same x), hampers := put c.hampers entry h }
    mine.foldl (fun s x => s.fileInto core entry x.th s.clk) s1
/-- Every kept entry of a core is taken (R26). -/
def takeKept (s : State) (core : Nat) : State :=
  (s.core core).kept.foldl (fun t e => t.takeFreed core e) (s.modCore core fun c => { c with kept := [] })

/-- The thread a draw takes for a home lane: the oldest, the lower tid on a tie (R28). -/
def drawLane (s : State) (h : Hamper) (lane : Nat) : Option (Nat × Int) :=
  let mine := h.ths.filter fun t => s.homeLane (s.thread t.1) == lane
  mine.find? fun t => mine.all fun u => decide (t.2 < u.2) || (t.2 == u.2 && decide (t.1 ≤ u.1))
/-- A lane of a slot holds no thread (R28). -/
def laneVacant (s : State) (core slot lane : Nat) : Bool :=
  !s.threads.any fun e => e.2.core == core && e.2.slot == slot && e.2.lane == lane && e.2.status == .live && e.2.hidx == 0
/-- A slot holds no thread (R28). -/
def slotVacant (s : State) (core slot : Nat) : Bool :=
  !s.threads.any fun e => e.2.core == core && e.2.slot == slot && e.2.status == .live && e.2.hidx == 0
/-- A helper at a lane is forcibly released for a thread (R253). -/
def clearLane (s : State) (core slot lane : Nat) : State :=
  match s.threads.find? fun e => e.2.core == core && e.2.slot == slot && e.2.lane == lane && e.2.status == .live && e.2.hidx != 0 with
  | some e => s.forceRelease e.1
  | none => s
/-- A drawn thread takes its lane in a slot, at the hamper's target (R28). -/
def placeDrawn (s : State) (core slot lane k tag : Nat) (target : DWord) : State :=
  (s.clearLane core slot lane).modThread k fun th =>
    { th with status := .live, slot := slot, lane := lane, tag := tag, pc := target }
/-- Drawn threads go to the lowest-numbered slot of the group where their lane is vacant (R28). -/
def placeEach (s : State) (core : Nat) (slots : List Nat) (target : DWord) : List (Nat × Nat) → State
  | [] => s
  | (lane, k) :: l =>
    let s' := match slots.find? fun sl => s.laneVacant core sl lane with
      | some sl => s.placeDrawn core sl lane k (s.fresh + sl) target
      | none => s
    placeEach s' core slots target l
/-- A draw of one hamper: at most one thread of each home lane is taken and placed; an empty hamper is freed (R28). -/
def drawHamper (s : State) (core entry : Nat) (h : Hamper) : State :=
  let took : List (Nat × Nat) := (List.range 32).filterMap fun l => (s.drawLane h l).map fun t => (l, t.1)
  let left := h.ths.filter fun t => !took.any fun x => x.2 == t.1
  let slots := sortNat (s.group h.gid).slots
  let s1 : State := s.modCore core fun c => keepFreed { c with
    lastDraw := some s.clk
    hampers := (if left.isEmpty then del c.hampers entry
      else put c.hampers entry { h with ths := left, aged := false }) } (if left.isEmpty then [entry] else [])
  let s2 : State := match slots.find? fun sl => s.slotVacant core sl with
    | some sl =>
      let act : List (Nat × Wave) := (s1.activeWaves core (igOf sl)).filter fun w => w.1 != sl
      let w : Wave := ⟨h.gid, s.clk, decide (act.length < 8), s.clk, s.clk, []⟩
      let s2 : State := { s1 with waves := put s1.waves (waveKey core sl) w }
      took.foldl (fun s x => s.placeDrawn core sl x.1 x.2 s1.fresh h.target) s2
    | none => s1.placeEach core slots h.target took
  { s2 with fresh := s2.fresh + 64 }

end State
end Sys2Proof.Machine
end

