-- ==== Sys2Proof/Machine/Control.lean ====
section
/-!
DEFINITION. Branches, calls, REFORM, EXIT and the issue hints (R166 to R171): opcodes 0x40 to 0x4A.
-/
namespace Sys2Proof.Machine

/-- The instruction's own address in thread k. -/
def Env.pc (env : Env) (k : Nat) : DWord := (env.before.thread k).pc
/-- Target of an immediate distance (R147, R166). -/
def Env.target (env : Env) (k : Nat) (imm : BitVec 32) : DWord := env.pc k + imm.signExtend 64
/-- The address n bytes behind the instruction (R166). -/
def Env.after (env : Env) (k n : Nat) : DWord := env.pc k + BitVec.ofNat 64 n
/-- A per-thread branch: the thread takes the target, or goes on at the next instruction (R167). -/
def State.jumpIf (s : State) (target : DWord) (taken : Bool) (k : Nat) : State :=
  if taken then s.modThread k fun th => { th with pc := target } else s
/-- Threads of the fragment that go on in it: those that execute and those that are not active (R33, R168). -/
def Env.staying (env : Env) (h : Head) : List Nat :=
  env.before.cur.filter fun k => env.present.contains k || !(env.before.thread k).active h

/-- Target of BRU in a thread (R166). -/
def Env.bruTarget (env : Env) (k : Nat) : BruTarget → DWord
  | .imm d => env.target k d
  | .reg b => (env.before.thread k).rw b
/-- BRU: all threads of the fragment go on together, or every active thread takes UNIF_VIOL (R29, R168). Whether a thread that takes
LA_VIOL at the BRU counts towards the agreement is open: the model leaves it out (log 69). -/
def branchUniform (h : Head) (cn : Bool) (a : Reg) (tgt : BruTarget) : Body := fun env k s =>
  let cond (j : Nat) : Bool := (env.before.thread j).rp a != cn
  let agree := env.present.all fun j => cond j == cond k && env.bruTarget j tgt == env.bruTarget k tgt
  if !agree then .trap causeUnifViol (env.bruTarget k tgt) ((b1 (cond k)).zeroExtend 32)
  else if cond k then .done ((env.staying h).foldl (fun s j => s.jumpIf (env.bruTarget k tgt) true j) s)
  else .done s

/-- REFORM files the thread, or makes it wait for an entry of the hamper store (R25, R26). -/
def reformBody (a : Reg) (imm : BitVec 32) : Body := fun env k s =>
  let th := env.before.thread k
  match s.reformThread k (env.target k imm) (th.rv a) with
  | some s' => .done s'
  | none => .hold ((if (State.spareEntry (s.core th.core)).isNone then s.forceOldest th.core th.gid else s).modCore th.core fun c =>
      { c with reformQ := c.reformQ ++ [⟨k, env.target k imm, th.rv a⟩] }) .reform
/-- EXIT ends the thread; in a helper it acts as HREL (R170). -/
def exitBody : Body := fun env k s =>
  if (env.before.thread k).hidx ≠ 0 then .done (s.finishHelper k none) else .done (s.exitThread k)

/-- The wave is offered for exchange, once for the fragment (R171). -/
def State.offerOnce (s : State) (env : Env) (k : Nat) : State :=
  let th := env.before.thread k
  if env.present.head? = some k then s.exchange th.core th.slot else s
/-- Core cycles of a NAP: the largest of min(vA, 1,048,576) over the active threads (R171). -/
def Env.napCycles (env : Env) (a : Reg) : Nat :=
  env.present.foldl (fun n j => max n (min ((env.before.thread j).rv a).toNat 1048576)) 0
/-- NAP offers the wave and keeps the fragment from being ready (R171). -/
def napBody (h : Head) (a : Reg) : Body := fun env k s =>
  let s1 := s.offerOnce env k
  if env.napCycles a = 0 then .done s1
  else .done ((env.staying h).foldl (fun s j => s.modThread j fun th =>
    { th with wait := .nap (env.before.clk + env.napCycles a) }) s1)

/-- BR (R147, R167). -/
def execBr (h : Head) (cn : Bool) (a : Reg) (imm : BitVec 32) (s : State) : Host.Outcome State Fault Refusal :=
  issue (.br h cn a imm) (fun env k s => .done (s.jumpIf (env.target k imm) ((env.before.thread k).rp a != cn) k)) s

/-- BRU (R29, R168). -/
def execBru (h : Head) (cn : Bool) (a : Reg) (tgt : BruTarget) (s : State) : Host.Outcome State Fault Refusal :=
  issue (.bru h cn a tgt) (branchUniform h cn a tgt) s

/-- JMP (R147, R167). -/
def execJmp (h : Head) (imm : BitVec 32) (s : State) : Host.Outcome State Fault Refusal :=
  issue (.jmp h imm) (fun env k s => .done (s.jumpIf (env.target k imm) true k)) s

/-- CALL (R166, R167). -/
def execCall (h : Head) (d : Reg) (imm : BitVec 32) (s : State) : Host.Outcome State Fault Refusal :=
  issue (.call h d imm) (fun env k s => .done ((s.jumpIf (env.target k imm) true k).modThread k fun th => th.ww d (env.after k 12))) s

/-- CALLR (R166, R167). -/
def execCallr (h : Head) (d : Reg) (a : Reg) (s : State) : Host.Outcome State Fault Refusal :=
  issue (.callr h d a) (fun env k s => .done ((s.jumpIf ((env.before.thread k).rw a) true k).modThread k fun th => th.ww d (env.after k 8))) s

/-- RET (R167). -/
def execRet (h : Head) (a : Reg) (s : State) : Host.Outcome State Fault Refusal :=
  issue (.ret h a) (fun env k s => .done (s.jumpIf ((env.before.thread k).rw a) true k)) s

/-- REFORM (R25, R26, R169). -/
def execReform (h : Head) (a : Reg) (imm : BitVec 32) (s : State) : Host.Outcome State Fault Refusal :=
  issue (.reform h a imm) (reformBody a imm) s

/-- EXIT (R170). -/
def execExit (h : Head) (s : State) : Host.Outcome State Fault Refusal :=
  issue (.exit h) (exitBody) s

/-- NOP_S (R171). -/
def execNopS (h : Head) (s : State) : Host.Outcome State Fault Refusal :=
  issue (.nopS h) (fun _ _ s => .done s) s

/-- NOP_W (R171). -/
def execNopW (h : Head) (s : State) : Host.Outcome State Fault Refusal :=
  issue (.nopW h) (fun _ _ s => .done s) s

/-- NOP_X (R171). -/
def execNopX (h : Head) (s : State) : Host.Outcome State Fault Refusal :=
  issue (.nopX h) (fun _ _ s => .done s) s

/-- YIELD (R171). -/
def execYield (h : Head) (s : State) : Host.Outcome State Fault Refusal :=
  issue (.yield h) (fun env k s => .done (s.offerOnce env k)) s

/-- NAP (R171). -/
def execNap (h : Head) (a : Reg) (s : State) : Host.Outcome State Fault Refusal :=
  issue (.nap h a) (napBody h a) s

end Sys2Proof.Machine
end

