-- ==== Sys2Proof/Machine/MatrixAlu.lean ====
section
/-!
DEFINITION. Exact arithmetic of matrix work and of copies that convert: residue passes (R122 to R124), accumulation (R125,
R126), firing (R120, R121), glazing and narrowing (R127, R128).
-/
namespace Sys2Proof.Machine

/-- Modulus of a plane (R117). -/
def modulus : Nat → Nat
  | 0 => 128
  | 1 => 127
  | 2 => 125
  | _ => 121
/-- Byte i of a run, zero beyond its end. -/
def byteAt (b : Bytes) (i : Nat) : Nat := (b.getD i 0).toNat
/-- The sum of plane i of a residue pass, modulo its modulus (R122). -/
def planeSum (ra rb : Bytes) (i : Nat) : Nat :=
  let m := modulus i
  ((List.range 32).map fun j => (byteAt ra (32 * i + j) % m) * (byteAt rb (32 * i + j) % m)).sum % m
/-- The signed sum three planes stand for (R123). -/
def crt3 (z0 z1 z2 : Nat) : Int :=
  let x := (z0 * 682625 + z1 * 1008000 + z2 * 341376) % 2032000
  if 1016000 ≤ x then (x : Int) - 2032000 else x
/-- P(a, b) of R124: one residue pass. -/
def passOf (ra rb : Bytes) : Int := crt3 (planeSum ra rb 0) (planeSum ra rb 1) (planeSum ra rb 2)
/-- The check channel agrees in a pass (R126). -/
def passAgrees (ra rb : Bytes) : Bool := (planeSum ra rb 3 : Int) == passOf ra rb % 121

/-- Bytes of one block's records in a row (R118, R119). -/
def MxFmt.block (f : MxFmt) : Nat :=
  match f with
  | .bq => 128
  | .bx => 256
/-- Record of a block: the high one, or the low one of BX16 (R118, R119). -/
def recordAt (f : MxFmt) (row : Bytes) (k : Nat) (low : Bool) : Bytes :=
  (row.drop (MxFmt.block f * k + if low then 128 else 0)).take 128
/-- Scale code of a block (R115, R118, R119). -/
def scaleAt (f : MxFmt) (kb : Nat) (row : Bytes) (k : Nat) : Nat :=
  let o := MxFmt.block f * kb + 2 * k
  (byteAt row o + 256 * byteAt row (o + 1)) % 512
/-- The passes of a block with their weights (R124). -/
def blockPasses (fa fb : MxFmt) (a b : Bytes) (k : Nat) : List (Int × Bytes × Bytes) :=
  let ra := recordAt fa a k
  let rb := recordAt fb b k
  match fa, fb with
  | .bq, .bq => [(1, ra false, rb false)]
  | .bx, .bx => [(16384, ra false, rb false), (128, ra false, rb true), (128, ra true, rb false)]
  | .bx, .bq => [(128, ra false, rb false), (1, ra true, rb false)]
  | .bq, .bx => [(128, ra false, rb false), (1, ra false, rb true)]
/-- Number of passes P of the formats (R124, R222). -/
def passCount (fa fb : MxFmt) : Nat :=
  match fa, fb with
  | .bq, .bq => 1
  | .bx, .bx => 3
  | _, _ => 2
/-- The exact integer T of a block (R124). -/
def blockT (fa fb : MxFmt) (a b : Bytes) (k : Nat) : Int :=
  ((blockPasses fa fb a b k).map fun p => p.1 * passOf p.2.1 p.2.2).sum
/-- The check channel agrees in every pass of every block (R126). -/
def rowsAgree (fa fb : MxFmt) (kb : Nat) (a b : Bytes) : Bool :=
  (List.range kb).all fun k => (blockPasses fa fb a b k).all fun p => passAgrees p.2.1 p.2.2

/-- One block of R125. -/
def accStep (acc : Nat) (sa sb : Nat) (t : Int) : Nat :=
  if sa = 511 || sb = 511 || (fval .f32 acc).isNaN then 0x7FC00000
  else if t = 0 then acc
  else match fval .f32 acc with
    | .inf _ => acc
    | x => (addVal .f32 .rn x (.fin (decide (t < 0)) t.natAbs ((sa + sb : Nat) - 512 : Int))).1
/-- accumulate of R220: one accumulator element over kb blocks (R125). -/
def accumulate (acc : Nat) (fa fb : MxFmt) (kb : Nat) (a b : Bytes) : Nat :=
  (List.range kb).foldl (fun e k => accStep e (scaleAt fa kb a k) (scaleAt fb kb b k) (blockT fa fb a b k)) acc

/-! ### Firing -/

/-- The record of 32 integers (R117, R120). -/
def fireRecord (xs : List Int) : Bytes :=
  (List.range 128).map fun i => BitVec.ofNat 8 ((xs.getD (i % 32) 0) % (modulus (i / 32) : Int)).toNat
/-- Elements of a BQ8 block (R114). -/
def bq8Elems (b : Bytes) : List Int := b.map BitVec.toInt
/-- Elements of a BQ4 block: two of each byte, the lower-numbered in bits [3:0] (R116). -/
def bq4Elems (b : Bytes) : List Int := b.flatMap fun x => [(x.extractLsb' 0 4).toInt, (x.extractLsb' 4 4).toInt]
/-- 16-bit values of a run of bytes. -/
def halfWords (b : Bytes) : List Nat := (List.range (b.length / 2)).map fun i => byteAt b (2 * i) + 256 * byteAt b (2 * i + 1)
/-- 32-bit values of a run of bytes. -/
def wordsOf (b : Bytes) : List Nat := (List.range (b.length / 4)).map fun i => ofBytes ((b.drop (4 * i)).take 4)
/-- A value rounded to the nearest integer, ties to even, after scaling by 2^q. -/
def rneScaled (x : FVal) (q : Int) : Int :=
  match x with
  | .fin s m e => let n := (cutTo .rn s m (e + q) 0).1; if s then -(n : Int) else n
  | _ => 0
/-- BX16 firing of 32 bfloat16 values: scale code, high and low elements (R121). -/
def fireBx (v : List Nat) : Nat × List Int × List Int :=
  let zeros := v.map fun _ => (0 : Int)
  if v.any fun x => expField .bf16 x == expMax .bf16 then (511, zeros, zeros)
  else if v.all fun x => x % 32768 == 0 then (0, zeros, zeros)
  else
    let emax := (v.map fun x => max 1 (expField .bf16 x)).foldl max 1
    let s := emax + 117
    let ns := v.map fun x => rneScaled (fval .bf16 x) (256 - (s : Int))
    (s, ns.map fun n => (n + 64) / 128, ns.map fun n => n - 128 * ((n + 64) / 128))

/-! ### Glazing and narrowing -/

/-- Glazing of 32 binary32 values: scale code and elements; c is 6 for BQ8 and 2 for BQ4 (R127). -/
def glaze (c : Nat) (lo hi : Int) (v : List Nat) : Nat × List Int :=
  let zeros := v.map fun _ => (0 : Int)
  if v.any fun x => expField .f32 x == expMax .f32 then (511, zeros)
  else
    let m := (v.map fun x => x % 2147483648).foldl max 0
    if m = 0 then (0, zeros)
    else
      let top : Int := match fval .f32 m with
        | .fin _ k e => e + bitLen k - 1
        | _ => 0
      let s := (max 0 (min 510 (top - c + 256))).toNat
      (s, v.map fun x => max lo (min hi (rneScaled (fval .f32 x) (256 - (s : Int)))))
/-- BQ8 bytes of elements (R114). -/
def bq8Bytes (q : List Int) : Bytes := q.map fun x => BitVec.ofInt 8 x
/-- BQ4 bytes of elements (R116). -/
def bq4Bytes (q : List Int) : Bytes :=
  (List.range (q.length / 2)).map fun i =>
    BitVec.ofNat 8 ((q.getD (2 * i) 0 % 16).toNat + 16 * (q.getD (2 * i + 1) 0 % 16).toNat)
/-- Narrowing of binary32 values to a 16-bit format under .RN (R128). -/
def narrowBytes (f : Fmt) (v : List Nat) : Bytes := v.flatMap fun x => toBytes 2 (fConvert f .f32 .rn x).1

end Sys2Proof.Machine
end

