-- ==== Sys2Proof/Machine/Streams.lean ====
section
/-!
DEFINITION. The range scoreboard (R66 to R69) and subscription streams: forwarding, baskets, application and draining
(R74 to R81, R83).
-/
namespace Sys2Proof.Machine
namespace State

/-! ### Range scoreboard -/

/-- A range rounded to 64 bytes, as the scoreboard keeps it (R66). -/
def scoreRange (lo hi : Nat) : Nat × Nat := (lo / 64 * 64, (hi + 63) / 64 * 64)
/-- Live entries of a core that a range overlaps (R66). -/
def overlapping (s : State) (core : Nat) (place : Place) (lo hi : Nat) : List Score :=
  let r := scoreRange lo hi
  (s.core core).score.filter fun e => e.place == place && decide (e.lo < r.2) && decide (r.1 < e.hi)
/-- Whether an access of a kind waits on the scoreboard (R67): one that reads waits for write entries, one that writes
waits for every entry. -/
def mustWait (s : State) (core : Nat) (place : Place) (lo hi : Nat) (writes : Bool) : Bool :=
  (s.overlapping core place lo hi).any fun e => writes || e.kind == .write
/-- An entry taken on a core (R66). -/
def takeScore (s : State) (core : Nat) (kind : ScoreKind) (place : Place) (lo hi : Nat) (who : Holder) : State :=
  let r := scoreRange lo hi
  s.modCore core fun c => { c with score := c.score ++ [⟨kind, place, r.1, r.2, who⟩] }
/-- Entries of a holder that a test picks are released on every core; accesses that wait are tried again (R68). -/
def releaseScores (s : State) (gone : Score → Bool) : State :=
  { s with cores := mapValues (fun _ (c : CoreState) => { c with score := c.score.filter fun e => !gone e }) s.cores }.wakeRetry

/-! ### Members and streams -/

/-- The group that is member m of a hood (R19). -/
def memberOf (s : State) (hood m : Nat) : Option Nat :=
  (s.groups.find? fun e => e.2.hood == hood && e.2.hpos == m).map Prod.fst
/-- Groups of a hood: ngr (R19). -/
def ngr (s : State) (hood : Nat) : Nat := (s.hood hood).groups.length
/-- Allocation size S of a group (R56). -/
def allocSize (s : State) (gid : Nat) : Nat := (s.groupPkt gid).scratch
/-- Key of the stream from one core to another (R77). -/
def streamKey (pub sub : Nat) : Nat := pub * 1024 + sub
/-- A stream with nothing in it. -/
def noStream : Stream := ⟨[], 0, [], 0⟩
/-- A stream by its cores. -/
def stream (s : State) (pub sub : Nat) : Stream := lookupD noStream s.streams (streamKey pub sub)
/-- A stream set. -/
def setStream (s : State) (pub sub : Nat) (x : Stream) : State :=
  { s with streams := putD noStream s.streams (streamKey pub sub) x }
/-- The open basket of a stream is closed and sent (R76). -/
def flushStream (s : State) (pub sub : Nat) : State :=
  let x := s.stream pub sub
  if x.basket.isEmpty then s else s.setStream pub sub { x with basket := [], sent := x.sent ++ [x.basket] }
/-- Every open basket of a core is flushed (R76). -/
def flushCore (s : State) (pub : Nat) : State :=
  (keysOf s.streams).foldl (fun s k => if k / 1024 = pub then s.flushStream pub (k % 1024) else s) s

/-- Bytes of a basket's packet: a header of 8, and for each update a descriptor of 4 and its data (R83). -/
def packetBytes (b : List Update) : Nat := 8 + (b.map fun u => 4 + u.data.length).sum
/-- Data bytes of a basket. -/
def basketBytes (b : List Update) : Nat := (b.map fun u => u.data.length).sum
/-- An update enters the open basket of its stream, which is flushed before it would pass a limit and when it reaches one
(R76). `alone`: the update travels in a basket of its own (R78). -/
def addUpdate (s : State) (pub sub : Nat) (u : Update) (alone : Bool) : State :=
  let x := s.stream pub sub
  let s1 := if alone || decide (128 < basketBytes x.basket + u.data.length) || decide (32 ≤ x.basket.length) then
      s.flushStream pub sub else s
  let y := s1.stream pub sub
  let s2 := s1.setStream pub sub
    { y with basket := y.basket ++ [u], since := if y.basket.isEmpty then s.clk else y.since }
  if alone || decide (128 ≤ basketBytes (y.basket ++ [u])) || decide (32 ≤ (y.basket ++ [u]).length) then
    s2.flushStream pub sub else s2

/-- One unit written at an offset of a group's allocation is forwarded to one subscriber (R74, R75). -/
def forwardOne (alone : Bool) (pub gid off : Nat) (data : Bytes) (s : State) (e : SubEntry) : State :=
  let lo := max off e.poff
  let hi := min (off + data.length) (e.poff + e.len)
  if !e.closed && e.hood = (s.group gid).hood && e.pmem = (s.group gid).hpos && lo < hi then
    match s.memberOf e.hood e.smem with
    | none => s
    | some g =>
      let u : Update := ⟨e.hood, e.smem, e.soff, lo - e.poff + e.soff, (data.drop (lo - off)).take (hi - lo),
        (s.core pub).produced⟩
      (s.modCore pub fun c => { c with produced := c.produced + 1 }).addUpdate pub (s.group g).core u alone
  else s
/-- A unit written into a group's allocation is forwarded to every subscriber of its region (R74). -/
def forward (s : State) (gid off : Nat) (data : Bytes) (alone : Bool) : State :=
  let pub := (s.group gid).core
  ((s.core pub).subOut.map Prod.snd).foldl (forwardOne alone pub gid off data) s

/-- Bytes written to a group's allocation by a thread, a copy or ACST, and forwarded (R74). -/
def writeAlloc (s : State) (gid off : Nat) (b : Bytes) (alone : Bool) : State :=
  (s.modGroup gid fun g => { g with alloc := g.alloc.put off b }).forward gid off b alone

/-- Updates a core produced below a mark, to one subscriber core or to all, that are not yet applied. -/
def updatesBelow (s : State) (pub : Nat) (sub : Option Nat) (mark : Nat) : Bool :=
  s.streams.any fun e => e.1 / 1024 == pub && (sub.isNone || sub == some (e.1 % 1024)) && (e.2.basket ++ e.2.sent.flatten).any fun u => decide (u.seq < mark)
/-- Threads whose updates have all been applied go on (R78, R79, R81). -/
def wakeDrains (s : State) : State :=
  { s with threads := mapValues (fun _ (th : Thread) => match th.wait with
      | .drain pub sub mark => if s.updatesBelow pub sub mark then th else { th with wait := .drained }
      | _ => th) s.threads }

/-- Bytes of update data charged to the CP server of the publisher's context: one unit for each 128 (R83). -/
def chargeBytes (s : State) (k : SrvKey) (n : Nat) : State :=
  if !s.srvInstalled k then s
  else
    let x := s.srv k
    let b := x.bytes + n
    let s1 := s.setSrv k { x with bytes := b % 128 }
    if b < 128 then s1 else s1.charge k (b / 128)

/-- The oldest basket that waits at its flush point passes it and goes by the network: each of its updates counts 4 + its size (R77,
R83, R321). -/
def payBasket (s : State) (pub sub : Nat) : State :=
  let x := s.stream pub sub
  ((x.sent.getD x.paid []).foldl (fun (t : State) u => t.chargeBytes (t.cpKey (t.hood u.hood).ctx pub) (4 + u.data.length)) s).setStream
    pub sub { x with paid := x.paid + 1 } |>.sendPacket (coreOut sub) vcBulk pub (packetBytes (x.sent.getD x.paid [])) (.basket pub sub)
/-- A basket is held at its flush point while the CP server of its context is hard and exhausted (R83). -/
def payHeld (s : State) (pub : Nat) (x : Stream) : Bool :=
  match x.sent.getD x.paid [] with
  | u :: _ => s.heldNow (s.cpKey (s.hood u.hood).ctx pub)
  | [] => false

/-- One update applied at its subscriber: a write held by every overlapping scoreboard entry (R67, R75). An update carries bytes
and no poison (log 64). -/
def applyUpdate (s : State) (u : Update) : Option State :=
  match s.memberOf u.hood u.smem with
  | none => some s
  | some g =>
    if s.mustWait (s.group g).core (.alloc g) u.off (u.off + u.data.length) true then none
    else some (s.modGroup g fun x => { x with alloc := x.alloc.put u.off u.data })
/-- The updates of the oldest basket of a stream are applied in order until one is held (R77). -/
def applyBasket (s : State) (pub sub : Nat) : List Update → List (List Update) → State
  | [], rest => let x := s.stream pub sub; s.setStream pub sub { x with sent := rest, paid := x.paid - 1 }
  | u :: l, rest =>
    match s.applyUpdate u with
    | some s' => applyBasket s' pub sub l rest
    | none => let x := s.stream pub sub; s.setStream pub sub { x with sent := (u :: l) :: rest }
/-- Hood barriers whose updates have been applied release (R79). -/
def releaseHoods (s : State) : State := (keysOf s.hoods).foldl releaseHood s
/-- The oldest flushed basket of a stream is applied once it has passed its flush point (R77, R83). -/
def applyStream (s : State) (pub sub : Nat) : State :=
  let x := s.stream pub sub
  match x.sent with
  | [] => s
  | b :: rest =>
    if x.paid = 0 && s.payHeld pub x then s
    else
      let s1 := if x.paid = 0 then s.payBasket pub sub else s
      ((s1.applyBasket pub sub b rest).wakeDrains).releaseHoods

end State
end Sys2Proof.Machine
end

