-- ==== Sys2Proof/Machine/Access.lean ====
section
/-!
DEFINITION. Addresses and accesses of threads: the aperture decode (R52), the checks of R53, on-chip storage (R55 to R59),
the register window (R49, R50), requests to home slices and peer packages (R61, R62, R372), atomics (R198, R200) and the
flush of releases (R76, R78).
-/
namespace Sys2Proof.Machine

/-- An address by its aperture (R52). -/
inductive Space where
  | global (va : Nat)
  | domain (pkg va : Nat)
  | slice (off : Nat)
  | core (off : Nat)
  | hood (m off : Nat)
  | dsp (off : Nat)
  | window (m t b : Nat)
  | bad
  deriving DecidableEq, Repr

/-- The aperture decode of R52. -/
def spaceOf (a : DWord) : Space :=
  let x := a.toNat
  if x < 2 ^ 57 then .global x
  else
    let top := nb x 63 60
    if top = 8 then .domain (nb x 59 53) (nb x 52 0)
    else if top = 12 && nb x 59 12 = 0 then .slice (nb x 11 0)
    else if top = 13 && nb x 59 20 = 0 then .core (nb x 19 0)
    else if top = 14 && nb x 59 25 = 0 then .hood (nb x 24 20) (nb x 19 0)
    else if top = 15 && nb x 59 26 = 0 then .dsp (nb x 25 0)
    else if nb x 63 56 = 255 && nb x 55 26 = 0 then .window (nb x 25 21) (nb x 20 10) (nb x 9 0)
    else .bad

/-- Storage an access reaches once its checks have passed. -/
inductive Loc where
  | alloc (gid off : Nat)
  | slice (th off : Nat)
  | dsp (die off : Nat)
  | regs (th b : Nat)
  | global (va : Nat)
  | own (va : Nat)
  | peer (pkg va : Nat)
  deriving DecidableEq, Repr

namespace State

/-- This package's id (R434). -/
def pkgId (s : State) : Nat := s.fld 0xB001 0 6 0
/-- Key of a route: server group and package (R315). -/
def routeKey (sg pkg : Nat) : Nat := sg * 128 + pkg
/-- Whether a context may reach a package (R53, R315, R390). -/
def domainOk (s : State) (ctx pkg : Nat) : Bool :=
  pkg == s.pkgId ||
    ((lookup s.routes (routeKey (s.sgrpOf ctx) pkg)).isSome && s.fld 0x9101 (s.sgrpOf ctx) 63 63 == 1)

/-- The checks 1 to 4 of R53 for an access of n bytes aligned to `align` by thread k, in their order: the storage, or the
cause of the trap. `atomic`: the operation check of ATOM, ACAS and RED; `wide`: that of ACLD, ACST and LNCH, which the
register window and the domain aperture refuse (R227, R254). -/
def access (s : State) (th : Thread) (k : Nat) (a : DWord) (n align : Nat) (atomic wide : Bool) : Except (BitVec 8) Loc :=
  let pkt := s.pktOf th
  let aligned := a.toNat % align = 0
  let bounded (c : Bool) (l : Loc) : Except (BitVec 8) Loc :=
    if !aligned then .error causeMisalign else if c then .ok l else .error causeScrBound
  match spaceOf a with
  | .bad => .error causeAddr
  | .global va => bounded true (.global va)
  | .domain pkg va =>
    if wide || !s.domainOk th.ctx pkg then .error causeAddr
    else bounded true (if pkg = s.pkgId then .own va else .peer pkg va)
  | .slice off => bounded (decide (off + n ≤ pkt.slice)) (.slice (k - th.hidx) off)
  | .core off => bounded (decide (off + n ≤ pkt.scratch)) (.alloc th.gid off)
  | .hood m off =>
    let hood := (s.group th.gid).hood
    bounded (decide (m < s.ngr hood) && decide (off + n ≤ pkt.scratch)) (.alloc ((s.memberOf hood m).getD th.gid) off)
  | .dsp off =>
    let sg := s.sgrpOf th.ctx
    bounded (decide (off + n ≤ 65536 * s.fld 0x4001 sg 41 32)) (.dsp (dieOf th.core) (65536 * s.fld 0x4001 sg 9 0 + off))
  | .window m t b =>
    let hood := (s.group th.gid).hood
    let gid := (s.memberOf hood m).getD th.gid
    if atomic || wide then .error causeAddr
    else bounded (decide (m < s.ngr hood) && decide (t < (s.group gid).n) && decide (b + n ≤ 4 * pkt.regs))
      (.regs (threadKey gid t 0) b)

/-! ### On-chip storage -/

/-- Bytes of a thread's vector registers from byte b up (R48, R50). -/
def regBytes (th : Thread) (b n : Nat) : Bytes :=
  (List.range n).map fun i => (th.rvn ((b + i) / 4)).extractLsb' (8 * ((b + i) % 4)) 8
/-- One byte of a vector register set (R48). -/
def setRegByte (th : Thread) (b : Nat) (x : Byte) : Thread :=
  let sh := 8 * (b % 4)
  th.wvn (b / 4) ((th.rvn (b / 4) &&& ~~~(0xFF#32 <<< sh)) ||| (x.zeroExtend 32 <<< sh))
/-- Bytes written to a thread's vector registers. -/
def setRegBytes (th : Thread) (b : Nat) : Bytes → Thread
  | [] => th
  | x :: l => setRegBytes (setRegByte th b x) (b + 1) l

/-- The bytes on-chip storage holds, and whether poison is among them (R359, R360). -/
def readLoc (s : State) (l : Loc) (n : Nat) : Bytes × Bool :=
  match l with
  | .alloc g off => ((s.group g).alloc.read off n, (s.group g).alloc.poisoned off n)
  | .slice k off => ((s.thread k).slice.read off n, (s.thread k).slice.poisoned off n)
  | .dsp d off => ((lookupD Store.zero s.dsp d).read off n, (lookupD Store.zero s.dsp d).poisoned off n)
  | .regs k b => (regBytes (s.thread k) b n, (s.thread k).bad.any fun r => r.cls == .vec && decide (b / 4 ≤ r.n) && decide (4 * r.n < b + n))
  | .global _ | .own _ | .peer _ _ => ([], false)
/-- Bytes written to on-chip storage; a write into a published region is forwarded (R74); registers of a thread that has
exited keep their values (R50). -/
def writeLoc (s : State) (l : Loc) (b : Bytes) (alone : Bool) : State :=
  match l with
  | .alloc g off => s.writeAlloc g off b alone
  | .slice k off => s.modThread k fun th => { th with slice := th.slice.put off b }
  | .dsp d off => { s with dsp := put s.dsp d ((lookupD Store.zero s.dsp d).put off b) }
  | .regs k r => s.modThread k fun th => if th.status = .exited then th
      else { setRegBytes th r b with bad := th.bad.filter fun x => !(x.cls == .vec && decide (r ≤ 4 * x.n) && decide (4 * x.n + 4 ≤ r + b.length)) }
  | .global _ | .own _ | .peer _ _ => s
/-- Poison written with data (R359): the words a poisoned piece reaches. -/
def poisonLoc (s : State) (l : Loc) (n : Nat) : State :=
  match l with
  | .alloc g off => s.modGroup g fun x => { x with alloc := x.alloc.addPoison 8 off n }
  | .slice k off => s.modThread k fun th => { th with slice := th.slice.addPoison 8 off n }
  | .dsp d off => { s with dsp := put s.dsp d ((lookupD Store.zero s.dsp d).addPoison 8 off n) }
  | _ => s
/-- Core, place and range of scratchpad storage for the scoreboard (R66); none for other storage. -/
def placeOf (s : State) (l : Loc) (n : Nat) : Option (Nat × Place × Nat × Nat) :=
  match l with
  | .alloc g off => some ((s.group g).core, .alloc g, off, off + n)
  | .slice k off => some ((s.thread k).core, .slice k, off, off + n)
  | _ => none
/-- Whether an access to storage waits on the range scoreboard (R67). -/
def locWaits (s : State) (l : Loc) (n : Nat) (writes : Bool) : Bool :=
  match s.placeOf l n with
  | some (core, p, lo, hi) => s.mustWait core p lo hi writes
  | none => false

/-- The gang of a thread is to be killed (R360, R363): the kill follows as a step of its own, and the thread waits. -/
def killGang (s : State) (k cause : Nat) (addr pc : DWord) : State :=
  let th := s.thread k
  s.post (.gangKill (s.group th.gid).hood ⟨cause, addr, pc, (s.group th.gid).hpos⟩)

/-! ### Releases -/

/-- Scopes of R86 that are .H or wider; code 0 stands for .P (R137). -/
def wideScope : Scope → Bool
  | .t | .g => false
  | _ => true
/-- Scopes .M and .S. -/
def domainScope : Scope → Bool
  | .m | .s => true
  | _ => false
/-- Domain clock of a fabric group: 16 counts (R95). -/
def clockOf (s : State) (fg : Nat) : List Nat := lookupD (List.replicate 16 0) s.clocks fg
/-- The package FGMAP names for an index of a fabric group (R390). -/
def fgPackage (s : State) (fg i : Nat) : Nat := s.fld 0x9100 (2 * fg + i / 8) (8 * (i % 8) + 7) (8 * (i % 8))
/-- A .M release of a context raises this package's count in the clock of its fabric group (R95). -/
def clockRelease (s : State) (ctx : Nat) : State :=
  let fg := s.fld 0x9101 (s.sgrpOf ctx) 2 0
  if s.fld 0x9101 (s.sgrpOf ctx) 63 63 = 0 then s
  else
    let c := s.clockOf fg
    let c' := (List.range 16).map fun i =>
      if s.fgPackage fg i = 128 + s.pkgId then (c.getD i 0 + 1) % 4294967296 else c.getD i 0
    { s with clocks := put s.clocks fg c' }
/-- The first part of a release or SEQ access at .H or wider: the core's baskets are flushed, and a release waits for every
update of the core; none when it may go on (R76, R78). -/
def flushFirst (s : State) (b : Thread) (release seq : Bool) (sc : Scope) : State × Option Wait :=
  if !(release || seq) || !wideScope sc || b.wait = .drained then (s, none)
  else
    let s1 := s.flushCore b.core
    let mark := (s1.core b.core).produced
    if release && s1.updatesBelow b.core none mark then (s1, some (.drain b.core none mark)) else (s1, none)

/-! ### Requests -/

/-- The command word of a request on a fabric link (R372). -/
def commandWord (s : State) (ctx peerCtx tag va : Nat) (op : ReqOp) (poison : Bool) : BitVec 128 :=
  let fg := s.fld 0x9101 (s.sgrpOf ctx) 2 0
  let tyNum (t : Ty) : Nat := match t with
    | .s8 => 0
    | .z8 => 1
    | .s16 => 2
    | .z16 => 3
    | .s32 => 4
    | .z32 => 5
    | .s64 => 6
    | .z64 => 7
    | .f32 => 8
    | .f16 => 9
    | .bf16 => 10
  let aopNum (x : Aop) : Nat := match x with
    | .add => 0
    | .min => 1
    | .max => 2
    | .and => 3
    | .or => 4
    | .xor => 5
    | .exch => 6
    | .inc => 7
    | .dec => 8
  let bytes (t : Ty) : Nat := if t.wide then 8 else 4
  let f : Nat × Nat × Nat × Nat := match op with
    | .load => (1, 0, 0, 0)
    | .store d => (3, 0, d.length - 1, 0)
    | .atomic o t _ => (4, aopNum o, bytes t - 1, tyNum t)
    | .acas t _ _ => (4, 9, bytes t - 1, tyNum t)
  BitVec.ofNat 128 (f.1 * 2 ^ 124 + f.2.1 * 2 ^ 120 + f.2.2.1 * 2 ^ 112 + peerCtx * 2 ^ 96 + s.pkgId * 2 ^ 89 +
    fg % 8 * 2 ^ 86 + poison.toNat * 2 ^ 85 + tag % 2097152 * 2 ^ 64 + f.2.2.2 * 2 ^ 57 + va % 2 ^ 53)
/-- 128 flit bytes with data at offset o, and for ACAS the new value at (o + 64) mod 128 (R372). -/
def flitData (o : Nat) (op : ReqOp) : Bytes :=
  let place (at_ : Nat) (d : Bytes) (base : Store) : Store := base.write (at_ % 128) d
  let st := match op with
    | .load => Store.zero
    | .store d => place o d Store.zero
    | .atomic _ t x => place o (toBytes (if t.wide then 8 else 4) x.toNat) Store.zero
    | .acas t c n =>
      let w := if t.wide then 8 else 4
      place (o + 64) (toBytes w n.toNat) (place o (toBytes w c.toNat) Store.zero)
  st.read 0 128

/-- A control flit waits for a maintenance position of a link (R375): byte 0 of its data is its code (log 11). -/
def sendControl (s : State) (l : LinkId) (code : Nat) (b : Bytes) : State :=
  s.modLink l fun x =>
    { x with maint := x.maint ++ [⟨kindHdr 3, 0, ((BitVec.ofNat 8 code :: b) ++ List.replicate 128 0).take 128⟩] }
/-- The address of a request in its context: of a domain access, that within its package (R52, R62). -/
def reqVa (r : MemReq) : Nat := if r.domain then r.va.toNat % 2 ^ 53 else r.va.toNat
/-- A transaction waits for a slot of a link (R303, R307). -/
def queueTxn (s : State) (l : LinkId) (t : Txn) : State := s.modLink l fun x => { x with queue := x.queue ++ [t] }

/-- Bytes of data a request takes with it (R198, R200, R321). -/
def reqBytes (op : ReqOp) : Nat :=
  match op with
  | .load => 0
  | .store d => d.length
  | .atomic _ _ _ => 8
  | .acas _ _ _ => 16
/-- A request leaves thread k: to its home slice, by the on-die network, or over the bound route to a peer package (R61,
R62, R315, R321). -/
def request (s : State) (k : Nat) (b : Thread) (va : DWord) (l : Loc) (n : Nat) (op : ReqOp) (dest : Dest) : State :=
  let tag := s.fresh
  let s1 := { s.modThread k fun th => { th with pend := th.pend + 1 } with fresh := s.fresh + 1 }
  let q (addr : Nat) (dom : Bool) (link : Option Nat) : MemReq :=
    { th := k, ctx := b.ctx, core := b.core, cycle := s.clk, pc := b.pc, va := BitVec.ofNat 64 addr, size := n, op := op, dest := dest,
      domain := dom, link := link, las := b.las, served := false, fill := none, release := false }
  match l with
  | .peer pkg addr =>
    match lookup s.routes (routeKey (s.sgrpOf b.ctx) pkg) with
    | some r =>
      { s1 with reqs := put s1.reqs tag (q va.toNat true (some r.link)) }.queueTxn ⟨true, r.link⟩
        (Txn.new (s.sgrpOf b.ctx) b.ctx tag ⟨kindHdr 1, s.commandWord b.ctx r.peer tag addr op false, flitData (addr % 128) op⟩ s.tick)
    | none => s1
  | .own addr => { s1 with reqs := put s1.reqs tag (q va.toNat true none) }.sendPacket (s.sliceOf b.ctx addr) vcRequest b.core (reqBytes op) (.request tag)
  | .global addr => { s1 with reqs := put s1.reqs tag (q addr false none) }.sendPacket (s.sliceOf b.ctx addr) vcRequest b.core (reqBytes op) (.request tag)
  | _ => s1

/-- A load's value written to its destination (R195). -/
def loadInto (th : Thread) (sz : LdSz) (d : Reg) (b : Bytes) : Thread :=
  let x := ofBytes b
  match sz with
  | .s8 => th.wv d (BitVec.ofInt 32 (extTy .s8 x))
  | .z8 => th.wv d (BitVec.ofNat 32 (x % 256))
  | .s16 => th.wv d (BitVec.ofInt 32 (extTy .s16 x))
  | .z16 => th.wv d (BitVec.ofNat 32 (x % 65536))
  | .b32 => th.wv d (BitVec.ofNat 32 x)
  | .b64 => th.ww d (BitVec.ofNat 64 x)
  | .b128 => th.wx d (BitVec.ofNat 128 x)
/-- The bytes a store writes (R196). -/
def storeBytes (th : Thread) (sz : StSz) (d : Reg) : Bytes :=
  match sz with
  | .b8 => toBytes 1 (th.rv d).toNat
  | .b16 => toBytes 2 (th.rv d).toNat
  | .b32 => toBytes 4 (th.rv d).toNat
  | .b64 => toBytes 8 (th.rw d).toNat
  | .b128 => toBytes 16 (th.rx d).toNat
/-- Bytes of an atomic's type (R198). -/
def atomBytes (ty : Ty) : Nat := if ty.wide then 8 else 4
/-- The new value of an atomic (R198). -/
def atomNew (op : Aop) (ty : Ty) (old x : DWord) : DWord :=
  let a := extTy ty old.toNat
  let b := extTy ty x.toNat
  let f (y : Nat) : DWord := BitVec.ofNat 64 y
  match op with
  | .add => if ty = .f32 then f (faddAtomic (old.toNat % 4294967296) (x.toNat % 4294967296)) else old + x
  | .min => if ty = .f32 then f (fMinMax .f32 false (old.toNat % 4294967296) (x.toNat % 4294967296)).1
    else if b < a then x else old
  | .max => if ty = .f32 then f (fMinMax .f32 true (old.toNat % 4294967296) (x.toNat % 4294967296)).1
    else if a < b then x else old
  | .and => old &&& x
  | .or => old ||| x
  | .xor => old ^^^ x
  | .exch => x
  | .inc => if x.toNat ≤ old.toNat then 0 else old + 1
  | .dec => if old = 0 || x.toNat < old.toNat then x else old - 1

end State
end Sys2Proof.Machine
end

