-- ==== Sys2Proof/Machine/HomeSlice.lean ====
section
/-!
DEFINITION. The home slice's steps: requests (R61, R64), domain requests of peer packages (R62, R315,
R390) and refusals (R315). Rows HOME_SLICE_REQUEST, DOMAIN_REQUEST and DOMAIN_REFUSED.
-/
namespace Sys2Proof.Machine
namespace State

/-- What a request asks of its line (R346): loads need R, stores W, atomics both. -/
def reqAccess (ctx va : Nat) (op : ReqOp) : Access :=
  match op with
  | .load => ⟨ctx, va, true, false, 0⟩
  | .store _ => ⟨ctx, va, false, true, 1⟩
  | .atomic _ _ _ | .acas _ _ _ => ⟨ctx, va, true, true, 2⟩
/-- A request performed on its line: the new state, the bytes returned, and whether poison was consumed (R61, R198, R200,
R359, R360). -/
def performReq (s : State) (ctx va n : Nat) (op : ReqOp) (l : Line) : State × Bytes × Bool :=
  let old := l.read (va % 128) n
  match op with
  | .load => (s, old, l.poison)
  | .store b => (s.writeLine ctx va l b, [], false)
  | .atomic o ty x =>
    if l.poison then (s, old, true)
    else (s.writeLine ctx va l (toBytes n (atomNew o ty (BitVec.ofNat 64 (ofBytes old)) x).toNat), old, false)
  | .acas _ c x =>
    if l.poison then (s, old, true)
    else if toBytes n c.toNat = old then (s.writeLine ctx va l (toBytes n x.toNat), old, false)
    else (s, old, false)

/-- The requester's L1 after its request has been served: a load fills it, a store that hit there leaves the written line
in it, with W if the store was an upgrade; a poisoned line stands in no L1 (R61, R347, R359). -/
def l1After (s : State) (before : State) (r : MemReq) (l : Line) : State :=
  if r.domain then s
  else match r.op with
    | .load => s.fillL1 r.core r.ctx r.va.toNat l
    | .store b =>
      match before.l1Find r.core r.ctx r.va.toNat with
      | some (k, x) =>
        if l.poison && decide (b.length < 128) then s
        else { s with l1 := put s.l1 k { x.write (r.va.toNat % 128) b with dirty := false, w := true } }
      | none => s
    | _ => s

/-- What the home slice is asked for by a request. -/
def accessOf (r : MemReq) : Access := reqAccess r.ctx (reqVa r) r.op
/-- The drawer address an access would have to be filled from: a miss in L2 that its translation allows (R61, R346). -/
def missPa (s : State) (a : Access) : Option Nat :=
  let n := s.canon a.ctx a.va
  if !n.present || (a.needR && !n.r) || (a.needW && !n.w) || (s.l2Find n.asid (n.va / 128)).isSome then none
  else match (s.translate a.ctx n a.needR a.needW).2 with
    | .ok lf => some lf.pa
    | _ => none

/-- HOME_SLICE_REQUEST: a miss first asks the drawer for its line and waits for it (R302, R304, R373); then the request is served:
it is answered, its thread is parked on a fault, or poison met by the walk kills the gang (R61, R341, R346, R351). Nothing is left to
park of a helper that has been stopped (R102). -/
def serveRequest (s : State) (tag : Nat) : State :=
  match lookup s.reqs tag with
  | none => s
  | some r =>
    if r.served || r.link.isSome || r.fill == some false then s
    else match (if r.fill.isNone then s.missPa (accessOf r) else none) with
    | some pa => { s.askRead r.ctx pa tag with reqs := put s.reqs tag { r with fill := some false } }
    | none => match s.serveWith r.fill.isSome (accessOf r) with
      | .ok s1 l =>
        let p := s1.performReq r.ctx (reqVa r) r.size r.op l
        let s2 := p.1.l1After s r l
        { s2 with reqs := put s2.reqs tag { r with served := true } }.sendPacket (coreOut r.core) vcResponse (s.sliceOf r.ctx (reqVa r)) r.size
          (.response (.memoryResponse tag p.2.1 p.2.2))
      | .fault s1 f acc =>
        let s2 := { s1 with reqs := del s1.reqs tag }
        if (s2.thread r.th).status = .exited then (s2.modThread r.th fun th => { th with pend := th.pend - 1 }).endStopped r.th
        else match s2.raiseFault (.thread r.th) r.ctx acc r.va (s.canon r.ctx (reqVa r)) f with
        | (s3, some fid) => (s3.modThread r.th fun th => { th with pend := th.pend - 1 }).park r.th r.cycle r.pc r.las (.fault fid)
        | (s3, none) => s3
      | .poison s1 => { s1 with reqs := del s1.reqs tag }.killGang r.th 1 r.va r.pc

/-- The value of a response written where its request asks (R195, R199, R200, R209, R227). A thread parked on a fault
of another piece executes its ACST.Z again and keeps the accumulator until then. -/
def answerThread (s : State) (r : MemReq) (data : Bytes) : State :=
  let x : DWord := BitVec.ofNat 64 (ofBytes data)
  match r.dest with
  | .none => s
  | .load d sz => s.modThread r.th fun th => loadInto th sz d data
  | .old d n => s.modThread r.th fun th => th.wvw (n == 8) d x
  | .acas d n ps =>
    let ok := match r.op with
      | .acas _ c _ => toBytes n c.toNat == data
      | _ => false
    s.modThread r.th fun th => (th.wvw (n == 8) d x).wp (ps.zeroExtend 8) ok
  | .acc d piece => s.modThread r.th fun th => th.warow d (4 * piece)
      ((List.range 4).map fun i => BitVec.ofNat 32 (ofBytes ((data.drop (4 * i)).take 4)))
  | .copy _ _ _ => s
  | .zero d =>
    if s.reqs.any fun e => e.2.th == r.th then s
    else s.modThread r.th fun th => match th.wait with
      | .fault _ => th
      | _ => th.warow d 0 (List.replicate 16 0)
  | .counter d =>
    if ((s.thread r.th).rw d).toNat ≤ x.toNat then s else s.modThread r.th fun th => { th with pc := r.pc, las := r.las, wait := .counter }

/-! ### Requests of peer packages -/

/-- Whether this package serves a domain request (R315). -/
def domainServes (s : State) (q : DomainReq) : Bool :=
  let sg := s.sgrpOf q.ctx
  s.ctxState q.ctx != 0 && s.fld 0x9101 sg 63 63 == 1 && s.fld 0x9101 sg 2 0 == q.fg &&
    (List.range 16).any fun i => s.fgPackage q.fg i == 128 + q.src
/-- The request of a domain flit as the home slice performs it (R372). -/
def domainOp (q : DomainReq) : ReqOp :=
  let x : DWord := BitVec.ofNat 64 (ofBytes q.data)
  match q.op with
  | .read => .load
  | .store => .store q.data
  | .atomic o ty => .atomic o ty x
  | .acas ty => .acas ty x (BitVec.ofNat 64 (ofBytes q.data2))
/-- a is no later than b modulo 2^32 (R390). -/
def laterCount (a b : Nat) : Nat := if (b + 4294967296 - a) % 4294967296 < 2147483648 then b else a
/-- A vector merged into the clock of a fabric group (R95). -/
def mergeClock (s : State) (fg : Nat) (v : List Nat) : State :=
  if v.isEmpty then s
  else
    let c := s.clockOf fg
    { s with clocks := put s.clocks fg ((List.range 16).map fun i => laterCount (c.getD i 0) (v.getD i 0)) }

/-- The answer of a domain request waits for a slot of the far end's positions: its TAG, the request's POISON or that of the line, and
the data at their place in the line (R359, R372, R426, R427; log 74). -/
def reply (s : State) (q : DomainReq) (poison : Bool) (data : Bytes) : State :=
  let f : Flit := ⟨kindHdr 2, BitVec.ofNat 128 (q.tag % 2097152 * 2 ^ 64 + (q.poison || poison).toNat * 2 ^ 85),
    (Store.zero.write (q.va.toNat % 128) data).read 0 128⟩
  s.modLink ⟨true, q.link⟩ fun x => { x with replies := x.replies ++ [{ Txn.new (s.sgrpOf q.ctx) q.ctx q.tag f s.tick with
    far := true, due := s.unitNow + 7 * x.gap }] }
/-- A domain request that is not performed is answered by a control flit with its TAG: 11 refused (R315), 13 poison met by the table
walk (R346; log 11). -/
def replyWith (s : State) (q : DomainReq) (code : Nat) : State :=
  s.sendControl ⟨true, q.link⟩ code (toBytes 3 0 ++ toBytes 4 (q.tag % 2097152))

/-- The line a domain request names (R62, R63). -/
def domainLine (s : State) (q : DomainReq) : Nat × Nat :=
  let n := s.canon q.ctx q.va.toNat
  (n.asid, n.va / 128)
/-- The memory link that a domain request's line would have to be filled over (R61, R302). -/
def domainLink (s : State) (q : DomainReq) : Option LinkId :=
  (s.missPa (reqAccess q.ctx q.va.toNat (domainOp q))).map fun pa => ⟨false, s.channelOf pa⟩
/-- A domain request waits: for the MC server of its context on the link that its line would come by, or behind an earlier one for its
line (R62, R302, R304). -/
def domainHeld (s : State) (q : DomainReq) : Bool :=
  s.domainServes q && (s.domWait.any (fun x => s.domainLine x == s.domainLine q) || (s.domainLink q).any (s.linkShort q.ctx))
/-- A domain request performed at its home slice under the peer context's name, or parked on a fault of the peer context (R62, R351). The
releases that its vector names have been performed when it arrives (log 80). -/
def performDomain (s : State) (q : DomainReq) : State :=
  let s0 := s.mergeClock q.fg q.clock
  match s0.serve (reqAccess q.ctx q.va.toNat (domainOp q)) with
  | .ok s1 l =>
    let l' := if q.poison then { l with poison := true } else l
    let p := s1.performReq q.ctx q.va.toNat q.size (domainOp q) (if q.op = .store then l' else l)
    let s2 := if q.poison && q.op = .store then
        match p.1.l2Find l.asid l.cline with
        | some (k, x) => p.1.setL2 k { x with poison := true }
        | none => { p.1 with drawer := p.1.drawer.addPoison 128 l.pa 128 }
      else p.1
    s2.reply q p.2.2 p.2.1
  | .fault s1 f acc => (s1.raiseFault (.domain q) q.ctx acc q.va (s0.canon q.ctx q.va.toNat) f).1
  | .poison s1 => s1.replyWith q 13
/-- DOMAIN_REQUEST: performed, refused, or kept waiting for its MC server (R62, R304, R315). -/
def serveDomain (s : State) (q : DomainReq) : State :=
  if !s.domainServes q then s.replyWith q 11
  else if s.domainHeld q then { s with domWait := s.domWait ++ [q] }
  else s.performDomain q
/-- The first waiting domain request that no server holds any more, with none for its line before it (R302, R304). -/
def domainNext (s : State) : Option DomainReq :=
  s.domWait.find? fun q => !(s.domainServes q && (s.domainLink q).any (s.linkShort q.ctx)) &&
    (s.domWait.find? fun x => s.domainLine x == s.domainLine q) == some q
/-- A waiting domain request has its turn (R304). -/
def retryDomain (s : State) (q : DomainReq) : State :=
  let s1 : State := { s with domWait := s.domWait.erase q }
  if s1.domainServes q then s1.performDomain q else s1.replyWith q 11

/-- DOMAIN_REFUSED: the requesting context takes a context fault at the first refusal (R315). -/
def refuseDomain (s : State) (tag : Nat) : State :=
  match lookup s.reqs tag with
  | some r => { s with reqs := del s.reqs tag }.contextFault r.ctx 2
  | none =>
    match lookup s.copies tag with
    | some c => s.contextFault (s.group c.gid).ctx 2
    | none => s

end State

/-- HOME_SLICE_REQUEST (R61, R63 to R65, R341 to R351). -/
def execHomeSliceRequest (tag : Nat) (s : State) : Host.Outcome State Fault Refusal := .next (s.serveRequest tag)
/-- DOMAIN_REQUEST (R62, R315, R351, R372, R390). -/
def execDomainRequest (req : DomainReq) (s : State) : Host.Outcome State Fault Refusal := .next (s.serveDomain req)
/-- DOMAIN_REFUSED (R315). -/
def execDomainRefused (tag : Nat) (s : State) : Host.Outcome State Fault Refusal := .next (s.refuseDomain tag)

end Sys2Proof.Machine
end

