-- ==== Sys2Proof/Machine/MemInstrs.lean ====
section
/-!
DEFINITION. Memory, barrier, timeline and subscription instructions (R192 to R214) and the steps of the subscription hardware: opcodes 0xA0 to 0xAE and 0xD8 to 0xDA, rows SUBON_REQUEST to BASKET_APPLY.
-/
namespace Sys2Proof.Machine

namespace State

/-! ### Loads -/

/-- A line of the core's L1 that a load of a context may read (R61, R347). -/
def l1Hit (s : State) (core ctx va : Nat) : Option (Nat × Line) :=
  match s.l1Find core ctx va with
  | some (k, l) => if l.r then some (k, l) else none
  | none => none
/-- A hit by a context of the way's partition updates the line's recency (R318). -/
def touchL1 (s : State) (ctx k : Nat) (l : Line) : State :=
  if (s.fld 0x3000 (s.partOf ctx) 39 32).testBit (k % 8) then
    { s with l1 := put s.l1 k { l with stamp := s.stamp }, stamp := s.stamp + 1 }
  else s
/-- A load of n bytes whose checks have passed: at once from on-chip storage or L1, or as a request (R60, R61, R67, R360). -/
def loadFrom (s : State) (k : Nat) (b : Thread) (addr : DWord) (l : Loc) (n : Nat) (dest : Dest)
    (take : State → Bytes → Lane) : Lane :=
  match l with
  | .global va =>
    match s.l1Hit b.core b.ctx va with
    | some (key, line) => take (s.touchL1 b.ctx key line) (line.read (va % 128) n)
    | none => .done (s.request k b addr l n .load dest)
  | .own _ | .peer _ _ => .done (s.request k b addr l n .load dest)
  | .alloc _ _ | .slice _ _ | .dsp _ _ | .regs _ _ =>
    if s.locWaits l n false then .hold s .retry
    else
      let r := s.readLoc l n
      if r.2 then .hold (s.killGang k 1 addr b.pc) .resp else take s r.1

/-- Bytes stored to storage whose checks have passed (R61, R67, R74). -/
def storeTo (s : State) (k : Nat) (b : Thread) (addr : DWord) (l : Loc) (d : Bytes) (alone : Bool) : Lane :=
  match l with
  | .global _ | .own _ | .peer _ _ => .done (s.request k b addr l d.length (.store d) .none)
  | .alloc _ _ | .slice _ _ | .dsp _ _ | .regs _ _ =>
    if s.locWaits l d.length true then .hold s .retry else .done (s.writeLoc l d alone)

/-- The value an atomic, reduction or ACAS returns (R199, R200). -/
def returnOld (s : State) (k : Nat) (dest : Dest) (old : Bytes) (ok : Bool) : State :=
  let x : DWord := BitVec.ofNat 64 (ofBytes old)
  match dest with
  | .old d n => s.modThread k fun th => th.wvw (n == 8) d x
  | .acas d n ps => s.modThread k fun th => (th.wvw (n == 8) d x).wp (ps.zeroExtend 8) ok
  | .none | .load _ _ | .acc _ _ | .counter _ | .copy _ _ _ | .zero _ => s
/-- An atomic on storage whose checks have passed; `next` gives the bytes written, or none (R198, R200). -/
def updateAt (s : State) (k : Nat) (b : Thread) (addr : DWord) (l : Loc) (n : Nat) (op : ReqOp) (dest : Dest)
    (next : Bytes → Option Bytes) (alone : Bool) : Lane :=
  match l with
  | .global va => .done (({ s with l1 := keep (fun key x =>
      !(decide (key / 2048 = b.core) && x.ctxAsid == s.asidOf b.ctx && x.vline == va / 128)) s.l1 }).request k b addr l n op
        dest)
  | .own _ | .peer _ _ => .done (s.request k b addr l n op dest)
  | .alloc _ _ | .slice _ _ | .dsp _ _ | .regs _ _ =>
    if s.locWaits l n true then .hold s .retry
    else
      let r := s.readLoc l n
      if r.2 then .hold (s.killGang k 1 addr b.pc) .resp
      else match next r.1 with
        | some d => .done ((s.writeLoc l d alone).returnOld k dest r.1 true)
        | none => .done (s.returnOld k dest r.1 false)

/-- A .M release has issued: its count is raised once its own write has been performed, at once where it has left none to come, so
that a vector names performed releases only (R95; log 80). -/
def released (before s : State) (ctx : Nat) : State :=
  if s.fresh = before.fresh then s.clockRelease ctx
  else { s with reqs := adjust s.reqs before.fresh fun r => { r with release := true } }
/-- A release or SEQ access first flushes and waits (R76, R78, R95); then `go` performs it. -/
def ordered (s : State) (b : Thread) (ord : Ord) (load : Bool) (sc : Scope) (go : State → Bool → Lane) : Lane :=
  let rel := ord.releases && !load
  match s.flushFirst b rel (ord == .seq) sc with
  | (s1, some w) => .hold s1 w
  | (s1, none) =>
    match go s1 (rel && wideScope sc) with
    | .done s2 => .done (if rel && domainScope sc then s1.released s2 b.ctx else s2)
    | x => x

end State

/-- LD (R195). -/
def loadBody (ord : Ord) (sc : Scope) (sz : LdSz) (d a : Reg) (am : Am) (off : Off) : Body := fun env k s =>
  let b := env.before.thread k
  let addr := b.ea am a (offOf off)
  match s.access b k addr sz.bytes sz.bytes false false with
  | .error c => .trap c addr 0
  | .ok l => s.ordered b ord true sc fun s1 _ =>
    s1.loadFrom k b addr l sz.bytes (.load d sz) fun s2 x => .done (s2.modThread k fun th => State.loadInto th sz d x)
/-- ST (R196). -/
def storeBody (ord : Ord) (sc : Scope) (sz : StSz) (d a : Reg) (am : Am) (off : Off) : Body := fun env k s =>
  let b := env.before.thread k
  let addr := b.ea am a (offOf off)
  match s.access b k addr sz.bytes sz.bytes false false with
  | .error c => .trap c addr 0
  | .ok l => s.ordered b ord false sc fun s1 alone => s1.storeTo k b addr l (State.storeBytes b sz d) alone
/-- ATOM and RED (R198, R199). -/
def atomicBody (ord : Ord) (sc : Scope) (aop : Aop) (ty : Ty) (dest : Dest) (a : Reg) (am : Am) (c : Reg)
    (off : BitVec 32) : Body := fun env k s =>
  let b := env.before.thread k
  let addr := b.ea am a (offW off)
  let n := State.atomBytes ty
  let x := b.rvw ty.wide c
  match s.access b k addr n n true false with
  | .error e => .trap e addr 0
  | .ok l => s.ordered b ord false sc fun s1 alone => s1.updateAt k b addr l n (.atomic aop ty x) dest
    (fun old => some (toBytes n (State.atomNew aop ty (BitVec.ofNat 64 (ofBytes old)) x).toNat)) alone
/-- ACAS (R200). -/
def acasBody (ord : Ord) (sc : Scope) (ty : Ty) (d : Reg) (ps : BitVec 7) (a : Reg) (am : Am) (c n : Reg)
    (off : BitVec 32) : Body := fun env k s =>
  let b := env.before.thread k
  let addr := b.ea am a (offW off)
  let w := State.atomBytes ty
  let cmp := b.rvw ty.wide c
  let new := b.rvw ty.wide n
  match s.access b k addr w w true false with
  | .error e => .trap e addr 0
  | .ok l => s.ordered b ord false sc fun s1 alone => s1.updateAt k b addr l w (.acas ty cmp new) (.acas d w ps)
    (fun old => if old = toBytes w cmp.toNat then some (toBytes w new.toNat) else none) alone

/-! ### Cache hints and fences -/

/-- Whether the hard MC servers of a context's group on a line's link are all held (R201, R304). -/
def State.mcHeld (s : State) (ctx pa : Nat) : Bool :=
  let link := s.channelOf pa
  let own := (List.range 32).filter fun e =>
    (s.reg 0x4100 (lsrvInst false link e)).getLsbD 63 && s.fld 0x4100 (lsrvInst false link e) 61 54 == s.sgrpOf ctx
  !own.isEmpty && own.all fun e => s.heldNow ⟨.mc, link, e⟩
/-- PREF brings a line into the L1 or the home slice, or does nothing (R201). -/
def prefBody (lv : PrefLv) (a : Reg) (am : Am) (off : Off) : Body := fun env k s =>
  let b := env.before.thread k
  match s.access b k (b.ea am a (offOf off)) 1 1 false false with
  | .ok (.global va) =>
    match s.serve ⟨b.ctx, va, true, false, 0⟩ with
    | .ok s1 l =>
      if (s.l2Find l.asid l.cline).isNone && s.mcHeld b.ctx l.pa then .done s
      else .done (if lv = .l1 && (s1.l1Find b.core b.ctx va).isNone then s1.fillL1 b.core b.ctx va l else s1)
    | .fault _ _ _ | .poison _ => .done s
  | _ => .done s
/-- A context's address has a translation: it is not a miss of the remap filter, and a walk finds a leaf (R202). -/
def State.translates (s : State) (ctx va : Nat) : Bool :=
  let n := s.canon ctx va
  n.present && match s.walk (s.partOf ctx) n.renamed n.asid n.va with
    | .ok _ => true
    | _ => false
/-- CFLUSH acts on a line held in a way of the context's L2 mask (R202). -/
def cflushBody (op : CfOp) (a : Reg) (am : Am) (off : Off) : Body := fun env k s =>
  let b := env.before.thread k
  match spaceOf (b.ea am a (offOf off)) with
  | .global va =>
    let n := s.canon b.ctx va
    match s.l2Find n.asid (n.va / 128) with
    | some (key, l) =>
      if !(s.fld 0x4000 (s.sgrpOf b.ctx) 31 0).testBit (key % 32) || !s.translates b.ctx va then .done s
      else match op with
        | .l1 => .done { s with l1 := keep (fun j x =>
            !(decide (j / 2048 = b.core) && x.asid == l.asid && x.cline == l.cline)) s.l1 }
        | .cln => .done ((s.cleanLine b.ctx l).setL2 key { l with dirty := false })
        | .inv => .done ((s.evictL2 b.ctx key).dropL1 l.asid l.cline)
    | none => .done s
  | _ => .done s
/-- FENCE (R91, R203): the model performs a thread's accesses one after another, so only the flush and wait of a release and
the domain clock remain. -/
def fenceBody (ord : Ord) (sc : Scope) : Body := fun env k s =>
  s.ordered (env.before.thread k) ord false sc fun s1 _ => .done s1

/-! ### Barriers -/

/-- A thread arrives at a group barrier (R204, R205). -/
def State.arriveBar (s : State) (gid k key : Nat) : State :=
  let b := s.barrier gid k
  s.setBarrier gid k { b with arrived := b.arrived ++ [key] }
/-- BAR bK: BARA then BARW on its token (R205). -/
def barBody (bk : BitVec 2) : Body := fun env k s =>
  let gid := (env.before.thread k).gid
  let b := s.barrier gid bk.toNat
  if b.arrived.contains k then .hold s (.rearm bk.toNat b.phase)
  else .done (((s.arriveBar gid bk.toNat k).modThread k fun th => { th with wait := .bar bk.toNat b.phase }).releaseBar gid
    bk.toNat)
/-- BAR.H: the baskets of the core are flushed, the thread arrives, which a control packet tells the hood's first member, and waits
(R76, R79, R205, R321; log 78). -/
def barHoodBody : Body := fun env k s =>
  let th := env.before.thread k
  let hood := (s.group th.gid).hood
  let s1 := s.flushCore th.core
  let p := (s1.hood hood).bar.phase
  let s2 := (s1.modHood hood fun h => { h with bar := { h.bar with arrived := h.bar.arrived ++ [k] } }).sendPacket
    (coreOut (s.group ((s.memberOf hood 0).getD th.gid)).core) vcControl th.core 0 .none
  .done ((s2.modThread k fun th => { th with wait := .hood p }).releaseHood hood)
/-- BARA arrives and writes the phase token (R205). -/
def baraBody (d : Reg) (bk : BitVec 2) : Body := fun env k s =>
  let gid := (env.before.thread k).gid
  let b := s.barrier gid bk.toNat
  if b.arrived.contains k then .hold s (.rearm bk.toNat b.phase)
  else .done (((s.arriveBar gid bk.toNat k).modThread k fun th => th.wv d (BitVec.ofNat 32 b.phase)).releaseBar gid bk.toNat)
/-- BARW waits until its token's phase has released (R205). -/
def barwBody (a : Reg) (bk : BitVec 2) : Body := fun env k s =>
  let th := env.before.thread k
  let tok := (th.rv a).toNat
  if State.phasePast (s.barrier th.gid bk.toNat).phase tok then .done s
  else .done (s.modThread k fun th => { th with wait := .barw bk.toNat tok })

/-! ### Subscriptions -/

/-- Regions of a subscription lie in an allocation: multiples of 256 bytes, 256 bytes to 64 KiB (R71). -/
def regionOk (size off len : Nat) : Bool :=
  off % 256 == 0 && len % 256 == 0 && decide (256 ≤ len) && decide (len ≤ 65536) && decide (off + len ≤ size)
/-- Two ranges overlap. -/
def rangesMeet (a n b m : Nat) : Bool := decide (a < b + m) && decide (b < a + n)
/-- A region of member m of a hood overlaps an inbound entry of a core (R72). -/
def State.meetsInbound (s : State) (core hood m off len : Nat) : Bool :=
  (s.core core).subIn.any fun e => e.2.hood == hood && e.2.smem == m && rangesMeet off len e.2.soff e.2.len
/-- A region of member m of a hood overlaps an outbound entry of a core (R72). -/
def State.meetsOutbound (s : State) (core hood m off len : Nat) : Bool :=
  (s.core core).subOut.any fun e => e.2.hood == hood && e.2.pmem == m && rangesMeet off len e.2.poff e.2.len
/-- The status of the checks on the subscriber's core; 0 reserves an entry (R72). -/
def State.subonCheck (s : State) (th : Thread) (soff pmem poff len : Nat) : Nat :=
  let g := s.group th.gid
  let size := s.allocSize th.gid
  if !(regionOk size soff len && regionOk size poff len) then 6
  else if s.ngr g.hood ≤ pmem then 4
  else if ((s.memberOf g.hood pmem).map fun p => (s.group p).core) = some g.core then 5
  else if 16 ≤ (s.core g.core).subIn.length then 2
  else if s.meetsInbound g.core g.hood g.hpos soff len || s.meetsOutbound g.core g.hood g.hpos soff len then 1
  else 0
/-- SUBON reserves the inbound entry and sends the request, or writes the code of the failing check (R72, R73). -/
def subonBody (prime : Bool) (d a b c l : Reg) : Body := fun env k s =>
  let th := env.before.thread k
  let v (r : Reg) : Nat := (th.rv r).toNat
  let code := s.subonCheck th (v a) (v b) (v c) (v l)
  let g := s.group th.gid
  match freeFrom (s.core g.core).subIn 16 0 with
  | some e =>
    if code ≠ 0 then .done (s.modThread k fun t => t.wv d (BitVec.ofNat 32 code))
    else
      let entry : SubEntry := ⟨g.hood, g.hpos, v a, v b, v c, v l, false, none, false⟩
      .done (((s.modCore g.core fun x => { x with subIn := put x.subIn e entry }).modThread k fun t =>
        { t with wait := .subon }).post (.subonRequest ⟨k, d, th.gid, e, v a, v b, v c, v l, prime⟩))
  | none => .done (s.modThread k fun t => t.wv d (BitVec.ofNat 32 code))
/-- The inbound entry of a group that starts at an offset (R73). -/
def State.entryAt (s : State) (gid off : Nat) : Option (Nat × SubEntry) :=
  let g := s.group gid
  (s.core g.core).subIn.find? fun e => e.2.hood == g.hood && e.2.smem == g.hpos && e.2.soff == off
/-- The inbound entry that a SUBOFF at an offset ends: an installed one that no other SUBOFF is ending (R212). A SUBOFF that meets
a tentative entry finds none (log 65). -/
def State.inboundAt (s : State) (gid off : Nat) : Option (Nat × SubEntry) :=
  (s.entryAt gid off).filter fun e => e.2.final && !e.2.closed
/-- Publisher's core of an entry. -/
def State.pubCore (s : State) (e : SubEntry) : Nat := ((s.memberOf e.hood e.pmem).map fun p => (s.group p).core).getD 0
/-- SUBOFF (R81): the source is no longer forwarded and the stream is flushed; once the earlier updates are applied, status 0 is
written and both entries are freed. -/
def suboffBody (d a : Reg) : Body := fun env k s =>
  let th := env.before.thread k
  let off := (th.rv a).toNat
  let g := s.group th.gid
  let mine (e : SubEntry) : Bool := e.hood == g.hood && e.smem == g.hpos && e.soff == off
  let finish (s : State) (pub : Nat) : Lane :=
    .done (((s.modCore g.core fun c => { c with subIn := keep (fun _ e => !mine e) c.subIn }).modCore pub fun c =>
      { c with subOut := keep (fun _ e => !mine e) c.subOut }).modThread k fun t => t.wv d 0)
  if th.wait = .drained then finish s (((s.entryAt th.gid off).map fun e => s.pubCore e.2).getD g.core)
  else match s.inboundAt th.gid off with
    | none => .done (s.modThread k fun t => t.wv d 7)
    | some (key, e) =>
      let pub := s.pubCore e
      let s1 := (s.modCore g.core fun c => { c with subIn := put c.subIn key { e with closed := true } }).modCore pub fun c =>
        { c with subOut := mapValues (fun _ (o : SubEntry) => if mine o then { o with closed := true } else o) c.subOut }
      let s2 := s1.flushStream pub g.core
      let mark := (s2.core pub).produced
      if s2.updatesBelow pub (some g.core) mark then .hold s2 (.drain pub (some g.core) mark) else finish s2 pub
/-- Updates of a subscription produced and not yet applied (R73). -/
def State.subPending (s : State) (e : SubEntry) : Nat :=
  ((s.streams.flatMap fun x => x.2.basket ++ x.2.sent.flatten).filter fun u =>
    u.hood == e.hood && u.smem == e.smem && u.soff == e.soff).length
/-- The value SUBQ returns (R73). ACTIVE is 0 while the entry is tentative, and 1 from its installation to the end of its SUBOFF
(log 65). -/
def State.subValue (s : State) (e : SubEntry) : DWord :=
  BitVec.ofNat 64 ((e.len / 256 - 1) * 2 ^ 56 + min (s.subPending e) 65535 * 2 ^ 32 + e.final.toNat * 2 ^ 31 + e.pmem % 32 * 2 ^ 20 +
    e.poff % 2 ^ 20)
/-- SUBQ (R73, R212). -/
def subqBody (d a : Reg) : Body := fun env k s =>
  let th := env.before.thread k
  let x := match s.entryAt th.gid (th.rv a).toNat with
    | some e => s.subValue e.2
    | none => 0
  .done (s.modThread k fun t => t.ww d x)
/-- SUBFL flushes the core's baskets and waits for its updates (R79). -/
def subflBody : Body := fun env k s =>
  let th := env.before.thread k
  if th.wait = .drained then .done s
  else
    let s1 := s.flushCore th.core
    let mark := (s1.core th.core).produced
    if s1.updatesBelow th.core none mark then .hold s1 (.drain th.core none mark) else .done s1

/-! ### Timelines -/

/-- Timeline tl of a group (R207). -/
def State.timelineOf (s : State) (gid tl : Nat) : Timeline := lookupD Timeline.zero (s.group gid).tls tl
/-- A timeline set. -/
def State.setTimeline (s : State) (gid tl : Nat) (x : Timeline) : State :=
  s.modGroup gid fun g => { g with tls := putD Timeline.zero g.tls tl x }
/-- A timeline of the thread's group as it stands. -/
def Env.timeline (env : Env) (k tl : Nat) (s : State) : Timeline := s.timelineOf (env.before.thread k).gid tl
/-- `completed` advanced over the numbers already complete (R207). -/
def Timeline.settle : Nat → Timeline → Timeline
  | 0, x => x
  | n + 1, x =>
    if x.out.contains (x.completed + 1) then
      Timeline.settle n { x with completed := x.completed + 1, out := x.out.erase (x.completed + 1) }
    else x
/-- Number n of a timeline completes (R207). -/
def Timeline.complete (x : Timeline) (n : Nat) : Timeline :=
  Timeline.settle (x.out.length + 1) { x with out := x.out ++ [n] }
/-- Threads whose threshold a timeline has reached go on (R208). -/
def State.wakeTimelines (s : State) (gid : Nat) : State :=
  { s with threads := mapValues (fun _ (th : Thread) => match th.wait with
      | .timeline tl n => if th.gid = gid && decide (n ≤ (s.timelineOf gid tl).completed) then { th with wait := .none } else th
      | _ => th) s.threads }
/-- Number n of a timeline of a group completes, and its waiters go on (R207, R208). -/
def State.completeNumber (s : State) (gid tl n : Nat) : State :=
  (s.setTimeline gid tl ((s.timelineOf gid tl).complete n)).wakeTimelines gid
/-- TLW, timeline form (R208). -/
def tlwBody (threshold : Thread → Nat) (tk : BitVec 2) : Body := fun env k s =>
  let n := threshold (env.before.thread k)
  if n ≤ (env.timeline k tk.toNat s).completed then .done s
  else .done (s.modThread k fun th => { th with wait := .timeline tk.toNat n })
/-- TLW.CTR: an acquire load that repeats until the counter reaches wD (R209). -/
def counterBody (sc : Scope) (d a : Reg) (am : Am) (off : Off) : Body := fun env k s =>
  let b := env.before.thread k
  let addr := b.ea am a (offOf off)
  match s.access b k addr 8 8 false false with
  | .error c => .trap c addr 0
  | .ok l => s.ordered b .acq true sc fun s1 _ => s1.loadFrom k b addr l 8 (.counter d) fun s2 x =>
    if (b.rw d).toNat ≤ ofBytes x then .done s2 else .hold s2 .counter
/-- TLADV takes the next number, completes it and writes it (R210). -/
def tladvBody (d : Reg) (tk : BitVec 2) : Body := fun env k s =>
  let gid := (env.before.thread k).gid
  let x := s.timelineOf gid tk.toNat
  let n := x.issued + 1
  let s1 := s.setTimeline gid tk.toNat { x with issued := n, adv := x.adv ++ [n] }
  .done ((s1.completeNumber gid tk.toNat n).modThread k fun th => th.ww d (BitVec.ofNat 64 n))

/-- LD_S (R146, R195). -/
def execLdS (h : Head) (ord : Ord) (sc : Scope) (sz : LdSz) (d : Reg) (a : Reg) (am : Am) (off : BitVec 8) (s :
    State) : Host.Outcome State Fault Refusal :=
  issue (.ldS h ord sc sz d a am off) (loadBody ord sc sz d a am (.short off)) s

/-- LD_W (R146, R195). -/
def execLdW (h : Head) (ord : Ord) (sc : Scope) (sz : LdSz) (d : Reg) (a : Reg) (am : Am) (off : BitVec 32) (s :
    State) : Host.Outcome State Fault Refusal :=
  issue (.ldW h ord sc sz d a am off) (loadBody ord sc sz d a am (.long off)) s

/-- ST_S (R146, R196). -/
def execStS (h : Head) (ord : Ord) (sc : Scope) (sz : StSz) (d : Reg) (a : Reg) (am : Am) (off : BitVec 8) (s :
    State) : Host.Outcome State Fault Refusal :=
  issue (.stS h ord sc sz d a am off) (storeBody ord sc sz d a am (.short off)) s

/-- ST_W (R146, R196). -/
def execStW (h : Head) (ord : Ord) (sc : Scope) (sz : StSz) (d : Reg) (a : Reg) (am : Am) (off : BitVec 32) (s :
    State) : Host.Outcome State Fault Refusal :=
  issue (.stW h ord sc sz d a am off) (storeBody ord sc sz d a am (.long off)) s

/-- ATOM (R198, R199). -/
def execAtom (h : Head) (ord : Ord) (sc : Scope) (aop : Aop) (ty : Ty) (d : Reg) (a : Reg) (am : Am) (c : Reg) (off
    : BitVec 32) (s : State) : Host.Outcome State Fault Refusal :=
  issue (.atom h ord sc aop ty d a am c off) (atomicBody ord sc aop ty (.old d (State.atomBytes ty)) a am c off) s

/-- ACAS (R200). -/
def execAcas (h : Head) (ord : Ord) (sc : Scope) (ty : Ty) (d : Reg) (ps : BitVec 7) (a : Reg) (am : Am) (c : Reg)
    (n : Reg) (off : BitVec 32) (s : State) : Host.Outcome State Fault Refusal :=
  issue (.acas h ord sc ty d ps a am c n off) (acasBody ord sc ty d ps a am c n off) s

/-- RED (R198, R199). -/
def execRed (h : Head) (ord : Ord) (sc : Scope) (aop : Aop) (ty : Ty) (a : Reg) (am : Am) (c : Reg) (off : BitVec
    32) (s : State) : Host.Outcome State Fault Refusal :=
  issue (.red h ord sc aop ty a am c off) (atomicBody ord sc aop ty .none a am c off) s

/-- PREF_S (R201). -/
def execPrefS (h : Head) (lv : PrefLv) (a : Reg) (am : Am) (off : BitVec 8) (s : State) : Host.Outcome State Fault
    Refusal :=
  issue (.prefS h lv a am off) (prefBody lv a am (.short off)) s

/-- PREF_W (R201). -/
def execPrefW (h : Head) (lv : PrefLv) (a : Reg) (am : Am) (off : BitVec 32) (s : State) : Host.Outcome State Fault
    Refusal :=
  issue (.prefW h lv a am off) (prefBody lv a am (.long off)) s

/-- CFLUSH_S (R202). -/
def execCflushS (h : Head) (op : CfOp) (a : Reg) (am : Am) (off : BitVec 8) (s : State) : Host.Outcome State Fault
    Refusal :=
  issue (.cflushS h op a am off) (cflushBody op a am (.short off)) s

/-- CFLUSH_W (R202). -/
def execCflushW (h : Head) (op : CfOp) (a : Reg) (am : Am) (off : BitVec 32) (s : State) : Host.Outcome State Fault
    Refusal :=
  issue (.cflushW h op a am off) (cflushBody op a am (.long off)) s

/-- FENCE (R91, R203). -/
def execFence (h : Head) (ord : Ord) (sc : Scope) (s : State) : Host.Outcome State Fault Refusal :=
  issue (.fence h ord sc) (fenceBody ord sc) s

/-- BAR (R205, R206). -/
def execBar (h : Head) (hood : Bool) (k : BitVec 2) (s : State) : Host.Outcome State Fault Refusal :=
  issue (.bar h hood k) (if hood then barHoodBody else barBody k) s

/-- BARA (R205). -/
def execBara (h : Head) (d : Reg) (k : BitVec 2) (s : State) : Host.Outcome State Fault Refusal :=
  issue (.bara h d k) (baraBody d k) s

/-- BARW (R205). -/
def execBarw (h : Head) (a : Reg) (k : BitVec 2) (s : State) : Host.Outcome State Fault Refusal :=
  issue (.barw h a k) (barwBody a k) s

/-- SUBON (R72, R211). -/
def execSubon (h : Head) (prime : Bool) (d : Reg) (a : Reg) (b : Reg) (c : Reg) (l : Reg) (s : State) : Host.Outcome
    State Fault Refusal :=
  issue (.subon h prime d a b c l) (subonBody prime d a b c l) s

/-- SUBOFF (R81, R212). -/
def execSuboff (h : Head) (d : Reg) (a : Reg) (s : State) : Host.Outcome State Fault Refusal :=
  issue (.suboff h d a) (suboffBody d a) s

/-- SUBQ (R73, R212). -/
def execSubq (h : Head) (d : Reg) (a : Reg) (s : State) : Host.Outcome State Fault Refusal :=
  issue (.subq h d a) (subqBody d a) s

/-- SUBFL (R79, R213). -/
def execSubfl (h : Head) (s : State) : Host.Outcome State Fault Refusal :=
  issue (.subfl h) (subflBody) s

/-- TLW_S (R208). -/
def execTlwS (h : Head) (a : Reg) (k : BitVec 2) (s : State) : Host.Outcome State Fault Refusal :=
  issue (.tlwS h a k) (tlwBody (fun th => (th.rw a).toNat) k) s

/-- TLW_W (R208). -/
def execTlwW (h : Head) (imm : BitVec 32) (k : BitVec 2) (s : State) : Host.Outcome State Fault Refusal :=
  issue (.tlwW h imm k) (tlwBody (fun _ => imm.toNat) k) s

/-- TLW_CTR (R209). -/
def execTlwCtr (h : Head) (sc : Scope) (d : Reg) (a : Reg) (am : Am) (off : Off) (s : State) : Host.Outcome State
    Fault Refusal :=
  issue (.tlwCtr h sc d a am off) (counterBody sc d a am off) s

/-- TLR (R210). -/
def execTlr (h : Head) (iss : Bool) (d : Reg) (k : BitVec 2) (s : State) : Host.Outcome State Fault Refusal :=
  issue (.tlr h iss d k) (fun env k0 s => .done (s.modThread k0 fun th => th.ww d (BitVec.ofNat 64 (if iss then (env.timeline k0 k.toNat s).issued else (env.timeline k0 k.toNat s).completed)))) s

/-- TLADV (R207, R210). -/
def execTladv (h : Head) (d : Reg) (k : BitVec 2) (s : State) : Host.Outcome State Fault Refusal :=
  issue (.tladv h d k) (tladvBody d k) s

/-! ### Steps of the subscription hardware -/

/-- SUBON_REQUEST: the publisher's core installs the outbound entry or refuses it (R72, R73). -/
def State.subonArrives (s : State) (q : SubReq) : State :=
  let g := s.group q.gid
  match s.memberOf g.hood q.pmem with
  | none => s.post (.subonReply q 4)
  | some p =>
    let pub := (s.group p).core
    match freeFrom (s.core pub).subOut 16 0 with
    | none => s.post (.subonReply q 3)
    | some e =>
      if s.meetsInbound pub g.hood q.pmem q.poff q.len then s.post (.subonReply q 1)
      else
        let x : SubEntry := ⟨g.hood, g.hpos, q.soff, q.pmem, q.poff, q.len, true, if q.prime then some (q.len / 128) else none, false⟩
        (s.modCore pub fun c => { c with subOut := put c.subOut e x }).post (.subonReply q 0)
/-- SUBON_REPLY: the tentative entry becomes final or is freed, and the status is written (R73, R211); a reply to a gang that is
gone changes nothing (R82). -/
def State.subonEnds (s : State) (q : SubReq) (status : Nat) : State :=
  let g := s.group q.gid
  let mine (e : SubEntry) : Bool := !e.final && e.hood == g.hood && e.smem == g.hpos && e.soff == q.soff
  let s1 := if (lookup s.groups q.gid).isNone then s else s.modCore g.core fun c => { c with
    subIn := if !((lookup c.subIn q.entry).any mine) then c.subIn
      else if status = 0 then adjust c.subIn q.entry fun e => { e with final := true } else del c.subIn q.entry }
  s1.modThread q.th fun th => { th.wv q.d (BitVec.ofNat 32 status) with wait := .none }
/-- PRIMING_READ: the next 128-byte piece of the source enters the stream as an update (R80); the pieces are read in ascending order
(log 66). -/
def State.primeNext (s : State) (core entry : Nat) : State :=
  match lookup (s.core core).subOut entry with
  | none => s
  | some e =>
    match e.prime, s.memberOf e.hood e.pmem, s.memberOf e.hood e.smem with
    | some (n + 1), some p, some g =>
      let at_ := e.len - 128 * (n + 1)
      let u : Update := ⟨e.hood, e.smem, e.soff, e.soff + at_, (s.group p).alloc.read (e.poff + at_) 128, (s.core core).produced⟩
      let e' : SubEntry := { e with prime := if n = 0 then none else some n }
      (s.modCore core fun c => { c with subOut := put c.subOut entry e', produced := c.produced + 1 }).addUpdate core
        (s.group g).core u false
    | _, _, _ => s


/-- SUBON_REQUEST (R72, R73). -/
def execSubonRequest (req : SubReq) (s : State) : Host.Outcome State Fault Refusal :=
  .next (s.subonArrives req)

/-- SUBON_REPLY (R73, R211). -/
def execSubonReply (req : SubReq) (status : Nat) (s : State) : Host.Outcome State Fault Refusal :=
  .next (s.subonEnds req status)

/-- PRIMING_READ (R80). -/
def execPrimingRead (core : Nat) (entry : Nat) (s : State) : Host.Outcome State Fault Refusal :=
  .next (s.primeNext core entry)

/-- BASKET_FLUSH_TIMER (R76, R83). -/
def execBasketFlushTimer (pub : Nat) (sub : Nat) (s : State) : Host.Outcome State Fault Refusal :=
  .next (s.flushStream pub sub)

/-- BASKET_APPLY (R67, R75, R77 to R79, R83). -/
def execBasketApply (pub : Nat) (sub : Nat) (s : State) : Host.Outcome State Fault Refusal :=
  .next (s.applyStream pub sub)

end Sys2Proof.Machine
end

