-- ==== Sys2Proof/Machine/Matrix.lean ====
section
/-!
DEFINITION. Matrix and accumulator instructions (R215 to R227), opcodes 0xC0 to 0xC7, and the row MATRIX_PASS_COMPLETE.
-/
namespace Sys2Proof.Machine

/-! ### Matrix issue -/

/-- The lanes of thread k's quarter that are present (R219). -/
def Env.quarter (env : Env) (k : Nat) : List Nat :=
  env.present.filter fun j => (env.before.thread j).lane / 8 == (env.before.thread k).lane / 8
/-- The mask of the quarter's active positions (R219). -/
def Env.quarterMask (env : Env) (h : Head) (k : Nat) : Nat :=
  ((env.before.cur.filter fun j => (env.before.thread j).active h &&
    (env.before.thread j).lane / 8 == (env.before.thread k).lane / 8).map fun j => 2 ^ ((env.before.thread j).lane % 8)).sum
/-- Byte stride of an operand (R217). -/
def mxStride (field : BitVec 16) (f : MxFmt) (kb : Nat) : Nat :=
  if field = 0 then f.natural kb else 16 * field.toNat
/-- The check of one operand row: the failing cause, if any (R218). -/
def rowCause (size off len : Nat) : Option (BitVec 8) :=
  if 1048576 ≤ off then some causeAddr
  else if off % 16 ≠ 0 then some causeMisalign
  else if size < off + len then some causeScrBound
  else none
/-- The address a row is named by (R218). -/
def rowAddr (off : Nat) : DWord := 0xD000000000000000 ||| BitVec.ofNat 64 off
/-- The first failing B column of a quarter (R218). -/
def badColumn (size b sb len : Nat) : Option (Nat × BitVec 8) :=
  (List.range 16).findSome? fun c => (rowCause size (b + c * sb) len).map fun e => (b + c * sb, e)
/-- A thread's A row: vA, or vA + v_idx · sa (R218). -/
def aRow (th : Thread) (a : Reg) (idx : Option Reg) (pos sa : Nat) : Nat :=
  match idx with
  | none => (th.rv a).toNat + pos * sa
  | some r => (th.rv a).toNat + (th.rv r).toNat * sa

/-! ### Admission to the matrix engine -/

/-- What one quarter brings to the engine: threads with the offset of their A row, and the offset of the B tile. -/
structure Quarter where
  rows : List (Nat × Nat)
  bOff : Nat
  deriving DecidableEq

/-- The ranges a quarter pins: its A rows and its B tile (R66, R223). -/
def Quarter.spans (q : Quarter) (m : MxDesc) : List (Nat × Nat) :=
  let lo := (q.rows.map Prod.snd).min?.getD 0
  let hi := (q.rows.map Prod.snd).max?.getD 0 + m.fa.natural m.kb
  [(q.bOff, q.bOff + 15 * mxStride m.sb m.fb m.kb + m.fb.natural m.kb), (lo, hi)]

namespace State

/-- Nothing of some quarters' operands is still being written, and two entries are free for each (R67, R69, R223). -/
def canPin (s : State) (b : Thread) (m : MxDesc) (qs : List Quarter) : Bool :=
  (qs.all fun q => (q.spans m).all fun r => !s.mustWait b.core (.alloc b.gid) r.1 r.2 false) &&
    decide ((s.core b.core).score.length + 2 * qs.length ≤ 64)
/-- A quarter takes its pins and waits for the engine (R66, R223). -/
def pinQuarter (b : Thread) (d : Reg) (z : Bool) (m : MxDesc) (inst : Nat) (s : State) (q : Quarter) : State :=
  let p : Pass := ⟨b.core, b.gid, d.toNat, z, m.fa, m.fb, m.kb, q.rows, q.bOff, mxStride m.sb m.fb m.kb, s.prot b, inst, s.clk, none⟩
  (q.spans m).foldl (fun t r => t.takeScore b.core .pin (.alloc b.gid) r.1 r.2 (.pass s.fresh))
    { s.bump with passes := put s.passes s.fresh p }
/-- The pass of the engine a quarter fuses into: up to four quarters of one group and one B tile that issue in four core cycles
(R222). -/
def fusesWith (s : State) (p : Pass) : Option Pass :=
  let same (x : Pass) : Bool := x.core == p.core && x.gid == p.gid && x.bOff == p.bOff && x.fa == p.fa && x.fb == p.fb &&
    x.kb == p.kb && x.sb == p.sb && x.due.isSome && decide (s.clk ≤ x.cycle + 3)
  (s.passes.find? fun e => same e.2 && decide ((s.passes.filter fun f => same f.2 && f.2.cycle == e.2.cycle).length < 4)).map Prod.snd
/-- A pinned quarter enters the engine: it joins a pass or starts one behind those before it, its server is charged, and its
threads wait for their accumulators (R222, R302, R306). -/
def admitQuarter (s : State) (id : Nat) (p : Pass) (ctx : Nat) : State :=
  let key := s.mxKey ctx p.core
  let cycles := 2 * p.kb * passCount p.fa p.fb
  let own := max s.clk (s.core p.core).mxFree + cycles
  let p' : Pass := match s.fusesWith p with
    | some x => { p with cycle := x.cycle, due := x.due }
    | none => { p with cycle := s.clk, due := some own }
  let s1 := ({ s with passes := put s.passes id p' }.charge key cycles).modCore p.core fun c => { c with mxFree := max c.mxFree (p'.due.getD 0) }
  let s2 : State := if s.srvInstalled key then s1 else { s1 with turns := putD 0 s1.turns (2304 + p.core) ((key.id + 1) % 256) }
  p.rows.foldl (fun t r => t.modThread r.1 fun th => { th with pend := th.pend + 1 }) s2

/-- The issue of quarter q of an instruction, `all` the quarters that issue with it: they take their pins, in a protected launch
together, and q enters the engine; or what it waits for (R67, R69, R221 to R223). -/
def issueQuarter (s0 : State) (b : Thread) (d : Reg) (z : Bool) (m : MxDesc) (q : Quarter) (all : List Quarter) :
    Except (State × Wait) State :=
  let key := s0.mxKey b.ctx b.core
  let s := s0.arrive key
  let same (p : Pass) : Bool := p.rows.map Prod.fst == q.rows.map Prod.fst
  let enter (t : State) : Except (State × Wait) State :=
    match t.passes.find? fun e => same e.2 && e.2.due.isNone with
    | some e => if t.mxAdmits key then .ok (t.admitQuarter e.1 e.2 b.ctx) else .error (t, .quarter)
    | none => .error (t, .retry)
  let mates := if s.prot b then all else [q]
  if s.passes.any fun e => same e.2 && e.2.due.isSome then .ok s0
  else if s.passes.any fun e => same e.2 then enter s
  else if !s.canPin b m mates then .error (s, .retry)
  else if s.prot b then enter (mates.foldl (pinQuarter b d z m s.fresh) s)
  else if !s.mxAdmits key then .error (s, .quarter)
  else enter (pinQuarter b d z m s.fresh s q)

end State

/-- The trap of a whole quarter: incomplete, not uniform, or a B column that fails (R218, R219). -/
def quarterTrap (env : Env) (h : Head) (size : Nat) (a b : Reg) (m : MxDesc) (k : Nat) : Option (BitVec 8 × DWord × Word) :=
  let th := env.before.thread k
  let mates := env.quarter k
  let mask := BitVec.ofNat 64 (env.quarterMask h k)
  if mates.length ≠ 8 then some (causeQmask, mask, 0)
  else if !(mates.all fun j => (env.before.thread j).rv a == th.rv a && (env.before.thread j).rv b == th.rv b) then
    some (causeQmask, mask, 1)
  else (badColumn size (th.rv b).toNat (mxStride m.sb m.fb m.kb) (m.fb.natural m.kb)).map fun e => (e.2, rowAddr e.1, 0)
/-- A thread's A row in its quarter (R218). -/
def rowOf (env : Env) (a : Reg) (idx : Option Reg) (m : MxDesc) (j : Nat) : Nat :=
  aRow (env.before.thread j) a idx ((env.before.thread j).lane % 8) (mxStride m.sa m.fa m.kb)
/-- The quarter of thread k as it issues: its threads whose rows pass (R218, R219). -/
def quarterOf (env : Env) (size : Nat) (a b : Reg) (idx : Option Reg) (m : MxDesc) (k : Nat) : Quarter :=
  let rowOk (j : Nat) : Bool := (rowCause size (rowOf env a idx m j) (m.fa.natural m.kb)).isNone
  ⟨((env.quarter k).filter rowOk).map fun j => (j, rowOf env a idx m j), ((env.before.thread k).rv b).toNat⟩
/-- The quarters of an issue that enter the engine: complete, uniform, with a thread whose row passes. -/
def quartersOf (env : Env) (h : Head) (size : Nat) (a b : Reg) (idx : Option Reg) (m : MxDesc) : List Quarter :=
  (env.present.filter fun k => (env.quarter k).head? == some k && (quarterTrap env h size a b m k).isNone).map
    (quarterOf env size a b idx m) |>.filter fun q => !q.rows.isEmpty

/-- RMAC and RMAG for one thread: a thread whose row fails traps as the others of its quarter enter the engine (R216 to
R223, R33). -/
def matrixBody (h : Head) (z : Bool) (d a b : Reg) (idx : Option Reg) (m : MxDesc) : Body := fun env k s =>
  let th := env.before.thread k
  let size := s.allocSize th.gid
  match quarterTrap env h size a b m k with
  | some (c, v, x) => .trap c v x
  | none =>
    let q := quarterOf env size a b idx m k
    match (if q.rows.isEmpty then .ok s else s.issueQuarter th d z m q (quartersOf env h size a b idx m)) with
    | .error (s1, w) => .hold s1 w
    | .ok s1 => match rowCause size (rowOf env a idx m k) (m.fa.natural m.kb) with
      | some e => .trap e (rowAddr (rowOf env a idx m k)) 0
      | none => .done s1

/-! ### Completion -/

/-- Bytes of a row that are read: the planes of its records, the check plane in a protected launch, and the scale half-words
(R117 to R119, R126); whether poison is among them. -/
def rowPoisoned (mem : Store) (off : Nat) (f : MxFmt) (kb : Nat) (prot : Bool) : Bool :=
  ((List.range (MxFmt.block f * kb / 128)).any fun r => mem.poisoned (off + 128 * r) (if prot then 128 else 96)) ||
    mem.poisoned (off + MxFmt.block f * kb) (2 * kb)
/-- Offsets of the B columns of a pass (R218). -/
def Pass.columns (p : Pass) : List Nat := (List.range 16).map fun c => p.bOff + c * p.sb

namespace State

/-- The quarters of one instruction that have pins (R221). -/
def instPasses (s : State) (inst : Nat) : List (Nat × Pass) := s.passes.filter fun p => p.2.inst == inst
/-- Every quarter of an instruction has left the engine (R221, R222). -/
def instDue (s : State) (inst : Nat) : Bool :=
  (s.instPasses inst).all fun p => match p.2.due with
    | some t => decide (t ≤ s.clk)
    | none => false
/-- The first poison a pass consumes: the thread and the row (R360). -/
def passPoison (s : State) (p : Pass) : Option (Nat × Nat) :=
  let mem := (s.group p.gid).alloc
  match p.columns.find? fun o => rowPoisoned mem o p.fb p.kb p.prot with
  | some o => some ((p.rows.headD (0, 0)).1, o)
  | none => p.rows.find? fun r => rowPoisoned mem r.2 p.fa p.kb p.prot
/-- The check channel agrees in every pass of every block of every thread (R126). -/
def passClean (s : State) (p : Pass) : Bool :=
  let mem := (s.group p.gid).alloc
  !p.prot || p.rows.all fun r => p.columns.all fun o =>
    rowsAgree p.fa p.fb p.kb (mem.read r.2 (p.fa.natural p.kb)) (mem.read o (p.fb.natural p.kb))
/-- The accumulators of a pass written (R220). -/
def writePass (s : State) (p : Pass) : State :=
  let mem := (s.group p.gid).alloc
  let bs := p.columns.map fun o => mem.read o (p.fb.natural p.kb)
  p.rows.foldl (fun s r => s.modThread r.1 fun th =>
    let a := mem.read r.2 (p.fa.natural p.kb)
    let d := BitVec.ofNat 8 p.d
    th.warow d 0 ((List.range 16).map fun c =>
      BitVec.ofNat 32 (accumulate (if p.z then 0 else (th.ra d c).toNat) p.fa p.fb p.kb a (bs.getD c [])))) s
/-- A matrix instruction completes in a quarter, in a protected launch in all its quarters at once: the operands are read,
poison is consumed, the check channel compared, the accumulators written and the pins released (R68, R122 to R126, R220, R221,
R360). A quarter that still waits for the engine keeps it open. -/
def finishPass (s : State) (id : Nat) : State :=
  match lookup s.passes id with
  | none => s
  | some p =>
    let all := s.instPasses p.inst
    if all.any fun e => e.2.due.isNone then s
    else
      let s1 := { s with passes := keep (fun _ x => x.inst != p.inst) s.passes }.releaseScores fun e => all.any fun x => e.owner == Holder.pass x.1
      let s2 := (all.flatMap fun e => e.2.rows).foldl (fun s r => s.modThread r.1 fun th => { th with pend := th.pend - 1 }) s1
      match all.findSome? fun e => s2.passPoison e.2 with
      | some r => s2.killGang r.1 1 (rowAddr r.2) 0
      | none =>
        if all.all fun e => s2.passClean e.2 then all.foldl (fun t e => t.writePass e.2) s2
        else s2.killGang (p.rows.headD (0, 0)).1 3 0 0

end State

/-! ### Accumulator rows in memory -/

/-- The 16-byte pieces of a row at storage whose checks have passed. -/
def locPiece (l : Loc) (i : Nat) : Loc :=
  match l with
  | .alloc g o => .alloc g (o + 16 * i)
  | .slice k o => .slice k (o + 16 * i)
  | .dsp d o => .dsp d (o + 16 * i)
  | .regs k b => .regs k (b + 16 * i)
  | .global va => .global (va + 16 * i)
  | .own va => .own (va + 16 * i)
  | .peer p va => .peer p (va + 16 * i)
/-- Words of 64 bytes. -/
def rowWords (b : Bytes) : List Word := (List.range 16).map fun i => BitVec.ofNat 32 (ofBytes ((b.drop (4 * i)).take 4))
/-- ACLD (R227). -/
def acldBody (d a : Reg) (am : Am) (off : Off) : Body := fun env k s =>
  let b := env.before.thread k
  let addr := b.ea am a (offOf off)
  match s.access b k addr 64 64 false true with
  | .error c => .trap c addr 0
  | .ok (.global va) =>
    match s.l1Hit b.core b.ctx va with
    | some (key, l) => .done ((s.touchL1 b.ctx key l).modThread k fun th => th.warow d 0 (rowWords (l.read (va % 128) 64)))
    | none => .done ((List.range 4).foldl (fun s i => s.request k b addr (.global (va + 16 * i)) 16 .load (.acc d i)) s)
  | .ok l => s.loadFrom k b addr l 64 .none fun s1 x => .done (s1.modThread k fun th => th.warow d 0 (rowWords x))
/-- ACST; ACST.Z then zeroes the accumulator (R227). -/
def acstBody (z : Bool) (d a : Reg) (am : Am) (off : Off) : Body := fun env k s =>
  let b := env.before.thread k
  let addr := b.ea am a (offOf off)
  let piece (i : Nat) : Bytes := ((List.range 4).map fun j => b.ra d (4 * i + j)).flatMap fun x => toBytes 4 x.toNat
  let clear (s : State) : State := if z then s.modThread k fun th => th.warow d 0 (List.replicate 16 0) else s
  match s.access b k addr 64 64 false true with
  | .error c => .trap c addr 0
  | .ok (.global va) => .done ((List.range 4).foldl
      (fun s i => s.request k b addr (.global (va + 16 * i)) 16 (.store (piece i)) (if z then .zero d else .none)) s)
  | .ok l =>
    if s.locWaits l 64 true then .hold s .retry
    else .done (clear ((List.range 4).foldl (fun s i => s.writeLoc (locPiece l i) (piece i) false) s))

/-- RMAC (R216 to R223). -/
def execRmac (h : Head) (z : Bool) (d : Reg) (a : Reg) (b : Reg) (desc : MxDesc) (s : State) : Host.Outcome State
    Fault Refusal :=
  issue (.rmac h z d a b desc) (matrixBody h z d a b none desc) s

/-- RMAG (R216 to R223). -/
def execRmag (h : Head) (z : Bool) (d : Reg) (a : Reg) (b : Reg) (c : Reg) (desc : MxDesc) (s : State) :
    Host.Outcome State Fault Refusal :=
  issue (.rmag h z d a b c desc) (matrixBody h z d a b (some c) desc) s

/-- ACZ (R225). -/
def execAcz (h : Head) (d : Reg) (s : State) : Host.Outcome State Fault Refusal :=
  issue (.acz h d) (onThread fun _ _ th => th.warow d 0 (List.replicate 16 0)) s

/-- ACLD_S (R227). -/
def execAcldS (h : Head) (d : Reg) (a : Reg) (am : Am) (off : BitVec 8) (s : State) : Host.Outcome State Fault
    Refusal :=
  issue (.acldS h d a am off) (acldBody d a am (.short off)) s

/-- ACLD_W (R227). -/
def execAcldW (h : Head) (d : Reg) (a : Reg) (am : Am) (off : BitVec 32) (s : State) : Host.Outcome State Fault
    Refusal :=
  issue (.acldW h d a am off) (acldBody d a am (.long off)) s

/-- ACST_S (R227). -/
def execAcstS (h : Head) (z : Bool) (d : Reg) (a : Reg) (am : Am) (off : BitVec 8) (s : State) : Host.Outcome State
    Fault Refusal :=
  issue (.acstS h z d a am off) (acstBody z d a am (.short off)) s

/-- ACST_W (R227). -/
def execAcstW (h : Head) (z : Bool) (d : Reg) (a : Reg) (am : Am) (off : BitVec 32) (s : State) : Host.Outcome State
    Fault Refusal :=
  issue (.acstW h z d a am off) (acstBody z d a am (.long off)) s

/-- ACRD (R225). -/
def execAcrd (h : Head) (d : Reg) (a : Reg) (e : BitVec 4) (s : State) : Host.Outcome State Fault Refusal :=
  issue (.acrd h d a e) (onThread fun _ _ th => th.wv d (th.ra a e.toNat)) s

/-- ACWR (R225). -/
def execAcwr (h : Head) (d : Reg) (a : Reg) (e : BitVec 4) (s : State) : Host.Outcome State Fault Refusal :=
  issue (.acwr h d a e) (onThread fun _ _ th => th.wa d e.toNat (th.rv a)) s

/-- ACMUL (R226). -/
def execAcmul (h : Head) (rnd : Rm) (d : Reg) (a : Reg) (b : Reg) (s : State) : Host.Outcome State Fault Refusal :=
  issue (.acmul h rnd d a b) (onThread fun _ _ th => (th.warow d 0 ((th.rarow a).map fun x => BitVec.ofNat 32 (fMul .f32 rnd x.toNat (th.rv b).toNat).1)).raise ((th.rarow a).foldl (fun f x => f ||| (fMul .f32 rnd x.toNat (th.rv b).toNat).2) 0)) s

/-- MATRIX_PASS_COMPLETE (R68, R122 to R126, R220). -/
def execMatrixPassComplete (pass : Nat) (s : State) : Host.Outcome State Fault Refusal :=
  .next (s.finishPass pass)

end Sys2Proof.Machine
end

