-- ==== Sys2Proof/Machine/Copies.lean ====
section
/-!
DEFINITION. Copies (R228 to R240): opcodes 0xD0 to 0xD6, the copy engine's steps COPY_UNIT and COPY_COMPLETE, and the
delivery of responses to threads and copies (MEMORY_RESPONSE).
-/
namespace Sys2Proof.Machine

/-! ### Shape of a copy (R228 to R231) -/

/-- Row length field plus one (R230). -/
def CpDesc.len (m : CpDesc) : Nat := m.lnm1.toNat + 1
/-- Rows of a copy (R229). -/
def CpDesc.rows (m : CpDesc) : Nat := m.nrm1.toNat + 1
/-- Bytes of a source row (R230). -/
def srcRowLen (k : CpKind) (m : CpDesc) : Nat :=
  let l := CpDesc.len m
  match k, m.fmt with
  | .cpf, _ => 0
  | _, .raw => 16 * l
  | .cpi, .bq8 => 32 * l
  | .cpi, .bq4 => 16 * l
  | .cpi, _ => 64 * l
  | _, _ => 128 * l
/-- Bytes of a destination row (R230). -/
def dstRowLen (k : CpKind) (m : CpDesc) : Nat :=
  let l := CpDesc.len m
  match k, m.fmt with
  | _, .raw => 16 * l
  | .cpi, .bx16 => 256 * l + 16
  | .cpi, _ => 128 * l + 16
  | _, .bq8 => 32 * l
  | _, .bq4 => 16 * l
  | _, _ => 64 * l
/-- Scale stride σ (R230). -/
def scaleStride (k : CpKind) (m : CpDesc) : Nat :=
  let base := if k = .cpi then m.sstr.toNat else m.dstr.toNat
  if m.fmt = .bq4 then 2 * base else base
/-- Address of source row i (R230). -/
def srcRow (a : DWord) (m : CpDesc) (i : Nat) : DWord := a + BitVec.ofNat 64 (16 * m.sstr.toNat * i)
/-- Address of destination row i (R230). -/
def dstRow (b : DWord) (m : CpDesc) (i : Nat) : DWord := b + BitVec.ofNat 64 (16 * m.dstr.toNat * i)
/-- Address of scale row i (R230). -/
def scaleRow (c : DWord) (k : CpKind) (m : CpDesc) (i : Nat) : DWord := c + BitVec.ofNat 64 (scaleStride k m * i)

/-- Apertures a copy may name as its source or destination (R231); the scale array lies on the global side. -/
def copyAperture (k : CpKind) (dst : Bool) (x : Space) : Bool :=
  match k, dst, x with
  | .cpi, false, .global _ | .cpo, true, .global _ | .cpf, true, .global _ | .cpr, _, .global _ | .cpr, _, .domain _ _ => true
  | .cpi, true, .slice _ | .cpi, true, .core _ | .cpi, true, .hood _ _ | .cpi, true, .dsp _ => true
  | .cpo, false, .slice _ | .cpo, false, .core _ | .cpo, false, .hood _ _ | .cpo, false, .dsp _ => true
  | .cpf, true, .slice _ | .cpf, true, .core _ | .cpf, true, .hood _ _ | .cpf, true, .dsp _ => true
  | .cpl, _, .slice _ | .cpl, _, .core _ | .cpl, _, .hood _ _ | .cpl, _, .dsp _ | .cpl, _, .window _ _ _ => true
  | .cpr, _, .slice _ | .cpr, _, .core _ | .cpr, _, .hood _ _ | .cpr, _, .dsp _ => true
  | _, _, _ => false
/-- Whether an address lies in the domain aperture. -/
def isDomain (a : DWord) : Bool :=
  match spaceOf a with
  | .domain _ _ => true
  | _ => false

namespace State

/-- The check of one row of one operand under R53: decode, operation, alignment, bounds (R231, R232). A CPR with no side in
the domain aperture fails its operation check, at the row and side checked first (log 82). -/
def rowCheck (s : State) (th : Thread) (k : Nat) (kind : CpKind) (dst scale : Bool) (other : DWord) (a : DWord)
    (n align : Nat) : Option (BitVec 8) :=
  let sp := spaceOf a
  let okHere := if scale then (match sp with
      | .global _ => true
      | _ => false) else copyAperture kind dst sp
  if sp = .bad then some causeAddr
  else if !okHere || (kind = .cpr && !scale && !isDomain a && !isDomain other) then some causeAddr
  else match s.access th k a n align false false with
    | .error c => some c
    | .ok _ => none
/-- The checks of one row in the order source, destination, scale: the failing cause and address (R232). -/
def copyRowCheck (s : State) (th : Thread) (k : Nat) (kind : CpKind) (m : CpDesc) (src dst scl : DWord) (i : Nat) :
    Option (BitVec 8 × DWord) :=
  let sa := srcRow src m i
  let da := dstRow dst m i
  let ca := scaleRow scl kind m i
  let bad (x : Option (BitVec 8)) (a : DWord) : Option (BitVec 8 × DWord) := x.map fun c => (c, a)
  let first := if kind = .cpf then none else bad (s.rowCheck th k kind false false da sa (srcRowLen kind m) 16) sa
  match first with
  | some e => some e
  | none => match bad (s.rowCheck th k kind true false sa da (dstRowLen kind m) 16) da with
    | some e => some e
    | none => if CpFmt.scaled m.fmt then bad (s.rowCheck th k kind (kind == .cpo) true da ca (2 * CpDesc.len m) 2) ca else none

/-! ### Scoreboard entries of a copy (R66) -/

/-- The spans one operand's rows cover in core scratchpad: one for each piece of storage. -/
def copySpans (s : State) (th : Thread) (k : Nat) (row : Nat → DWord) (len rows : Nat) : List (Nat × Place × Nat × Nat) :=
  (List.range rows).foldl (fun acc i =>
    match s.access th k (row i) len 1 false false with
    | .ok l => match s.placeOf l len with
      | some (core, p, lo, hi) =>
        if acc.any fun e => e.2.1 == p then
          acc.map fun e => if e.2.1 = p then (e.1, p, min e.2.2.1 lo, max e.2.2.2 hi) else e
        else acc ++ [(core, p, lo, hi)]
      | none => acc
    | .error _ => acc) []
/-- The entries a copy takes: write entries for its destination, read entries for its source (R66). -/
def copyEntries (s : State) (th : Thread) (k : Nat) (kind : CpKind) (m : CpDesc) (src dst : DWord) :
    List (ScoreKind × Nat × Place × Nat × Nat) :=
  (s.copySpans th k (dstRow dst m) (dstRowLen kind m) (CpDesc.rows m)).map (fun e => (ScoreKind.write, e)) ++
  (if kind = .cpf then [] else
    (s.copySpans th k (srcRow src m) (srcRowLen kind m) (CpDesc.rows m)).map fun e => (ScoreKind.read, e))
/-- Entries of a core that copies hold. -/
def copyHeld (s : State) (core : Nat) : Nat :=
  ((s.core core).score.filter fun e => e.kind != .pin).length
/-- Whether the scoreboards have room for the entries: at most 56 of a core by copies, 64 in all (R66, R69). -/
def copyRoom (s : State) (es : List (ScoreKind × Nat × Place × Nat × Nat)) : Bool :=
  es.all fun e =>
    let n := (es.filter fun f => f.2.1 == e.2.1).length
    decide (s.copyHeld e.2.1 + n ≤ 56) && decide ((s.core e.2.1).score.length + n ≤ 64)

/-- Units of row i (R234). -/
def rowUnits (kind : CpKind) (m : CpDesc) (dst : DWord) (i : Nat) : Nat :=
  let l := CpDesc.len m
  match kind, m.fmt with
  | _, .raw => ((dstRow dst m i).toNat % 128 + 16 * l + 127) / 128
  | .cpi, .bx16 => 2 * l + 1
  | .cpi, _ => l + 1
  | _, _ => l
/-- Row and index within it of unit n, from row i on. -/
def unitAt (kind : CpKind) (m : CpDesc) (dst : DWord) : Nat → Nat → Nat → Nat × Nat
  | 0, i, n => (i, n)
  | f + 1, i, n => if n < rowUnits kind m dst i then (i, n) else unitAt kind m dst f (i + 1) (n - rowUnits kind m dst i)

/-- The copy of a number on a timeline of a group, if it has not completed. -/
def copyOf (s : State) (gid tl n : Nat) : Option (Nat × CopyRec) :=
  s.copies.find? fun e => e.2.gid == gid && e.2.desc.tl.toNat == tl && e.2.num == n

end State

/-- A copy at issue: the checks of every row, the release, the queue and scoreboard waits, the number (R232, R233). -/
def copyBody (kind : CpKind) (d : Reg) (a : Option Reg) (b c : Reg) (m : CpDesc) : Body := fun env k s =>
  let th := env.before.thread k
  let src := match a with
    | some r => th.rw r
    | none => 0
  let dst := th.rw b
  let scl := if CpFmt.scaled m.fmt then th.rw c else 0
  match (List.range (CpDesc.rows m)).findSome? (s.copyRowCheck th k kind m src dst scl) with
  | some e => .trap e.1 e.2 0
  | none =>
    match s.flushFirst th true false m.sc with
    | (s1, some w) => .hold s1 w
    | (s1, none) =>
      let es := s1.copyEntries th k kind m src dst
      if 64 ≤ (s1.copies.filter fun e => e.2.core == th.core).length || !s1.copyRoom es then .hold s1 .retry
      else
        let s2 := if State.domainScope m.sc then s1.clockRelease th.ctx else s1
        let id := s2.fresh
        let tl := m.tl.toNat
        let x := s2.timelineOf th.gid tl
        let total := ((List.range (CpDesc.rows m)).map (State.rowUnits kind m dst)).sum
        let r : CopyRec := ⟨th.core, th.gid, k, kind, m, src, dst, scl, if kind = .cpf then th.rv c else 0, x.issued + 1, 0, total,
          .queued, false, none, [], []⟩
        let s3 := { (s2.bump).setTimeline th.gid tl { x with issued := x.issued + 1 } with copies := put s2.copies id r }
        let s4 := es.foldl (fun t e => t.takeScore e.2.1 e.1 e.2.2.1 e.2.2.2.1 e.2.2.2.2 (.copy id)) s3
        .done (s4.modThread k fun t => t.ww d (BitVec.ofNat 64 (x.issued + 1)))

/-! ### The engine -/

/-- What comes of reading or writing one piece for a copy. -/
inductive Moved where
  | ok (s : State)
  | fault (s : State) (f : FaultInfo) (acc : Nat) (addr : DWord)
  | poison (s : State) (addr : DWord)
  | away (s : State)
  | lost (s : State)

/-- Pieces of n bytes at an address, cut at 128-byte lines: offset in the run and length. -/
def linePieces (a n : Nat) : List (Nat × Nat) :=
  (List.range ((a % 128 + n + 127) / 128)).map fun j =>
    let lo := max a ((a / 128 + j) * 128)
    let hi := min (a + n) ((a / 128 + j + 1) * 128)
    (lo - a, hi - lo)

namespace State

/-- The context of a copy. -/
def copyCtx (s : State) (c : CopyRec) : Nat := (s.group c.gid).ctx
/-- One more answer is awaited for a unit. -/
def askUnit (us : List CopyUnit) (n : Nat) : List CopyUnit :=
  if us.any fun u => u.num == n then us.map fun u => if u.num = n then { u with unacked := u.unacked + 1 } else u
  else us ++ [⟨n, 1, []⟩]
/-- A request of the unit a copy is at to a peer package, over the bound route (R62, R315). -/
def copyRequest (s : State) (id : Nat) (c : CopyRec) (pkg va : Nat) (addr : DWord) (n : Nat) (op : ReqOp)
    (note : Option Nat) (poison : Bool) : Moved :=
  let ctx := s.copyCtx c
  match lookup s.routes (routeKey (s.sgrpOf ctx) pkg) with
  | none => .lost s
  | some r =>
    let tag := s.fresh
    let q : MemReq := ⟨c.th, ctx, c.core, s.clk, 0, addr, n, op, .copy id c.next note, true, some r.link, [], false, none, false⟩
    .away ({ s.bump with reqs := put s.reqs tag q, copies := adjust s.copies id fun x => { x with units := askUnit x.units c.next }
        }.queueTxn ⟨true, r.link⟩ (Txn.new (s.sgrpOf ctx) ctx tag
        ⟨kindHdr 1, s.commandWord ctx r.peer tag va op poison, flitData (va % 128) op⟩ s.tick))
/-- A line held in L2, or its drawer line, marked poisoned (R359). -/
def poisonLine (s : State) (l : Line) : State :=
  match s.l2Find l.asid l.cline with
  | some (k, x) => s.setL2 k { x with poison := true }
  | none => { s with drawer := s.drawer.addPoison 128 l.pa 128 }
/-- Flags of the 8-byte words of a run read from storage: which hold poison (R359). -/
def wordFlags (m : Store) (off n : Nat) : List Bool := (List.range ((n + 7) / 8)).map fun i => m.poisoned (off + 8 * i) 8
/-- Poison flags of on-chip storage. -/
def locFlags (s : State) (l : Loc) (n : Nat) : List Bool :=
  match l with
  | .alloc g off => wordFlags (s.group g).alloc off n
  | .slice k off => wordFlags (s.thread k).slice off n
  | .dsp d off => wordFlags (lookupD Store.zero s.dsp d) off n
  | _ => List.replicate ((n + 7) / 8) false

/-- A read of n bytes for a copy: bytes and the poison flags of their 8-byte words, in line pieces for global memory. A register that holds
an uncorrectable error is consumed by its read through the window (R357, R360). -/
def copyRead (s : State) (c : CopyRec) (a : DWord) (n : Nat) : Except Moved (State × Bytes × List Bool) :=
  (linePieces a.toNat n).foldl (fun r p =>
    match r with
    | .error e => .error e
    | .ok (s, b, f) =>
      let at_ := a + BitVec.ofNat 64 p.1
      let ofServe (va : Nat) : Except Moved (State × Bytes × List Bool) :=
        match s.readGlobal ⟨s.copyCtx c, va, true, false, 4⟩ p.2 with
        | .ok (s', x, bad) => .ok (s', b ++ x, f ++ List.replicate ((p.2 + 7) / 8) bad)
        | .error (.fault s' i acc) => .error (.fault s' i acc at_)
        | .error (.poison s') => .error (.poison s' at_)
        | .error (.ok s' _) => .error (.ok s')
      match s.access (s.thread c.th) c.th at_ p.2 1 false false with
      | .error _ => .error (.lost s)
      | .ok (.global va) => ofServe va
      | .ok (.own va) => ofServe va
      | .ok (.peer _ _) => .error (.lost s)
      | .ok (.regs k o) => if (s.readLoc (.regs k o) p.2).2 then .error (.poison s at_)
          else .ok (s, b ++ (s.readLoc (.regs k o) p.2).1, f ++ s.locFlags (.regs k o) p.2)
      | .ok l => .ok (s, b ++ (s.readLoc l p.2).1, f ++ s.locFlags l p.2)) (.ok (s, [], []))

/-- 16-byte pieces of a run written to on-chip storage with the poison of their words (R84, R359). -/
def putPieces (s : State) (l : Loc) (b : Bytes) (f : List Bool) : State :=
  let s1 := (List.range ((b.length + 15) / 16)).foldl
    (fun t i => t.writeLoc (locPiece l i) ((b.drop (16 * i)).take 16) false) s
  (List.range f.length).foldl (fun t i =>
    if f.getD i false then match l with
      | .alloc g o => t.poisonLoc (.alloc g (o + 8 * i)) 8
      | .slice k o => t.poisonLoc (.slice k (o + 8 * i)) 8
      | .dsp d o => t.poisonLoc (.dsp d (o + 8 * i)) 8
      | _ => t
    else t) s1

/-- Pieces written for a copy: to on-chip storage, through the home slice, or to a peer package. Poison that reaches a register
through the window is consumed (R360). -/
def copyPieces (s : State) (id : Nat) (c : CopyRec) (a : DWord) (b : Bytes) (f : List Bool) : Moved :=
  (linePieces a.toNat b.length).foldl (fun r p =>
    let go (s : State) : Moved :=
      let at_ := a + BitVec.ofNat 64 p.1
      let x := (b.drop p.1).take p.2
      let g := (f.drop (p.1 / 8)).take ((p.2 + 7) / 8)
      let bad := g.any fun y => y
      let ofServe (va : Nat) : Moved :=
        match s.serve ⟨s.copyCtx c, va, false, true, 5⟩ with
        | .ok s1 l =>
          let s2 := s1.writeLine (s.copyCtx c) va l x
          .ok (if bad then s2.poisonLine l else s2)
        | .fault s1 i acc => .fault s1 i acc at_
        | .poison s1 => .poison s1 at_
      match s.access (s.thread c.th) c.th at_ p.2 1 false false with
      | .error _ => .lost s
      | .ok (.global va) => ofServe va
      | .ok (.own va) => ofServe va
      | .ok (.peer pkg va) => s.copyRequest id c pkg va at_ p.2 (.store x) none bad
      | .ok (.regs k o) => if bad then .poison s at_ else .ok (s.putPieces (.regs k o) x g)
      | .ok l => .ok (s.putPieces l x g)
    match r with
    | .ok s => go s
    | .away s => (match go s with
      | .ok s' => .away s'
      | y => y)
    | y => y) (.ok s)

/-- An attempt that writes all of its bytes or none: what meets a fault or poison leaves the state as before, but for the open
values it drew (R236, R240). -/
def wholly (s : State) (go : State → Moved) : Moved :=
  let back (t : State) : State := { s with freeCtr := t.freeCtr }
  match go s with
  | .fault t f acc addr => .fault (back t) f acc addr
  | .poison t addr => .poison (back t) addr
  | m => m
/-- A write of bytes for a copy, whole or not at all. -/
def copyWrite (s : State) (id : Nat) (c : CopyRec) (a : DWord) (b : Bytes) (f : List Bool) : Moved :=
  s.wholly fun t => t.copyPieces id c a b f

/-- Whether the source address of a copy lies in a peer package. -/
def peerSource (s : State) (c : CopyRec) (a : DWord) (n : Nat) : Option Nat :=
  match s.access (s.thread c.th) c.th a n 1 false false with
  | .ok (.peer pkg _) => some pkg
  | _ => none

/-- A converting read: poison among its bytes is consumed (R360). -/
def copyConsume (s : State) (c : CopyRec) (a : DWord) (n : Nat) : Except Moved (State × Bytes) :=
  match s.copyRead c a n with
  | .error e => .error e
  | .ok (s', b, f) => if f.any fun y => y then .error (.poison s' a) else .ok (s', b)

/-- Bytes of a RAW piece of a row: from the snapshot of a CPL, or read now. -/
def rawBytes (s : State) (c : CopyRec) (i off n : Nat) : Except Moved (State × Bytes × List Bool) :=
  match c.snap with
  | some b =>
    let at_ := i * srcRowLen c.kind c.desc + off
    .ok (s, (b.drop at_).take n, (List.range ((n + 7) / 8)).map fun j => c.snapBad.contains (at_ / 8 + j))
  | none => s.copyRead c (srcRow c.src c.desc i + BitVec.ofNat 64 off) n
/-- Every source byte of a CPL read before its first unit (R234). -/
def takeSnap (s : State) (id : Nat) (c : CopyRec) : State :=
  let n := srcRowLen c.kind c.desc
  let r := (List.range (CpDesc.rows c.desc)).foldl (fun (acc : Bytes × List Bool) i =>
    match s.copyRead c (srcRow c.src c.desc i) n with
    | .ok (_, b, f) => (acc.1 ++ b, acc.2 ++ f)
    | .error _ => acc) ([], [])
  let bad := (List.range r.2.length).filter fun i => r.2.getD i false
  { s with copies := adjust s.copies id fun x => { x with snap := some r.1, snapBad := bad } }.releaseScores fun e =>
    e.owner == Holder.copy id && e.kind == ScoreKind.read

/-- A unit of a RAW copy or a CPF: one 128-byte-aligned block of a destination row (R234). -/
def rawUnit (s : State) (id : Nat) (c : CopyRec) (i j : Nat) : Moved :=
  let row := (dstRow c.dst c.desc i).toNat
  let lo := max row ((row / 128 + j) * 128)
  let hi := min (row + dstRowLen c.kind c.desc) ((row / 128 + j + 1) * 128)
  let dst := BitVec.ofNat 64 lo
  if c.kind = .cpf then
    s.copyWrite id c dst ((List.range ((hi - lo) / 4)).flatMap fun _ => toBytes 4 c.fill.toNat) []
  else
    let src := srcRow c.src c.desc i + BitVec.ofNat 64 (lo - row)
    match s.peerSource c src (hi - lo) with
    | some pkg =>
      (linePieces src.toNat (hi - lo)).foldl (fun r p =>
        match r with
        | .ok s | .away s =>
          s.copyRequest id c pkg ((src + BitVec.ofNat 64 p.1).toNat % 2 ^ 53) (src + BitVec.ofNat 64 p.1) p.2 .load (some (lo + p.1)) false
        | y => y) (.ok s)
    | none => match s.rawBytes c i (lo - row) (hi - lo) with
      | .error e => e
      | .ok (s', b, f) => s'.copyWrite id c dst b f

/-- A unit of a firing copy: a record of a block, or the row's scale tail (R120, R121, R234). -/
def fireUnit (s : State) (id : Nat) (c : CopyRec) (i j : Nat) : Moved :=
  let l := CpDesc.len c.desc
  let src := srcRow c.src c.desc i
  let dst := dstRow c.dst c.desc i
  let at_ (a : DWord) (n : Nat) : DWord := a + BitVec.ofNat 64 n
  match c.desc.fmt with
  | .bx16 =>
    if j < 2 * l then
      match s.copyConsume c (at_ src (64 * (j / 2))) 64 with
      | .error e => e
      | .ok (s', b) =>
        let r := fireBx (halfWords b)
        s'.copyWrite id c (at_ dst (128 * j)) (fireRecord (if j % 2 = 0 then r.2.1 else r.2.2)) []
    else match s.copyConsume c src (64 * l) with
      | .error e => e
      | .ok (s', b) =>
        let codes := (List.range l).flatMap fun n => toBytes 2 (fireBx (halfWords ((b.drop (64 * n)).take 64))).1
        s'.copyWrite id c (at_ dst (256 * l)) (codes ++ List.replicate (16 - 2 * l) 0) []
  | fmt =>
    if j < l then
      let n := if fmt = .bq8 then 32 else 16
      match s.copyConsume c (at_ src (n * j)) n with
      | .error e => e
      | .ok (s', b) => s'.copyWrite id c (at_ dst (128 * j)) (fireRecord (if fmt = .bq8 then bq8Elems b else bq4Elems b)) []
    else match s.copyConsume c (scaleRow c.scl c.kind c.desc i) (2 * l) with
      | .error e => e
      | .ok (s', b) =>
        let codes := (halfWords b).flatMap fun x => toBytes 2 (x % 512)
        s'.copyWrite id c (at_ dst (128 * l)) (codes ++ List.replicate (16 - 2 * l) 0) []

/-- A unit of a glazing or narrowing copy: the output of one source block of 32 elements (R127, R128, R234). -/
def glazeUnit (s : State) (id : Nat) (c : CopyRec) (i j : Nat) : Moved :=
  let at_ (a : DWord) (n : Nat) : DWord := a + BitVec.ofNat 64 n
  let dst := dstRow c.dst c.desc i
  match s.copyConsume c (at_ (srcRow c.src c.desc i) (128 * j)) 128 with
  | .error e => e
  | .ok (s', b) =>
    let v := wordsOf b
    let scaled (cut : Nat) (lo hi : Int) (n : Nat) (enc : List Int → Bytes) : Moved :=
      let g := glaze cut lo hi v
      s'.wholly fun t => match t.copyPieces id c (at_ (scaleRow c.scl c.kind c.desc i) (2 * j)) (toBytes 2 g.1) [] with
      | .ok s2 => s2.copyPieces id c (at_ dst (n * j)) (enc g.2) []
      | e => e
    match c.desc.fmt with
    | .bq8 => scaled 6 (-128) 127 32 bq8Bytes
    | .bq4 => scaled 2 (-8) 7 16 bq4Bytes
    | .bf16 => s'.copyWrite id c (at_ dst (64 * j)) (narrowBytes .bf16 v) []
    | _ => s'.copyWrite id c (at_ dst (64 * j)) (narrowBytes .f16 v) []

/-- The unit a copy is at. -/
def moveUnit (s : State) (id : Nat) (c : CopyRec) : Moved :=
  let u := unitAt c.kind c.desc c.dst (CpDesc.rows c.desc) 0 c.next
  if c.desc.fmt = .raw then s.rawUnit id c u.1 u.2
  else if c.kind = .cpi then s.fireUnit id c u.1 u.2
  else s.glazeUnit id c u.1 u.2

/-- A copy changed. -/
def modCopy (s : State) (id : Nat) (f : CopyRec → CopyRec) : State := { s with copies := adjust s.copies id f }
/-- The gang of a copy is to be killed (R360, R363). -/
def killCopy (s : State) (c : CopyRec) (addr : DWord) : State :=
  s.post (.gangKill (s.group c.gid).hood ⟨1, addr, 0, (s.group c.gid).hpos⟩)
/-- A unit that waited has been written whole (R234). -/
def unitWritten (s : State) (id n : Nat) : State :=
  s.modCopy id fun x => { x with units := x.units.filter fun u => u.num != n }

/-- Entries of other holders that stand before a copy's own and that it must wait for (R67). -/
def copyWaits (s : State) (id : Nat) : Bool :=
  s.cores.any fun c =>
    let before := c.2.score.takeWhile fun e => e.owner != Holder.copy id
    (c.2.score.filter fun e => e.owner == Holder.copy id).any fun own =>
      before.any fun e => e.place == own.place && decide (e.lo < own.hi) && decide (own.lo < e.hi) &&
        (own.kind == .write || e.kind == .write)
/-- Slots an attempt has queued on a link. -/
def newSlots (before after : State) (l : LinkId) : Nat := (after.link l).queue.length - (before.link l).queue.length
/-- Links on which an attempt has queued work. -/
def newWork (before after : State) : List LinkId :=
  ((keysOf after.links).map linkOf).filter fun l => decide (newSlots before after l ≠ 0)
/-- What is left in a state after a unit's attempt. -/
def movedState : Moved → State
  | .ok s | .away s | .lost s => s
  | .fault s _ _ _ => s
  | .poison s _ => s
/-- A CPL before its first unit reads its source whole (R234). -/
def startCopy (s : State) (id : Nat) (c : CopyRec) : State :=
  if c.kind = .cpl && c.next = 0 && c.snap.isNone then s.takeSnap id c else s
/-- The source row of a CPL that cannot be read before its first unit, since a register there holds an uncorrectable error (R360). -/
def snapLost (s : State) (c : CopyRec) : Option DWord :=
  if c.kind = .cpl && c.next = 0 && c.snap.isNone then
    (List.range (CpDesc.rows c.desc)).findSome? fun i =>
      match s.copyRead c (srcRow c.src c.desc i) (srcRowLen c.kind c.desc) with
      | .error (.poison _ a) => some a
      | _ => none
  else none
/-- A copy's next unit attempted. -/
def tryUnit (s : State) (id : Nat) (c : CopyRec) : Moved :=
  match s.snapLost c with
  | some a => .poison s a
  | none =>
    let s1 := s.startCopy id c
    s1.moveUnit id ((lookup s1.copies id).getD c)
/-- The links that the slots of a copy's next unit lie on (R235). -/
def unitPath (s : State) (id : Nat) (c : CopyRec) : List LinkId := newWork s (movedState (s.tryUnit id c))
/-- Why a copy's next unit may not start: 3 scoreboard, 1 a hard server on its path; none when it may (R67, R235, R239, R413). -/
def copyBlock (s : State) (id : Nat) (c : CopyRec) : Option Nat :=
  if c.next = 0 && s.copyWaits id then some 3
  else if s.heldNow (s.cpKey (s.copyCtx c) c.core) || (s.unitPath id c).any (s.linkShort (s.copyCtx c)) then some 1 else none
/-- The row a unit of a copy writes. -/
def rowOf (c : CopyRec) (n : Nat) : Nat := (unitAt c.kind c.desc c.dst (CpDesc.rows c.desc) 0 n).1
/-- Where rows of a copy overlap, a unit starts behind the units of earlier rows: the higher-numbered row writes last (R234). -/
def rowFree (c : CopyRec) : Bool :=
  decide (dstRowLen c.kind c.desc ≤ 16 * c.desc.dstr.toNat) || c.units.all fun u => rowOf c u.num == rowOf c c.next
/-- A unit of a copy has every answer and is not written: it met a fault as it was to be (R236). -/
def unitHere (c : CopyRec) : Option CopyUnit := c.units.find? fun u => u.unacked == 0
/-- Whether a copy has a unit to start or to write, or a pause to note (R234 to R236, R239). -/
def unitDue (s : State) (id : Nat) (c : CopyRec) : Bool :=
  !c.stop && c.state != .paused 2 && ((unitHere c).isSome ||
    (decide (c.next < c.total) && rowFree c && match s.copyBlock id c with
      | none => true
      | some w => c.state != .paused w))

/-- A copy meets a fault: it pauses before the unit and its record goes to the driver (R236, R351). -/
def copyFault (s : State) (id : Nat) (c : CopyRec) (f : FaultInfo) (acc : Nat) (addr : DWord) : State :=
  let va := match spaceOf addr with
    | .domain _ va => va
    | _ => addr.toNat
  match s.raiseFault (.copy id) (s.copyCtx c) acc addr (s.canon (s.copyCtx c) va) f with
  | (s1, some _) => s1.modCopy id fun x => { x with state := .paused 2 }
  | (s1, none) => s1
/-- The domain clock a context's requests carry, by its fabric group (R95, R390). -/
def ctxClock (s : State) (ctx : Nat) : Option (Nat × List Nat) :=
  let sg := s.sgrpOf ctx
  if s.fld 0x9101 sg 63 63 = 1 then some (s.fld 0x9101 sg 2 0, s.clockOf (s.fld 0x9101 sg 2 0)) else none
/-- A vector-clock flit is owed before a request of a context (R390). -/
def clockOwed (s : State) (l : LinkId) (ctx : Nat) : Option (Nat × List Nat) :=
  match s.ctxClock ctx with
  | some (fg, v) => if lookupD (List.replicate 16 0) (s.link l).lastClock fg = v then none else some (fg, v)
  | none => none
/-- The entry of a link that serves a group now: the eligible one of the least deadline, the lower number on equal ones (R303, R307). -/
def servingEntry (s : State) (l : LinkId) (sg : Nat) : Option Nat :=
  let es := (s.groupEntries l sg).filter fun e => !s.heldNow (linkSrv l e)
  let d (e : Nat) : Nat := (s.srv (linkSrv l e)).d
  es.find? fun e => es.all fun f => decide (d e < d f) || (d e == d f && decide (e ≤ f))
/-- The flits a unit has queued on a link belong to its copy; those of a fabric link are charged as the unit starts, with the
vector-clock flit that goes before the first of the copy (R413). -/
def payLink (before : State) (id : Nat) (c : CopyRec) (t : State) (l : LinkId) : State :=
  let ctx := before.copyCtx c
  let n := (before.link l).queue.length
  let clock := c.next == 0 && (before.clockOwed l ctx).isSome && !(before.link l).queue.any fun x => x.sgrp == before.sgrpOf ctx
  let entry := if l.fab then before.servingEntry l (before.sgrpOf ctx) else none
  let paid (i : Nat) : Nat := if entry.isNone then 0 else if i = 0 && clock then 2 else 1
  let t1 := t.modLink l fun x => { x with
    queue := x.queue.take n ++ ((x.queue.drop n).zipIdx.map fun y => { y.1 with paid := paid y.2, copy := some id }) }
  match entry with
  | some e => t1.charge (linkSrv l e) (newSlots before t l + clock.toNat)
  | none => t1
/-- A copy's unit has started: the next one follows, and the CP unit and the fabric slots of this one are charged (R235, R413). -/
def unitStarted (before : State) (id : Nat) (c : CopyRec) (t : State) : State :=
  let t1 := (newWork before t).foldl (before.payLink id c) t
  (t1.charge (t1.cpKey (t1.copyCtx c) c.core) 1).modCopy id fun x => { x with next := c.next + 1, state := .moving }
/-- Once a copy's last unit has read its source, its read entries are released (R68, R237). -/
def sourceRead (s : State) (id : Nat) (c : CopyRec) : State :=
  if c.next + 1 = c.total then
    s.releaseScores fun e => e.owner == Holder.copy id && e.kind == ScoreKind.read
  else s
/-- The bytes that have come for a unit go to their destinations, all of them or none (R234, R236). -/
def writeGot (s : State) (id : Nat) (c : CopyRec) (u : CopyUnit) : Moved :=
  s.wholly fun s0 => u.got.foldl (fun r g =>
    let go (t : State) : Moved :=
      t.copyPieces id { c with next := u.num } (BitVec.ofNat 64 g.1) g.2.1 (List.replicate ((g.2.1.length + 7) / 8) g.2.2)
    match r with
    | .ok t => go t
    | .away t => (match go t with
      | .ok t' => .away t'
      | y => y)
    | y => y) (.ok s0)
/-- A unit whose answers are all in is written; where its bytes go to a peer, the answers of the stores are still to come (R62, R234).
What meets a fault stays until the copy resumes (R236). -/
def finishUnit (s : State) (id : Nat) (c : CopyRec) (u : CopyUnit) : State :=
  if u.unacked ≠ 0 then s
  else if u.got.isEmpty then s.unitWritten id u.num
  else match s.writeGot id c u with
    | .ok t => t.unitWritten id u.num
    | .away t => t.modCopy id fun x => { x with units := x.units.map fun y => if y.num = u.num then { y with got := [] } else y }
    | .fault t f acc addr => t.copyFault id c f acc addr
    | .poison t addr => t.killCopy c addr
    | .lost t => t.contextFault (t.copyCtx c) 2
/-- COPY_UNIT: a unit that met a fault is written, else the copy's next unit starts, or its pause is noted (R234 to R236). -/
def copyUnitStep (s : State) (id : Nat) : State :=
  match lookup s.copies id with
  | none => s
  | some c =>
    if !s.unitDue id c then s
    else match unitHere c with
    | some u => s.finishUnit id c u
    | none => match s.copyBlock id c with
      | some w => s.modCopy id fun x => { x with state := .paused w }
      | none => match s.tryUnit id c with
        | .ok t | .away t => (s.unitStarted id c t).sourceRead id c
        | .fault t f acc addr => t.copyFault id c f acc addr
        | .poison t addr => t.killCopy c addr
        | .lost t => t.contextFault (t.copyCtx c) 2

/-- Answers of peers are out for a copy (R234). -/
def copyOut (c : CopyRec) : Bool := c.units.any fun u => u.unacked != 0
/-- Units of a copy that have been written. -/
def unitsDone (c : CopyRec) : Nat := c.next - c.units.length
/-- A copy has nothing more to do: every unit written, or stopped at a boundary (R237, R240). -/
def copyEnded (c : CopyRec) : Bool := !copyOut c && ((c.next == c.total && c.units.isEmpty) || c.stop)
/-- COPY_COMPLETE: entries are released, the number completes, and a CPK that waits gets its status (R68, R237, R240): 1 also where
the unit that was under way when it came was the last (log 81). -/
def completeCopy (s : State) (id : Nat) : State :=
  match lookup s.copies id with
  | none => s
  | some c =>
    if !copyEnded c then s
    else
      let s1 := { s with
        copies := del s.copies id
        threads := mapValues (fun _ (th : Thread) => match th.wait with
          | .stop i d => if i = id then { th.wv d (if unitsDone c = 0 then 0 else 1) with wait := .none } else th
          | _ => th) s.threads }
      ((s1.withdraw fun r => r == .copy id).releaseScores fun e => e.owner == Holder.copy id).completeNumber c.gid
        c.desc.tl.toNat c.num

/-- A peer's answer for a unit of a copy: the data of a read is kept until the unit's last answer and then goes to its destination, a
store is acknowledged (R62, R234). Poison without data was met by the peer's table walk and is consumed (R346). -/
def copyAnswer (s : State) (id n : Nat) (at_ : Option Nat) (data : Bytes) (poison : Bool) : State :=
  match lookup s.copies id with
  | none => s
  | some c =>
    let lost := poison && data.isEmpty
    let got (u : CopyUnit) : CopyUnit := { u with
      unacked := u.unacked - 1
      got := match at_ with
        | some a => if lost then u.got else u.got ++ [(a, data, poison)]
        | none => u.got }
    let s1 := s.modCopy id fun x => { x with units := x.units.map fun u => if u.num = n then got u else u }
    if lost then s1.killCopy c c.src
    else match c.units.find? fun u => u.num == n with
      | some u => s1.finishUnit id c (got u)
      | none => s1

/-- MEMORY_RESPONSE: the data reaches the thread or the copy that asked; poisoned data is consumed by a thread (R60,
R360). The own write of a .M release has then been performed, and counts in the domain clock (R95); a stopped helper ends with its last
answer (R102). -/
def takeResponse (s : State) (tag : Nat) (data : Bytes) (poison : Bool) : State :=
  match lookup s.reqs tag with
  | none => s
  | some r =>
    let s1 := { s with reqs := del s.reqs tag }
    match r.dest with
    | .copy id n note => s1.copyAnswer id n note data poison
    | _ =>
      if poison then s1.killGang r.th 1 r.va r.pc
      else
        let s2 := (s1.modThread r.th fun th => { th with pend := th.pend - 1 }).answerThread r data
        (if r.release then s2.clockRelease r.ctx else s2).endStopped r.th

end State

/-! ### CPQ and CPK -/

/-- Whether a number names no copy (R239). -/
def noCopy (x : Timeline) (n : Nat) : Bool := n == 0 || decide (x.issued < n) || x.adv.contains n
/-- The report of R239. -/
def copyReport (s : State) (gid tl n : Nat) : DWord :=
  if noCopy (s.timelineOf gid tl) n then setBits 0 59 59 1
  else match s.copyOf gid tl n with
    | none => 0
    | some (_, c) =>
      let left := min (c.total - State.unitsDone c) 4294967295
      match c.state with
      | .queued => setBits (setBits 0 63 62 1) 31 0 left
      | .moving => setBits (setBits 0 63 62 2) 31 0 left
      | .paused w => setBits (setBits (setBits 0 63 62 3) 61 60 w) 31 0 left
/-- CPQ (R239). -/
def copyQueryBody (d a : Reg) (tk : BitVec 2) : Body := fun env k s =>
  let th := env.before.thread k
  .done (s.modThread k fun t => t.ww d (copyReport s th.gid tk.toNat (th.rw a).toNat))
/-- CPK (R240). -/
def copyStopBody (d a : Reg) (tk : BitVec 2) : Body := fun env k s =>
  let th := env.before.thread k
  let n := (th.rw a).toNat
  if noCopy (s.timelineOf th.gid tk.toNat) n then .done (s.modThread k fun t => t.wv d 3)
  else match s.copyOf th.gid tk.toNat n with
    | none => .done (s.modThread k fun t => t.wv d 2)
    | some (id, _) =>
      .done ((s.modCopy id fun x => { x with stop := true }).modThread k fun t => { t with wait := .stop id d })

/-! ### Instructions -/

/-- CPI (R228 to R233). -/
def execCpi (h : Head) (d : Reg) (a : Reg) (b : Reg) (c : Reg) (desc : CpDesc) (s : State) : Host.Outcome State
    Fault Refusal :=
  issue (.cpi h d a b c desc) (copyBody .cpi d (some a) b c desc) s

/-- CPO (R228 to R233). -/
def execCpo (h : Head) (d : Reg) (a : Reg) (b : Reg) (c : Reg) (desc : CpDesc) (s : State) : Host.Outcome State
    Fault Refusal :=
  issue (.cpo h d a b c desc) (copyBody .cpo d (some a) b c desc) s

/-- CPL (R228 to R233). -/
def execCpl (h : Head) (d : Reg) (a : Reg) (b : Reg) (c : Reg) (desc : CpDesc) (s : State) : Host.Outcome State
    Fault Refusal :=
  issue (.cpl h d a b c desc) (copyBody .cpl d (some a) b c desc) s

/-- CPR (R228 to R233). -/
def execCpr (h : Head) (d : Reg) (a : Reg) (b : Reg) (c : Reg) (desc : CpDesc) (s : State) : Host.Outcome State
    Fault Refusal :=
  issue (.cpr h d a b c desc) (copyBody .cpr d (some a) b c desc) s

/-- CPF (R228 to R233). -/
def execCpf (h : Head) (d : Reg) (b : Reg) (c : Reg) (desc : CpDesc) (s : State) : Host.Outcome State Fault Refusal :=
  issue (.cpf h d b c desc) (copyBody .cpf d none b c desc) s

/-- CPQ (R239). -/
def execCpq (h : Head) (d : Reg) (a : Reg) (k : BitVec 2) (s : State) : Host.Outcome State Fault Refusal :=
  issue (.cpq h d a k) (copyQueryBody d a k) s

/-- CPK (R240). -/
def execCpk (h : Head) (d : Reg) (a : Reg) (k : BitVec 2) (s : State) : Host.Outcome State Fault Refusal :=
  issue (.cpk h d a k) (copyStopBody d a k) s

/-- COPY_UNIT (R234 to R236). -/
def execCopyUnit (copy : Nat) (s : State) : Host.Outcome State Fault Refusal := .next (s.copyUnitStep copy)

/-- COPY_COMPLETE (R68, R237, R240). -/
def execCopyComplete (copy : Nat) (s : State) : Host.Outcome State Fault Refusal := .next (s.completeCopy copy)

/-- MEMORY_RESPONSE (R60, R360). -/
def execMemoryResponse (tag : Nat) (data : Bytes) (poison : Bool) (s : State) : Host.Outcome State Fault Refusal :=
  .next (s.takeResponse tag data poison)

end Sys2Proof.Machine
end

