-- ==== Sys2Proof/Machine/Fetch.lean ====
section
/-!
DEFINITION. Instruction fetch (R129 to R131), the checks of R139 that precede an instruction's own issue, and the issue of
the fragment at hand: fetch, decode, and the traps of an instruction that does not decode.
-/
namespace Sys2Proof.Machine
namespace State

/-- A 32-byte block as a core's instruction cache holds it for a launch (R131). -/
def cachedBlock (s : State) (core ctx launch block : Nat) : Option Bytes :=
  (s.icache.find? fun b => b.core == core && b.ctx == ctx && b.launch == launch && b.block == block).map IBlock.bytes
end State

/-- What a fetch of a block answers. -/
inductive Fetched where
  | ok (s : State) (b : Bytes)
  | fault (s : State) (f : FaultInfo)
  | poison (s : State)

namespace State

/-- The 32-byte block that holds an address, as a thread's launch fetches it: from the instruction cache, or translated,
checked and read as a global read (R131). -/
def fetchBlock (s : State) (th : Thread) (pc : DWord) : Fetched :=
  let launch := (s.group th.gid).launch
  let block := pc.toNat / 32
  match s.cachedBlock th.core th.ctx launch block with
  | some b => .ok s b
  | none =>
    match s.readGlobal ⟨th.ctx, 32 * block, true, false, 3⟩ 32 with
    | .ok (s1, b, false) => .ok { s1 with icache := s1.icache ++ [⟨th.core, th.ctx, launch, block, b⟩] } b
    | .ok (s1, _, true) => .poison s1
    | .error (.fault s1 f _) => .fault s1 f
    | .error (.poison s1) => .poison s1
    | .error (.ok s1 _) => .ok s1 []
/-- A thread is parked on a replayable fault of a fetch, unless a thread before it has brought its context to an end (R33, R131, R139,
R293). -/
def parkOnFetch (s : State) (k : Nat) (pc : DWord) (f : FaultInfo) : State :=
  match lookup s.threads k with
  | none => s
  | some th =>
    match s.raiseFault (.thread k) th.ctx 3 pc (s.canon th.ctx pc.toNat) f with
    | (s1, some fid) => s1.modThread k fun th => { th with wait := .fault fid, since := s.clk }
    | (s1, none) => s1

/-- Every thread of the fragment takes a trap of checks 1 to 6 (R139). -/
def trapAll (s : State) (cause : BitVec 8) (val : DWord) (aux : Word) : State :=
  match s.cur with
  | [] => s
  | _ => endIssue s (s.takeTraps (s.cur.map fun k => (k, ⟨cause, (s.thread k).pc, val, aux⟩))) 0 [] s.cur true

/-- The trap of an active thread at an instruction that fails checks 7 to 11: check 8 comes before 9 (R139, R140). -/
def rejectTrap (s : State) (x : Raw) (code : Nat) (val : DWord) (th : Thread) : BitVec 8 × DWord × Word :=
  if (code = 3 || code = 4) then (causeIllegal, val, BitVec.ofNat 32 code)
  else if th.hidx ≠ 0 && helperBad x.op then (causeIllegal, val, 9)
  else if 0xF0 ≤ x.op && decide (s.priv th.ctx = 0) then (causePriv, val, 0)
  else (causeIllegal, val, BitVec.ofNat 32 code)
/-- An instruction that fails checks 7 to 11 for every thread: the active threads trap, the others go on behind it (R139,
R33). -/
def rejectAll (s : State) (x : Raw) (code : Nat) (val : DWord) : State :=
  match s.cur with
  | [] => s
  | _ =>
    let act := s.cur.filter fun k => (s.thread k).active x.head
    let s1 := (s.cur.filter fun k => !act.contains k).foldl (fun t k => t.modThread k fun th => { th with
      pc := th.pc + BitVec.ofNat 64 (lenBytes x.len), las := laTick th.las, issued := th.issued + 1 }) s
    let traps := act.map fun k =>
      let e := s.rejectTrap x code val (s.thread k)
      (k, (⟨e.1, (s.thread k).pc, e.2.1, e.2.2⟩ : Trap))
    endIssue s (s1.takeTraps traps) (lenBytes x.len) [] act true

/-- Bytes of a block from an address's offset on (R129). -/
def fromBlock (b : Bytes) (pc : DWord) : Bytes := b.drop (pc.toNat % 32)

end State

/-- What the fragment at hand issues: an instruction, or a state after a trap or a parked fetch. -/
inductive Issue where
  | run (s : State) (i : Instr)
  | stay (s : State)

namespace State

/-- Fetch and decode for the fragment at hand: checks 1 to 7 and 9 to 11 of R139 in their order (R130, R131, R139, R140). -/
def fetchIssue (s : State) : Issue :=
  match s.cur with
  | [] => .stay s
  | k0 :: _ =>
    let th := s.thread k0
    let pc := th.pc
    if pc.toNat % 4 ≠ 0 then .stay (s.trapAll causeMisalign pc 0)
    else if 2 ^ 57 ≤ pc.toNat then .stay (s.trapAll causeAddr pc 0)
    else match s.fetchBlock th pc with
      | .fault s1 f => .stay (endIssue s (s1.cur.foldl (fun t k => t.parkOnFetch k pc f) s1) 0 [] [] false)
      | .poison s1 => .stay ({ s1 with cur := [] }.killGang k0 1 pc pc)
      | .ok s1 b =>
        let bytes := fromBlock b pc
        let val : DWord := BitVec.ofNat 64 (leNat (bytes.take 8))
        let x := Raw.unpack (BitVec.ofNat 128 (leNat (bytes.take 16)))
        if x.len = 3 then .stay (s1.trapAll causeIllegal val 1)
        else if 32 < pc.toNat % 32 + lenBytes x.len then .stay (s1.trapAll causeFetchXb pc 0)
        else if !x.head.gOk then .stay (s1.trapAll causeIllegal val 2)
        else match decodeBytes bytes with
          | .ok i => .run s1 i
          | .error code => .stay (s1.rejectAll x code val)

end State
end Sys2Proof.Machine
end

