-- ==== Sys2Proof/Machine/Helpers.lean ====
section
/-!
DEFINITION. Helper, launch and trap instructions (R241 to R260, R289), opcodes 0xE0 to 0xEA, and the rows
USER_TRAP_ENTRY, SUPERVISOR_TRAP_ENTRY and HELPER_ISSUE_LIMIT.
-/
namespace Sys2Proof.Machine

/-! ### HIRE -/

namespace State

/-- Lane slots of a wave slot that hold no thread and no helper (R244). -/
def vacantLanes (s : State) (core slot : Nat) : List Nat :=
  (List.range 32).filter fun l => !s.threads.any fun e =>
    e.2.core == core && e.2.slot == slot && e.2.lane == l && e.2.status == .live
/-- Helpers whose lane lies in an issue group of a core: the used entries of its pool (R244). -/
def poolUsed (s : State) (core ig : Nat) : Nat :=
  (s.threads.filter fun e => e.2.core == core && igOf e.2.slot == ig && e.2.hidx != 0 && e.2.status == .live).length
/-- Wave slots a recruiter may take lanes from: its group's, then those of other groups of its launch on its core, each in
ascending order (R244). -/
def helperSlots (s : State) (th : Thread) : List Nat :=
  let g := s.group th.gid
  let own := sortNat g.slots
  let others := sortNat ((s.groups.filter fun e => e.1 != th.gid && e.2.launch == g.launch && e.2.core == th.core).flatMap
    fun e => e.2.slots)
  own ++ others
/-- The first r vacant lanes whose pool has an entry left (R244). -/
def takeLanes (s : State) (core : Nat) : Nat → List (Nat × Nat) → List (Nat × Nat) → List (Nat × Nat)
  | 0, _, took => took
  | _ + 1, [], took => took
  | r + 1, (slot, lane) :: l, took =>
    let used := s.poolUsed core (igOf slot) + (took.filter fun x => igOf x.1 == igOf slot).length
    if used < 64 then takeLanes s core r l (took ++ [(slot, lane)]) else takeLanes s core (r + 1) l took
/-- The lanes a HIRE of r helpers is granted (R244). -/
def grantLanes (s : State) (th : Thread) (r : Nat) : List (Nat × Nat) :=
  let key := s.igKey th.ctx th.core th.slot
  let spent := s.srvInstalled key && s.srvHard key && decide (((s.arrive key).srv key).q ≤ 1)
  if s.prot th || spent then []
  else s.takeLanes th.core r ((s.helperSlots th).flatMap fun sl => (s.vacantLanes th.core sl).map fun l => (sl, l)) []

end State

/-- Registers v0 to v(W − 1) of a thread (R243). -/
def snapshotOf (th : Thread) (w : Nat) : Cells Word := keep (fun n _ => decide (n < w)) th.v
/-- A helper as it starts (R245). -/
def newHelper (th : Thread) (i slot lane tag : Nat) (entry : DWord) : Thread :=
  { Thread.zero with
    ctx := th.ctx, gid := th.gid, tid := th.tid, hidx := i, core := th.core, slot := slot, lane := lane, tag := tag
    pc := entry, v := [(0, BitVec.ofNat 32 i)] }
/-- HIRE: the grant, the snapshot, the open HIRE, the helpers and vD, in that order (R243 to R245). -/
def hireBody (win : Win) (comb : Comb) (d a c : Reg) (imm : BitVec 32) : Body := fun env k s =>
  let th := env.before.thread k
  if (s.thread k).hire.isSome then .done (s.modThread k fun t => t.wv d 0)
  else
    let lanes := s.grantLanes th (min (th.rv a).toNat 31)
    let g := lanes.length
    let entry := env.target k imm
    let h : HireState := ⟨g, Win.size win, comb, c, snapshotOf th (Win.size win), (List.range g).map (· + 1), [], [], 0, none, [], 0⟩
    let s1 := (List.range g).foldl (fun (t : State) i =>
      let l := lanes.getD i (0, 0)
      (t.refillSlot th.core l.1).setThread (k + i + 1) (newHelper th (i + 1) l.1 l.2 (s.fresh + l.1) entry)) s
    .done ({ s1 with fresh := s.fresh + 64 }.modThread k fun t => { t with hire := some h }.wv d (BitVec.ofNat 32 g))

/-! ### HJOIN, HSYNC, HRD, HRET and HREL -/

/-- The reduction a COMB code names (R241, R250). -/
def combWord (comb : Comb) : Word → Word → Word × Flags :=
  match comb with
  | .none | .addS32 => reduceWord .add .s32 false .rn
  | .addF32 => reduceWord .add .f32 false .rn
  | .min => reduceWord .min .s32 false .rn
  | .max => reduceWord .max .s32 false .rn
  | .and => reduceWord .and .z32 false .rn
  | .or => reduceWord .or .z32 false .rn
  | .xor => reduceWord .xor .z32 false .rn
/-- The combined value of the recruiter's contribution and those of the helpers (R112, R250). -/
def combined (comb : Comb) (own : Word) (contrib : Cells Word) : Word × Flags :=
  let slots := (List.range 32).map fun i =>
    if i = 0 then some (own, (0 : Flags)) else (lookup contrib i).map fun x => (x, 0)
  (treeRoot (combWord comb) 5 slots).getD (own, 0)
/-- The done mask (R250). -/
def doneMask (done : List Nat) : Nat := (done.map fun i => 2 ^ i).sum
/-- HJOIN (R250, R251): the FP status of helpers that ended by HRET joins the recruiter's (R43). -/
def hjoinBody (d a b : Reg) : Body := fun env k s =>
  let th := env.before.thread k
  match (s.thread k).hire with
  | none => .done (s.modThread k fun t => (t.wv d 0).wp a false)
  | some h =>
    if !h.live.isEmpty then .hold s .hjoin
    else match h.trapped with
      | some t => .trap causeHelperF (BitVec.ofNat 64 t.1) (t.2.zeroExtend 32)
      | none =>
        let mask := doneMask h.done
        let r := combined h.comb (th.rv b) h.contrib
        .done (s.modThread k fun t =>
          let t1 := { t with hire := none }.raise h.flags
          let t2 := (t1.wv d (BitVec.ofNat 32 mask)).wp a (mask == 2 ^ (h.g + 1) - 2)
          if h.comb = .none then t2 else (t2.wv h.c r.1).raise r.2)
/-- HSYNC: a helper or a recruiter arrives and waits for the phase; any other thread goes on (R249). -/
def hsyncBody : Body := fun env k s =>
  let th := env.before.thread k
  let rk := k - th.hidx
  match (s.thread rk).hire with
  | none => .done s
  | some h =>
    .done (((s.modThread rk fun r => { r with hire := some { h with arrived := h.arrived ++ [th.hidx] } }).modThread k fun t =>
      { t with wait := .hsync h.phase }).releaseHsync rk)
/-- HRD: the snapshot in a helper, the register itself in a recruiter (R242, R247); a value with an uncorrectable error is consumed
(R360). -/
def hrdBody (i : Instr) (d n : BitVec 8) : Body := fun env k s =>
  let th := env.before.thread k
  match (s.thread (k - th.hidx)).hire with
  | none => .trap causeIllegal (Instr.tval i) 10
  | some h =>
    if (env.before.thread (k - th.hidx)).bad.contains ⟨.vec, n.toNat⟩ then .hold (s.killGang k 1 0 th.pc) .resp
    else if th.hidx = 0 then .done (s.modThread k fun t => t.wv d (th.rv n))
    else .done (s.modThread k fun t => t.wv d (lookupD 0 h.snap n.toNat))
/-- HRET and HREL (R242, R248). -/
def endBody (i : Instr) (contrib : Thread → Option Word) : Body := fun env k s =>
  let th := env.before.thread k
  if th.hidx = 0 then .trap causeIllegal (Instr.tval i) 10 else .done (s.finishHelper k (contrib th))

/-! ### LNCH -/

/-- The enabled hardware queue of a context with a local number and producer (R322, R323). -/
def State.localQueue (s : State) (ctx lqn prod : Nat) : Option Nat :=
  (List.range 64).find? fun q => s.fld 0x5100 q 63 63 == 1 && s.fld 0x5100 q 47 32 == ctx && s.fld 0x5100 q 31 29 == lqn &&
    s.fld 0x5100 q 62 61 == prod
/-- Packets a launch queue holds: TAIL − HEAD (R323). -/
def State.lqCount (s : State) (q : Nat) : Nat := (s.fld 0x5103 q 31 0 + 4294967296 - s.fld 0x5102 q 31 0) % 4294967296
/-- Capacity of a launch queue (R323). -/
def State.lqSize (s : State) (q : Nat) : Nat := 2 ^ s.fld 0x5100 q 28 24
/-- Address of packet n of a queue (R323). -/
def State.lqSlot (s : State) (q n : Nat) : Nat := s.fld 0x5101 q 56 0 + 128 * (n % s.lqSize q)
/-- A packet appended to a queue by its owner: the bytes at TAIL, then TAIL + 1 (R254, R323). -/
def State.appendPacket (s : State) (q : Nat) (b : Bytes) : Except Served State :=
  let tail := s.fld 0x5103 q 31 0
  match s.writeGlobal ⟨s.fld 0x5100 q 47 32, s.lqSlot q tail, false, true, 1⟩ b with
  | .ok s1 => .ok (s1.setFld 0x5103 q 31 0 (tail + 1))
  | .error e => .error e
/-- The thread is parked on a replayable fault, or the gang is killed, at a failed access of LNCH (R254, R360). -/
def State.failLaunch (s : State) (k : Nat) (b : Thread) (va : DWord) : Served → Lane
  | .ok s1 _ => .done s1
  | .fault s1 f acc =>
    match s1.raiseFault (.thread k) b.ctx acc va (s.canon b.ctx va.toNat) f with
    | (s2, some fid) => .hold s2 (.fault fid)
    | (s2, none) => .hold s2 .none
  | .poison s1 => .hold (s1.killGang k 1 va b.pc) .resp
/-- LNCH: the checks, the queue, the release, the packet read once and appended (R103, R254). -/
def lnchBody (d a : Reg) (q : BitVec 3) : Body := fun env k s =>
  let b := env.before.thread k
  let addr := b.rw a
  match s.access b k addr 128 128 false true with
  | .error c => .trap c addr 0
  | .ok l =>
    match s.localQueue b.ctx q.toNat 1 with
    | none => .done (s.modThread k fun t => t.wp d false)
    | some hq =>
      if s.lqSize hq ≤ s.lqCount hq then .done (s.modThread k fun t => t.wp d false)
      else match s.flushFirst b true false .p with
        | (s1, some w) => .hold s1 w
        | (s1, none) =>
          let append (t : State) (x : Bytes) : Lane :=
            match t.appendPacket hq x with
            | .ok t1 => .done (t1.modThread k fun th => th.wp d true)
            | .error e => t.failLaunch k b (BitVec.ofNat 64 (t.lqSlot hq (t.fld 0x5103 hq 31 0))) e
          match l with
          | .global va =>
            match s1.readGlobal ⟨b.ctx, va, true, false, 0⟩ 128 with
            | .ok (s2, x, false) => append s2 x
            | .ok (s2, _, true) => .hold (s2.killGang k 1 addr b.pc) .resp
            | .error e => s1.failLaunch k b addr e
          | l =>
            if s1.locWaits l 128 false then .hold s1 .retry
            else if (s1.readLoc l 128).2 then .hold (s1.killGang k 1 addr b.pc) .resp
            else append s1 (s1.readLoc l 128).1

/-! ### Returns from traps -/

/-- TRET (R242, R259). -/
def tretBody (i : Instr) (mode : TretMode) (a : Reg) : Body := fun env k s =>
  let th := env.before.thread k
  let tpc := th.trap.tpc
  let resume (t : State) (pc : DWord) : Lane := .done (t.modThread k (leaveHandler pc))
  if !th.hand then .trap causeIllegal (Instr.tval i) 10
  else match mode with
    | .retry => resume s tpc
    | .to => resume s (th.rw a)
    | .next =>
      if tpc.toNat % 4 ≠ 0 || 2 ^ 57 ≤ tpc.toNat then resume s (tpc + 4)
      else match s.fetchBlock th tpc with
        | .ok s1 b =>
          let len : BitVec 2 := BitVec.ofNat 2 (leNat ((State.fromBlock b tpc).take 4))
          resume s1 (tpc + (if len = 3 then 4 else BitVec.ofNat 64 (lenBytes len)))
        | .fault s1 f =>
          match s1.raiseFault (.thread k) th.ctx 3 tpc (s.canon th.ctx tpc.toNat) f with
          | (s2, some fid) => .hold s2 (.fault fid)
          | (s2, none) => .hold s2 .none
        | .poison s1 => .hold (s1.killGang k 1 tpc th.pc) .resp
/-- TMFR: a trap register, the supervisor's at level 1 or 2; zero in a helper (R260, R289). -/
def tmfrBody (d code : BitVec 8) : Body := fun env k s =>
  let th := env.before.thread k
  let t : Trap := if th.hidx ≠ 0 then Trap.none else if s.priv th.ctx = 0 then th.trap else th.sup.trap
  .done (s.modThread k fun x => match code.toNat with
    | 0 => x.wv d (t.cause.zeroExtend 32)
    | 1 => x.ww d t.tpc
    | 2 => x.ww d t.val
    | _ => x.wv d t.aux)

/-! ### Instructions -/

/-- HIRE (R243 to R245). -/
def execHire (h : Head) (win : Win) (comb : Comb) (d : Reg) (a : Reg) (c : Reg) (imm : BitVec 32) (s : State) :
    Host.Outcome State Fault Refusal :=
  issue (.hire h win comb d a c imm) (hireBody win comb d a c imm) s

/-- HJOIN (R250, R251). -/
def execHjoin (h : Head) (d : Reg) (a : Reg) (b : Reg) (s : State) : Host.Outcome State Fault Refusal :=
  issue (.hjoin h d a b) (hjoinBody d a b) s

/-- HSYNC (R249). -/
def execHsync (h : Head) (s : State) : Host.Outcome State Fault Refusal :=
  issue (.hsync h) (hsyncBody) s

/-- HRD (R247). -/
def execHrd (h : Head) (d : Reg) (k : BitVec 8) (s : State) : Host.Outcome State Fault Refusal :=
  issue (.hrd h d k) (hrdBody (.hrd h d k) d k) s

/-- HRET (R248). -/
def execHret (h : Head) (a : Reg) (s : State) : Host.Outcome State Fault Refusal :=
  issue (.hret h a) (endBody (.hret h a) fun th => some (th.rv a)) s

/-- HREL (R248). -/
def execHrel (h : Head) (s : State) : Host.Outcome State Fault Refusal :=
  issue (.hrel h) (endBody (.hrel h) fun _ => none) s

/-- LNCH (R254). -/
def execLnch (h : Head) (d : Reg) (a : Reg) (q : BitVec 3) (s : State) : Host.Outcome State Fault Refusal :=
  issue (.lnch h d a q) (lnchBody d a q) s

/-- TRAP (R255, R256). -/
def execTrap (h : Head) (n : BitVec 8) (s : State) : Host.Outcome State Fault Refusal :=
  issue (.trap h n) (fun _ _ _ => .trap causeUserTrap (n.zeroExtend 64) 0) s

/-- BKPT (R255, R256). -/
def execBkpt (h : Head) (s : State) : Host.Outcome State Fault Refusal :=
  issue (.bkpt h) (fun _ _ _ => .trap causeBkpt 0 0) s

/-- TRET (R259). -/
def execTret (h : Head) (mode : TretMode) (a : Reg) (s : State) : Host.Outcome State Fault Refusal :=
  issue (.tret h mode a) (tretBody (.tret h mode a) mode a) s

/-- TMFR (R260, R289). -/
def execTmfr (h : Head) (d : Reg) (code : BitVec 8) (s : State) : Host.Outcome State Fault Refusal :=
  issue (.tmfr h d code) (tmfrBody d code) s

/-! ### Steps of traps and helpers -/

/-- USER_TRAP_ENTRY (R33, R252, R257, R258). -/
def execUserTrapEntry (th : Nat) (trap : Trap) (s : State) : Host.Outcome State Fault Refusal :=
  .next (s.enterTrap false th trap)

/-- SUPERVISOR_TRAP_ENTRY (R33, R252, R287, R288). -/
def execSupervisorTrapEntry (th : Nat) (trap : Trap) (s : State) : Host.Outcome State Fault Refusal :=
  .next (s.enterTrap true th trap)

/-- HELPER_ISSUE_LIMIT: a helper that has issued 65,536 instructions is forcibly released (R253). -/
def execHelperIssueLimit (th : Nat) (s : State) : Host.Outcome State Fault Refusal :=
  .next (if (s.thread th).hidx ≠ 0 && decide (65536 ≤ (s.thread th).issued) then s.forceRelease th else s)

end Sys2Proof.Machine
end

