-- ==== Sys2Proof/Machine/Select.lean ====
section
/-!
DEFINITION. Which fragment issues next: the fragment a wave offers (R22), the wave an issue group chooses (R31), and the
passage of core cycles and frames (R12).
-/
namespace Sys2Proof.Machine
namespace State

/-- The fragment with the least pc among some tags. -/
def leastPc (s : State) (core slot : Nat) : List Nat → Option Nat
  | [] => none
  | t :: l => match leastPc s core slot l with
    | none => some t
    | some u => if s.fragmentPc core slot u < s.fragmentPc core slot t then some u else some t
/-- Tags of the ready fragments of a wave whose IG server is not held (R22, R31, R304). -/
def openTags (s : State) (core slot : Nat) : List Nat :=
  (s.readyTags core slot).filter fun t => !s.heldNow (s.fragmentKey core slot t)
/-- The instruction at which a thread stands, where its core's instruction cache holds it. -/
def nextInstr (s : State) (th : Thread) : Option Instr :=
  (s.cachedBlock th.core th.ctx (s.group th.gid).launch (th.pc.toNat / 32)).bind fun b =>
    match decodeBytes (fromBlock b th.pc) with
    | .ok i => some i
    | .error _ => none
/-- What an instruction does in one thread, for those that can lack a resource: storage the scoreboard holds, scoreboard entries, a copy
record, the matrix engine (R67, R69, R222). -/
def bodyOf : Instr → Option Body
  | .ldS _ ord sc sz d a am off => some (loadBody ord sc sz d a am (.short off))
  | .ldW _ ord sc sz d a am off => some (loadBody ord sc sz d a am (.long off))
  | .stS _ ord sc sz d a am off => some (storeBody ord sc sz d a am (.short off))
  | .stW _ ord sc sz d a am off => some (storeBody ord sc sz d a am (.long off))
  | .atom _ ord sc aop ty d a am c off => some (atomicBody ord sc aop ty (.old d (atomBytes ty)) a am c off)
  | .red _ ord sc aop ty a am c off => some (atomicBody ord sc aop ty .none a am c off)
  | .acas _ ord sc ty d ps a am c n off => some (acasBody ord sc ty d ps a am c n off)
  | .tlwCtr _ sc d a am off => some (counterBody sc d a am off)
  | .acldS _ d a am off => some (acldBody d a am (.short off))
  | .acldW _ d a am off => some (acldBody d a am (.long off))
  | .acstS _ z d a am off => some (acstBody z d a am (.short off))
  | .acstW _ z d a am off => some (acstBody z d a am (.long off))
  | .rmac h z d a b m => some (matrixBody h z d a b none m)
  | .rmag h z d a b c m => some (matrixBody h z d a b (some c) m)
  | .cpi _ d a b c m => some (copyBody .cpi d (some a) b c m)
  | .cpo _ d a b c m => some (copyBody .cpo d (some a) b c m)
  | .cpl _ d a b c m => some (copyBody .cpl d (some a) b c m)
  | .cpr _ d a b c m => some (copyBody .cpr d (some a) b c m)
  | .cpf _ d b c m => some (copyBody .cpf d none b c m)
  | .lnch _ d a q => some (lnchBody d a q)
  | _ => none
/-- A thread is held at an instruction for a resource. -/
def lacking : Lane → Bool
  | .hold _ .retry | .hold _ .quarter => true
  | _ => false
/-- The next instruction of a fragment has its resources available in every thread that takes part (R22). -/
def fragmentAble (s : State) (core slot tag : Nat) : Bool :=
  let ks := s.frontier core slot tag
  match ks.head?.bind fun k => s.nextInstr (s.thread k) with
  | none => true
  | some i =>
    let present := ks.filter fun k => (s.thread k).active i.head && (preTrap s i k (s.thread k)).isNone
    match bodyOf i with
    | none => true
    | some body => !present.any fun k => lacking (body ⟨{ s with cur := ks }, present, ordersLanes i.raw.op⟩ k s)
/-- The fragment a wave offers: among those passed over 16 times, or else among all its ready fragments, the one with the
least pc (R22). -/
def offered (s : State) (core slot : Nat) : Option Nat :=
  let ready := s.openTags core slot
  let passed := (lookup s.waves (waveKey core slot)).elim [] Wave.passed
  let late := ready.filter fun t => decide (16 ≤ lookupD 0 passed t)
  s.leastPc core slot (if late.isEmpty then ready else late)

/-- The IG server under which a wave would issue: that of the fragment it offers (R31, R245). -/
def waveKeyOf (s : State) (core : Nat) (w : Nat × Wave) : SrvKey := s.fragmentKey core w.1 ((s.offered core w.1).getD 0)
/-- Candidates of an issue group: active waves that offer a fragment whose server is not held (R31). -/
def candidates (s : State) (core ig : Nat) : List (Nat × Wave) :=
  (s.activeWaves core ig).filter fun w =>
    decide (w.2.since ≤ s.clk) && s.ctxIssues (s.group w.2.gid).ctx && (s.offered core w.1).isSome
/-- A wave has not issued for 64 or more core cycles (R31). -/
def starved (s : State) (w : Nat × Wave) : Bool := decide (w.2.last + 64 ≤ s.clk)
/-- The wave of the least deadline, then of the lower server id, then the oldest, then the lower slot (R31). -/
def earliest (s : State) (core : Nat) : List (Nat × Wave) → Option (Nat × Wave)
  | [] => none
  | w :: l =>
    let d (x : Nat × Wave) : Nat := (s.srv (s.waveKeyOf core x)).d
    let id (x : Nat × Wave) : Nat := (s.waveKeyOf core x).id
    match earliest s core l with
    | none => some w
    | some v =>
      let before := decide (d v < d w) || (d v == d w && (decide (id v < id w) ||
        (id v == id w && decide (v.2.age < w.2.age))))
      some (if before then v else w)
/-- The wave an issue group chooses: served waves that starve, served waves by deadline, then background waves in turn
(R31, R306). -/
def chooseWave (s : State) (core ig : Nat) : Option (Nat × Wave) :=
  let all := s.candidates core ig
  let served := all.filter fun w => s.srvInstalled (s.waveKeyOf core w)
  let late := served.filter s.starved
  if !late.isEmpty then oldest late
  else if !served.isEmpty then s.earliest core served
  else
    let far (w : Nat × Wave) : Nat := ((s.waveKeyOf core w).id + 256 - s.turnOf core ig) % 256
    let next := all.filter fun w => all.all fun v => decide (far w ≤ far v)
    let lateBg := next.filter s.starved
    oldest (if lateBg.isEmpty then next else lateBg)

/-- The first issue group at or above the cursor that has a wave to issue: core and issue group (R31). -/
def nextIssue (s : State) : Option (Nat × (Nat × Wave)) :=
  (distinct ((keysOf s.waves).map (· / 16))).findSome? fun g =>
    if g < s.cursor then none else (s.chooseWave (g / 4) (g % 4)).map fun w => (g / 4, w)

/-- The threads that issue with a fragment: its own that stand at its address, and those of every other fragment of the wave that is
ready, its resources available, of the same fellowship, and stands there whole (R22, R245; log 59); in ascending lane order. -/
def issuing (s : State) (core slot tag : Nat) : List Nat :=
  let pc := s.fragmentPc core slot tag
  let tags := (s.openTags core slot).filter fun u => u == tag || (s.fragmentPc core slot u == pc && s.fragmentWhole core slot u &&
    s.fragmentKin core slot u == s.fragmentKin core slot tag && s.fragmentAble core slot u)
  let ks := tags.flatMap fun u => s.frontier core slot u
  (List.range 32).flatMap fun l => ks.filter fun k => (s.thread k).lane == l
/-- The chosen fragment is at hand: `cur` holds its threads, `rivals` the fragments of its wave that are ready beside it (R22, R31). -/
def takeFragment (s : State) (core : Nat) (w : Nat × Wave) : State :=
  match s.offered core w.1 with
  | none => s
  | some tag =>
    { s with
      cur := s.issuing core w.1 tag
      rivals := (s.readyTags core w.1).filter fun t => t != tag && s.fragmentAble core w.1 t
      cursor := 4 * core + igOf w.1 + 1 }

/-! ### Time -/

/-- The key of a server from its number. -/
def srvKeyOf (n : Nat) : SrvKey :=
  let cls := match n / 536870912 with
    | 0 => SrvClass.ig
    | 1 => .mx
    | 2 => .cp
    | 3 => .mc
    | _ => .fx
  ⟨cls, n % 536870912 / 256, n % 256⟩
/-- A copy has a unit that waits for the servers on its path (R413). -/
def unitWaits (s : State) (id : Nat) (c : CopyRec) : Bool :=
  !c.stop && decide (c.next < c.total) && c.state != .paused 2 && !(c.next == 0 && s.copyWaits id) && s.ctxIssues (s.copyCtx c)
/-- A link server has a request of its group queued, a domain request that waits for its line, or a copy with it on its path (R304,
R307, R413). -/
def linkBusy (s : State) (l : LinkId) (sg : Nat) : Bool :=
  (s.link l).queue.any (fun t => t.sgrp == sg) || s.domWait.any (fun q => s.sgrpOf q.ctx == sg && s.domainLink q == some l) ||
  s.copies.any fun c => s.sgrpOf (s.copyCtx c.2) == sg && s.unitWaits c.1 c.2 && (s.unitPath c.1 c.2).contains l
/-- A basket of a server group waits at its flush point on a core (R83). -/
def flushWaits (s : State) (core sg : Nat) : Bool :=
  s.streams.any fun e => e.1 / 1024 == core && (e.2.sent.drop e.2.paid).any fun b => b.any fun u => s.sgrpOf (s.hood u.hood).ctx == sg
/-- Whether a server has work pending (R305): waves of its group, matrix work, copies and baskets, or requests on its link. What counts
where the spec does not say is log 83. -/
def srvBusy (s : State) (k : SrvKey) : Bool :=
  match k.cls with
  | .ig => (s.igWaves (k.eng / 4) (k.eng % 4)).any fun w => s.sgrpOf (s.group w.2.gid).ctx == k.id
  | .mx => (s.passes.any fun p => p.2.core == k.eng && s.sgrpOf (s.groupCtx p.2.gid) == k.id) ||
      s.threads.any fun e => e.2.wait == .quarter && e.2.core == k.eng && s.sgrpOf e.2.ctx == k.id
  | .cp => s.copies.any (fun c => c.2.core == k.eng && s.sgrpOf (s.groupCtx c.2.gid) == k.id) || s.flushWaits k.eng k.id
  | .mc => s.linkBusy ⟨false, k.eng⟩ (s.entryGroup ⟨false, k.eng⟩ k.id)
  | .fx => s.linkBusy ⟨true, k.eng⟩ (s.entryGroup ⟨true, k.eng⟩ k.id)
/-- The core-class servers that the waves, matrix work, copies and baskets of the cores ask for. -/
def busyKeys (s : State) : List SrvKey :=
  s.waves.map (fun w => s.igKey (s.group w.2.gid).ctx (w.1 / 64) (w.1 % 64)) ++
  s.passes.map (fun p => s.mxKey (s.groupCtx p.2.gid) p.2.core) ++
  (s.threads.filter fun e => e.2.wait == .quarter).map (fun e => s.mxKey e.2.ctx e.2.core) ++ s.copies.map (fun c => s.cpKey (s.groupCtx c.2.gid) c.2.core) ++
  s.streams.flatMap fun e => (e.2.sent.drop e.2.paid).flatMap fun b => b.map fun u => s.cpKey (s.hood u.hood).ctx (e.1 / 1024)
/-- The links on which work is queued, or waits to be. -/
def busyLinks (s : State) : List LinkId :=
  (keysOf s.links).map linkOf ++ s.domWait.filterMap s.domainLink ++ s.copies.flatMap fun c => s.unitPath c.1 c.2
/-- A server that work has arrived for and that is not active yet (R305). -/
def wakeDue (s : State) : Option SrvKey :=
  (s.busyKeys ++ s.busyLinks.flatMap fun l => (List.range 32).map (linkSrv l)).find? fun k =>
      s.srvInstalled k && !(s.srv k).pend && s.srvBusy k
/-- Servers that have no work left become inactive (R305). -/
def restServers (s : State) : State :=
  { s with servers := mapValues (fun n x => if x.pend && !s.srvBusy (srvKeyOf n) then { x with pend := false } else x) s.servers }
/-- Hamper entries freed in the last cycle are taken by the threads that wait for them (R26). -/
def fileWaiting (s : State) : State :=
  (s.cores.filter fun c => !c.2.kept.isEmpty).foldl (fun t c => t.takeKept c.1) s
/-- A frame has ended for a ring: with SETTLE at 0 the reading of its photodiode counts, and MON is the mean of the last 16 (R388,
R420). -/
def ringFrame (s : State) (e : Nat × RingState) : State :=
  let l := linkOf (e.1 / 16)
  let idx := if l.fab then 0x9030 else 0x8030
  let inst := l.n * 256 + e.1 % 16
  if s.fld idx inst 61 61 = 1 then s
  else
    let m := (e.2.readings ++ [e.2.level]).reverse.take 16 |>.reverse
    let s1 : State := { s with rings := put s.rings e.1 { e.2 with readings := m } }
    if m.length < 16 then s1 else s1.setFld idx inst 25 16 (m.sum / 16)
/-- One core cycle: `tick` counts frames of 384 core cycles, and takes the value TBSET left at the next frame; the rings' readings count
at its end (R12, R420, R434). -/
def nextCycle (s : State) : State :=
  let s1 := ({ s.restServers with clk := s.clk + 1, cursor := 0 }).fileWaiting
  if s1.frameClk = 0 then
    let s2 := s1.rings.foldl ringFrame s1
    { s2 with tick := (s.tickSet.getD (s.tick + 1)) % 2 ^ 48, tickSet := none }
  else s1

end State
end Sys2Proof.Machine
end

