-- ==== Sys2Proof/Machine/Waves.lean ====
section
/-!
DEFINITION. The package's own steps for waves, hampers, servers and event waits: HAMPER_AGED, HAMPER_DRAW, WAVE_EXCHANGE,
NAP_EXPIRE, SERVER_REPLENISH and CTXEVT_TIME.
-/
namespace Sys2Proof.Machine
namespace State

/-- Whether a hamper's oldest thread has waited 256 core cycles and the hamper does not know it yet (R27). -/
def ageDue (s : State) (h : Hamper) : Bool := !h.aged && !h.ths.isEmpty && decide (hamperOldest h + 256 ≤ s.clk)
/-- HAMPER_AGED: the hamper becomes drawable by age (R27). -/
def ageHamper (s : State) (core entry : Nat) : State :=
  match lookup (s.core core).hampers entry with
  | none => s
  | some h =>
    if !s.ageDue h then s
    else
      let h' := { h with aged := true, madeAt := if s.hamperFull h || h.forced then h.madeAt else s.clk }
      s.modCore core fun c => { c with hampers := put c.hampers entry h' }
/-- The hamper a core draws in this cycle, if it draws one (R27). -/
def drawChoice (s : State) (core : Nat) : Option (Nat × Hamper) :=
  if (s.core core).lastDraw = some s.clk then none
  else firstDraw ((s.core core).hampers.filter fun e => s.drawable e.2)
/-- HAMPER_DRAW (R27, R28). -/
def drawNext (s : State) (core : Nat) : State :=
  match s.drawChoice core with
  | some e => s.drawHamper core e.1 e.2
  | none => s
/-- A fragment whose NAP has passed can issue again (R171). -/
def expireNap (s : State) (core slot tag : Nat) : State :=
  (s.fragment core slot tag).foldl (fun t k => t.modThread k fun th =>
    match th.wait with
    | .nap c => if c ≤ s.clk then { th with wait := .none } else th
    | _ => th) s
/-- Threads of a context whose WAITI has an event go on (R299). -/
def wakeEvents (s : State) (ctx : Nat) : State :=
  { s with threads := mapValues (fun _ (th : Thread) => match th.wait with
      | .event m => if th.ctx == ctx && s.events ctx &&& m != 0 then { th with wait := .none } else th
      | _ => th) s.threads }

end State

/-- HAMPER_AGED (R27). -/
def execHamperAged (core entry : Nat) (s : State) : Host.Outcome State Fault Refusal := .next (s.ageHamper core entry)
/-- HAMPER_DRAW (R26 to R28, R253). -/
def execHamperDraw (core : Nat) (s : State) : Host.Outcome State Fault Refusal := .next (s.drawNext core)
/-- WAVE_EXCHANGE (R32). -/
def execWaveExchange (core ig : Nat) (s : State) : Host.Outcome State Fault Refusal := .next (s.exchangeIg core ig)
/-- NAP_EXPIRE (R171). -/
def execNapExpire (core slot tag : Nat) (s : State) : Host.Outcome State Fault Refusal :=
  .next (s.expireNap core slot tag)
/-- SERVER_REPLENISH: work that the server held is tried again (R222, R235, R304). -/
def execServerReplenish (srv : SrvKey) (s : State) : Host.Outcome State Fault Refusal :=
  .next (s.replenish srv).wakeRetry
/-- CTXEVT_TIME: the tick has reached CTXEVT, and threads that wait for TIME go on (R290, R299). -/
def execCtxevtTime (ctx : Nat) (s : State) : Host.Outcome State Fault Refusal := .next (s.wakeEvents ctx)

end Sys2Proof.Machine
end

