-- ==== Sys2Proof/Machine/Launch.lean ====
section
/-!
DEFINITION. Launch queues and launch records: the packet and its check (R325, R326), the take of the head packet (R327), the
completion add (R103), and the row PACKET_TAKE.
-/
namespace Sys2Proof.Machine

/-! ### The packet -/

/-- Little-endian value of n bytes of a packet at an offset (R325). -/
def pktField (b : Bytes) (off n : Nat) : Nat := ofBytes ((b.drop off).take n)
/-- A packet from its 128 bytes (R325). -/
def parsePacket (b : Bytes) : Packet :=
  let f := pktField b
  let w (off : Nat) : DWord := BitVec.ofNat 64 (f off 8)
  let flags := f 0x34 4
  { entry := w 0, arg := w 8, gx := f 0x10 2, gy := f 0x12 2, gz := f 0x14 2, nx := f 0x18 4, ny := f 0x1C 4,
    nz := f 0x20 4, hw := f 0x24 1, hh := f 0x25 1, hg := f 0x26 1, regs := f 0x28 2, acc := f 0x2A 1, slice := f 0x2C 2,
    scratch := f 0x30 4, prot := flags.testBit 0, replay := flags.testBit 1, prio := nb flags 3 2, rscope := nb flags 6 4,
    sgrp := nb flags 15 8, handler := w 0x38, w0a := w 0x40, w0v := w 0x48, w1a := w 0x50, w1v := w 0x58, ca := w 0x60,
    cv := w 0x68 }
/-- The reserved bytes and flag bits of a packet are zero (R325). -/
def packetReservedZero (b : Bytes) : Bool :=
  pktField b 0x16 2 == 0 && pktField b 0x27 1 == 0 && pktField b 0x2B 1 == 0 && pktField b 0x2E 2 == 0 &&
  pktField b 0x70 16 == 0 && !(pktField b 0x34 4).testBit 7 && nb (pktField b 0x34 4) 31 16 == 0

/-- Threads of a group (R17). -/
def Packet.threads (p : Packet) : Nat := p.gx * p.gy * p.gz
/-- Wave slots a group owns (R18, R34). -/
def Packet.slots (p : Packet) : Nat := if p.prot then (p.threads + 15) / 16 else (p.threads + 31) / 32
/-- Hoods of a launch (R19). -/
def Packet.hoods (p : Packet) : Nat := p.nx * p.ny * p.nz
/-- Resources of n groups of packets on a core within its capacities (R31, R42, R56). -/
def coreFits (ps : List Packet) : Bool :=
  let sum (f : Packet → Nat) : Nat := (ps.map f).sum
  decide (sum (fun p => p.slots * 32 * p.regs * 4) ≤ 1048576) &&
  decide (sum (fun p => p.slots * 32 * p.acc * 64) ≤ 524288) &&
  decide (sum Packet.slots ≤ 64) &&
  decide (sum (fun p => p.scratch + p.slots * 32 * p.slice) ≤ 1048576)
/-- A global address that is a multiple of n (R52). -/
def globalMult (a : DWord) (n : Nat) : Bool := decide (a.toNat < 2 ^ 57) && decide (a.toNat % n = 0)

namespace State

/-- Core of a die at a mesh position. -/
def coreAt (die x y : Nat) : Nat := die * 144 + y * 12 + x
/-- Cores of a w × h rectangle, in the order of member offsets (R328). -/
def rectangle (die x0 y0 w h : Nat) : List Nat :=
  (List.range h).flatMap fun j => (List.range w).map fun i => coreAt die (x0 + i) (y0 + j)
/-- Low corners in the order of the placement search (R328): clusters of a die, their rows, their columns. -/
def corners (s : State) (part die : Nat) : List (Nat × Nat) :=
  ((List.range 16).filter fun c => (s.reg 0x3001 part).getLsbD (16 * die + c)).flatMap fun c =>
    (List.range 3).flatMap fun y => (List.range 3).map fun x => (3 * (c % 4) + x, 3 * (c / 4) + y)
/-- Whether a rectangle lies in a partition's clusters on a die. -/
def rectOk (s : State) (part die x0 y0 w h : Nat) : Bool :=
  decide (x0 + w ≤ 12) && decide (y0 + h ≤ 12) && (rectangle die x0 y0 w h).all fun c => s.partHasCore part c
/-- The first rectangle of the search that lies in the partition's clusters and passes a test (R328). -/
def findCorner (s : State) (part w h : Nat) (ok : Nat → Nat → Nat → Bool) : Option (Nat × Nat × Nat) :=
  (List.range 4).findSome? fun die =>
    ((s.corners part die).find? fun c => s.rectOk part die c.1 c.2 w h && ok die c.1 c.2).map fun c => (die, c.1, c.2)
/-- The first rectangle, over the dies and corners of the search, whose cores pass a test (R328). -/
def findRect (s : State) (part w h : Nat) (ok : Nat → Bool) : Option (Nat × Nat × Nat) :=
  s.findCorner part w h fun die x y => (rectangle die x y w h).all ok

/-- The check of a packet at the head of a queue (R326). -/
def packetOk (s : State) (ctx : Nat) (b : Bytes) : Bool :=
  let p := parsePacket b
  packetReservedZero b &&
  globalMult p.entry 32 && (p.handler == 0 || globalMult p.handler 4) &&
  [p.gx, p.gy, p.gz, p.nx, p.ny, p.nz, p.hw, p.hh, p.hg].all (fun x => x != 0) &&
  decide (p.threads ≤ if p.prot then 512 else 1024) && decide (p.hoods ≤ 2 ^ 32) &&
  decide (p.hw ≤ 12) && decide (p.hh ≤ 12) && decide (p.hw * p.hh * p.hg ≤ 24) &&
  p.regs % 8 == 0 && decide (8 ≤ p.regs) && decide (p.regs ≤ 256) &&
  p.acc % 2 == 0 && decide (p.acc ≤ 8) &&
  p.slice % 256 == 0 && decide (p.slice ≤ 4096) &&
  p.scratch % 4096 == 0 && decide (p.scratch ≤ 1048576) &&
  coreFits (List.replicate p.hg p) &&
  (s.findRect (s.partOf ctx) p.hw p.hh fun _ => true).isSome &&
  p.rscope != 1 && p.sgrp == s.sgrpOf ctx &&
  [p.w0a, p.w1a, p.ca].all fun a => a == 0 || globalMult a 8

/-! ### Taking a packet -/

/-- What a read of a queue's owner comes to: bytes, or what has become of the queue (R327). -/
def queueRead (s : State) (hq ctx va n : Nat) : Except State (State × Bytes) :=
  match s.readGlobal ⟨ctx, va, true, false, 0⟩ n with
  | .ok (s1, b, false) => .ok (s1, b)
  | .ok (s1, _, true) => .error (s1.contextFault ctx 2)
  | .error (.fault s1 f acc) =>
    let r := s1.raiseFault (.queue hq) ctx acc (BitVec.ofNat 64 va) (s.canon ctx va) f
    .error { r.1 with stuckQ := if r.2.isSome then r.1.stuckQ ++ [hq] else r.1.stuckQ }
  | .error (.poison s1) => .error (s1.contextFault ctx 2)
  | .error (.ok s1 _) => .error s1
/-- The packet at the head of a queue, read once when it reaches the head (R327). -/
def headPacket (s : State) (hq : Nat) : Except State (State × Bytes) :=
  match lookup s.heads hq with
  | some b => .ok (s, b)
  | none =>
    let ctx := s.fld 0x5100 hq 47 32
    match s.queueRead hq ctx (s.fld 0x5101 hq 56 0 + 128 * (s.fld 0x5102 hq 31 0 % 2 ^ s.fld 0x5100 hq 28 24)) 128 with
    | .ok (s1, b) => .ok ({ s1 with heads := put s1.heads hq b }, b)
    | .error e => .error e
/-- Whether a wait condition is met: an acquire read of its counter (R103, R327). -/
def waitMet (s : State) (hq ctx : Nat) (a v : DWord) : Except State (State × Bool) :=
  if a = 0 then .ok (s, true)
  else match s.queueRead hq ctx a.toNat 8 with
    | .ok (s1, b) => .ok (s1, decide (v.toNat ≤ ofBytes b))
    | .error e => .error e
/-- Active launches of a context (R327). -/
def activeLaunches (s : State) (ctx : Nat) : Nat := (s.launches.filter fun l => l.2.ctx == ctx).length
/-- A launch record of a taken packet; HEAD is raised (R327). -/
def recordLaunch (s : State) (hq ctx : Nat) (b : Bytes) : State :=
  let p := parsePacket b
  let sg := s.sgrpOf ctx
  let l : Launch := { Launch.zero with
    ctx := ctx, hq := hq, head := s.fld 0x5102 hq 31 0, pkt := p
    deadline := if (s.reg 0x4002 sg).getLsbD 63 then (s.tick + bits (s.reg 0x4002 sg) 47 24) % 2 ^ 48 else 2 ^ 48 - 1 }
  { (s.setFld 0x5102 hq 31 0 (s.fld 0x5102 hq 31 0 + 1)).bump with
    launches := put s.launches s.fresh l, heads := del s.heads hq }
/-- Whether a queue's head packet is looked at: the queue is enabled and not empty, does not wait for a replay, and its
owner has tables to read it through: it is neither FREE nor FAULTED (R327). -/
def queueLive (s : State) (hq : Nat) : Bool :=
  let st := s.ctxState (s.fld 0x5100 hq 47 32)
  s.fld 0x5100 hq 63 63 == 1 && s.fld 0x5102 hq 31 0 != s.fld 0x5103 hq 31 0 && !s.stuckQ.contains hq &&
  decide (1 ≤ st) && decide (st ≤ 5)
/-- PACKET_TAKE: the head packet is read and checked; it is rejected, taken, or left at the head (R326, R327). -/
def takePacket (s : State) (hq : Nat) : State :=
  if !s.queueLive hq then s
  else
    let ctx := s.fld 0x5100 hq 47 32
    match s.headPacket hq with
    | .error e => e
    | .ok (s1, b) =>
      let p := parsePacket b
      if !s1.packetOk ctx b then s1.contextFault ctx 2
      else if s1.ctxState ctx ≠ 2 || decide (64 ≤ s1.activeLaunches ctx) then s1
      else match s1.waitMet hq ctx p.w0a p.w0v with
        | .error e => e
        | .ok (_, false) => s1
        | .ok (s2, true) =>
          match s2.waitMet hq ctx p.w1a p.w1v with
          | .error e => e
          | .ok (_, false) => s1
          | .ok (s3, true) => s3.recordLaunch hq ctx b

/-! ### Completion -/

/-- A launch completes: the atomic add of its completion value, a release at the packet's scope, or the fault or poison that the
add meets (R95, R103). -/
def completeLaunch (s : State) (id : Nat) : State :=
  match lookup s.launches id with
  | none => s
  | some l =>
    let gone (t : State) : State := { t with launches := del t.launches id }
    if l.pkt.ca = 0 then gone s
    else
      let va := l.pkt.ca.toNat
      let held := { s with launches := put s.launches id { l with adding := true } }
      match held.serve ⟨l.ctx, va, true, true, 2⟩ with
      | .ok s1 x =>
        if x.poison then s1.contextFault l.ctx 2
        else gone ((if 6 ≤ l.pkt.rscope then s1.clockRelease l.ctx else s1).writeLine l.ctx va x (toBytes 8 (ofBytes (x.read (va % 128) 8) + l.pkt.cv.toNat)))
      | .fault s1 f acc => (s1.raiseFault (.adder id) l.ctx acc l.pkt.ca (s.canon l.ctx va) f).1
      | .poison s1 => s1.contextFault l.ctx 2

end State

/-- PACKET_TAKE (R326, R327). -/
def execPacketTake (hq : Nat) (s : State) : Host.Outcome State Fault Refusal := .next (s.takePacket hq)

end Sys2Proof.Machine
end

