-- ==== Sys2Proof/Machine/Place.lean ====
section
/-!
DEFINITION. Placement of hoods (R17 to R20, R39, R57, R328, R329, R337), the departure of groups (R103, R253) and the kill of a
gang (R356, R363, R364, R368). Rows HOOD_PLACE, PLACEMENT_RESERVE, GROUP_LEAVE and GANG_KILL.
-/
namespace Sys2Proof.Machine
namespace State

/-! ### Room on a core -/

/-- Groups resident on a core. -/
def coreGroups (s : State) (core : Nat) : List Nat := keysOf (keep (fun _ g => g.core == core) s.groups)
/-- Room on a core for n more groups of a packet (R31, R42, R56). -/
def hasRoom (s : State) (p : Packet) (n core : Nat) : Bool :=
  coreFits ((s.coreGroups core).map s.groupPkt ++ List.replicate n p)
/-- Wave slots of a core that no group owns, within an issue group. -/
def freeSlots (s : State) (core : Nat) (taken : List Nat) (ig : Nat) : List Nat :=
  let owned := (s.coreGroups core).flatMap fun g => (s.group g).slots
  ((List.range 16).map (16 * ig + ·)).filter fun sl => !owned.contains sl && !taken.contains sl
/-- The issue group with the most free slots, the lower number on a tie (R18). -/
def widestIg (s : State) (core : Nat) (taken : List Nat) : Nat :=
  let n (ig : Nat) : Nat := (s.freeSlots core taken ig).length
  ((List.range 4).find? fun ig => (List.range 4).all fun j => decide (n j ≤ n ig)).getD 0
/-- Slots for n waves, assigned one at a time in wave order (R18); the lowest free slot of the issue group (log 3). -/
def assignSlots (s : State) (core : Nat) : Nat → List Nat → List Nat
  | 0, took => took
  | n + 1, took =>
    match s.freeSlots core took (s.widestIg core took) with
    | sl :: _ => assignSlots s core n (took ++ [sl])
    | [] => took
/-- A wave formed in a slot now; it enters an active set of fewer than 8 at once (R31, R32). -/
def formWave (s : State) (gid core slot : Nat) (age : Int) : State :=
  let w : Wave := ⟨gid, age, decide ((s.activeWaves core (igOf slot)).length < 8), s.clk, s.clk, []⟩
  { s with waves := put s.waves (waveKey core slot) w }
/-- The watchdog's count starts when a context's first group becomes resident (R290). -/
def watchStart (s : State) (ctx : Nat) : State :=
  if (lookup s.watch ctx).isSome then s else { s with watch := put s.watch ctx s.clk }
/-- The watchdog's count after a group of a context has left: from 0, or stopped when none is resident (R290). -/
def watchLeave (s : State) (ctx : Nat) : State :=
  if s.groups.any fun g => g.2.ctx == ctx then { s with watch := put s.watch ctx s.clk }
  else { s with watch := del s.watch ctx }

/-! ### A new hood -/

/-- A thread at launch: registers of R39, lane and wave of R18 and R34. -/
def launchThread (p : Packet) (ctx gid core : Nat) (slots : List Nat) (tag tid : Nat) : Thread :=
  let per := if p.prot then 16 else 32
  let th : Thread := { Thread.zero with
    ctx := ctx, gid := gid, tid := tid, core := core, slot := slots.getD (tid / per) 0
    lane := if p.prot then tid % 16 else tid % 32
    tag := tag + tid / per, pc := p.entry }
  th.ww 0 p.arg
/-- A group becomes resident with zeroed storage, its waves formed and its threads at the entry (R18, R39, R57). -/
def placeGroup (p : Packet) (ctx launch hood : Nat) (s : State) (m : Nat × Nat) : State :=
  let gid := s.fresh
  let slots := s.assignSlots m.2 p.slots []
  let g : Group := { Group.zero with
    ctx := ctx, launch := launch, hood := hood, hpos := m.1, core := m.2, n := p.threads, slots := slots }
  let s1 : State := { s with groups := put s.groups gid g, fresh := s.fresh + 1 + p.slots }
  let s2 : State := (List.range p.threads).foldl (fun t tid =>
    t.setThread (threadKey gid tid 0) (launchThread p ctx gid m.2 slots (gid + 1) tid)) s1
  slots.foldl (fun t sl => t.formWave gid m.2 sl s.clk) s2
/-- Members of a hood with their cores: group k of the core at offset (i, j) is (j·w + i)·g + k (R19, R328). -/
def memberCores (p : Packet) (die x0 y0 : Nat) : List (Nat × Nat) :=
  ((rectangle die x0 y0 p.hw p.hh).flatMap fun c => List.replicate p.hg c).zipIdx.map fun e => (e.2, e.1)
/-- A hood placed at a rectangle: all its groups become resident together (R20, R328). -/
def placeHood (s : State) (launch index : Nat) (r : Nat × Nat × Nat) : State :=
  let l := s.launch launch
  let hood := s.fresh
  let first : State := s.bump.watchStart l.ctx
  let members := memberCores l.pkt r.1 r.2.1 r.2.2
  let s1 : State := members.foldl (placeGroup l.pkt l.ctx launch hood) first
  let gids := keysOf (keep (fun _ g => g.hood == hood) s1.groups)
  let h : Hood := { Hood.zero with
    ctx := l.ctx, launch := launch, index := index, die := r.1, x0 := r.2.1, y0 := r.2.2, groups := gids }
  { s1 with hoods := put s1.hoods hood h }

/-! ### Placement order -/

/-- The order of launches at a placement decision (R328). -/
def launchBefore (a b : Nat × Launch) : Bool :=
  if a.2.deadline ≠ b.2.deadline then decide (a.2.deadline < b.2.deadline)
  else if a.2.pkt.prio ≠ b.2.pkt.prio then decide (b.2.pkt.prio < a.2.pkt.prio)
  else if a.2.hq ≠ b.2.hq then decide (a.2.hq < b.2.hq)
  else decide (a.1 ≤ b.1)
/-- A hood put into its place by its index. -/
def insertHood (x : Nat × Hood) : List (Nat × Hood) → List (Nat × Hood)
  | [] => [x]
  | y :: l => if x.2.index ≤ y.2.index then x :: y :: l else y :: insertHood x l
/-- Hoods of a saved image that are still to be placed, in ascending hood index (R337). -/
def imageHoods (s : State) (ctx : Nat) : List (Nat × Hood) := ((lookup s.saggars ctx).elim [] Saggar.hoods).foldr insertHood []
/-- What a launch places next. -/
inductive NextHood | fresh (index : Nat) | image (hood : Nat)
  deriving DecidableEq, Repr
/-- The next hood of a launch: a relaunched hood before every other, then one of the saved image, then the next index; a context
whose image still has hoods to place places no new one (R328, R337, R364). -/
def nextHood (s : State) (id : Nat) (l : Launch) : Option NextHood :=
  match l.relaunch with
  | i :: _ => some (.fresh i)
  | [] => match (s.imageHoods l.ctx).find? fun h => h.2.launch == id with
    | some h => some (.image h.1)
    | none => if (s.imageHoods l.ctx).isEmpty && decide (l.next < l.pkt.hoods) then some (.fresh l.next) else none
/-- Whether hoods of a context may be placed: it is RUNNING, and in a time-sliced partition it holds the current slice (R329,
R334). -/
def ctxPlaces (s : State) (part c : Nat) : Bool :=
  s.ctxState c == 2 && (s.fld 0x3000 part 62 62 == 0 ||
    (s.fld 0x3021 part 63 63 == 1 && s.fld 0x3020 (8 * part + s.fld 0x3021 part 58 56) 47 32 == c))
/-- A launch put into its place in the order of the decision. -/
def insertLaunch (x : Nat × Launch) : List (Nat × Launch) → List (Nat × Launch)
  | [] => [x]
  | y :: l => if launchBefore x y then x :: y :: l else y :: insertLaunch x l
/-- Launches of a partition that have a hood to place, in the order of the decision (R328, R334). -/
def placeOrder (s : State) (part : Nat) : List (Nat × Launch) :=
  (s.launches.filter fun e => s.partOf e.2.ctx == part && s.ctxPlaces part e.2.ctx &&
    (s.nextHood e.1 e.2).isSome).foldr insertLaunch []
/-- The members of an image's hood with the cores of a rectangle they go to: each member at its own hpos (R337). -/
def restoredMembers (img : Saggar) (p : Packet) (h : Hood) (die x0 y0 : Nat) : List (Nat × Nat) :=
  (memberCores p die x0 y0).filterMap fun m => (h.groups.find? fun g => (lookupD Group.zero img.groups g).hpos == m.1).map fun g => (g, m.2)
/-- The hamper stores of a rectangle's cores have entries for the hampers that an image's hood brings (R26; log 61). -/
def hamperRoom (s : State) (img : Saggar) (p : Packet) (h : Hood) (die x0 y0 : Nat) : Bool :=
  let ms := restoredMembers img p h die x0 y0
  ms.all fun m =>
    let mine (g : Nat) : Bool := ms.any fun x => x.1 == g && x.2 == m.2
    decide (((img.hampers.filter fun x => mine x.gid).length + (s.core m.2).hampers.length + (s.core m.2).kept.length) ≤ 128)
/-- The rectangle for the next hood of a launch, if it finds one (R26, R328). -/
def hoodRect (s : State) (part id : Nat) (l : Launch) : Option (Nat × Nat × Nat) :=
  let fits (die x y : Nat) : Bool := (rectangle die x y l.pkt.hw l.pkt.hh).all fun c => s.hasRoom l.pkt l.pkt.hg c
  match s.nextHood id l, lookup s.saggars l.ctx with
  | some (.image h), some img => s.findCorner part l.pkt.hw l.pkt.hh fun die x y =>
      fits die x y && s.hamperRoom img l.pkt (lookupD Hood.zero img.hoods h) die x y
  | _, _ => s.findCorner part l.pkt.hw l.pkt.hh fits
/-- Launches that may place a hood: the one that reserves the partition, or all (R329). -/
def mayPlace (s : State) (part : Nat) : List (Nat × Launch) :=
  let all := s.placeOrder part
  let held := all.filter fun e => e.2.reserved
  if held.isEmpty then all else held.take 1

/-! ### A restored hood -/

/-- A cycle of the save as the restored machine counts it (R337). -/
def shift (s : State) (savedAt t : Nat) : Nat := s.clk + t - savedAt
/-- A filing time or wave age relative to the present (R337). -/
def shiftBack (s : State) (savedAt : Nat) (t : Int) : Int := s.clk + t - savedAt
/-- The slot of a restored thread: the slot at the same place among its group's. -/
def slotMap (old new : List Nat) (sl : Nat) : Nat := new.getD (old.idxOf sl) 0
/-- A saved thread on its new core (R337). -/
def restoreThread (s : State) (g : Saggar) (core : Nat) (old new : List Nat) (th : Thread) : Thread :=
  { th with
    core := core, slot := slotMap old new th.slot
    wait := match th.wait with
      | .nap t => .nap (s.shift g.savedAt t)
      | w => w }
/-- A hamper of the image in the lowest free entry of a core, which has one for it (R26, R335, R337; log 61). -/
def restoreHamper (s : State) (savedAt core : Nat) (h : Hamper) : State :=
  let h' : Hamper := { h with
    ths := h.ths.map fun t => (t.1, s.shiftBack savedAt t.2), madeAt := (s.shiftBack savedAt h.madeAt).toNat }
  s.modCore core fun c => match spareEntry c with
    | some e => { c with hampers := put c.hampers e h' }
    | none => c
/-- Identifier of the copy or pass that holds an entry: identifiers rise with the time of issue. -/
def holderId : Holder → Nat
  | .copy i | .pass i => i
/-- A scoreboard entry put into its place by the issue of its holder. -/
def insertScore (x : Score) : List Score → List Score
  | [] => [x]
  | y :: l => if holderId x.owner ≤ holderId y.owner then x :: y :: l else y :: insertScore x l
/-- The scoreboard entries of an image join a core's, in the order in which their copies and passes issued (R70). -/
def joinScores (old new : List Score) : List Score := (old ++ new).foldr insertScore []
/-- A saved group on a core: storage at the same offsets, waves, threads, hampers, scoreboard entries, copies and matrix
work, and free hamper entries kept for its threads that wait for one (R26, R57, R70, R238, R337). Restored scoreboard entries may stand beside more than 64 others, or 56 of copies, until they are
released (log 31). -/
def restoreGroup (img : Saggar) (s : State) (m : Nat × Nat) : State :=
  match lookup img.groups m.1 with
  | none => s
  | some g =>
    let core := m.2
    let slots := s.assignSlots core g.slots.length []
    let own (k : Nat) : Bool := k / 32768 == m.1
    let s1 : State := { s with groups := put s.groups m.1 { g with core := core, slots := slots } }
    let wavesOf := (img.waves.filter fun w => w.2.gid == m.1)
    let s2 : State := (img.threads.filter fun e => own e.1).foldl (fun t e =>
      t.setThread e.1 (s.restoreThread img core g.slots slots e.2)) s1
    let s3 : State := wavesOf.foldl (fun t w =>
      t.formWave m.1 core (slotMap g.slots slots (w.1 % 64)) (s.shiftBack img.savedAt w.2.age)) s2
    let s4 : State := (img.hampers.filter fun h => h.gid == m.1).foldl (fun t h => t.restoreHamper img.savedAt core h) s3
    let s5 : State := s4.modCore core fun c => keepFreed
      { c with
        reformQ := c.reformQ ++ img.reformQ.filter fun w => own w.th
        score := joinScores c.score ((img.scores.filter fun e => e.1 == m.1).map Prod.snd) }
      ((List.range 128).filter fun e => (lookup c.hampers e).isNone && !c.kept.contains e)
    let s6 : State := (img.copies.filter fun c => c.2.gid == m.1).foldl (fun t c =>
      { t with copies := put t.copies c.1 { c.2 with core := core } }) s5
    (img.passes.filter fun p => p.2.gid == m.1).foldl (fun t p =>
      { t with passes := put t.passes p.1 { p.2 with core := core, cycle := s.shift img.savedAt p.2.cycle, due := p.2.due.map (s.shift img.savedAt) } }) s6
/-- A subscription of the image re-installed on the cores of its members (R82). -/
def restoreSub (s : State) (e : SubEntry) : State :=
  let coreOf (m : Nat) : Nat := ((s.memberOf e.hood m).map fun g => (s.group g).core).getD 0
  let s1 := s.modCore (coreOf e.smem) fun c =>
    { c with subIn := put c.subIn ((freeFrom c.subIn 1024 0).getD 0) { e with prime := none, final := true } }
  s1.modCore (coreOf e.pmem) fun c => { c with subOut := put c.subOut ((freeFrom c.subOut 1024 0).getD 0) e }
/-- A hood of an image placed at a rectangle, each member at its own hpos (R337); with the last one IMGV is cleared. -/
def restoreHood (s : State) (ctx hood : Nat) (r : Nat × Nat × Nat) : State :=
  match lookup s.saggars ctx with
  | none => s
  | some img =>
    match lookup img.hoods hood with
    | none => s
    | some h =>
      let p := (s.launch h.launch).pkt
      let members := restoredMembers img p h r.1 r.2.1 r.2.2
      let first : State := { s.watchStart ctx with hoods := put s.hoods hood { h with die := r.1, x0 := r.2.1, y0 := r.2.2 } }
      let s1 : State := members.foldl (restoreGroup img) first
      let s2 : State := (img.subs.filter fun e => e.hood == hood).foldl restoreSub s1
      let img' := { img with hoods := del img.hoods hood }
      if img'.hoods.isEmpty then { s2.setFld 0x5004 ctx 63 63 0 with saggars := del s2.saggars ctx }
      else { s2 with saggars := put s2.saggars ctx img' }

/-! ### The placement decision -/

/-- A launch's next hood placed at a rectangle (R328). -/
def placeNext (s : State) (id : Nat) (l : Launch) (r : Nat × Nat × Nat) : State :=
  let went (l : Launch) : Launch := { l with waitFrom := none, reserved := false }
  match s.nextHood id l with
  | some (.image h) => { s.restoreHood l.ctx h r with launches := put s.launches id (went l) }
  | some (.fresh i) =>
    let l' := match l.relaunch with
      | _ :: rest => { l with relaunch := rest }
      | [] => { l with next := l.next + 1 }
    ({ s with launches := put s.launches id (went l') }).placeHood id i r
  | none => s
/-- HOOD_PLACE: one placement decision of a partition: the first launch in the order whose next hood finds a rectangle
places it; those passed over start to wait (R328, R329). -/
def placeStep (s : State) (part : Nat) : List (Nat × Launch) → State
  | [] => s
  | (id, l) :: rest =>
    match s.hoodRect part id l with
    | some r => s.placeNext id l r
    | none => placeStep { s with launches := put s.launches id { l with waitFrom := some (l.waitFrom.getD s.clk) } } part rest
/-- Whether a placement decision of a partition changes anything. -/
def placeDue (s : State) (part : Nat) : Bool :=
  (s.mayPlace part).any fun e => (s.hoodRect part e.1 e.2).isSome || e.2.waitFrom.isNone
/-- A launch whose next hood has waited 1 ms reserves the partition, unless another that may place a hood has: it is one of those
whose hoods may be placed (R329). -/
def reserveDue (s : State) (id : Nat) (l : Launch) : Bool :=
  let order := s.placeOrder (s.partOf l.ctx)
  match l.waitFrom with
  | some t => (order.any fun e => e.1 == id) && !(order.any fun e => e.2.reserved) && decide (t + 1000 * Config.cyclesPerMicro ≤ s.clk)
  | none => false
/-- PLACEMENT_RESERVE (R329). -/
def reservePart (s : State) (id : Nat) : State :=
  { s with launches := adjust s.launches id fun l => if s.reserveDue id l then { l with reserved := true } else l }

/-! ### Departure -/

/-- A group may leave: every thread of its hood has exited, its copies and matrix work are done and the hood's updates are
applied (R20, R103). -/
def mayLeave (s : State) (gid : Nat) : Bool :=
  let hood := (s.group gid).hood
  (lookup s.groups gid).isSome && (lookup s.hoods hood).isSome &&
  ((s.hood hood).groups.all fun g => (s.participants g).isEmpty) &&
  !(s.copies.any fun c => c.2.gid == gid) && !(s.passes.any fun p => p.2.gid == gid) && !s.hoodUpdates hood
/-- A hood all of whose groups have left: its launch counts it, and completes with the last (R103). -/
def hoodDone (s : State) (hood : Nat) : State :=
  let h := s.hood hood
  let s1 : State := { s.removeGroups (fun _ => false) (· == hood) with
    launches := adjust s.launches h.launch fun l => { l with left := l.left + 1 } }
  if (s1.launch h.launch).left = (s1.launch h.launch).pkt.hoods then s1.completeLaunch h.launch else s1
/-- Helpers that borrow lanes of a group's wave slots (R253). -/
def guestsOf (s : State) (g : Group) : List Nat :=
  (s.threads.filter fun e => e.2.core == g.core && g.slots.contains e.2.slot && e.2.hidx != 0).map Prod.fst
/-- GROUP_LEAVE: helpers that borrow the group's lanes are released, and the group leaves its core (R103, R253). -/
def leaveGroup (s : State) (gid : Nat) : State :=
  if !s.mayLeave gid then s
  else
    let g := s.group gid
    let s1 := ((s.guestsOf g).foldl forceRelease s).removeGroups (· == gid) (fun _ => false)
    let s2 := (s1.modHood g.hood fun h => { h with left := h.left ++ [gid] }).watchLeave g.ctx
    let s3 := if (s2.hood g.hood).left.length = (s2.hood g.hood).groups.length then s2.hoodDone g.hood else s2
    s3.wakeRetry

/-! ### Containment -/

/-- The KIND 18 record of a kill (R368). -/
def killRecord (h : Hood) (l : Launch) (cause : KillCause) (relaunched : Bool) (count : Nat) : Rec :=
  { va := cause.addr, ctx := h.ctx, kind := 18, b11 := cause.code, b12 := relaunched.toNat, die := h.die, h14 := count
    q16 := cause.pc.toNat, h24 := cause.hpos, w28 := h.index, q32 := l.hq + 4294967296 * l.head }
/-- Requests of a gang withdrawn from the fault records (R352, R356). -/
def withdrawGang (s : State) (hood : Nat) : State :=
  let gone (g : Nat) : Bool := (s.group g).hood == hood
  s.withdraw fun r => match r with
    | .thread k => gone (k / 32768)
    | .copy i => match lookup s.copies i with
      | some c => gone c.gid
      | none => false
    | _ => false
/-- A copy of a gang has started a unit that has not completed (R363). -/
def unitsOut (s : State) (hood : Nat) : Bool := s.copies.any fun c => (s.group c.2.gid).hood == hood && copyOut c.2
/-- A kill begins: the gang's threads stop issuing, its helpers are released, its copies but for started units stop, and its
baskets and subscription entries go (R82, R363). -/
def haltGang (s : State) (hood : Nat) (cause : KillCause) : State :=
  let gone (g : Nat) : Bool := (s.group g).hood == hood
  let stopped (c : Nat × CopyRec) : Bool := gone c.2.gid && !copyOut c.2
  let ids := (s.copies.filter stopped).map Prod.fst
  { s with
    hoods := adjust s.hoods hood fun h => { h with dying := some cause }
    threads := mapValues (fun k (th : Thread) => if gone (k / 32768) then { th with wait := .resp } else th)
      (keep (fun k th => !(gone (k / 32768) && th.hidx != 0)) s.threads)
    cores := mapValues (fun _ c => coreWithout gone (· == hood) (fun i => ids.contains i) (fun _ => false) c) s.cores
    copies := s.copies.filter fun c => !stopped c
    streams := mapValues (fun _ t => { t with
      basket := t.basket.filter fun u => u.hood != hood
      sent := t.sent.map fun b => b.filter fun u => u.hood != hood }) s.streams
    cur := s.cur.filter fun k => !gone (k / 32768) }
/-- A kill ends: the gang is removed and wiped with the helpers on its lanes, a KIND 18 record is written, and the hood is
relaunched or its context faults (R253, R363, R364). -/
def finishKill (s0 : State) (hood : Nat) (cause : KillCause) : State :=
  match lookup s0.hoods hood with
  | none => s0
  | some h =>
    let s := (h.groups.flatMap fun g => s0.guestsOf (s0.group g)).foldl forceRelease s0
    let l := s.launch h.launch
    let n := lookupD 0 l.kills h.index
    let again := l.pkt.replay && decide (n < 2)
    let l' := { l with kills := put l.kills h.index (n + 1), relaunch := l.relaunch ++ [h.index] }
    let s1 := (s.withdrawGang hood).removeGroups (fun g => (s.group g).hood == hood) (· == hood)
    let s2 := (if again then { s1 with launches := put s1.launches h.launch l' } else s1).watchLeave h.ctx
    let s3 := (s2.addRecord h.ctx (killRecord h l cause again (if again then n + 1 else n)).bytes).wakeRetry
    if again then s3 else s3.contextFault h.ctx 2
/-- Of the containment faults of a gang that wait at one time, the one of the lowest member is recorded (R356). -/
def firstCause (s : State) (hood : Nat) (cause : KillCause) : KillCause :=
  s.inbox.foldl (fun c i => match i with
    | .gangKill h x => if h = hood && decide (x.hpos < c.hpos) then x else c
    | _ => c) cause
/-- GANG_KILL: its requests are withdrawn from the fault records (R352); the kill of a gang, at once or when the units its copies have started are complete; a gang that is gone or dies
already is not killed twice (R356, R363). -/
def killHood (s : State) (hood : Nat) (cause : KillCause) : State :=
  match lookup s.hoods hood with
  | none => s
  | some h =>
    if h.dying.isSome then s
    else if s.unitsOut hood then (s.withdrawGang hood).haltGang hood (s.firstCause hood cause)
    else s.finishKill hood (s.firstCause hood cause)
/-- The kill of a gang whose started units are complete (R363). -/
def dueKill (s : State) : Option State :=
  s.hoods.findSome? fun h => h.2.dying.bind fun cause =>
    if s.unitsOut h.1 then none else some (s.finishKill h.1 cause)

end State

/-- HOOD_PLACE (R18, R20, R39, R57, R328, R337). -/
def execHoodPlace (part : Nat) (s : State) : Host.Outcome State Fault Refusal := .next (s.placeStep part (s.mayPlace part))
/-- PLACEMENT_RESERVE (R329). -/
def execPlacementReserve (launch : Nat) (s : State) : Host.Outcome State Fault Refusal := .next (s.reservePart launch)
/-- GROUP_LEAVE (R20, R103, R253). -/
def execGroupLeave (gid : Nat) (s : State) : Host.Outcome State Fault Refusal := .next (s.leaveGroup gid)
/-- GANG_KILL (R356, R363, R364). -/
def execGangKill (hood : Nat) (cause : KillCause) (s : State) : Host.Outcome State Fault Refusal :=
  .next (s.killHood hood cause)

end Sys2Proof.Machine
end

