-- ==== Sys2Proof/Machine/Sm3.lean ====
section
/-!
DEFINITION. The SM3 hash of the SM3 standard, and HMAC over it, which the spec names for measurements, images and remote
launch (R330, R331, R338, R403, R404).
-/
namespace Sys2Proof.Machine

/-- Rotation to the left of a 32-bit word. -/
def rotl (x : Word) (n : Nat) : Word := x.rotateLeft (n % 32)
/-- A big-endian word from four bytes. -/
def beWord (b : Bytes) : Word := BitVec.ofNat 32 (b.foldl (fun a x => 256 * a + x.toNat) 0)
/-- Four bytes of a word, the highest first. -/
def beBytes (w : Word) : Bytes := [24, 16, 8, 0].map fun s => BitVec.ofNat 8 (w.toNat / 2 ^ s)
/-- Consecutive runs of n bytes; fuel is the number of runs. -/
def chunks (n : Nat) : Nat → Bytes → List Bytes
  | 0, _ => []
  | k + 1, b => b.take n :: chunks n k (b.drop n)

/-- The message with its padding and its length in bits. -/
def sm3Pad (b : Bytes) : Bytes :=
  let zeros := (119 - b.length % 64) % 64
  let bits := 8 * b.length
  b ++ [0x80#8] ++ List.replicate zeros 0 ++ beBytes (BitVec.ofNat 32 (bits / 4294967296)) ++ beBytes (BitVec.ofNat 32 bits)
/-- Permutation P0 of the standard. -/
def sm3P0 (x : Word) : Word := x ^^^ rotl x 9 ^^^ rotl x 17
/-- Permutation P1 of the standard. -/
def sm3P1 (x : Word) : Word := x ^^^ rotl x 15 ^^^ rotl x 23
/-- Message expansion: n more words from the last 16, newest first. -/
def sm3Expand : Nat → List Word → List Word
  | 0, w => w
  | n + 1, w =>
    let g (i : Nat) : Word := w.getD (i - 1) 0
    let x := sm3P1 (g 16 ^^^ g 9 ^^^ rotl (g 3) 15) ^^^ rotl (g 13) 7 ^^^ g 6
    sm3Expand n (x :: w)
/-- The eight working registers. -/
structure Sm3Reg where
  a : Word
  b : Word
  c : Word
  d : Word
  e : Word
  f : Word
  g : Word
  h : Word
/-- One round with its words W and W'. -/
def sm3Round (j : Nat) (w w' : Word) (r : Sm3Reg) : Sm3Reg :=
  let t : Word := if j < 16 then 0x79CC4519 else 0x7A879D8A
  let ss1 := rotl (rotl r.a 12 + r.e + rotl t j) 7
  let ff := if j < 16 then r.a ^^^ r.b ^^^ r.c else (r.a &&& r.b) ||| (r.a &&& r.c) ||| (r.b &&& r.c)
  let gg := if j < 16 then r.e ^^^ r.f ^^^ r.g else (r.e &&& r.f) ||| (~~~r.e &&& r.g)
  let tt1 := ff + r.d + (ss1 ^^^ rotl r.a 12) + w'
  let tt2 := gg + r.h + ss1 + w
  ⟨tt1, r.a, rotl r.b 9, r.c, sm3P0 tt2, r.e, rotl r.f 19, r.g⟩
/-- The rounds over the expanded words. -/
def sm3Rounds : Nat → List Word → Sm3Reg → Sm3Reg
  | _, [], r => r
  | j, w :: ws, r => if j < 64 then sm3Rounds (j + 1) ws (sm3Round j w (w ^^^ ws.getD 3 0) r) else r
/-- One block of 64 bytes compressed into the chaining value. -/
def sm3Block (v : List Word) (b : Bytes) : List Word :=
  let w := (sm3Expand 52 ((chunks 4 16 b).map beWord).reverse).reverse
  let g (i : Nat) : Word := v.getD i 0
  let r := sm3Rounds 0 w ⟨g 0, g 1, g 2, g 3, g 4, g 5, g 6, g 7⟩
  [r.a ^^^ g 0, r.b ^^^ g 1, r.c ^^^ g 2, r.d ^^^ g 3, r.e ^^^ g 4, r.f ^^^ g 5, r.g ^^^ g 6, r.h ^^^ g 7]
/-- SM3: the 32-byte digest. -/
def sm3 (b : Bytes) : Bytes :=
  let p := sm3Pad b
  let iv : List Word := [0x7380166F, 0x4914B2B9, 0x172442D7, 0xDA8A0600, 0xA96F30BC, 0x163138AA, 0xE38DEE4D, 0xB0FB0E4E]
  ((chunks 64 (p.length / 64) p).foldl sm3Block iv).flatMap beBytes
/-- HMAC-SM3 under a key of at most 64 bytes. -/
def hmacSm3 (key msg : Bytes) : Bytes :=
  let k := key ++ List.replicate (64 - key.length) 0
  sm3 ((k.map (· ^^^ 0x5C#8)) ++ sm3 ((k.map (· ^^^ 0x36#8)) ++ msg))

end Sys2Proof.Machine
end

