-- ==== Sys2Proof/Machine/Contexts.lean ====
section
/-!
DEFINITION. The commands of CTXCMD (R291, R333 to R340), saggar images (R335 to R338), their stages and limits, the watchdog
(R290), and the slice rotation (R398 to R400). Rows ENABLE, TEARDOWN, SIGNAL, START, DRAIN, SAVE, RESTORE, EXPORT, IMPORT,
DRAIN_COMPLETE, DRAIN_LIMIT_EXPIRE, SAVE_COMPLETE, SAVE_INCOMPLETE, WATCHDOG_EXPIRE and SLICE_EXPIRE.
-/
namespace Sys2Proof.Machine
namespace State

/-! ### Allotments of a partition -/

/-- Whether a partition is enabled (R393). -/
def partOn (s : State) (p : Nat) : Bool := s.fld 0x3000 p 63 63 == 1
/-- Whether a partition holds a server group (R393). -/
def partSg (s : State) (p sg : Nat) : Bool := s.partOn p && (s.reg 0x3005 (4 * p + sg / 64)).getLsbD (sg % 64)
/-- Whether a partition holds a fault queue. -/
def partFq (s : State) (p q : Nat) : Bool := s.partOn p && (s.reg 0x3004 p).getLsbD q
/-- Whether a partition holds a launch queue. -/
def partLq (s : State) (p q : Nat) : Bool := s.partOn p && (s.reg 0x3003 p).getLsbD q
/-- Whether a partition holds a memory link. -/
def partLink (s : State) (p l : Nat) : Bool := s.partOn p && (s.reg 0x3002 (4 * p + l / 64)).getLsbD (l % 64)
/-- Whether a partition holds an Ethernet ring. -/
def partRing (s : State) (p r : Nat) : Bool := s.partOn p && (s.reg 0x3006 (4 * p + r / 64)).getLsbD (r % 64)
/-- Whether a context number lies in a partition's range (R393, R395). -/
def partCtx (s : State) (p c : Nat) : Bool :=
  s.partOn p && decide (s.fld 0x300A p 15 0 ≤ c) && decide (c < s.fld 0x300A p 15 0 + s.fld 0x300A p 48 32)

/-! ### Enable, tear down, signal, start -/

/-- ENABLE: FREE to READY after its checks; ASROOT of the ASID takes ROOT when it is zero (R291, R342, R401). -/
def enableCtx (s : State) (c : Nat) : State × Nat :=
  let root := s.fld 0x1001 c 45 12
  let p := s.partOf c
  let known := s.fld 0x6000 (s.asidOf c) 45 12
  if s.ctxState c ≠ 0 then (s, 1)
  else if s.fld 0x3030 0 63 63 = 1 || s.fld 0xA000 0 59 56 ≠ 0 || root = 0 || !s.partSg p (s.sgrpOf c) || !s.partFq p (s.fqOf c) || !s.partCtx p c ||
      (known ≠ 0 && known ≠ root) then (s, 3)
  else ((s.setFld 0x6000 (s.asidOf c) 45 12 root).setCtxState c 1, 0)

/-- Bytes of the drawer zeroed. -/
def zeroDrawer (s : State) (pa n : Nat) : State := { s with drawer := storeOutside s.drawer pa (pa + n) }
/-- Start of a context's saggar area (R333). -/
def sagBase (s : State) (c : Nat) : Nat := 4096 * s.fld 0x5001 c 45 12
/-- Image length in bytes, from the header (R338). -/
def imageLength (g : Saggar) : Nat := ofBytes ((g.header.drop 8).take 8)
/-- A context's image is wiped and IMGV cleared (R336). -/
def dropImage (s : State) (c : Nat) : State :=
  let s1 : State := match lookup s.saggars c with
    | some g => { s.zeroDrawer (s.sagBase c) (imageLength g) with saggars := del s.saggars c }
    | none => s
  s1.setFld 0x5004 c 63 63 0
/-- The stage of a context (R333). -/
def setStage (s : State) (c stage : Nat) : State :=
  (s.setFld 0x5004 c 62 60 stage).setFld 0x5004 c 47 0 s.tick
/-- The reset stage: the image and the on-chip state are wiped, and the context faults with FCLASS 4 (R336). -/
def saveFails (s : State) (c : Nat) : State :=
  ((s.dropImage c).contextFault c 4).setStage c 3
/-- TEARDOWN: every state except FREE; a stage ends as if it were incomplete; the work ends, the on-chip state, the image and the
ticket are wiped, FCLASS is 5 unless set, and the context is FREE (R291, R336, R339). -/
def teardownCtx (s0 : State) (c : Nat) : State × Nat :=
  if s0.ctxState c = 0 then (s0, 1)
  else
    let s := if s0.ctxState c = 3 || s0.ctxState c = 4 then s0.saveFails c else s0
    let s1 := (((s.wipeContext c true).dropImage c).setStage c 0).setCtxState c 0
    let s2 := if s.fld 0x1003 c 55 48 = 0 then s1.setFld 0x1003 c 55 48 5 else s1
    ({ s2 with remap := del s2.remap c, tickets := del s2.tickets c, ticketTo := del s2.ticketTo c }.wakeRetry, 0)
/-- SIGNAL: DBELL of the context is set (R291). -/
def signalCtx (s : State) (c : Nat) : State × Nat := (s.setFld 0x1005 c 1 1 1, 0)
/-- START: READY to RUNNING (R333). -/
def startCtx (s : State) (c : Nat) : State × Nat := if s.ctxState c = 1 then (s.setCtxState c 2, 0) else (s, 1)

/-! ### Drain and forced save -/

/-- Helpers whose recruiters' groups belong to a context are forcibly released (R253). -/
def releaseHelpers (s : State) (c : Nat) : State :=
  ((s.threads.filter fun e => e.2.ctx == c && e.2.hidx != 0).map Prod.fst).foldl forceRelease s
/-- Launches of a context that stop placing hoods wait for no placement and hold no reservation (R329, R334). -/
def dropWaits (s : State) (c : Nat) : State :=
  { s with launches := mapValues (fun _ (l : Launch) => if l.ctx = c then { l with waitFrom := none, reserved := false } else l) s.launches }
/-- DRAIN: the drain stage begins (R334). -/
def drainCtx (s : State) (c : Nat) : State × Nat :=
  if s.ctxState c = 2 then ((((s.releaseHelpers c).dropWaits c).setCtxState c 3).setStage c 1, 0) else (s, 1)
/-- The forced-save stage begins: issue stops, helpers are released and baskets are flushed (R335). -/
def beginSave (s : State) (c : Nat) : State :=
  let cores := distinct ((s.groups.filter fun g => g.2.ctx == c).map fun g => g.2.core)
  cores.foldl flushCore ((((s.releaseHelpers c).dropWaits c).setCtxState c 4).setStage c 2)
/-- SAVE (R333, R335). -/
def saveCtx (s : State) (c : Nat) : State × Nat :=
  if s.ctxState c = 2 || s.ctxState c = 3 then (s.beginSave c, 0) else (s, 1)

/-- Hoods of a context that are resident. -/
def ctxHoods (s : State) (c : Nat) : List Nat := keysOf (keep (fun _ h => h.ctx == c) s.hoods)
/-- Bytes of die-scratchpad window of a context on all four dies. -/
def dspBytes (s : State) (c : Nat) : Nat := 4 * 65536 * s.fld 0x4001 (s.sgrpOf c) 41 32
/-- Bytes captured from resident work: thread records, allocations, lane slices and windows (R48, R335). -/
def capturedBytes (s : State) (c : Nat) (full : Bool) : Nat :=
  if !full then 0 else
  let threads := (s.threads.filter fun t => t.2.ctx == c).length * 1600
  let stores := ((s.groups.filter fun g => g.2.ctx == c).map fun g =>
    (s.groupPkt g.1).scratch + g.2.slots.length * 32 * (s.groupPkt g.1).slice).sum
  threads + stores + s.dspBytes c
/-- Length of an image of some captured bytes. -/
def imageBytes (n : Nat) : Nat := 64 + n + (Config.imageOverhead n).toNat
/-- An image longer than the saggar area (R336). -/
def imageTooBig (s : State) (c n : Nat) : Bool := decide (4096 * s.fld 0x5002 c 31 0 < imageBytes n)

/-- The state record of a thread of a launch (R48): bytes of registers it has not declared are zero. -/
def threadRecord (p : Packet) (th : Thread) : Bytes :=
  let v := (List.range 256).flatMap fun n => toBytes 4 (if n < p.regs then (th.rvn n).toNat else 0)
  let a := (List.range 8).flatMap fun n => (List.range 16).flatMap fun c =>
    toBytes 4 (if n < p.acc then (lookupD 0 th.a (16 * n + c)).toNat else 0)
  v ++ toBytes 12 th.p.toNat ++ toBytes 4 0 ++ toBytes 4 th.fp.toNat ++ toBytes 4 th.trap.cause.toNat ++
    toBytes 8 th.trap.tpc.toNat ++ toBytes 8 th.trap.val.toNat ++ toBytes 4 th.trap.aux.toNat ++ toBytes 4 0 ++
    toBytes 8 th.pc.toNat ++ toBytes 8 0 ++ a
/-- The body of image number n: the state records of its threads (R48, R335), then bytes of a format the spec leaves open, `len`
in all (R338; log 6). -/
def imageBody (records : Bytes) (n len : Nat) : Bytes :=
  (records ++ (List.range (len - records.length)).map (Config.imageByte n)).take len
/-- The 64-byte header of an image (R338). -/
def imageHeader (c : Nat) (body : Bytes) : Bytes :=
  toBytes 4 0x53474752 ++ toBytes 2 1 ++ toBytes 2 c ++ toBytes 8 (64 + body.length) ++ sm3 body ++ toBytes 16 0
/-- Matrix passes in flight in a thread (R335). -/
def passesOf (s : State) (k : Nat) : Nat :=
  (s.passes.filter fun p => p.2.due.isSome && p.2.rows.any fun r => r.1 == k).length
/-- A thread as an image records it: a request parked on a fault is executed again, drained baskets are behind it, and it still
waits for its matrix passes (R70, R335). -/
def savedThread (s : State) (k : Nat) (th : Thread) : Thread :=
  let w := match th.wait with
    | .fault _ | .retry | .quarter | .quiet _ => Wait.none
    | .drain _ _ _ => .drained
    | w => w
  { th with wait := w, pend := s.passesOf k }
/-- A copy as an image records it, and as it resumes from a fault: it goes on from its first unwritten unit (R236, R238). -/
def savedCopy (c : CopyRec) : CopyRec := { c with state := if c.next = 0 then .queued else .moving }
/-- Windows of a context's server group on the dies. -/
def savedDsp (s : State) (c : Nat) : Cells Store :=
  let lo := 65536 * s.fld 0x4001 (s.sgrpOf c) 9 0
  let hi := lo + 65536 * s.fld 0x4001 (s.sgrpOf c) 41 32
  let inside (m : Store) : Store :=
    { cells := (m.cells.filter fun e => decide (lo ≤ e.1) && decide (e.1 < hi)).map fun e => (e.1 - lo, e.2)
      bad := (m.bad.filter fun g => decide (lo ≤ 8 * g) && decide (8 * g < hi)).map fun g => g - lo / 8 }
  mapValues (fun _ m => inside m) s.dsp
/-- What an earlier image still holds for hoods that have not been placed, with its times moved to the present: a further image
carries it on (R335, R337; log 62). -/
def carried (s : State) (c : Nat) : Option Saggar :=
  (lookup s.saggars c).bind fun g =>
    let mine (x : Nat) : Bool := g.hoods.any fun h => h.2.groups.contains x
    let late (n : Nat) : Nat := n + s.clk - g.savedAt
    let lateI (n : Int) : Int := n + s.clk - g.savedAt
    if s.fld 0x5004 c 63 63 = 0 || g.hoods.isEmpty then none
    else some { g with
      groups := keep (fun x _ => mine x) g.groups
      threads := mapValues (fun _ (t : Thread) => { t with wait := match t.wait with
        | .nap n => .nap (late n)
        | w => w }) (keep (fun k _ => mine (k / 32768)) g.threads)
      waves := mapValues (fun _ (w : Wave) => { w with age := lateI w.age }) (keep (fun _ w => mine w.gid) g.waves)
      hampers := (g.hampers.filter fun h => mine h.gid).map fun h =>
        { h with ths := h.ths.map fun t => (t.1, lateI t.2), madeAt := late h.madeAt }
      reformQ := g.reformQ.filter fun w => mine (w.th / 32768)
      copies := keep (fun _ x => mine x.gid) g.copies
      passes := mapValues (fun _ (p : Pass) => { p with due := p.due.map late }) (keep (fun _ x => mine x.gid) g.passes)
      scores := g.scores.filter fun e => mine e.1
      subs := g.subs.filter fun e => g.hoods.any fun h => h.1 == e.hood }
/-- Bytes that an earlier image still holds for hoods that have not been placed: thread records, allocations and lane slices (R48,
R335; log 62). -/
def carriedBytes (s : State) (c : Nat) : Nat :=
  match s.carried c with
  | none => 0
  | some g => g.threads.length * 1600 + (g.groups.map fun e =>
      let p := (s.launch e.2.launch).pkt
      p.scratch + e.2.slots.length * 32 * p.slice).sum
/-- Captured bytes of an image, with those of an earlier one that it carries on (R333, R336). -/
def imageSize (s : State) (c : Nat) (full : Bool) : Nat :=
  if full || (s.carried c).isSome then s.capturedBytes c full + s.carriedBytes c else 0
/-- SAGNEED: pages that a save begun now would need (R333). -/
def sagNeed (s : State) (c : Nat) : Nat := (imageBytes (s.imageSize c true) + 4095) / 4096
/-- The waves of two images in one table: a wave of the second moves to a key beyond those of the first; its slot stays. -/
def joinWaves (a b : Cells Wave) : Cells Wave :=
  let base := 64 * ((keysOf a).foldl max 0 / 64 + 1)
  a ++ b.map fun e => (base + e.1, e.2)
/-- What an image of a context records; `full` says whether resident work is in it, or its launch records alone (R334,
R335), beside what an earlier image still holds. -/
def capture (s : State) (c : Nat) (full : Bool) : Saggar :=
  let mine (g : Nat) : Bool := full && (s.group g).ctx == c && (lookup s.groups g).isSome
  let n := s.fresh
  let old := s.carried c
  let part {α : Type} (f : Saggar → List α) : List α := (old.map f).getD []
  let join {α : Type} (a : Cells α) (f : Saggar → Cells α) : Cells α := (part f).foldl (fun t e => put t e.1 e.2) a
  let threads := join (mapValues (savedThread s) (keep (fun k _ => mine (k / 32768)) s.threads)) Saggar.threads
  let size := s.imageSize c full
  let groups := join (keep (fun g _ => mine g) s.groups) Saggar.groups
  let records := threads.flatMap fun e => threadRecord (s.launch (lookupD Group.zero groups e.2.gid).launch).pkt e.2
  { header := if s.imageTooBig c size then [] else imageHeader c (imageBody records n (imageBytes size - 64)) ++ toBytes 8 n
    records := records
    launches := keep (fun _ l => l.ctx == c) (s.dropWaits c).launches
    hoods := join (keep (fun _ h => full && h.ctx == c) s.hoods) Saggar.hoods
    groups := groups
    threads := threads
    waves := joinWaves (keep (fun _ w => mine w.gid) s.waves) (part Saggar.waves)
    hampers := (s.cores.flatMap fun k => (k.2.hampers.map Prod.snd).filter fun h => mine h.gid) ++ part Saggar.hampers
    reformQ := (s.cores.flatMap fun k => k.2.reformQ.filter fun w => mine (w.th / 32768)) ++ part Saggar.reformQ
    copies := join (mapValues (fun _ x => savedCopy x) (keep (fun _ x => mine x.gid) s.copies)) Saggar.copies
    passes := join (keep (fun _ x => mine x.gid) s.passes) Saggar.passes
    scores := (s.cores.flatMap fun k => k.2.score.filterMap fun e =>
      let g := match e.place with
        | .alloc g => g
        | .slice th => th / 32768
      if mine g then some (g, e) else none) ++ part Saggar.scores
    subs := (s.cores.flatMap fun k => (k.2.subOut.map Prod.snd).filter fun e => full && (s.hood e.hood).ctx == c) ++ part Saggar.subs
    dsp := if full then s.savedDsp c else []
    savedAt := s.clk }
/-- The bytes of an image as they stand in the saggar area. -/
def imageArea (g : Saggar) : Bytes :=
  g.header.take 64 ++ imageBody g.records (ofBytes (g.header.drop 64)) (imageLength g - 64)
/-- An image is held and the context is SAVED; the on-chip state is wiped and the event raised (R334, R335). The windows on the die
scratchpads are in the image of a forced save; through a drain they stay (R59). -/
def putImage (s : State) (c : Nat) (full : Bool) : State :=
  let g := s.capture c full
  let s1 : State := { s.bump with saggars := put s.saggars c g }
  let s2 := (s1.drawerWrite (s.sagBase c) (imageArea g)).wipeContext c full
  ((((s2.setFld 0x5004 c 63 63 1).setStage c 0).setCtxState c 5).raiseCstate c).wakeRetry

/-- Microseconds of a stage have passed (R333, R334). -/
def stagePast (s : State) (c us : Nat) : Bool := decide (125 * us ≤ 16 * (s.tick - s.fld 0x5004 c 47 0))
/-- DRAINLIM and SAVELIM in force (R333). -/
def drainLimit (s : State) (c : Nat) : Nat := if s.fld 0x5000 c 19 0 = 0 then 100 else s.fld 0x5000 c 19 0
def saveLimit (s : State) (c : Nat) : Nat := if s.fld 0x5000 c 51 32 = 0 then 2000 else s.fld 0x5000 c 51 32

/-- The drain is over: no hood is resident (R334). -/
def drained (s : State) (c : Nat) : Bool := s.ctxState c == 3 && (s.ctxHoods c).isEmpty
/-- DRAIN_COMPLETE: an image of the launch records is held (R334); no byte of one larger than the saggar area is written
(log 15). -/
def drainDone (s : State) (c : Nat) : State := if s.drained c then s.putImage c false else s
/-- Whether the drain limit ends a drain (R334). -/
def drainExpired (s : State) (c : Nat) : Bool :=
  s.ctxState c == 3 && s.fld 0x5000 c 63 63 == 1 && !(s.ctxHoods c).isEmpty && s.stagePast c (s.drainLimit c)
/-- DRAIN_LIMIT_EXPIRE (R334). -/
def drainLimitStep (s : State) (c : Nat) : State := if s.drainExpired c then s.beginSave c else s
/-- A thread's instruction is in flight: a system command, a SUBON or a trap's entry has still to come to its end (R335). -/
def inFlight (th : Thread) : Bool :=
  match th.wait with
  | .sys _ | .subon | .entry _ _ => true
  | _ => false
/-- Instructions in flight of a saving context have completed but for matrix work, its copies rest between units, no kill is under
way, and its baskets are drained: the image may be written (R335). -/
def saveQuiet (s : State) (c : Nat) : Bool :=
  s.ctxState c == 4 && !(s.threads.any fun t => t.2.ctx == c && inFlight t.2) && !(s.reqs.any fun r => r.2.ctx == c) && !(s.threads.any fun t => t.2.ctx == c && t.2.pend != s.passesOf t.1) &&
  !(s.copies.any fun x => s.groupCtx x.2.gid == c && copyOut x.2) && !((s.ctxHoods c).any s.hoodUpdates) && !(s.hoods.any fun h => h.2.ctx == c && h.2.dying.isSome)
/-- Whether a save has failed (R336). -/
def saveExpired (s : State) (c : Nat) : Bool :=
  s.ctxState c == 4 && (s.stagePast c (s.saveLimit c) || s.imageTooBig c (s.imageSize c true))
/-- SAVE_COMPLETE, or an incomplete save where a thread's state holds an uncorrectable error (R335, R336, R357). -/
def saveDone (s : State) (c : Nat) : State :=
  if !s.saveQuiet c || s.saveExpired c then s
  else if s.threads.any fun t => t.2.ctx == c && !t.2.bad.isEmpty then s.saveFails c
  else
    let mine (k : Nat) : Bool := s.groupCtx (k / 32768) == c
    let s1 := s.withdraw fun r => match r with
      | .thread k => mine k
      | .copy i => match lookup s.copies i with
        | some x => s.groupCtx x.gid == c
        | none => false
      | _ => false
    s1.putImage c true
/-- SAVE_INCOMPLETE (R336). -/
def saveIncompleteStep (s : State) (c : Nat) : State := if s.ctxState c = 4 then s.saveFails c else s

/-! ### Restore -/

/-- The image's digest check (R337, R338); an image that is not in its area has none (log 15). -/
def imageOk (s : State) (c : Nat) (g : Saggar) : Bool :=
  let b := s.drawer.read (s.sagBase c) (imageLength g)
  s.fld 0x5004 c 63 63 == 1 && (g.header.isEmpty ||
    (b.take 16 == g.header.take 16 && sm3 (b.drop 64) == (b.drop 16).take 32 && b == imageArea g &&
      !s.drawer.poisoned (s.sagBase c) (imageLength g)))
/-- The windows of an image written back, over what another context of the server group has left there (R335, R400; log 24). -/
def restoreDsp (s : State) (c : Nat) (g : Saggar) : State :=
  let lo := 65536 * s.fld 0x4001 (s.sgrpOf c) 9 0
  let hi := lo + 65536 * s.fld 0x4001 (s.sgrpOf c) 41 32
  g.dsp.foldl (fun t e =>
    let m := storeOutside (lookupD Store.zero t.dsp e.1) lo hi
    let m1 : Store := e.2.cells.foldl (fun m x => m.setByte (lo + x.1) x.2) m
    { t with dsp := put t.dsp e.1 { m1 with bad := m1.bad ++ e.2.bad.map (· + lo / 8) } }) s
/-- RESTORE: the image is checked and the context is RUNNING; its launch records stand, its hoods are placed by later steps
(R337), and a completion add that waited is made again (R103). An image whose check fails is dropped and its bytes are zeroed (log
98). -/
def restoreCtx (s : State) (c : Nat) : State × Nat :=
  if s.ctxState c ≠ 5 then (s, 1)
  else match lookup s.saggars c with
    | none => (s.setFld 0x5004 c 63 63 0, 3)
    | some g =>
      if !s.imageOk c g then (s.dropImage c, 3)
      else
        let s1 : State := { s with launches := g.launches.foldl (fun t e => put t e.1 e.2) s.launches }
        let s2 := (s1.setCtxState c 2).restoreDsp c g
        let s3 : State := if g.hoods.isEmpty then { s2.setFld 0x5004 c 63 63 0 with saggars := del s2.saggars c } else s2
        (g.launches.foldl (fun t e => if e.2.adding then t.completeLaunch e.1 else t) s3, 0)

/-! ### Export and import -/

/-- EXPORT: a ticket of two open values for the image; it names the image until it is used or the context torn down (R339; log 1). -/
def exportCtx (s : State) (c : Nat) : State × Nat :=
  if s.ctxState c ≠ 5 then (s, 1)
  else if s.fld 0x5004 c 63 63 = 0 then (s, 3)
  else if (lookup s.routes (routeKey (s.sgrpOf c) (s.fld 0x5300 c 6 0))).isNone then (s, 2)
  else
    let s1 := (s.setReg 0x5301 c s.freeWord).drawFree
    let s2 := (s1.setReg 0x5302 c s1.freeWord).drawFree
    ({ s2 with tickets := put s2.tickets c (s2.reg 0x5302 c ++ s2.reg 0x5301 c), ticketTo := put s2.ticketTo c (s.fld 0x5300 c 6 0) }, 0)

/-- Identifiers of an image moved above the identifiers this package has used. -/
def rebase (b c : Nat) (g : Saggar) : Saggar :=
  let id {α : Type} (f : α → α) (t : Cells α) : Cells α := t.map fun e => (e.1 + b, f e.2)
  let k (x : Nat) : Nat := x + b * 32768
  let bar (x : Barrier) : Barrier := { x with arrived := x.arrived.map k }
  { g with
    launches := id (fun l => { l with ctx := c }) g.launches
    hoods := id (fun h => { h with
      ctx := c, launch := h.launch + b, groups := h.groups.map (· + b), left := h.left.map (· + b), bar := bar h.bar }) g.hoods
    groups := id (fun x => { x with
      ctx := c, launch := x.launch + b, hood := x.hood + b, bars := mapValues (fun _ y => bar y) x.bars }) g.groups
    threads := g.threads.map fun e => (k e.1, { e.2 with
      ctx := c, gid := e.2.gid + b, tag := e.2.tag + b
      wait := match e.2.wait with
        | .stop i d => .stop (i + b) d
        | w => w })
    waves := mapValues (fun _ w => { w with gid := w.gid + b }) g.waves
    hampers := g.hampers.map fun h => { h with gid := h.gid + b, ths := h.ths.map fun t => (k t.1, t.2) }
    reformQ := g.reformQ.map fun w => { w with th := k w.th }
    copies := id (fun x => { x with gid := x.gid + b, th := k x.th }) g.copies
    passes := id (fun x => { x with gid := x.gid + b, inst := x.inst + b, rows := x.rows.map fun r => (k r.1, r.2) }) g.passes
    scores := g.scores.map fun e => (e.1 + b, { e.2 with
      place := match e.2.place with
        | .alloc x => .alloc (x + b)
        | .slice t => .slice (k t)
      owner := match e.2.owner with
        | .copy i => .copy (i + b)
        | .pass i => .pass (i + b) })
    subs := g.subs.map fun e => { e with hood := e.hood + b } }
/-- Identifiers of an image lie below this number. -/
def imageTop (g : Saggar) : Nat :=
  let ids := keysOf g.launches ++ keysOf g.hoods ++ keysOf g.groups ++ keysOf g.copies ++ keysOf g.passes ++
    g.threads.map fun e => e.2.tag
  ids.foldl max 0 + 1
/-- A page of the offer is mapped in the destination, writable, with the same size (R340). -/
def pageMapped (s : State) (c va size : Nat) : Bool :=
  match s.walk (s.partOf c) false (s.asidOf c) va with
  | .ok l => l.w && l.size == size && l.base == va
  | _ => false
/-- A page of the offer copied into the destination: its frame takes the bytes, and cached lines of it go (R340). -/
def copyPage (c : Nat) (s : State) (p : Nat × Nat × List Host.Cell) : State :=
  match s.walk (s.partOf c) false (s.asidOf c) p.1 with
  | .ok l =>
    let inPage (x : Line) : Bool := x.asid == s.asidOf c && decide (p.1 ≤ 128 * x.cline) && decide (128 * x.cline < p.1 + p.2.1)
    let s1 := s.zeroDrawer l.pa p.2.1
    { s1 with
      drawer := p.2.2.foldl (fun m e => m.setByte (l.pa + e.1) e.2) s1.drawer
      l1 := keep (fun _ x => !inPage x) s1.l1
      l2 := keep (fun _ x => !inPage x) s1.l2 }
  | _ => s
/-- Flits of 128 bytes that an import brings: the image and its pages (R340). -/
def offerFlits (o : Offer) : Nat := (imageLength o.image + 127) / 128 + (o.pages.map fun p => p.2.1 / 128).sum
/-- The FX server of a context's route to a package is charged n slots, one unit each (R302, R307, R340). -/
def chargeRoute (s : State) (c pkg n : Nat) : State :=
  match lookup s.routes (routeKey (s.sgrpOf c) pkg) with
  | none => s
  | some r => (List.range n).foldl (fun t _ => t.charge ⟨.fx, r.link, r.entry⟩ 1) s
/-- The context whose image a ticket names to a package, while it is valid (R339). -/
def ticketCtx (s : State) (pkg : Nat) (ticket : BitVec 128) : Option Nat :=
  (s.tickets.find? fun e => e.2 == ticket && lookup s.ticketTo e.1 == some pkg && s.fld 0x5004 e.1 63 63 == 1).map Prod.fst
/-- A ticket is used by the package it is for: its image is wiped at the source and IMGV cleared, and it names nothing any more (R339,
R340). -/
def imageTaken (s : State) (pkg : Nat) (ticket : BitVec 128) : State :=
  match s.ticketCtx pkg ticket with
  | some c => { s.dropImage c with tickets := del s.tickets c, ticketTo := del s.ticketTo c }
  | none => s
/-- Pages that a context has mapped: address, size and bytes, by the tables of its address space (R340, R346). -/
def mappedPages (s : State) (part : Nat) : Nat → Nat → Nat → List (Nat × Nat × List Host.Cell)
  | lvl, va, f => (List.range 512).flatMap fun i =>
    let e := s.drawer64 (f + 8 * i)
    let at_ := va + i * levelSize lvl
    if !e.getLsbD 0 || malformed e lvl || !s.frameOk part false (pteFrame e) then []
    else if e.getLsbD 1 then
      let size := (leafSpan lvl (bits e 51 49)).getD 1 * levelSize lvl
      if at_ % size = 0 then [(at_, size, (s.drawer.cells.filter fun x =>
        decide (pteFrame e ≤ x.1) && decide (x.1 < pteFrame e + size)).map fun x => (x.1 - pteFrame e, x.2))] else []
    else match lvl with
      | 0 => []
      | l + 1 => mappedPages s part l at_ (pteFrame e)
/-- A peer package pulls the image of a ticket: it is sent, with the context's pages where XDEST says so, and taken here (R339, R340). -/
def pullImage (s : State) (pkg : Nat) (ticket : BitVec 128) : State :=
  match s.ticketCtx pkg ticket with
  | none => s
  | some c => match lookup s.saggars c with
    | none => s
    | some g =>
      let pages := if s.fld 0x5300 c 63 63 = 1 then
          s.mappedPages (s.partOf c) 4 0 (pteFrame (s.reg 0x6000 (s.asidOf c))) else []
      (s.emit (.excursion ⟨s.pkgId, ticket, g, imageLength g, pages⟩)).imageTaken pkg ticket
/-- The package that holds an image is asked for it by a control flit on the bound route (R340; log 11). -/
def askImage (s : State) (c pkg : Nat) (ticket : BitVec 128) : State :=
  match lookup s.routes (routeKey (s.sgrpOf c) pkg) with
  | some r => s.sendControl ⟨true, r.link⟩ 14 ([pkg, s.pkgId, 0, 0, 0, 0, 0].map (BitVec.ofNat 8) ++ toBytes 16 ticket.toNat)
  | none => s
/-- IMPORT: the image a ticket names is pulled from the package that offers it, and its slots are charged to the route; the
image is wiped where it came from (R340; logs 11 and 63). -/
def importCtx (s : State) (c : Nat) : State × Nat :=
  if s.ctxState c ≠ 1 then (s, 1)
  else
    let ticket : BitVec 128 := s.reg 0x5302 c ++ s.reg 0x5301 c
    match s.offers.find? fun o => o.ticket == ticket with
    | none => (s, 4)
    | some o =>
      if 4096 * s.fld 0x5002 c 31 0 < imageLength o.image then (s, 6)
      else if !o.pages.all fun p => s.pageMapped c p.1 p.2.1 then (s, 5)
      else
        let g := rebase s.fresh c o.image
        let body := (imageArea g).drop 64
        let g' := { g with header := imageHeader c body ++ g.header.drop 64 }
        let s0 := (o.pages.foldl (copyPage c) ((s.chargeRoute c o.pkg (offerFlits o)).askImage c o.pkg ticket)).imageTaken s.pkgId ticket
        let s1 : State := { s0 with
          saggars := put s0.saggars c g', offers := s.offers.filter fun x => x.ticket != ticket
          fresh := s.fresh + imageTop o.image }
        ((((s1.drawerWrite (s.sagBase c) (imageArea g')).setFld 0x5004 c 63 63 1).setCtxState c 5).raiseCstate c, 0)

/-! ### CTXCMD -/

/-- A context named by an enabled entry of an enabled time-sliced partition (R399). -/
def sliced (s : State) (c : Nat) : Bool :=
  (List.range 17).any fun p => s.partOn p && s.fld 0x3000 p 62 62 == 1 &&
    (List.range 8).any fun e => s.fld 0x3020 (8 * p + e) 63 63 == 1 && s.fld 0x3020 (8 * p + e) 47 32 == c
/-- A command of CTXCMD by its code (R291, R333, R399). -/
def ctxCommand (s : State) (c code : Nat) : State × Nat :=
  if 4 ≤ code && s.sliced c then (s, 1)
  else match code with
    | 1 => s.enableCtx c
    | 2 => s.teardownCtx c
    | 3 => s.signalCtx c
    | 4 => s.startCtx c
    | 5 => s.drainCtx c
    | 6 => s.saveCtx c
    | 7 => s.restoreCtx c
    | 8 => s.exportCtx c
    | _ => s.importCtx c
/-- A command given by a device supervisor outside the package; its result is kept (R285, R291). -/
def ctxRow (s : State) (c code : Nat) : State :=
  let r := s.ctxCommand (c % 65536) code
  { r.1 with cmdResult := BitVec.ofNat 64 r.2 }

/-! ### Watchdog -/

/-- Milliseconds counted by a context's watchdog (R290, R369). -/
def watchMs (s : State) (c : Nat) : Nat :=
  match lookup s.watch c with
  | some t => (s.clk - t) / (1000 * Config.cyclesPerMicro)
  | none => 0
/-- The watchdog of a context has reached its limit (R290). -/
def watchExpired (s : State) (c : Nat) : Bool :=
  let lim := if s.fld 0x1000 c 19 0 = 0 then 1048576 else s.fld 0x1000 c 19 0
  (lookup s.watch c).isSome && decide (lim ≤ s.watchMs c)
/-- WATCHDOG_EXPIRE: a context fault, or an incomplete save (R290, R336). -/
def watchdogStep (s : State) (c : Nat) : State :=
  if !s.watchExpired c then s else if s.ctxState c = 4 then s.saveFails c else s.contextFault c 3

/-! ### Time slices -/

/-- A context has a packet to take, an active launch, or an image (R399). -/
def ctxWork (s : State) (c : Nat) : Bool :=
  s.launches.any (fun l => l.2.ctx == c) || s.fld 0x5004 c 63 63 == 1 ||
  (List.range 64).any fun q => s.fld 0x5100 q 63 63 == 1 && s.fld 0x5100 q 47 32 == c && s.lqCount q != 0
/-- Context of a slice-table entry. -/
def sliceCtx (s : State) (p e : Nat) : Nat := s.fld 0x3020 (8 * p + e) 47 32
/-- An enabled entry whose context is READY or SAVED and has work (R399). -/
def entryReady (s : State) (p e : Nat) : Bool :=
  let c := s.sliceCtx p e
  s.fld 0x3020 (8 * p + e) 63 63 == 1 && (s.ctxState c == 1 || s.ctxState c == 5) && s.ctxWork c
/-- The first entry behind the current one, cyclically, that has work; before the first slice the search starts at entry
0 (R399). -/
def nextEntry (s : State) (p : Nat) : Option Nat :=
  let cur := if s.fld 0x3021 p 63 63 = 1 then s.fld 0x3021 p 58 56 else 7
  ((List.range 8).map fun i => (cur + 1 + i) % 8).find? fun e => s.entryReady p e
/-- The entry a switch goes to: the one chosen when it began, else the next one (R399). -/
def sliceChoice (s : State) (p : Nat) : Option Nat :=
  match lookup s.sliceNext p with
  | some e => if s.entryReady p e then some e else s.nextEntry p
  | none => s.nextEntry p
/-- The current slice has run its length (R399). -/
def sliceOver (s : State) (p : Nat) : Bool :=
  let e := s.fld 0x3021 p 58 56
  let len := if s.fld 0x3020 (8 * p + e) 19 0 = 0 then 1000 else s.fld 0x3020 (8 * p + e) 19 0
  decide (125 * len ≤ 16 * (s.tick - s.fld 0x3021 p 47 0))
/-- The switch wipe of a partition; write-backs are charged to the outgoing context's MC servers (R400). -/
def sliceWipe (s : State) (p : Nat) : State :=
  let out := s.sliceCtx p (s.fld 0x3021 p 58 56)
  let inL2 (k : Nat) : Bool := (s.reg 0x3000 p).getLsbD (k % 32)
  let inL1 (k : Nat) : Bool := (s.reg 0x3000 p).getLsbD (32 + k % 8) && s.partHasCore p (k / 2048)
  let s1 : State := (keysOf s.l2).foldl (fun t k => if inL2 k then t.evictL2 out k else t) s
  let base := 65536 * s.fld 0x3008 p 9 0
  { s1 with
    l1 := keep (fun k _ => !inL1 k) s1.l1
    tc := s1.tc.filter fun e => e.part != p
    dsp := mapValues (fun _ m => storeOutside m base (base + 65536 * s.fld 0x3008 p 42 32)) s1.dsp }
/-- The slice goes to an entry: its context is started or restored (R399, R400). -/
def giveSlice (s : State) (p e : Nat) : State :=
  let c := s.sliceCtx p e
  let s1 := s.sliceWipe p
  let s2 := if s.ctxState c = 5 then (s1.restoreCtx c).1 else (s1.startCtx c).1
  let s3 : State := { s2 with sliceNext := del s2.sliceNext p }
  ((s3.setFld 0x3021 p 63 63 1).setFld 0x3021 p 58 56 e).setFld 0x3021 p 47 0 s.tick
/-- A partition rotates slices. -/
def rotates (s : State) (p : Nat) : Bool := s.partOn p && s.fld 0x3000 p 62 62 == 1
/-- SLICE_EXPIRE: one step of the rotation of a partition (R399). The entry a switch goes to is chosen before the drain; where a context
that held the slice is gone and none follows, no context holds it (R398). -/
def sliceStep (s : State) (p : Nat) : State :=
  if !s.rotates p then s
  else
    let cur := s.sliceCtx p (s.fld 0x3021 p 58 56)
    let holds := s.fld 0x3021 p 63 63 == 1
    let st := s.ctxState cur
    let busy := holds && (st == 3 || st == 4)
    let ended := !holds || (st != 2 && !busy)
    let past := s.sliceOver p || !s.ctxWork cur
    match s.sliceChoice p with
    | some e =>
      if ended then s.giveSlice p e
      else if busy || !past || e = s.fld 0x3021 p 58 56 then s
      else { (s.drainCtx cur).1 with sliceNext := put s.sliceNext p e }
    | none =>
      if holds && (st == 0 || st == 6) then s.setFld 0x3021 p 63 63 0
      else if holds && !busy && s.sliceOver p then s.setFld 0x3021 p 47 0 s.tick else s

end State

/-- ENABLE (R291, R342, R401). -/
def execEnable (ctx : Nat) (s : State) : Host.Outcome State Fault Refusal := .next (s.ctxRow ctx 1)
/-- TEARDOWN (R291, R336). -/
def execTeardown (ctx : Nat) (s : State) : Host.Outcome State Fault Refusal := .next (s.ctxRow ctx 2)
/-- SIGNAL (R291). -/
def execSignal (ctx : Nat) (s : State) : Host.Outcome State Fault Refusal := .next (s.ctxRow ctx 3)
/-- START (R333). -/
def execStart (ctx : Nat) (s : State) : Host.Outcome State Fault Refusal := .next (s.ctxRow ctx 4)
/-- DRAIN (R333, R334). -/
def execDrain (ctx : Nat) (s : State) : Host.Outcome State Fault Refusal := .next (s.ctxRow ctx 5)
/-- SAVE (R333, R335). -/
def execSave (ctx : Nat) (s : State) : Host.Outcome State Fault Refusal := .next (s.ctxRow ctx 6)
/-- RESTORE (R333, R337). -/
def execRestore (ctx : Nat) (s : State) : Host.Outcome State Fault Refusal := .next (s.ctxRow ctx 7)
/-- EXPORT (R333, R339). -/
def execExportImage (ctx : Nat) (s : State) : Host.Outcome State Fault Refusal := .next (s.ctxRow ctx 8)
/-- IMPORT (R333, R340). -/
def execImportImage (ctx : Nat) (s : State) : Host.Outcome State Fault Refusal := .next (s.ctxRow ctx 9)
/-- DRAIN_COMPLETE (R334). -/
def execDrainComplete (ctx : Nat) (s : State) : Host.Outcome State Fault Refusal := .next (s.drainDone ctx)
/-- DRAIN_LIMIT_EXPIRE (R334, R335). -/
def execDrainLimitExpire (ctx : Nat) (s : State) : Host.Outcome State Fault Refusal := .next (s.drainLimitStep ctx)
/-- SAVE_COMPLETE (R335, R338). -/
def execSaveComplete (ctx : Nat) (s : State) : Host.Outcome State Fault Refusal := .next (s.saveDone ctx)
/-- SAVE_INCOMPLETE (R336). -/
def execSaveIncomplete (ctx : Nat) (s : State) : Host.Outcome State Fault Refusal := .next (s.saveIncompleteStep ctx)
/-- WATCHDOG_EXPIRE (R290, R336). -/
def execWatchdogExpire (ctx : Nat) (s : State) : Host.Outcome State Fault Refusal := .next (s.watchdogStep ctx)
/-- SLICE_EXPIRE (R399, R400). -/
def execSliceExpire (part : Nat) (s : State) : Host.Outcome State Fault Refusal := .next (s.sliceStep part)

end Sys2Proof.Machine
end

