-- ==== Sys2Proof/Machine/Turnstile.lean ====
section
/-!
DEFINITION. The turnstile (R310, R311, R313), server installation and removal (R308), and route binding (R315, R316). Rows SGIG,
SGMX, SGCP, LSRV, RBIND, RBIND_HOP_REQUEST, RBIND_HOP_TIMEOUT and RUNBIND.
-/
namespace Sys2Proof.Machine

/-- Utilisation of a budget and period on an engine of a capacity (R310). -/
def utilOf (q t c : Nat) : Nat := if t = 0 then 0 else (q * 1048576 + t * c - 1) / (t * c)
/-- Bound on the sum of an engine of a class (R310). -/
def classBound : SrvClass → Nat
  | .ig => 1032192
  | .mx | .cp => 1048576
  | .mc => 1015808
  | .fx => 1032192
/-- Utilisation a template or link-server value asks for; 0 when it removes (R310). -/
def valueUtil (cls : SrvClass) (v : DWord) : Nat :=
  if v.getLsbD 63 then utilOf (bits v 23 0) (bits v 47 24) (srvCapacity cls) else 0
/-- Register index of a template class (R313). -/
def templateIdx : SrvClass → Nat
  | .ig => 0x4002
  | .mx => 0x4003
  | _ => 0x4004
/-- Defined fields of a template (R313). -/
def templateMask : DWord := 0xC000FFFFFFFFFFFF
/-- Defined fields of a link-server entry (R313). -/
def lsrvMask : DWord := 0xFFC0FFFFFFFFFFFF
/-- A result pair of R311. -/
def turnResult (sum status : Nat) : DWord := BitVec.ofNat 64 (min sum 2097151 * 4294967296 + status)

namespace State

/-- A server group is enabled (R312). -/
def sgOn (s : State) (sg : Nat) : Bool := s.fld 0x4000 sg 63 63 == 1
/-- Partition of a server group (R312). -/
def sgPart (s : State) (sg : Nat) : Nat := s.fld 0x4000 sg 62 58
/-- Sum of a template class at the engines of a partition, without one group (R310). -/
def templateSum (s : State) (cls : SrvClass) (part without : Nat) : Nat :=
  (((List.range 256).filter fun g => s.sgPart g == part && g != without).map fun g =>
    valueUtil cls (s.reg (templateIdx cls) g)).sum
/-- Sum of a link's entries that pass a test (R310). -/
def linkSum (s : State) (fab : Bool) (link : Nat) (ok : Nat → DWord → Bool) : Nat :=
  ((List.range 32).map fun e =>
    let v := s.reg 0x4100 (lsrvInst fab link e)
    if ok e v then valueUtil (if fab then .fx else .mc) v else 0).sum

/-- Servers a test picks change budget: q is cut to the new Q, or q and d are discarded on removal and
held work is tried again as background work (R306, R308). -/
def rebudget (s : State) (pick : SrvKey → Bool) (v : DWord) : State :=
  if v.getLsbD 63 then
    { s with servers := mapValues (fun n x => if pick (srvKeyOf n) then { x with q := min x.q (bits v 23 0) } else x) s.servers }
  else { s with servers := keep (fun n _ => !pick (srvKeyOf n)) s.servers }.wakeRetry

/-- A command on a template: the new state and the result (R308, R311). -/
def templateCommand (s : State) (cls : SrvClass) (sg : Nat) (op : DWord) : State × DWord :=
  let v := op &&& templateMask
  let part := s.sgPart sg
  let old := valueUtil cls (s.reg (templateIdx cls) sg)
  let rest := s.templateSum cls part sg
  let u := valueUtil cls v
  if v.getLsbD 63 && (bits v 23 0 = 0 || bits v 47 24 = 0) then (s, turnResult (rest + old) 3)
  else if v.getLsbD 63 && !s.sgOn sg then (s, turnResult (rest + old) 4)
  else if old < u && classBound cls < rest + u then (s, turnResult (rest + u) 1)
  else
    let s1 := s.setReg (templateIdx cls) sg v
    (s1.rebudget (fun k => k.cls == cls && k.id == sg) v, turnResult (rest + u) 0)

/-- Share of a partition on a link class (R393, R395). -/
def linkShare (s : State) (fab : Bool) (part : Nat) : Nat :=
  if fab then s.fld 0x3009 part 20 0 else s.fld 0x3009 part 52 32
/-- A command on a link-server entry: the new state and the result (R308, R311, R395). -/
def lsrvCommand (s : State) (fab : Bool) (link entry : Nat) (op : DWord) : State × DWord :=
  let v := op &&& lsrvMask
  let cls : SrvClass := if fab then .fx else .mc
  let inst := lsrvInst fab link entry
  let old := valueUtil cls (s.reg 0x4100 inst)
  let rest := s.linkSum fab link fun e _ => e != entry
  let u := valueUtil cls v
  let part := s.sgPart (bits v 61 54)
  let mine := s.linkSum fab link fun e x => e != entry && s.sgPart (bits x 61 54) == part
  if v.getLsbD 63 && (bits v 23 0 = 0 || bits v 47 24 = 0) then (s, turnResult (rest + old) 3)
  else if v.getLsbD 63 && !s.sgOn (bits v 61 54) then (s, turnResult (rest + old) 4)
  else if old < u && classBound cls < rest + u then (s, turnResult (rest + u) 1)
  else if old < u && s.linkShare fab part < mine + u then (s, turnResult (rest + u) 2)
  else
    let s1 := s.setReg 0x4100 inst v
    (s1.rebudget (fun k => k.cls == cls && k.eng == link && k.id == entry) v, turnResult (rest + u) 0)

/-! ### Route binding -/

/-- The lowest entry of a fabric link that is not installed (R316). -/
def freeEntry (s : State) (link : Nat) : Option Nat :=
  (List.range 32).find? fun e => !(s.reg 0x4100 (lsrvInst true link e)).getLsbD 63
/-- A link-server value for a hop (R313, R315). -/
def hopValue (sg : Nat) (hard : Bool) (q t : Nat) : DWord :=
  setBits (setBits (setBits (setBits (setBits 0 63 63 1) 62 62 hard.toNat) 61 54 sg) 47 24 t) 23 0 q
/-- A reservation on a link of this package: state, status, sum and entry (R316). -/
def reserveHop (s : State) (link sg : Nat) (hard : Bool) (q t : Nat) : State × Nat × Nat × Nat :=
  match s.freeEntry link with
  | none => (s, 7, 0, 0)
  | some e =>
    let r := s.lsrvCommand true link e (hopValue sg hard q t)
    (r.1, r.2.toNat % 256, bits r.2 52 32, e)
/-- A reservation removed. -/
def removeHop (s : State) (link entry : Nat) : State := (s.lsrvCommand true link entry 0).1

/-- One hop of a route record: sending package, link, mode, Q and T (R315). -/
def hopAt (b : Bytes) (h : Nat) : Nat × Nat × Bool × Nat × Nat :=
  let x := ofBytes ((b.drop (8 + 8 * h)).take 8)
  (nb x 6 0, nb x 11 8, x.testBit 12, nb x 39 16, nb x 63 40)
/-- A hop's eight bytes break the layout (R315). -/
def hopBad (b : Bytes) (h : Nat) : Bool :=
  let x := ofBytes ((b.drop (8 + 8 * h)).take 8)
  x.testBit 7 || nb x 15 13 != 0
/-- The layout check of a route record: none, or the failing-hop byte (R315). -/
def badRoute (s : State) (b : Bytes) : Option Nat :=
  let p := (b.getD 0 0).toNat
  let n := (b.getD 1 0).toNat
  if 128 ≤ p || n = 0 || 7 < n || ofBytes ((b.drop 4).take 4) ≠ 0 then some 0xFF
  else match (List.range n).find? (hopBad b) with
    | some h => some h
    | none => if (hopAt b 0).1 ≠ s.pkgId then some 0 else none
/-- RBIND's result (R315). -/
def bindResult (sum hop status : Nat) : DWord := BitVec.ofNat 64 (min sum 2097151 * 4294967296 + hop * 256 + status)

/-- The number a hop is known by in control flits: the binding's own, its destination and the hop (R316; log 75). -/
def hopTag (id pkg hop : Nat) : Nat := (id % 65536 * 128 + pkg % 128) * 8 + hop % 8
/-- Key under which a package keeps the reservation of another package's hop (R316). -/
def hopKey (src sg tag : Nat) : Nat := (src * 256 + sg) * 67108864 + tag
/-- The hop the same binding holds at this package nearest below a hop, of whose link a message for it goes on (R316; log 75). -/
def relayHop (s : State) (src sg tag : Nat) : Option (Nat × Nat × Nat) :=
  ((s.hops.filter fun e => decide (hopKey src sg (tag / 8 * 8) ≤ e.1) && decide (e.1 < hopKey src sg tag)).getLast?).map Prod.snd
/-- A reservation asked of a later hop's package in a control flit of the first hop's link (R316; log 11). -/
def askHop (s : State) (b : RouteBuild) : State :=
  let h := b.hops.getD b.hop (0, 0, false, 0, 0)
  s.sendControl ⟨true, b.first.1⟩ 4
    ([h.1, h.2.1, b.sg, h.2.2.1.toNat, s.pkgId, s.fld 0x9101 b.sg 2 0, 0].map (BitVec.ofNat 8) ++ toBytes 4 (hopTag b.id b.pkg b.hop) ++
      toBytes 3 h.2.2.2.1 ++ toBytes 3 h.2.2.2.2)
/-- The release of a later hop's reservation asked of its package (R316; log 11). -/
def askRelease (s : State) (b : RouteBuild) (hop : Nat) : State :=
  s.sendControl ⟨true, b.first.1⟩ 5
    ([(b.hops.getD hop (0, 0, false, 0, 0)).1, s.pkgId, b.sg, 0, 0, 0, 0].map (BitVec.ofNat 8) ++ toBytes 4 (hopTag b.id b.pkg hop))
/-- A result reaches the thread, the window or the agent outside that waits for it (R285, R295). -/
def answerBind (s : State) (who : Asker) (r : DWord) : State :=
  match who with
  | .outside => { s with cmdResult := r }
  | .thread k d => s.modThread k fun th => { th.ww d r with wait := .none }
  | .window fn => { s.setHostWin fn { s.hostWin fn with exec := r } with cmdResult := r }
/-- A route whose every hop is reserved (R315, R316). -/
def bindRoute (s : State) (b : RouteBuild) : State :=
  { s with routes := put s.routes (routeKey b.sg b.pkg) ⟨b.peer, b.first.1, b.first.2, b.hops.map fun h => (h.1, h.2.1), b.id⟩ }
/-- A result for the one who gave the command, if anyone still waits. -/
def answerAny (s : State) (who : Option Asker) (r : DWord) : State :=
  match who with
  | some w => s.answerBind w r
  | none => s
/-- A binding goes on behind a hop that answered OK: to the next hop, or to its end, where no hop has failed and the result is zero
(R315, R316; log 75). -/
def hopDone (s : State) (b : RouteBuild) : State :=
  let b' := { b with hop := b.hop + 1, since := s.tick }
  if b'.hop < b'.hops.length then { s with builds := s.builds ++ [b'] }.askHop b'
  else (s.bindRoute b').answerAny b.who 0
/-- The result of a binding that has failed, once no hop is reserved any more (R315, R316). -/
def failResult (b : RouteBuild) : DWord :=
  match b.fails with
  | some f => bindResult f.1 b.hop f.2
  | none => 0
/-- A binding's reservations are removed from the farthest hop to the nearest: of the next of them its package is asked; with none
left the command completes (R316). -/
def unwindNext (s : State) (b : RouteBuild) : State :=
  match b.left with
  | [] => s.answerAny b.who (failResult b)
  | h :: _ => { s with builds := s.builds ++ [{ b with since := s.tick }] }.askRelease b h
/-- A binding's first hop is removed here, and the later hops below a number one after the other (R316). -/
def unwind (s : State) (b : RouteBuild) : State :=
  (s.removeHop b.first.1 b.first.2).unwindNext { b with left := ((List.range b.hop).filter (· != 0)).reverse }
/-- A binding fails at its present hop; the reservations of the earlier hops are removed (R316). -/
def hopFails (s : State) (b : RouteBuild) (sum status : Nat) : State := s.unwind { b with fails := some (sum, status) }
/-- RBIND of a record: the layout, the binding there is, or is being made (log 95), hop 0 on this package, and the later hops in turn
(R315, R316). -/
def bindRecord (s : State) (sg : Nat) (rec : Bytes) (who : Asker) : State :=
  match s.badRoute rec with
  | some h => s.answerBind who (bindResult 0 h 5)
  | none =>
    let p := (rec.getD 0 0).toNat
    if (lookup s.routes (routeKey sg p)).isSome || s.builds.any fun b => b.sg == sg && b.pkg == p && b.fails.isNone && b.left.isEmpty then
      s.answerBind who (bindResult 0 0 6)
    else
      let hops := (List.range (rec.getD 1 0).toNat).map (hopAt rec)
      let h0 := hopAt rec 0
      let r := s.reserveHop h0.2.1 sg h0.2.2.1 h0.2.2.2.1 h0.2.2.2.2
      if r.2.1 ≠ 0 then r.1.answerBind who (bindResult r.2.2.1 0 r.2.1)
      else r.1.bump.hopDone ⟨sg, p, ofBytes ((rec.drop 2).take 2), 0, hops, (h0.2.1, r.2.2.2), s.tick, some who, s.fresh, none, []⟩
/-- A binding this package makes that waits for a hop under a number. -/
def buildOf (s : State) (sg tag : Nat) : Option RouteBuild :=
  s.builds.find? fun b => b.sg == sg && b.left.isEmpty && hopTag b.id b.pkg b.hop == tag
/-- The answer of a later hop's package arrives; one that reserved too late is asked to release (R316; log 75). -/
def hopAnswer (s : State) (via sg tag status sum pkg : Nat) : State :=
  match s.buildOf sg tag with
  | none =>
    if status = 0 then
      s.sendControl ⟨true, via⟩ 5 ([pkg, s.pkgId, sg, 0, 0, 0, 0].map (BitVec.ofNat 8) ++ toBytes 4 tag)
    else s
  | some b =>
    let s1 := { s with builds := s.builds.filter (· != b) }
    if status = 0 then s1.hopDone b else s1.hopFails b sum status
/-- The release of a hop has been acknowledged: the next hop's turn (R316). -/
def hopReleased (s : State) (sg tag : Nat) : State :=
  match s.builds.find? fun b => b.sg == sg && b.left.head?.any fun h => hopTag b.id b.pkg h == tag with
  | none => s
  | some b => { s with builds := s.builds.filter (· != b) }.unwindNext { b with left := b.left.tail }
/-- A binding whose hop has not answered for 1,024 frames (R316). -/
def buildLate (s : State) (b : RouteBuild) : Bool := decide (b.since + 1024 ≤ s.tick)
/-- RBIND_HOP_TIMEOUT: the hop fails with NOREPLY; a release that is not acknowledged counts as done (R315, R316; log 75). -/
def hopTimeout (s : State) (sg : Nat) : State :=
  match s.builds.find? fun b => b.sg == sg && s.buildLate b with
  | none => s
  | some b =>
    let s1 := { s with builds := s.builds.filter (· != b) }
    if b.left.isEmpty then s1.hopFails b 0 8 else s1.unwindNext { b with left := b.left.tail }
/-- The server group a hop is reserved for at its package: the lowest enabled one of the job's fabric group (R316, R390; log 75). -/
def jobGroup (s : State) (fg : Nat) : Option Nat :=
  (List.range 256).find? fun g => s.sgOn g && s.fld 0x9101 g 63 63 == 1 && s.fld 0x9101 g 2 0 == fg
/-- RBIND_HOP_REQUEST: this package judges a reservation of another package's route under its turnstile and the share of the
job's fabric group, and answers on the link the request came by (R316; log 11, log 75). -/
def serveHop (s : State) (q : HopReq) : State :=
  let r : State × Nat × Nat × Nat := match s.jobGroup q.fg with
    | some g => s.reserveHop q.link g q.hard q.q q.t
    | none => (s, 4, s.linkSum true q.link fun _ _ => true, 0)
  let s1 := if r.2.1 = 0 then { r.1 with hops := put r.1.hops (hopKey q.src q.sgrp q.tag) (q.link, r.2.2.2, q.via) } else r.1
  s1.sendControl ⟨true, q.via⟩ 1
    ([q.sgrp, q.src, r.2.1].map (BitVec.ofNat 8) ++ toBytes 4 r.2.2.1 ++ toBytes 4 q.tag ++ [BitVec.ofNat 8 s.pkgId])
/-- A release of another package's hop: the reservation goes, and the release is acknowledged (R316; log 11). -/
def serveRelease (s : State) (via src sg tag : Nat) : State :=
  let s1 := match lookup s.hops (hopKey src sg tag) with
    | some h => { s with hops := del s.hops (hopKey src sg tag) }.removeHop h.1 h.2.1
    | none => s
  s1.sendControl ⟨true, via⟩ 12 ([sg, src, 0, 0, 0, 0, 0].map (BitVec.ofNat 8) ++ toBytes 4 tag)

/-! ### Removing a route -/

/-- Accesses and copy units of a server group that are on their way to a package: their tags (R315). -/
def routeTags (s : State) (sg pkg : Nat) : List Nat :=
  keysOf (s.reqs.filter fun r => r.2.link.isSome && s.sgrpOf r.2.ctx == sg && match spaceOf r.2.va with
    | .domain p _ => p == pkg
    | _ => false)
/-- RUNBIND: the binding is removed at once, with its entries; the tags of the answers still out (R315). -/
def unbind (s : State) (sg pkg : Nat) : State × Option (List Nat) :=
  match lookup s.routes (routeKey sg pkg) with
  | none => (s, none)
  | some r =>
    let b : RouteBuild := ⟨sg, pkg, r.peer, r.hops.length, r.hops.map fun h => (h.1, h.2, false, 0, 0), (r.link, r.entry), 0, none, r.id, none, []⟩
    ({ s with routes := del s.routes (routeKey sg pkg) }.unwind b, some (s.routeTags sg pkg))
/-- RUNBIND for the one who gave it: 1 at once where none was bound, else 0 when the last answer of the route is in; the state, and the
result where it is known (R315). -/
def unbindFor (s : State) (who : Asker) (sg pkg : Nat) : State × Option Nat :=
  if 128 ≤ pkg then (s, some 1) else
  match s.unbind sg pkg with
  | (s1, none) => (s1, some 1)
  | (s1, some []) => (s1, some 0)
  | (s1, some tags) => ({ s1 with unbinds := s1.unbinds ++ [(who, tags)] }, none)
/-- A RUNBIND that no answer is out for any more (R315). -/
def unbindDue (s : State) : Option (Asker × List Nat) :=
  s.unbinds.find? fun u => u.2.all fun t => (lookup s.reqs t).isNone
/-- RUNBIND completes (R315). -/
def unbindEnd (s : State) (u : Asker × List Nat) : State := { s with unbinds := s.unbinds.erase u }.answerBind u.1 0

end State

/-- A template row: the command of a device supervisor (R308, R311). -/
def templateRow (cls : SrvClass) (sg : Nat) (op : DWord) (s : State) : Host.Outcome State Fault Refusal :=
  let r := s.templateCommand cls (sg % 256) op
  .next { r.1 with cmdResult := r.2 }
/-- SGIG (R301, R311, R313). -/
def execSgig (sg : Nat) (op : BitVec 64) (s : State) : Host.Outcome State Fault Refusal := templateRow .ig sg op s
/-- SGMX (R301, R311, R313). -/
def execSgmx (sg : Nat) (op : BitVec 64) (s : State) : Host.Outcome State Fault Refusal := templateRow .mx sg op s
/-- SGCP (R301, R311, R313). -/
def execSgcp (sg : Nat) (op : BitVec 64) (s : State) : Host.Outcome State Fault Refusal := templateRow .cp sg op s
/-- LSRV; an instance that names no entry answers all ones, as through a window (R285, R311, R313). -/
def execLsrv (inst : Nat) (op : BitVec 64) (s : State) : Host.Outcome State Fault Refusal :=
  let fab := inst.testBit 31
  let link := nb inst 14 8
  if inst / 32768 % 65536 ≠ 0 || nb inst 7 5 ≠ 0 || (if fab then 16 else 96) ≤ link || 4294967296 ≤ inst then
    .next { s with cmdResult := 0xFFFFFFFFFFFFFFFF }
  else
    let r := s.lsrvCommand fab link (inst % 32) op
    .next { r.1 with cmdResult := r.2 }
/-- RBIND (R315, R316). -/
def execRbind (sg : Nat) (record : Bytes) (s : State) : Host.Outcome State Fault Refusal :=
  .next (s.bindRecord (sg % 256) record .outside)
/-- RBIND_HOP_REQUEST (R316). -/
def execRbindHopRequest (req : HopReq) (s : State) : Host.Outcome State Fault Refusal := .next (s.serveHop req)
/-- RBIND_HOP_TIMEOUT (R316). -/
def execRbindHopTimeout (sg : Nat) (s : State) : Host.Outcome State Fault Refusal := .next (s.hopTimeout sg)
/-- RUNBIND: 0 when the last answer of the route is in, or 1 when none was bound (R315). -/
def execRunbind (sg pkg : Nat) (s : State) : Host.Outcome State Fault Refusal :=
  let r := s.unbindFor .outside (sg % 256) pkg
  .next (match r.2 with
    | some n => { r.1 with cmdResult := BitVec.ofNat 64 n }
    | none => r.1)

end Sys2Proof.Machine
end

