-- ==== Sys2Proof/Machine/Repair.lean ====
section
/-!
DEFINITION. Commands and events of translation and of drawer reliability: the remap tables (R349), replay of faults (R352),
clearing of frames (R353), retirement, scrub, refresh and error injection (R361, R366 to R369). Rows RMSYNC, TRREPLAY, FRZERO,
RETIRE, ERRINJ, REFRESH_FRAME, SCRUB_RETURN and SCRUB_REPAIR.
-/
namespace Sys2Proof.Machine

/-- The 32 bytes of a remap entry as the filter loads them; none where the entry is not declared (R349). -/
def remapOf (i : Nat) (b : Bytes) : Option RemapEntry :=
  let a := ofBytes (b.take 8)
  let c := ofBytes ((b.drop 8).take 8)
  if a.testBit 63 then
    some ⟨i, a.testBit 62, a.testBit 61, a.testBit 60, nb a 56 12, nb c 56 12, ofBytes ((b.drop 16).take 4),
      ofBytes ((b.drop 20).take 2)⟩
  else none
/-- A declared entry breaks R349 by itself: a reserved bit, no pages, or a region past 2^57. -/
def remapBad (b : Bytes) (e : RemapEntry) : Bool :=
  let a := ofBytes (b.take 8)
  let c := ofBytes ((b.drop 8).take 8)
  nb a 59 57 != 0 || nb a 11 0 != 0 || nb c 63 57 != 0 || nb c 11 0 != 0 || ofBytes ((b.drop 22).take 10) != 0 ||
  e.pages == 0 || decide (2 ^ 45 < e.lbase + e.pages) || decide (2 ^ 45 < e.cbase + e.pages)
/-- Two regions overlap in their own addresses (R349). -/
def remapMeets (x y : RemapEntry) : Bool := decide (x.lbase < y.lbase + y.pages) && decide (y.lbase < x.lbase + x.pages)

namespace State

/-! ### Remap tables -/

/-- The bytes of entry i of a context's remap table (R349). -/
def remapBytes (s : State) (c i : Nat) : Bytes := s.drawer.read (4096 * s.fld 0x6001 c 45 12 + 32 * i) 32
/-- The declared entries of a context's table in memory. -/
def remapTable (s : State) (c : Nat) : List RemapEntry :=
  (List.range (s.fld 0x6001 c 10 0)).filterMap fun i => remapOf i (s.remapBytes c i)
/-- The address of entry i of a context's remap table (R349). -/
def remapAt (s : State) (c i : Nat) : Nat := 4096 * s.fld 0x6001 c 45 12 + 32 * i
/-- The first entry of a context's table that cannot be read: its line is poisoned, or holds an error that nothing repairs (R358;
log 85). -/
def remapLost (s : State) (c : Nat) : Option Nat :=
  (List.range (s.fld 0x6001 c 10 0)).find? fun i => s.drawer.poisoned (s.remapAt c i) 32 || s.brokenAt (s.remapAt c i)
/-- RMSYNC: the table, whose lines the controller checks, is loaded, or refused with the first failing entry; L1 lines of the old and
new regions go (R349, R358). -/
def rmsync (s0 : State) (c : Nat) : State × DWord :=
  let new := s0.remapTable c
  let bad := (new.find? fun e => remapBad (s0.remapBytes c e.index) e || new.any fun x => decide (x.index < e.index) && remapMeets x e).map
    RemapEntry.index
  let s := if s0.struck.isEmpty then s0 else ((List.range (s0.fld 0x6001 c 10 0)).map (s0.remapAt c)).foldl checkLine s0
  match (bad.toList ++ (s0.remapLost c).toList).min? with
  | some i => (s, setBits 3 25 16 i)
  | none =>
    let old := lookupD [] s.remap c
    let inside (l : Line) : Bool := l.ctxAsid == s.asidOf c && (old ++ new).any fun e =>
      decide (4096 * e.lbase ≤ 128 * l.vline) && decide (128 * l.vline < 4096 * (e.lbase + e.pages))
    ({ s with remap := putD [] s.remap c new, l1 := keep (fun _ l => !inside l) s.l1 }, 0)

/-! ### Replay -/

/-- A request that was parked on a fault is made again (R236, R327, R351, R352). -/
def replayOne (s : State) (r : Requester) : State :=
  match r with
  | .thread k => s.modThread k fun th => match th.wait with
    | .fault _ => { th with wait := .none }
    | _ => th
  | .copy id => s.modCopy id fun x => if x.state = .paused 2 then savedCopy x else x
  | .queue hq => { s with stuckQ := s.stuckQ.filter (· != hq) }
  | .adder id => s.completeLaunch id
  | .domain req => s.post (.domainRequest req)
/-- TRREPLAY: the record's requests are replayed, and walk afresh, or its context takes a context fault; 1 when the queue has no such
record outstanding (R352). -/
def trreplay (s : State) (q : Nat) (op : DWord) : State × DWord :=
  let fid := bits op 31 0
  match s.faults.find? fun e => e.1 == fid && e.2.fq == q with
  | none => (s, 1)
  | some (key, r) =>
      let s1 := { s with
        faults := del s.faults key
        tc := s.tc.filter fun e => !(e.asid == r.asid && decide (e.base / 4096 ≤ r.page) && decide (4096 * r.page < e.base + e.size)) }
      if op.getLsbD 32 then (s1.contextFault r.ctx 2, 0) else (r.joined.foldl replayOne s1, 0)

/-! ### Frames -/

/-- A frame zeroed and its tag cleared but for RETIRED (R353, R361). -/
def freeFrame (s : State) (f : Nat) : State :=
  let s1 := s.zeroDrawer (4096 * f) 4096
  s1.setFrameTag f (s.frameTag f &&& (1 : DWord) <<< 46)
/-- Frames FRZERO reaches: the partition's own, and SHRANGE for a device supervisor (R353, R396). -/
def frameReach (s : State) (part : Nat) (device : Bool) (f : Nat) : Bool := s.frameOk part device (4096 * f)
/-- Frames named by an FRZERO operand. -/
def frzFrames (op : DWord) : List Nat := (List.range (bits op 11 0 + 1)).map (bits op 45 12 + ·)
/-- FRZERO; none when a frame is out of reach (R353). -/
def frzero (s : State) (part : Nat) (device : Bool) (op : DWord) : Option State :=
  if (frzFrames op).all (s.frameReach part device) then some ((frzFrames op).foldl freeFrame s) else none

/-- Die of a memory link (R5). -/
def linkDie (l : Nat) : Nat := l / 24
/-- Die whose channel holds the first line of a frame (log 8). -/
def frameDie (s : State) (f : Nat) : Nat := linkDie (s.channelOf (4096 * f))
/-- The first free entry of a die's retirement list (R369). -/
def retireSlot (s : State) (die : Nat) : Option Nat :=
  ((List.range 256).map (256 * die + ·)).find? fun i => s.fld 0x7002 i 63 63 == 0
/-- A frame retires: RETIRED in its tag and an entry of its die's list; a full list stops it (R361, R369). -/
def retireFrame (s : State) (f : Nat) (poison : Bool) : State × DWord :=
  match s.retireSlot (s.frameDie f) with
  | none => (s, 1)
  | some i =>
    ((s.setFrameTag f (s.frameTag f ||| (1 : DWord) <<< 46)).setReg 0x7002 i
      (setBits (setBits (setBits 0 63 63 1) 45 12 f) 0 0 poison.toNat), 0)
/-- A frame that is not yet retired retires by itself (R361). -/
def autoRetire (s : State) (f : Nat) (poison : Bool) : State :=
  if (s.frameTag f).getLsbD 46 then s else (s.retireFrame f poison).1

/-- An error counted and captured (R369). -/
def countError (s : State) (die code : Nat) (unc : Bool) (ctx loc : Nat) : State :=
  let i := 16 * die + code
  let s1 := if unc then s.setFld 0x7000 i 63 32 (s.fld 0x7000 i 63 32 + 1) else s.setFld 0x7000 i 31 0 (s.fld 0x7000 i 31 0 + 1)
  if s.fld 0x7001 i 63 63 = 1 then s1
  else s1.setReg 0x7001 i (setBits (setBits (setBits (setBits 0 63 63 1) 62 62 unc.toNat) 61 46 ctx) 45 0 loc)

/-- Contexts that a poison notice of a tagged frame goes to (R361). -/
def noticeCtxs (s : State) (tag : DWord) : List Nat :=
  s.liveContexts.filter fun c => s.asidOf c == bits tag 62 47 || (lookupD [] s.remap c).any fun e =>
    e.casid == bits tag 62 47 && decide (e.cbase ≤ bits tag 44 0) && decide (bits tag 44 0 < e.cbase + e.pages)
/-- A KIND 17 record (R361, R368). -/
def poisonNotice (s : State) (pa : Nat) (tag : DWord) (c : Nat) : State :=
  s.addRecord c { ctx := c, kind := 17, b12 := 13, die := linkDie (s.channelOf pa)
                  q16 := 4096 * bits tag 44 0 + pa % 4096, h24 := bits tag 62 47, q32 := pa : Rec }.bytes
/-- The first detection of an uncorrectable error in a drawer line: one that is poisoned already is no new detection (R361). -/
def uncorrectable (s : State) (pa0 : Nat) : State :=
  let pa := pa0 / 128 * 128
  let f := pa / 4096
  if s.drawer.poisoned pa 128 then s else
  let s0 := s.countError (linkDie (s.channelOf pa)) 13 true 0 pa
  match s.l2.find? fun e => e.2.pa == pa && !e.2.poison with
  | some e => ((s0.drawerWrite pa (e.2.read 0 128)).retireFrame f false).1
  | none =>
    let tag := s.frameTag f
    let s1 := ({ s0 with drawer := s0.drawer.addPoison 128 pa 128 }.retireFrame f true).1
    if tag.getLsbD 63 then (s.noticeCtxs tag).foldl (fun t c => t.poisonNotice pa tag c) s1 else s1
/-- A corrected error of a line: counted, and its frame retires past CETHR within one frame of 128 ns (R361, R369). -/
def corrected (s : State) (pa : Nat) : State :=
  let f := pa / 4096
  let s0 := s.countError (linkDie (s.channelOf pa)) 13 false 0 pa
  let n := match lookup s.ceSeen f with
    | some (t, n) => if t = s.tick then n + 1 else 1
    | none => 1
  let s1 := { s0 with ceSeen := put (keep (fun _ x => x.1 == s.tick) s0.ceSeen) f (s.tick, n) }
  if s.fld 0x7004 0 15 0 ≠ 0 && decide (s.fld 0x7004 0 15 0 < n) then s1.autoRetire f false else s1

/-! ### Refresh and scrub -/

/-- A link carries a present channel. -/
def channelPresent (s : State) (link : Nat) : Bool := s.drawers.contains link
/-- SCRUB_RETURN: the status of a scrub line; one reported corrected waits for its repair, and a read before that is corrected by itself
(R358, R366, R367). -/
def scrubReturn (s : State) (link line : Nat) (st : ScrubStatus) : State :=
  if !s.channelPresent link then s
  else
    let pa := s.channelPa link (128 * line)
    match st with
    | .clean => s
    | .corrected =>
      let t := s.corrected pa
      { t with
        scrubFix := s.scrubFix.filter (· != (link, line)) ++ [(link, line)]
        struck := t.struck.filter (· != (link, line, false)) ++ [(link, line, false)] }
    | .uncorrectable => s.uncorrectable pa
/-- SCRUB_REPAIR: the first corrected line of a link is read, corrected and written back (R367). -/
def scrubRepair (s : State) (link : Nat) : State :=
  match s.scrubFix.find? fun e => e.1 == link with
  | none => s
  | some e =>
    let pa := s.channelPa link (128 * e.2)
    let s1 := { s with scrubFix := s.scrubFix.erase e }
    if s.drawer.poisoned pa 128 then { s1 with struck := s1.mended pa 128 } else s1.drawerWrite pa (s.drawer.read pa 128)
/-- Rows of maintenance slot j in frame f of a round, as a command flit with OP 5 (R366, R372; log 11). -/
def refreshFlit (f j tag : Nat) : Flit :=
  ⟨kindHdr 1, BitVec.ofNat 128 (5 * 2 ^ 124 + tag % 2097152 * 2 ^ 64),
    (List.range 4).flatMap (fun i => toBytes 4 (32 * f + 4 * j + i)) ++ List.replicate 112 0⟩
/-- Frame within the refresh period (R366). -/
def refreshPos (s : State) : Nat := s.tick % 250000
/-- REFRESH_FRAME: the 32 rows of this frame of the round wait for the frame's maintenance positions; REFSTAT names the line group of the
round, whose number is that of its 250,000 frames, and counts the round at its last frame (R366, R369, R375; log 84). -/
def refreshFrame (s : State) (link : Nat) : State :=
  let f := s.refreshPos
  let s1 := s.modLink ⟨false, link⟩ fun l => { l with refreshed := some s.tick }
  if 131071 < f || !s.channelPresent link then s1
  else
    let s2 := { s1 with fresh := s1.fresh + 8 }.modLink ⟨false, link⟩ fun l =>
      { l with maint := l.maint ++ (List.range 8).map fun j => refreshFlit f j (s1.fresh + j) }
    let s3 := s2.setFld 0x7005 link 63 60 (s.tick / 250000 % 16)
    if f = 131071 then s3.setFld 0x7005 link 31 0 (s.fld 0x7005 link 31 0 + 1) else s3

/-! ### The drawer's endpoint -/

/-- Status of a scrub line as a response carries it: 0 clean, 1 corrected, 2 uncorrectable (R366; log 11). -/
def scrubCode (s : State) (link line : Nat) : Nat :=
  match s.struck.find? fun e => e.1 == link && e.2.1 == line with
  | some (_, _, true) => 2
  | some (_, _, false) => 1
  | none => 0
/-- Scrub lines of a maintenance flit: lines 4k to 4k + 3 of each of its rows (R366). -/
def scrubLines (s : State) (link : Nat) (f : Flit) : List Nat :=
  (List.range 4).flatMap fun i => (List.range 4).map fun j =>
    64 * ofBytes ((f.data.drop (4 * i)).take 4) + 4 * s.fld 0x7005 link 63 60 + j
/-- The statuses of a maintenance flit's scrub lines come to the controller, which acts on each (R361, R366, R367). -/
def takeScrubs (s : State) (link : Nat) (rows : Flit) (b : Bytes) : State :=
  ((s.scrubLines link rows).zip b).foldl (fun t e =>
    if e.2 = 0 then t
    else { t with struck := t.struck.filter fun x => !(decide (e.2 = 2) && x.1 == link && x.2.1 == e.1) }.scrubReturn link e.1
      (if e.2 = 2 then .uncorrectable else .corrected)) s

/-! ### Commands -/

/-- ERRINJ: an error armed for the next write to a location (R369). -/
def errinj (s : State) (op : DWord) : State :=
  { s with inject := s.inject ++ [⟨bits op 63 60, decide (bits op 59 58 = 2), bits op 45 0⟩] }
/-- The life-cycle state (R404). -/
def lifeCycle (s : State) : Nat := s.fld 0xA001 0 1 0
/-- A command's result kept for the agent outside that gave it; none is all ones, as a window reads (R285). -/
def answer (r : Option (State × DWord)) (s : State) : State :=
  match r with
  | some x => { x.1 with cmdResult := x.2 }
  | none => { s with cmdResult := 0xFFFFFFFFFFFFFFFF }

end State

/-- RMSYNC (R349). -/
def execRmsync (ctx : Nat) (s : State) : Host.Outcome State Fault Refusal := .next (s.answer (some (s.rmsync (ctx % 65536))))
/-- TRREPLAY (R352). -/
def execTrreplay (fq : Nat) (op : BitVec 64) (s : State) : Host.Outcome State Fault Refusal :=
  .next (s.answer (some (s.trreplay (fq % 64) op)))
/-- FRZERO as a device supervisor of partition 0 gives it (R353). -/
def execFrzero (op : BitVec 64) (s : State) : Host.Outcome State Fault Refusal :=
  .next (s.answer ((s.frzero 0 true op).map fun t => (t, 0)))
/-- RETIRE (R369). -/
def execRetire (op : BitVec 64) (s : State) : Host.Outcome State Fault Refusal :=
  .next (s.answer (some (s.retireFrame (bits op 45 12) false)))
/-- ERRINJ: accepted in DEVELOP only (R369, R405). -/
def execErrinj (op : BitVec 64) (s : State) : Host.Outcome State Fault Refusal :=
  .next (s.answer (if s.lifeCycle = 1 then some (s.errinj op, 0) else none))
/-- REFRESH_FRAME (R366). -/
def execRefreshFrame (link : Nat) (s : State) : Host.Outcome State Fault Refusal := .next (s.refreshFrame link)
/-- SCRUB_RETURN (R358, R361, R366, R367). -/
def execScrubReturn (link : Nat) (line : Nat) (status : ScrubStatus) (s : State) : Host.Outcome State Fault Refusal :=
  .next (s.scrubReturn link line status)
/-- SCRUB_REPAIR (R367). -/
def execScrubRepair (link : Nat) (s : State) : Host.Outcome State Fault Refusal := .next (s.scrubRepair link)

end Sys2Proof.Machine
end

