-- ==== Sys2Proof/Machine/Links.lean ====
section
/-!
DEFINITION. Flisar links: flits and their CRC (R371, R372), timetables and degraded maps (R373 to R380), the grant of slots
(R303, R306, R307, R390), reception and replay (R371, R382), wavelength retraining (R383, R385), links that go down (R384) and
training (R377, R378, R434). Rows LINK_SLOT, DRAWER_COMMAND_EXECUTE, FLIT_RECEIVE, HAND_BACK, WAVELENGTH_TRAINED,
WAVELENGTH_REJOIN, WLTHR_WINDOW_END, LINK_DOWN, LINK_DOWN_TIMEOUT, LINK_TRAIN_DONE, TTCOMMIT, TTCOMMIT_SHADOW_REQUEST,
TTCOMMIT_TIMEOUT and TIMETABLE_TAKE_EFFECT.
-/
namespace Sys2Proof.Machine

/-- Index of a link register: memory links from 0x8000, fabric links from 0x9000 (R386). -/
def lkIdx (l : LinkId) (low : Nat) : Nat := (if l.fab then 0x9000 else 0x8000) + low
/-- Instance of a link register (R386). -/
def lkInst (l : LinkId) (low : Nat) : Nat := l.n * 256 + low
/-- A link the package has (R5). -/
def linkOk (l : LinkId) : Bool := decide (l.n < if l.fab then 16 else 96)
/-- Die of a link (R5). -/
def dieOfLink (l : LinkId) : Nat := if l.fab then l.n / 4 else State.linkDie l.n

/-! ### Flits -/

/-- One bit of CRC-16 with polynomial x^16 + x^12 + x^5 + 1 (R371). -/
def crcBit (c : BitVec 16) (b : Bool) : BitVec 16 :=
  if (c.getLsbD 15).xor b then (c <<< 1) ^^^ 0x1021 else c <<< 1
/-- One byte, its highest bit first. -/
def crcByte (c : BitVec 16) (x : Byte) : BitVec 16 :=
  [7, 6, 5, 4, 3, 2, 1, 0].foldl (fun c i => crcBit c (x.getLsbD i)) c
/-- CRC of a flit: its 128 bytes, the command word low byte first, then header bits [63:16] (R371; their order is log 9). -/
def flitCrc (f : Flit) : BitVec 16 :=
  (f.data ++ List.replicate (128 - f.data.length) 0 ++ toBytes 16 f.cmd.toNat ++ toBytes 6 (f.hdr.toNat / 65536)).foldl crcByte
    0xFFFF
/-- A flit whose CRC field is that of its contents. -/
def sealFlit (f : Flit) : Flit := { f with hdr := setBits f.hdr 15 0 (flitCrc f).toNat }
/-- KIND of a flit (R371). -/
def flitKind (f : Flit) : Nat := bits f.hdr 30 28
/-- Bits [hi:lo] of a command word (R372). -/
def cmdBits (f : Flit) (hi lo : Nat) : Nat := nb f.cmd.toNat hi lo
/-- A flit carries the rows of a maintenance position (R366, R372). -/
def isRows (f : Flit) : Bool := decide (flitKind f = 1) && cmdBits f 127 124 == 5
/-- A flit holds a reserved code (R371, R372). -/
def flitReserved (f : Flit) : Bool :=
  decide (6 ≤ flitKind f) || (decide (bits f.hdr 19 16 ≠ 0) && decide (bits f.hdr 19 16 < 8)) ||
  decide (6 ≤ cmdBits f 127 124) || cmdBits f 63 61 != 0
/-- The 24-byte sideband of a flit: its slot header and its command word, low byte first (R370). -/
def sideband (f : Flit) : Bytes := toBytes 8 f.hdr.toNat ++ toBytes 16 f.cmd.toNat
/-- What serializer lane w carries of a flit in a full direction: its stripe of 16 bytes, and 3 bytes of the sideband (R370). -/
def stripe (f : Flit) (w : Nat) : Bytes × Bytes := ((f.data.drop (16 * w)).take 16, ((sideband f).drop (3 * w)).take 3)
/-- Bytes of a stream dealt one by one to 7 lanes: what the i-th lane gets (R380). -/
def dealt (i : Nat) : Bytes → Bytes
  | [] => []
  | b :: l => if i = 0 then b :: dealt 6 l else dealt (i - 1) l
/-- What lane w, one of those left in service, carries of the flits of a degraded frame, laid end to end in the order of their
surviving slots: the k-th at stream bytes 128 k to 128 k + 127, and the sidebands in the same way (R380). -/
def degradedStripe (left : List Nat) (frame : List Flit) (w : Nat) : Bytes × Bytes :=
  (dealt (left.idxOf w) (frame.flatMap Flit.data), dealt (left.idxOf w) (frame.flatMap sideband))
/-- The data of a flit from what the deserializer lanes of a full direction deliver: stripe w comes by the lane that reads it (R370,
R387, R389). -/
def assembled (x : LinkState) (got : List Bytes) : Bytes := (List.range 8).flatMap fun w => got.getD (x.lanes.idxOf w) []
/-- A type of R136 by its code. -/
def tyOf (n : Nat) : Ty :=
  match n with
  | 4 => .s32
  | 5 => .z32
  | 6 => .s64
  | 7 => .z64
  | _ => .f32
/-- An atomic operation of R198 by its code. -/
def aopOf (n : Nat) : Aop :=
  match n with
  | 0 => .add
  | 1 => .min
  | 2 => .max
  | 3 => .and
  | 4 => .or
  | 5 => .xor
  | 6 => .exch
  | 7 => .inc
  | _ => .dec
/-- Bytes of a flit from offset o, within the line (R372). -/
def flitBytes (f : Flit) (o n : Nat) : Bytes := (List.range n).map fun i => f.data.getD ((o + i) % 128) 0
/-- The domain request of a KIND 1 flit (R372, R426), with the clock received before it (R390). -/
def requestOf (link : Nat) (clock : List Nat) (f : Flit) : DomainReq :=
  let addr := cmdBits f 56 0
  let o := addr % 128
  let n := cmdBits f 119 112 % 128 + 1
  let ty := tyOf (cmdBits f 60 57)
  let opn := cmdBits f 127 124
  { tag := cmdBits f 84 64, link := link, src := cmdBits f 95 89, fg := cmdBits f 88 86, ctx := cmdBits f 111 96
    op := match opn with
      | 1 => .read
      | 4 => if cmdBits f 123 120 = 9 then .acas ty else .atomic (aopOf (cmdBits f 123 120)) ty
      | _ => .store
    va := BitVec.ofNat 64 (if opn = 1 then addr / 128 * 128 else if opn = 2 then addr / 128 * 128 else addr)
    size := if opn = 1 || opn = 2 then 128 else n
    data := if opn = 1 then [] else if opn = 2 then f.data else flitBytes f o n
    data2 := if opn = 4 then flitBytes f (o + 64) n else []
    poison := f.cmd.getLsbD 85, clock := clock }

namespace State

/-! ### Registers of a link -/

/-- STATE of a link (R386). -/
def linkState (s : State) (l : LinkId) : Nat := s.fld (lkIdx l 0) (lkInst l 0) 63 62
/-- A link is up. -/
def linkUp (s : State) (l : LinkId) : Bool := s.linkState l == 2
/-- Delay D of a link in slots (R373). -/
def linkDelay (s : State) (l : LinkId) : Nat := s.fld (lkIdx l 0) (lkInst l 0) 41 32
/-- Bit of LKSTAT that says a direction is degraded. -/
def degBit : Dir → Nat
  | .outbound => 61
  | .inbound => 60
/-- Wavelength of transmit ring w, which serializer lane w feeds (R370, R388). -/
def wlOfLane (s : State) (l : LinkId) (w : Nat) : Nat := s.fld (lkIdx l 0x30) (lkInst l w) 58 56
/-- Wavelength that receive ring 8 + j drops into deserializer lane j (R387). -/
def wlOfDrop (s : State) (l : LinkId) (j : Nat) : Nat := s.fld (lkIdx l 0x30) (lkInst l (8 + j)) 58 56
/-- Serializer lanes still in service, ascending (R380). -/
def lanesLeft (s : State) (l : LinkId) : List Nat :=
  (List.range 8).filter fun w => (s.link l).outDir.wlOut != some (s.wlOfLane l w)
/-- The wavelengths that carry a stripe of an outbound flit: those of the rings whose lanes are in service (R370, R371). -/
def wlSent (s : State) (l : LinkId) : Nat :=
  (((List.range 8).filter fun wl => (s.lanesLeft l).any fun w => s.wlOfLane l w == wl).map (2 ^ ·)).sum
/-- What a wavelength carries of a flit in a full outbound direction (R370). -/
def onWavelength (s : State) (l : LinkId) (f : Flit) (wl : Nat) : Option (Bytes × Bytes) :=
  ((List.range 8).find? fun w => s.wlOfLane l w == wl).map (stripe f)
/-- A direction runs degraded (R380). -/
def degraded (s : State) (l : LinkId) (d : Dir) : Bool := (s.reg (lkIdx l 0) (lkInst l 0)).getLsbD (degBit d)
/-- Kind of a position of the timetable in force (R375). -/
def ttKind (s : State) (l : LinkId) (pos : Nat) : Nat := s.fld (lkIdx l 0x10) (lkInst l pos + 32768) 63 61
/-- A position lies in the degraded map (R379). -/
def inMap (s : State) (l : LinkId) (pos : Nat) : Bool := (s.reg (lkIdx l 0x12) (lkInst l (pos / 64))).getLsbD (pos % 64)
/-- A position carries transactions or maintenance in the current mode (R375, R380). -/
def posUsable (s : State) (l : LinkId) (pos : Nat) : Bool :=
  let k := s.ttKind l pos
  (k == 1 || k == 2 || k == 3) && !((s.degraded l .outbound || s.degraded l .inbound) && s.inMap l pos)
/-- Start of a slot of a direction within its frame, in units of 1/14 ns (R378): `drops` says which slots are gone. -/
def slotStart (deg : Bool) (drops : Nat → Bool) (n : Nat) : Nat :=
  if deg then 8 * ((List.range n).filter fun i => !drops i).length else 7 * n
/-- Start of slot n of the frame of a hand-back at slot h: from h on the surviving slots follow one another at 8 units each
(R428). -/
def handBackStart (drops : Nat → Bool) (h n : Nat) : Nat :=
  if n < h then 7 * n else 7 * h + 8 * ((List.range (n - h)).filter fun i => !drops (h + i)).length
/-- This frame of an outbound direction is that of a hand-back (R383, R428). -/
def handBackFrame (s : State) (l : LinkId) : Bool := s.degraded l .outbound && (s.link l).outDir.since == s.tick
/-- Start of an outbound slot within this frame, in units of 1/14 ns (R370, R380, R428). -/
def outStart (s : State) (l : LinkId) (n : Nat) : Nat :=
  if s.handBackFrame l then handBackStart (s.inMap l) (s.link l).outDir.slot n else slotStart (s.degraded l .outbound) (s.inMap l) n
/-- A slot of this frame is one the outbound direction still sends: a surviving one of a degraded direction, and in the frame of a
hand-back one that fits before the frame boundary (R380, R383). -/
def slotFits (s : State) (l : LinkId) (n : Nat) : Bool :=
  !s.degraded l .outbound || (s.handBackFrame l && decide (n < (s.link l).outDir.slot)) ||
  (!s.inMap l n && decide (s.outStart l n + 8 ≤ 1792))
/-- The outbound slot that runs now (R370, R380, R428). -/
def outSlot (s : State) (l : LinkId) : Option Nat :=
  let u := s.unitNow % 1792
  if !s.degraded l .outbound then some (u / 7)
  else (List.range 256).find? fun n => s.slotFits l n && decide (s.outStart l n ≤ u) &&
    decide (u < s.outStart l n + if s.handBackFrame l && decide (n < (s.link l).outDir.slot) then 7 else 8)
/-- An inbound slot is one that a degraded inbound direction drops (R380). -/
def inDrops (s : State) (l : LinkId) (n : Nat) : Bool := s.inMap l ((n + 256 * 4 - s.linkDelay l) % 256)
/-- Start of inbound slot n of a frame, within that frame, in units of 1/14 ns (R378, R380, R428). -/
def inStart (s : State) (l : LinkId) (frame n : Nat) : Nat :=
  if s.degraded l .inbound && (s.link l).inDir.since == frame then handBackStart (s.inDrops l) (s.link l).inDir.slot n
  else slotStart (s.degraded l .inbound) (s.inDrops l) n
/-- The moment at which the inbound slot that starts at `due` in a full direction starts in the present mode (R378, R380, R428). -/
def inMoment (s : State) (l : LinkId) (due : Nat) : Nat := due / 1792 * 1792 + s.inStart l (due / 1792) (due % 1792 / 7)
/-- Latency of a position in the current mode, or in full mode, in units of 1/14 ns (R378). -/
def latencyOf (s : State) (l : LinkId) (pos : Nat) (full : Bool) : Nat :=
  let d := s.linkDelay l
  let out := slotStart (!full && s.degraded l .outbound) (s.inMap l) pos
  let back := slotStart (!full && s.degraded l .inbound) (s.inDrops l) ((pos + d) % 256)
  1792 * ((pos + d) / 256) + back - out
/-- LATTAB of a position; every field is zero until training has set D (R386). -/
def lattab (s : State) (l : LinkId) (pos : Nat) : DWord :=
  let d := s.linkDelay l
  if d = 0 then 0 else
  setBits (setBits (setBits (setBits 0 47 32 (s.latencyOf l pos false)) 23 16 ((pos + d) % 256)) 11 8 ((pos + d) / 256)) 0 0
    (s.linkUp l && s.posUsable l pos).toNat

/-! ### Timetables -/

/-- Positions of the timetable in force of a kind, highest first. -/
def positionsOf (s : State) (l : LinkId) (kind : Nat) : List Nat :=
  ((List.range 256).filter fun p => s.ttKind l p == kind).reverse
/-- The degraded map: 32 positions, idle before pool before owned, highest first (R379). -/
def degradedMap (s : State) (l : LinkId) : List Nat :=
  (s.positionsOf l 0 ++ s.positionsOf l 1 ++ s.positionsOf l 3).take 32
/-- DMAP written from the timetable in force (R379). -/
def setMap (s : State) (l : LinkId) : State :=
  let m := s.degradedMap l
  (List.range 4).foldl (fun t j => t.setReg (lkIdx l 0x12) (lkInst l j)
    (BitVec.ofNat 64 ((m.filter fun p => p / 64 == j).map fun p => 2 ^ (p % 64)).sum)) s
/-- A timetable of 256 entries stored, in force or as the shadow. -/
def storeTable (s : State) (l : LinkId) (base : Nat) (t : List DWord) : State :=
  (List.range 256).foldl (fun u p => u.setReg (lkIdx l 0x10) (lkInst l p + base) (t.getD p 0)) s
/-- The shadow of a link. -/
def shadowOf (s : State) (l : LinkId) : List DWord := (List.range 256).map fun p => s.reg (lkIdx l 0x10) (lkInst l p)
/-- The timetable a link has after training (R377). -/
def defaultTable (s : State) (l : LinkId) (peer : Nat) : List DWord :=
  (List.range 256).map fun p =>
    let kind := if l.fab then
        if p % 64 = 63 then 2 else if (p % 2 == 0) == decide (s.pkgId < peer) then 1 else 4
      else if p % 32 = 31 then 2 else 1
    setBits 0 63 61 kind
/-- Positions of a table of some kind. -/
def countKind (t : List DWord) (kind : Nat) : Nat := (t.filter fun v => bits v 63 61 == kind).length
/-- The shadows of a fabric link's ends disagree at a position (R376). -/
def shadowsClash (own far : DWord) : Bool :=
  let a := bits own 63 61
  let b := bits far 63 61
  (decide (a = 2) != decide (b = 2)) || ((decide (a = 4) == decide (b = 4)) && !(a == 2 && b == 2))
/-- The shadows of the two ends disagree (R376). -/
def tablesClash (own far : List DWord) : Bool :=
  (List.range 256).any fun p => shadowsClash (own.getD p 0) (far.getD p 0)
/-- The first failing check of a shadow on this end: 1, 2 or 4 (R376; their order is log 10). -/
def commitCheck (s : State) (l : LinkId) : Nat :=
  let t := s.shadowOf l
  if countKind t 2 ≠ (if l.fab then 4 else 8) then 1
  else if !l.fab && countKind t 4 ≠ 0 then 2
  else if !s.linkUp l then 4
  else 0
/-- The frames after which a shadow both ends hold takes effect (R376; log 10). -/
def adoptDelay : Nat := 8
/-- A table is to take effect at a frame boundary. -/
def adoptAt (s : State) (l : LinkId) (t : List DWord) (frame : Nat) : State :=
  s.modLink l fun x => { x with commit := some frame, adopt := t }
/-- A commit of this end is under way on a link: it waits for the far end, or for its frame (R376). -/
def committing (s : State) (l : LinkId) : Bool := (s.link l).shadowAsk.isSome || (s.link l).commit.isSome
/-- The kinds of a shadow as a control flit carries them: 3 bits for each position (log 11). -/
def shadowBytes (t : List DWord) : Bytes :=
  toBytes 96 ((List.range 256).map fun p => bits (t.getD p 0) 63 61 * 2 ^ (3 * p)).sum
/-- A commit of this end begins: its checks; a memory link adopts at the next frame boundary, a fabric link asks the far end for its
shadow (R376). The answer is the result, where it is known at once. -/
def beginCommit (s : State) (l : LinkId) (who : Asker) : State × Option Nat :=
  match s.commitCheck l with
  | 0 =>
    let own := s.shadowOf l
    if l.fab then
      ((s.modLink l fun x => { x with shadowAsk := some s.tick, commitWho := who, asked := own }).sendControl l 3
        (toBytes 31 0 ++ shadowBytes own), none)
    else (s.adoptAt l own (s.tick + 1), some 0)
  | n => (s, some n)
/-- TTCOMMIT: a commit of this end, in its turn: commits of one link are performed one at a time (R283, R376). -/
def ttcommit (s : State) (l : LinkId) (who : Asker) : State × Option Nat :=
  if s.committing l then (s.modLink l fun x => { x with nextCommit := x.nextCommit ++ [who] }, none) else s.beginCommit l who
/-- This end answers a shadow with its own, as it stands now, and adopts that where the two agree (R376). -/
def answerShadow (s : State) (l : LinkId) (far : List DWord) : State :=
  let own := s.shadowOf l
  let frame := s.tick + adoptDelay
  let s1 := (s.modLink l fun x => { x with heldAsk := none }).sendControl l 2 (toBytes 7 0 ++ toBytes 24 frame ++ shadowBytes own)
  if !l.fab || !s.linkUp l || tablesClash own far then s1 else s1.adoptAt l own frame
/-- TTCOMMIT_SHADOW_REQUEST: the far end commits. Its request is answered at once, or after this end's own commit: while that one
waits for its frame, or for the far end when this end's package id is the lower (R376; log 10). -/
def shadowRequest (s : State) (l : LinkId) (far : List DWord) : State :=
  let x := s.link l
  if x.commit.isSome || (x.shadowAsk.isSome && decide (s.pkgId < s.fld (lkIdx l 0) (lkInst l 0) 30 24)) then
    s.modLink l fun y => { y with heldAsk := some far }
  else s.answerShadow l far
/-- A commit is over, so the next one has its turn: the far end's, whose request was held, else this end's (R283, R376). -/
def nextCommit (s : State) (l : LinkId) : State :=
  let x := s.link l
  if s.committing l then s
  else match x.heldAsk, x.nextCommit with
    | some far, _ => s.answerShadow l far
    | none, who :: rest =>
      let r := (s.modLink l fun y => { y with nextCommit := rest }).beginCommit l who
      match r.2 with
      | some n => r.1.answerBind who (BitVec.ofNat 64 n)
      | none => r.1
    | none, [] => s
/-- The far end's shadow arrives at the end that commits (R376). -/
def commitAnswer (s : State) (l : LinkId) (far : List DWord) (frame : Nat) : State :=
  let x := s.link l
  if x.shadowAsk.isNone then s
  else
    let s1 := s.modLink l fun y => { y with shadowAsk := none, commitWho := .outside, asked := [] }
    if tablesClash x.asked far then (s1.answerBind x.commitWho 3).nextCommit l
    else (s1.adoptAt l x.asked frame).answerBind x.commitWho 0
/-- The far end has not answered within 1,024 frames (R376). -/
def commitLate (s : State) (l : LinkId) : Bool :=
  match (s.link l).shadowAsk with
  | some t => decide (t + 1024 ≤ s.tick)
  | none => false
/-- TTCOMMIT_TIMEOUT (R376). -/
def commitTimeout (s : State) (l : LinkId) : State :=
  if s.commitLate l then
    (((s.modLink l fun x => { x with shadowAsk := none, commitWho := .outside, asked := [] }).answerBind (s.link l).commitWho
      3).wakeRetry).nextCommit l
  else s
/-- A commit waits for its turn while none is under way (R376). -/
def commitWaits (s : State) (l : LinkId) : Bool :=
  !s.committing l && ((s.link l).heldAsk.isSome || !(s.link l).nextCommit.isEmpty)
/-- An adopted table is due. -/
def adoptDue (s : State) (l : LinkId) : Bool :=
  match (s.link l).commit with
  | some t => decide (t ≤ s.tick)
  | none => false
/-- TIMETABLE_TAKE_EFFECT: the adopted table and its degraded map are in force (R376, R379). -/
def takeEffect (s : State) (l : LinkId) : State :=
  if s.adoptDue l then
    (((((s.modLink l fun x => { x with commit := none, adopt := [] }).storeTable l 32768 (s.link l).adopt)).setMap l).wakeRetry).nextCommit l
  else s

/-! ### Slots -/

/-- An entry serves a transaction: one of its group, and while the entry is held only one whose slot was charged as its work
started (R303, R304, R413). -/
def mayServe (s : State) (l : LinkId) (e : Nat) (t : Txn) : Bool :=
  t.sgrp == s.entryGroup l e && (!s.heldNow (linkSrv l e) || t.paid != 0)
/-- An entry has a request pending that it serves (R302, R303, R307). -/
def lsEntryReady (s : State) (l : LinkId) (q : List Txn) (e : Nat) : Bool :=
  s.srvInstalled (linkSrv l e) && q.any (s.mayServe l e)
/-- The ready entry of the least deadline, the lower number on equal ones (R303). -/
def bestEntry (s : State) (l : LinkId) (q : List Txn) : Option Nat :=
  let ready := (List.range 32).filter (s.lsEntryReady l q)
  ready.find? fun e => ready.all fun f => decide ((s.srv (linkSrv l e)).d < (s.srv (linkSrv l f)).d) ||
    ((s.srv (linkSrv l e)).d == (s.srv (linkSrv l f)).d && decide (e ≤ f))
/-- Groups of waiting requests that have no entry on the link (R306). -/
def backGroups (s : State) (l : LinkId) (q : List Txn) : List Nat :=
  (q.map Txn.sgrp).filter fun g => !(List.range 32).any fun e => s.srvInstalled (linkSrv l e) && s.entryGroup l e == g
/-- The background group whose turn it is, from the one behind the last served upward and around (R306). -/
def backTurn (gs : List Nat) (turn : Nat) : Option Nat :=
  match (gs.filter fun g => decide (turn ≤ g)).min? with
  | some g => some g
  | none => gs.min?
/-- Who gets a slot of this end's positions: the owner entry, the pool, or background work (R303, R306, R307): the transaction, and
the entry that is charged. -/
def slotChoice (s : State) (l : LinkId) (pos : Nat) : Option (Txn × Option Nat) :=
  let q := (s.link l).queue
  let owner := s.fld (lkIdx l 0x10) (lkInst l pos + 32768) 4 0
  let pick := if s.ttKind l pos = 3 && s.lsEntryReady l q owner then some owner else s.bestEntry l q
  match pick with
  | some e => (q.find? (s.mayServe l e)).map fun t => (t, some e)
  | none => ((backTurn (s.backGroups l q) (s.link l).turn).bind fun g => q.find? fun t => t.sgrp == g).map fun t => (t, none)
/-- The last sequence number received in order (R371). -/
def ackNow (x : LinkState) : Nat := (x.seqIn + 65535) % 65536
/-- The slot header of a flit this end sends (R371). -/
def sendHeader (s : State) (l : LinkId) (seq kind : Nat) : DWord :=
  let x := s.link l
  setBits (setBits (setBits (setBits (setBits (setBits 0 63 48 seq) 47 32 (ackNow x)) 31 31 x.nak.toNat) 30 28 kind)
    27 20 (s.wlSent l)) 19 16 x.inDir.handed
/-- A flit leaves on a link: NAK and a hand-back request go with it once (R371, R383). -/
def sendFlit (s : State) (l : LinkId) (tag : Nat) (f : Flit) : State :=
  (s.emit (if l.fab then .domain l.n tag (sealFlit f) else .drawer l.n (sealFlit f))).modLink l fun x =>
    { x with nak := false, ackOut := ackNow x, inDir := { x.inDir with handed := 0 } }
/-- The 128 bytes of a vector-clock flit (R390). -/
def clockBytes (fg : Nat) (v : List Nat) : Bytes :=
  BitVec.ofNat 8 fg :: (List.replicate 63 0 ++ (List.range 16).flatMap fun i => toBytes 4 (v.getD i 0))
/-- The flit of a transaction leaves in its slot, and is kept until it is acknowledged or answered; one that is sent again keeps its
number and its fixed latency. Its response is due in the inbound slot of its position (R371, R373, R378, R382, R385). -/
def sendTxn (s : State) (l : LinkId) (t : Txn) (pos : Nat) : State :=
  let seq := (s.link l).seqOut
  let again := t.pos.isSome
  let n := if again then bits t.flit.hdr 63 48 else seq
  let f : Flit := { t.flit with hdr := s.sendHeader l n (flitKind t.flit) }
  let start := s.tick * 1792 + s.outStart l pos
  let due := s.tick * 1792 + 7 * (pos + s.linkDelay l)
  let t' : Txn := if again then { t with flit := f, due := due }
    else { t with flit := f, pos := some pos, tick := s.tick, back := start + s.latencyOf l pos true, due := due }
  (s.sendFlit l t.tag f).modLink l fun x =>
    { x with seqOut := if again then x.seqOut else (seq + 1) % 65536, queue := x.queue.erase t, replies := x.replies.erase t
             flight := x.flight ++ [t'] }
/-- A transaction of a fabric link in its slot: its vector-clock flit first where one is owed, else its own (R373, R390). -/
def sendClocked (s : State) (l : LinkId) (t : Txn) (pos : Nat) : State :=
  match (if l.fab then s.clockOwed l t.ctx else none) with
  | some (fg, v) =>
    (s.sendTxn l { Txn.new t.sgrp t.ctx t.tag ⟨kindHdr 4, 0, clockBytes fg v⟩ s.tick with far := t.far } pos).modLink l fun x =>
      { x with lastClock := put x.lastClock fg v
               queue := x.queue.map fun y => if y = t then { y with paid := min y.paid 1 } else y }
  | none => s.sendTxn l t pos
/-- The kind of position a flit travels in: 2 for control and maintenance flits, 4 for those of the far end's positions, 1 for the
rest (R375, R427). -/
def flitClass (t : Txn) : Nat := if flitKind t.flit = 3 || flitKind t.flit = 5 || isRows t.flit then 2 else if t.far then 4 else 1
/-- The slot of a transaction was charged as its copy's unit started; that of the vector-clock flit before it too, where it was owed
then (R413). -/
def slotPaid (s : State) (l : LinkId) (t : Txn) : Bool :=
  if l.fab && t.pos.isNone && (s.clockOwed l t.ctx).isSome then t.paid == 2 else t.paid != 0
/-- The class of flit a position carries (R375, R427). -/
def posClass (s : State) (l : LinkId) (pos : Nat) : Nat := if s.ttKind l pos = 3 then 1 else s.ttKind l pos
/-- Flits sent and not yet acknowledged (R382). -/
def unacked (x : LinkState) : Nat := (x.seqOut + 65535 - x.ackIn) % 65536
/-- What a slot is used for: nothing, an idle flit, the repair of a line (R367), or a flit and the entry that is charged. -/
inductive SlotUse where
  | none
  | idle
  | repair
  | txn (t : Txn) (entry : Option Nat)
/-- An acknowledgement, a replay request or a hand-back request waits for a header (R371, R383). -/
def idleOwed (x : LinkState) : SlotUse := if x.nak || x.ackOut != ackNow x || x.inDir.handed != 0 then .idle else .none
/-- What a slot of this frame carries: a flit that is sent again first, in SEQ order, and no new one while one waits or 1,024 are
unacknowledged; then what waits for that kind of position; else an idle flit where a header is owed (R366, R367, R371, R375, R382,
R427). -/
def slotUse (s : State) (l : LinkId) (pos : Nat) : SlotUse :=
  let x := s.link l
  let k := s.posClass l pos
  if !s.linkUp l || !s.slotFits l pos || k = 0 || (k = 1 && !s.posUsable l pos) then .none
  else match x.queue.find? fun t => t.pos.isSome with
    | some t => if flitClass t = k then .txn t Option.none else idleOwed x
    | Option.none =>
      if 1024 ≤ unacked x then idleOwed x
      else if k = 2 then
        match x.maint with
        | f :: _ => .txn (Txn.new 0 0 (cmdBits f 84 64) f s.tick) Option.none
        | [] => if !l.fab && s.scrubFix.any fun e => e.1 == l.n then .repair else idleOwed x
      else if k = 4 then
        match x.replies.head?.filter fun t => decide (t.due ≤ s.unitNow) with
        | some t => .txn t Option.none
        | Option.none => idleOwed x
      else match s.slotChoice l pos with
        | some (t, e) => .txn t e
        | Option.none => idleOwed x
/-- LINK_SLOT: a position's slot is used; the entry that is served is charged one slot, unless its work paid for it as it started;
background work passes the turn on, and what is sent again or belongs to no server charges nothing (R303, R306, R307, R366, R373,
R375, R382, R413). -/
def giveSlot (s : State) (l : LinkId) (pos : Nat) : State :=
  let s0 := s.modLink l fun x => { x with last := some (s.tick * 256 + pos) }
  match s.slotUse l pos with
  | .none => s0
  | .idle => s0.sendFlit l 0 ⟨s0.sendHeader l (s.link l).seqOut 0, 0, List.replicate 128 0⟩
  | .repair => s0.scrubRepair l.n
  | .txn t e =>
    let s1 := match e with
      | some e => if s.slotPaid l t then s0 else s0.charge (linkSrv l e) 1
      | Option.none => s0.modLink l fun x => { x with turn := if t.pos.isSome || flitClass t ≠ 1 then x.turn else (t.sgrp + 1) % 256 }
    if t.pos.isSome then s1.sendTxn l t pos
    else if flitClass t = 2 then (s1.modLink l fun x => { x with maint := x.maint.tail }).sendTxn l t pos
    else s1.sendClocked l t pos

/-! ### The drawer's endpoint -/

/-- n bytes of a line with an atomic performed on them (R198, R372). -/
def atomicBytes (f : Flit) (n : Nat) (old : Bytes) : Bytes :=
  let o := cmdBits f 34 0 % 128
  let x : DWord := BitVec.ofNat 64 (ofBytes (flitBytes f o n))
  if cmdBits f 123 120 = 9 then if old = flitBytes f o n then flitBytes f (o + 64) n else old
  else toBytes n (atomNew (aopOf (cmdBits f 123 120)) (tyOf (cmdBits f 60 57)) (BitVec.ofNat 64 (ofBytes old)) x).toNat
/-- What the endpoint of a memory link makes of a command flit, and its response (R358, R359, R366, R372, R373; logs 11 and 74). -/
def drawerAnswer (s : State) (link : Nat) (f : Flit) : State × Flit :=
  let addr := cmdBits f 34 0
  let pa := s.channelPa link addr
  let line := pa / 128 * 128
  let o := addr % 128
  let n := min (cmdBits f 119 112 % 128 + 1) (128 - o)
  let mine := f.cmd.getLsbD 85
  let answer (bad : Bool) (b : Bytes) : Flit := ⟨kindHdr 2, BitVec.ofNat 128 (cmdBits f 84 64 * 2 ^ 64 + (mine || bad).toNat * 2 ^ 85), b⟩
  let none := List.replicate 128 (0 : Byte)
  let mark (t : State) : State := if mine then { t with drawer := t.drawer.addPoison 128 line 128 } else t
  match cmdBits f 127 124 with
  | 1 => (s.checkLine line, answer (s.drawer.poisoned line 128 || s.errorAt line == some true) (s.drawer.read line 128))
  | 2 => (mark (s.drawerWrite line f.data), answer false none)
  | 3 => (mark (s.drawerWrite pa (flitBytes f o n)), answer false none)
  | 4 =>
    let old := s.drawer.read pa n
    let bad := s.drawer.poisoned line 128 || s.errorAt line == some true
    let s1 := s.checkLine line
    (if bad then s1 else mark (s1.drawerWrite pa (atomicBytes f n old)), answer bad ((Store.zero.write o old).read 0 128))
  | 5 => (s, answer false ((s.scrubLines link f).map (fun i => BitVec.ofNat 8 (s.scrubCode link i)) ++ List.replicate 112 0))
  | _ => (s, answer false none)
/-- Header of a flit that the endpoint of a memory link sends: the number this end expects next, an acknowledgement, NAK, and the
wavelengths of the direction that are in service (R371, R373). -/
def endpointHdr (s : State) (link ack nak kind : Nat) : DWord :=
  let x := s.link ⟨false, link⟩
  let out := match x.inDir.wlOut with
    | some w => 2 ^ w
    | none => 0
  setBits (setBits (setBits (setBits (setBits 0 63 48 x.seqIn) 47 32 ack) 31 31 nak) 30 28 kind) 27 20 (255 - out)
/-- DRAWER_COMMAND_EXECUTE: the endpoint of a memory link executes a command flit, and its response leaves. One whose CRC fails or that
holds a reserved code is discarded, and the next header has NAK; what is no command has no response (R371 to R373, R378). -/
def drawerCommand (s : State) (link : Nat) (f : Flit) : State :=
  let seq := bits f.hdr 63 48
  if !s.channelPresent link then s
  else if bits f.hdr 15 0 ≠ (flitCrc f).toNat || flitReserved f then
    s.emit (.drawer link (sealFlit ⟨s.endpointHdr link ((seq + 65535) % 65536) 1 0, 0, List.replicate 128 0⟩))
  else if flitKind f ≠ 1 then s
  else
    let r := s.drawerAnswer link f
    r.1.emit (.drawer link (sealFlit { r.2 with hdr := s.endpointHdr link seq 0 2 }))

/-! ### Reception -/

/-- a is at or behind b in a sequence modulo 2^16. -/
def seqBehind (a b : Nat) : Bool := decide ((b + 65536 - a) % 65536 < 32768)
/-- Symbols corrected in a flit on one of its wavelengths: an open count (R381; log 1). -/
def symbolsOf (x : DWord) (w : Nat) : Nat := nb x.toNat (8 * w + 3) (8 * w)
/-- A wavelength of an inbound flit counts: the flit has a stripe there, and it is not out (R371, R427). -/
def wlCounts (s : State) (l : LinkId) (f : Flit) (w : Nat) : Bool :=
  f.hdr.getLsbD (20 + w) && s.fld (lkIdx l 0x20) (lkInst l w) 63 63 == 0
/-- The address that a captured link error shows: that of the link's oldest outstanding command (R369; log 86). -/
def linkLoc (s : State) (l : LinkId) : Nat :=
  match l.fab, (s.link l).flight with
  | false, t :: _ => s.channelPa l.n (cmdBits t.flit 34 0)
  | _, _ => 0
/-- n errors of a link counted in those of its die, structure 14 (R355, R357, R369; log 86). -/
def countLink (s : State) (l : LinkId) (unc : Bool) (n : Nat) : State :=
  (List.range n).foldl (fun t _ => t.countError (dieOfLink l) 14 unc 0 (s.linkLoc l)) s
/-- Symbols corrected on the wavelengths of an inbound flit: open counts (R381; log 1). A wavelength without a stripe of the flit keeps
its count (R427). -/
def countSymbols (s : State) (l : LinkId) (f : Flit) : State :=
  let sum := (((List.range 8).filter (s.wlCounts l f)).map (symbolsOf s.freeWord)).sum
  (List.range 8).foldl (fun t w =>
    let n := symbolsOf s.freeWord w
    let i := lkInst l w
    if !s.wlCounts l f w then t
    else (t.setFld (lkIdx l 0x20) i 31 0 (t.fld (lkIdx l 0x20) i 31 0 + n)).setFld (lkIdx l 0x22) i 63 32
      (t.fld (lkIdx l 0x22) i 63 32 + n)) (s.drawFree.countLink l false sum)
/-- A flit that fails its CRC: whether each wavelength in service had a codeword it could not correct is open. Where one of the
direction is out, a second one that is lost to such codewords takes the link down, and whether one is lost now is open too (R381, R384;
log 1). -/
def countUncorrectable (s : State) (l : LinkId) : State :=
  let left := (List.range 8).filter fun w => s.fld (lkIdx l 0x20) (lkInst l w) 63 63 == 0
  let bad := left.filter fun w => s.freeWord.toNat.testBit w
  let lost := bad.filter fun w => s.freeWord.toNat.testBit (8 + w)
  let s1 := bad.foldl (fun t w =>
    t.setFld (lkIdx l 0x22) (lkInst l w) 31 0 (t.fld (lkIdx l 0x22) (lkInst l w) 31 0 + 1)) (s.drawFree.countLink l true 1)
  if (s.link l).inDir.wlOut.isSome then s1.modLink l fun x => { x with inDir := { x.inDir with wlDown := lost } } else s1
/-- A direction of a link that is up has lost a second wavelength while one was out (R384). -/
def wlLost (s : State) (l : LinkId) : Bool :=
  s.linkUp l && !((s.link l).inDir.wlDown.isEmpty && (s.link l).outDir.wlDown.isEmpty)
/-- The wavelength whose count in the current window has passed LIMIT, lowest first (R383). -/
def overLimit (s : State) (l : LinkId) : Option Nat :=
  let lim := s.fld (lkIdx l 0x21) (lkInst l 0) 31 0
  if lim = 0 then none
  else (List.range 8).find? fun w => decide (lim < s.fld (lkIdx l 0x20) (lkInst l w) 31 0)
/-- A hand-back is asked for when a wavelength passes LIMIT and none of the direction is out (R383). -/
def askHandBack (s : State) (l : LinkId) : State :=
  match s.overLimit l with
  | some w =>
    if (s.link l).inDir.wlOut.isNone && (s.link l).inDir.handed = 0 then
      s.modLink l fun x => { x with inDir := { x.inDir with handed := 8 + w } }
    else s
  | none => s
/-- NAK is set in the next header (R371). -/
def nakLink (s : State) (l : LinkId) : State := s.modLink l fun x => { x with nak := true }
/-- A transaction whose response ends it: a request or command, the rows of a maintenance position among them (R371, R382). -/
def answered (t : Txn) : Bool := flitKind t.flit = 1
/-- Flits sent behind an acknowledged number wait to be sent again, in SEQ order and ahead of what is new (R382). -/
def replayFrom (s : State) (l : LinkId) (ack : Nat) : State :=
  s.modLink l fun x =>
    let again := x.flight.filter fun t => !seqBehind (bits t.flit.hdr 63 48) ack
    { x with flight := x.flight.filter fun t => seqBehind (bits t.flit.hdr 63 48) ack
             queue := (again.map fun t => { t with again := true }) ++ x.queue }
/-- A response of a memory link is lost: its transaction and every later one still outstanding are issued again; responses come in
the order of issue, so it is that of the oldest (R382). -/
def reissue (s : State) (l : LinkId) : State :=
  s.modLink l fun x => { x with flight := [], queue := (x.flight.map fun t => { t with again := true }) ++ x.queue }
/-- Numbers up to an acknowledged one have arrived: those flits are not sent again, and what no response ends is done (R371, R382). -/
def takeAck (s : State) (l : LinkId) (ack : Nat) : State :=
  s.modLink l fun x =>
    let here (t : Txn) : Bool := seqBehind (bits t.flit.hdr 63 48) ack
    let back := x.queue.filter fun t => t.pos.isSome && here t && l.fab
    { x with ackIn := ack
             queue := x.queue.filter fun t => !(t.pos.isSome && here t && l.fab)
             flight := (back ++ x.flight).filter fun t => answered t || !here t }
/-- A KIND 16 record: a stall of a context on a link (R385, R368). -/
def stallRecord (s : State) (l : LinkId) (cause wl since frames ctx : Nat) : State :=
  (s.addRecord ctx { ctx := ctx, kind := 16, b11 := cause, b12 := l.fab.toNat, die := dieOfLink l, h14 := l.n
                     q16 := since, h24 := wl, w28 := frames : Rec }.bytes).raiseEvent ctx 4
/-- Frames, rounded up, by which a transaction's response is past its fixed latency now; a response is taken at the first core cycle
from its moment on, so up to four units of 1/14 ns after it is no delay (R385). -/
def delayOf (s : State) (t : Txn) : Nat := (s.unitNow - 4 - t.back + 1791) / 1792
/-- A stall is of the same event as another: the same context, cause and retrain (R385). -/
def sameStall (a b : Stall) : Bool := a.ctx == b.ctx && a.cause == b.cause && a.dir == b.dir
/-- A delay kept for the record of its event: the largest of each, from the earliest start (R385). -/
def noteStall (x : LinkState) (e : Stall) : LinkState :=
  if x.stalled.any (sameStall e) then
    { x with stalled := x.stalled.map fun y =>
        if sameStall e y then { y with frames := max e.frames y.frames, start := min e.start y.start } else y }
  else { x with stalled := x.stalled ++ [e] }
/-- A direction of a link. -/
def dirOf (x : LinkState) : Dir → DirState
  | .outbound => x.outDir
  | .inbound => x.inDir
/-- The directions of a link with a wavelength out: each is a retrain in progress (R383, R385). -/
def dirsOut (x : LinkState) : List Dir := [.outbound, .inbound].filter fun d => (dirOf x d).wlOut.isSome
/-- A wavelength of the link is out. -/
def anyOut (x : LinkState) : Bool := x.outDir.wlOut.isSome || x.inDir.wlOut.isSome
/-- The stalls that a response is part of which comes d frames late: of the retrains in progress, but for a slot lost to the degraded
map; else of its own replay, else of a slot that a replay before it took (R385; logs 35 and 87). -/
def stallsOf (s : State) (l : LinkId) (t : Txn) (d : Nat) : List Stall :=
  let x := s.link l
  if anyOut x && (t.again || !s.inMap l (t.pos.getD 0)) then
    (dirsOut x).map fun e => ⟨t.ctx, d, (dirOf x e).since, 1, some e⟩
  else [⟨t.ctx, d, t.back / 1792, if t.again && !anyOut x then 2 else 3, none⟩]
/-- A response ends its transaction; one past its fixed latency is a stall, noted for the end of its event (R385). -/
def endTxn (s : State) (l : LinkId) (t : Txn) : State :=
  let d := s.delayOf t
  s.modLink l fun x =>
    let x1 := { x with flight := x.flight.erase t }
    if d = 0 || flitKind t.flit ≠ 1 || isRows t.flit then x1 else (s.stallsOf l t d).foldl noteStall x1
/-- The outstanding transaction that a response with a TAG answers (R372, R382). -/
def txnOf (x : LinkState) (tag : Nat) : Option Txn := x.flight.find? fun t => answered t && t.tag % 2097152 == tag
/-- A replay outside a retrain, or what it delayed, is over: nothing that was sent again is outstanding (R385). -/
def stallsOver (x : LinkState) : Bool :=
  (x.stalled.any fun e => e.dir.isNone) && !anyOut x && !(x.queue ++ x.flight).any Txn.again
/-- The records of events that are over: one for each context and event (R368, R385). -/
def writeStalls (s : State) (l : LinkId) (ended : Stall → Bool) : State :=
  let x := s.link l
  let wl (e : Stall) : Nat := ((e.dir.bind fun d => (dirOf x d).wlOut)).getD 0xFFFF
  (x.stalled.filter ended).foldl (fun t e => t.stallRecord l e.cause (wl e) e.start e.frames e.ctx)
    (s.modLink l fun y => { y with stalled := y.stalled.filter fun e => !ended e })
/-- The request a response answers: its full tag. -/
def reqOfTag (s : State) (l : LinkId) (tag : Nat) : Option (Nat × MemReq) :=
  s.reqs.find? fun r => r.1 % 2097152 == tag && l.fab && r.2.link == some l.n
/-- A response's bytes for the request (R372, R426). -/
def responseBytes (r : MemReq) (f : Flit) : Bytes :=
  match r.op with
  | .store _ => []
  | _ => flitBytes f (r.va.toNat % 128) r.size
/-- Little-endian field of a control flit. -/
def ctlField (f : Flit) (off n : Nat) : Nat := ofBytes ((f.data.drop off).take n)
/-- A direction of a link changed. -/
def modDir (s : State) (l : LinkId) (d : Dir) (f : DirState → DirState) : State :=
  s.modLink l fun x => match d with
    | .outbound => { x with outDir := f x.outDir }
    | .inbound => { x with inDir := f x.inDir }
/-- A control flit for a hop of another package's binding goes on by the link of that binding's own hop here: ahead, or back to
where its request came from (R316; log 75). -/
def relay (s : State) (src sg tag : Nat) (back : Bool) (f : Flit) : State :=
  match s.relayHop src sg tag with
  | some h => s.sendControl ⟨true, if back then h.2.2 else h.1⟩ (ctlField f 0 1) f.data.tail
  | none => s
/-- The kinds of the far end's shadow in a control flit. -/
def ctlShadow (f : Flit) : List DWord :=
  let x := ctlField f 32 96
  (List.range 256).map fun p => setBits 0 63 61 (nb x (3 * p + 2) (3 * p))
/-- A wavelength rejoins at a frame boundary that a control flit names, or at the later of two (R383; log 10). -/
def nameRejoin (s : State) (l : LinkId) (d : Dir) (wl frame : Nat) : State :=
  if (dirOf (s.link l) d).wlOut = some wl then
    s.modDir l d fun x => { x with trained := true, rejoin := some (max frame (x.rejoin.getD 0)) }
  else s
/-- A control flit by its code (R315, R316, R346, R376, R383). The layout is this model's (log 11). -/
def controlFlit (s : State) (l : LinkId) (f : Flit) : State :=
  let c (i : Nat) : Nat := ctlField f i 1
  let tag := ctlField f 8 4
  match c 0 with
  | 1 => if c 2 = s.pkgId then s.hopAnswer l.n (c 1) tag (c 3) (ctlField f 4 4) (c 12) else s.relay (c 2) (c 1) tag true f
  | 2 => s.commitAnswer l (ctlShadow f) (ctlField f 8 24)
  | 3 => s.post (.ttcommitShadowRequest l (ctlShadow f))
  | 4 =>
    if c 1 = s.pkgId then
      s.post (.rbindHopRequest ⟨c 2, c 3, c 4 == 1, ctlField f 12 3, ctlField f 15 3, tag, c 5, c 6, l.n⟩)
    else s.relay (c 5) (c 3) tag false f
  | 5 => if c 1 = s.pkgId then s.serveRelease l.n (c 2) (c 3) tag else s.relay (c 2) (c 3) tag false f
  | 8 => s.nameRejoin l (if c 2 = 0 then .outbound else .inbound) (c 1) (ctlField f 8 8)
  | 9 => s.modLink l fun x => { x with farTurns := x.farTurns ++ [ctlField f 8 8] }
  | 11 => match s.reqOfTag l (ctlField f 4 4) with
    | some (k, _) => s.post (.domainRefused k)
    | none => s
  | 12 => if c 2 = s.pkgId then s.hopReleased (c 1) tag else s.relay (c 2) (c 1) tag true f
  | 13 => match s.reqOfTag l (ctlField f 4 4) with
    | some (k, _) => s.post (.memoryResponse k [] true)
    | none => s
  | 14 => if c 1 = s.pkgId then s.pullImage (c 2) (BitVec.ofNat 128 (ctlField f 8 16)) else s
  | _ => s
/-- A response on a memory link: the line a request waits for has come, or the statuses of scrub lines (R366, R373). -/
def drawerResponse (s : State) (l : LinkId) (f : Flit) : State :=
  match txnOf (s.link l) (cmdBits f 84 64) with
  | none => s
  | some t =>
    let s1 := s.endTxn l t
    if isRows t.flit then s1.takeScrubs l.n t.flit f.data
    else { s1 with reqs := adjust s1.reqs t.tag fun r => if r.fill = some false then { r with fill := some true } else r }
/-- A response of a peer package: the poison of a store's answer is that of its request, and is not consumed; the vector it carried is
merged (R95, R360, R372, R390). -/
def domainResponse (s : State) (l : LinkId) (f : Flit) : State :=
  let tag := cmdBits f 84 64
  let s1 := match txnOf (s.link l) tag with
    | some t => s.endTxn l t
    | none => s
  match s.reqOfTag l tag with
  | none => s1
  | some (k, r) =>
    let store := match r.op with
      | .store _ => true
      | _ => false
    let fg := s.fld 0x9101 (s.sgrpOf r.ctx) 2 0
    (s1.mergeClock fg (lookupD [] (s.link l).clockIn fg)).post (.memoryResponse k (responseBytes r f) (f.cmd.getLsbD 85 && !store))
/-- What an accepted flit carries is taken (R371, R372, R390). -/
def acceptFlit (s : State) (l : LinkId) (f : Flit) : State :=
  match flitKind f with
  | 1 =>
    let fg := cmdBits f 88 86
    if l.fab && cmdBits f 127 124 ≠ 0 then s.post (.domainRequest (requestOf l.n (lookupD [] (s.link l).clockIn fg) f)) else s
  | 2 => if l.fab then s.domainResponse l f else s.drawerResponse l f
  | 3 => s.controlFlit l f
  | 4 => s.modLink l fun x =>
      { x with clockIn := put x.clockIn (ctlField f 0 1) ((List.range 16).map fun i => ctlField f (64 + 4 * i) 4) }
  | _ => s
/-! ### Retraining -/

/-- HAND_BACK: the direction runs degraded without the wavelength from a slot of this frame on, and what is not acknowledged is sent
again: on a memory link, inbound, every command whose response is out; nothing while one of the direction is out (R380, R382,
R383, R428). -/
def handBackStep (s : State) (l : LinkId) (d : Dir) (wl slot : Nat) : State :=
  if !s.linkUp l || (dirOf (s.link l) d).wlOut.isSome || 8 ≤ wl then s
  else
    let s1 := (s.modDir l d fun x =>
      { x with wlOut := some wl, trained := false, rejoin := none, handed := 0, since := s.tick, slot := slot }).setFld
      (lkIdx l 0) (lkInst l 0) (degBit d) (degBit d) 1
    let i := lkInst l wl
    match d with
    | .inbound =>
      let s2 := ((s1.setFld (lkIdx l 0x20) i 63 63 1).setFld (lkIdx l 0x20) i 62 62 1).setFld (lkIdx l 0x20) i 47 32
        (s.fld (lkIdx l 0x20) i 47 32 + 1)
      if l.fab then s2 else s2.reissue l
    | .outbound => s1.replayFrom l (s.link l).ackIn
/-- Frames from the report of a trained wavelength to its rejoin: at least two, and time for the control flit (R383; log 10). -/
def rejoinDelay : Nat := 8
/-- WAVELENGTH_TRAINED: both ends report the wavelength trained; a control flit names the frame boundary at which it rejoins (R383;
log 10). -/
def trainedStep (s : State) (l : LinkId) (d : Dir) (wl : Nat) : State :=
  if (dirOf (s.link l) d).wlOut ≠ some wl || (dirOf (s.link l) d).trained then s
  else
    let frame := s.tick + rejoinDelay
    let s1 := (s.nameRejoin l d wl frame).sendControl l 8
      ([BitVec.ofNat 8 wl, if d = .outbound then 1 else 0] ++ toBytes 5 0 ++ toBytes 8 frame)
    if d = .inbound then s1.setFld (lkIdx l 0x20) (lkInst l wl) 62 62 0 else s1
/-- A wavelength's rejoin is due. -/
def rejoinDue (s : State) (l : LinkId) (d : Dir) : Option Nat :=
  match (dirOf (s.link l) d).wlOut, (dirOf (s.link l) d).rejoin with
  | some w, some t => if t ≤ s.tick then some w else none
  | _, _ => none
/-- Counts that restart at a rejoin: the wavelength's own, and those past LIMIT meanwhile (R383, R427). -/
def restartCounts (s : State) (l : LinkId) (wl : Nat) : State :=
  let lim := s.fld (lkIdx l 0x21) (lkInst l 0) 31 0
  (List.range 8).foldl (fun t w =>
    if w = wl || (lim ≠ 0 && decide (lim < t.fld (lkIdx l 0x20) (lkInst l w) 31 0)) then
      (t.setFld (lkIdx l 0x20) (lkInst l w) 31 0 0).modLink l fun x => { x with windows := put x.windows w s.tick }
    else t) s
/-- WAVELENGTH_REJOIN: the direction is full again, and the stall records of its retrain are written (R383, R385, R427, R430). -/
def rejoinStep (s : State) (l : LinkId) (d : Dir) (wl : Nat) : State :=
  if s.rejoinDue l d ≠ some wl then s
  else
    let s0 := s.writeStalls l fun e => e.dir == some d
    let s1 := (s0.modDir l d fun y => { y with wlOut := none, trained := false, rejoin := none }).setFld (lkIdx l 0) (lkInst l 0)
      (degBit d) (degBit d) 0
    if d = .inbound then (s1.setFld (lkIdx l 0x20) (lkInst l wl) 63 62 0).restartCounts l wl else s1
/-- A window of corrected symbols is over (R383). -/
def windowOver (s : State) (l : LinkId) (wl : Nat) : Bool :=
  s.linkUp l && s.fld (lkIdx l 0x20) (lkInst l wl) 63 63 == 0 &&
  decide (lookupD 0 (s.link l).windows wl + 2 ^ (s.fld (lkIdx l 0x21) (lkInst l 0) 63 60 + 10) ≤ s.tick)
/-- WLTHR_WINDOW_END (R383). -/
def windowEnd (s : State) (l : LinkId) (wl : Nat) : State :=
  if s.windowOver l wl && decide (wl < 8) then
    (s.setFld (lkIdx l 0x20) (lkInst l wl) 31 0 0).modLink l fun x => { x with windows := put x.windows wl s.tick }
  else s

/-! ### A flit arrives -/

/-- A flit that a wavelength no longer carries tells the receiving end of its hand-back (R371, R383). -/
def handedBack (s : State) (l : LinkId) (f : Flit) : State :=
  match (List.range 8).find? fun w => !f.hdr.getLsbD (20 + w) with
  | some w => s.handBackStep l .inbound w (s.slotNow % 256)
  | none => s
/-- The acknowledgement, the replay request, the wavelengths and the hand-back request of a header; this end hands back from the next
slot on, which may be the first of the next frame (R371, R382, R383). -/
def takeHeader (s : State) (l : LinkId) (f : Flit) : State :=
  let ack := bits f.hdr 47 32
  let hb := bits f.hdr 19 16
  let s1 := (s.takeAck l ack).handedBack l f
  let s2 := if bits f.hdr 31 31 = 1 then s1.replayFrom l ack else s1
  if 8 ≤ hb then s2.handBackStep l .outbound (hb - 8) (s.slotNow % 256 + 1) else s2
/-- A flit is lost: NAK goes in the next header, and on a memory link the controller issues again what is outstanding (R371,
R382). -/
def loseFlit (s : State) (l : LinkId) : State := if l.fab then s.nakLink l else (s.nakLink l).reissue l
/-- FLIT_RECEIVE (R371, R372, R381 to R383, R427). -/
def receiveFlit (s : State) (l : LinkId) (f : Flit) : State :=
  if !s.linkUp l then s
  else
    let s0 := (s.countSymbols l f).askHandBack l
    let seq := bits f.hdr 63 48
    if bits f.hdr 15 0 ≠ (flitCrc f).toNat then (s0.countUncorrectable l).loseFlit l
    else if flitReserved f then
      (s0.loseFlit l).setFld (lkIdx l 0) (lkInst l 0) 23 16 (min 255 (s.fld (lkIdx l 0) (lkInst l 0) 23 16 + 1))
    else
      let s1 := s0.takeHeader l f
      if flitKind f = 0 then s1
      else if seq = (s.link l).seqIn then (s1.modLink l fun x => { x with seqIn := (seq + 1) % 65536 }).acceptFlit l f
      else if seqBehind seq (s.link l).seqIn then s1
      else s1.loseFlit l
/-- The response of a memory link's oldest outstanding command is due: the endpoint has executed it, and its response arrives in the
position's inbound slot. The bytes of a line written back are in the drawer already (log 35); a control flit has no response (R366,
R373, R378). -/
def drawerReturn (s : State) (l : LinkId) : State :=
  match (s.link l).flight with
  | [] => s
  | t :: rest =>
    if answered t then
      let r := if cmdBits t.flit 127 124 = 2 then (s, (s.drawerAnswer l.n { t.flit with data := [] }).2) else s.drawerAnswer l.n t.flit
      r.1.receiveFlit l (sealFlit { r.2 with hdr := s.endpointHdr l.n (bits t.flit.hdr 63 48) 0 2 })
    else s.modLink l fun x => { x with flight := rest }
/-- The oldest outstanding flit of a memory link has its response now: its inbound slot has come (R373, R378, R380, R428). -/
def returnDue (s : State) (l : LinkId) : Bool :=
  !l.fab && s.linkUp l && match (s.link l).flight with
    | [] => false
    | t :: _ => decide (s.inMoment l t.due ≤ s.unitNow)

/-! ### Links that go down -/

/-- No wavelength of a link is out any more (R383, R386). -/
def clearOut (s : State) (l : LinkId) : State :=
  (List.range 8).foldl (fun t w => t.setFld (lkIdx l 0x20) (lkInst l w) 63 62 0) s
/-- LINK_DOWN: the link retrains in full and its requests wait; the retrain it ends, and what else was delayed, is recorded (R384,
R385). -/
def downStep (s : State) (l : LinkId) : State :=
  if !s.linkUp l then s
  else
    (((((s.writeStalls l fun _ => true).setFld (lkIdx l 0) (lkInst l 0) 63 60 12).clearOut l).reissue l).modLink l fun x =>
      { x with downAt := some s.tick, outDir := DirState.zero, inDir := DirState.zero })
/-- 10 ms have passed since a link went down (R384). -/
def downLate (s : State) (l : LinkId) : Bool :=
  match (s.link l).downAt with
  | some t => s.linkState l == 3 && decide (t + 78125 ≤ s.tick)
  | none => false
/-- The memory link a request of a home slice needs: that of the line it waits for, or would have to ask for (R61, R384). -/
def missLink (s : State) (r : MemReq) : Option Nat :=
  if r.fill = some true then none else (s.missPa (accessOf r)).map s.channelOf
/-- The link a request waits for, if that link is down (R384). -/
def reqDown (s : State) (r : MemReq) : Option LinkId :=
  let l : Option LinkId := match r.link with
    | some n => some ⟨true, n⟩
    | none => (s.missLink r).map fun n => ⟨false, n⟩
  l.filter fun x => s.linkState x == 3
/-- A request is a read. -/
def isRead : ReqOp → Bool
  | .load => true
  | _ => false
/-- A request that has waited 10 ms on a link that is down: a read gets poisoned data, a write is lost and its context takes a
context fault (R384). -/
def loseReq (s : State) (tag : Nat) (r : MemReq) : State :=
  if isRead r.op then
    { s with reqs := put s.reqs tag { r with served := true } }.post (.memoryResponse tag (List.replicate r.size 0) true)
  else { s with reqs := del s.reqs tag }.contextFault r.ctx 2
/-- The down links that a copy's next unit needs (R384). -/
def copyDown (s : State) (id : Nat) (c : CopyRec) : List LinkId := (s.unitPath id c).filter fun l => s.linkState l == 3
/-- A unit that has waited 10 ms on a down link: what it reads there is poisoned data, what it writes there is lost, and its context
takes a context fault. On a fabric link its requests are those it would have sent (R384). -/
def loseUnit (s : State) (l : LinkId) (id : Nat) (c : CopyRec) : State :=
  if l.fab then
    let t := s.copyUnitStep id
    let sent := t.reqs.filter fun r => r.2.link == some l.n && (lookup s.reqs r.1).isNone
    sent.foldl (fun u r => if (lookup u.reqs r.1).isSome then u.loseReq r.1 r.2 else u)
      (t.modLink l fun x => { x with queue := (s.link l).queue })
  else if c.kind = .cpo || c.kind = .cpf then s.contextFault (s.copyCtx c) 2
  else
    let after := movedState (s.tryUnit id c)
    let lines := ((after.link l).queue.drop (s.link l).queue.length).map fun t => s.channelPa l.n (cmdBits t.flit 34 0) / 128 * 128
    let s2 := { s with drawer := lines.foldl (fun m a => m.addPoison 128 a 128) s.drawer }
    let s3 := s2.copyUnitStep id
    let kept (g : Nat) : Bool := !(lines.any fun a => decide (a / 8 ≤ g) && decide (g < a / 8 + 16)) || s.drawer.bad.contains g
    { s3 with drawer := { s3.drawer with bad := s3.drawer.bad.filter kept } }
/-- A line that waits to be written back on a memory link is lost: the drawer keeps what it held, its poison too, and the context takes
a context fault (R362, R384). -/
def loseWrite (s : State) (l : LinkId) (t : Txn) : State :=
  let pa := s.channelPa l.n (cmdBits t.flit 34 0)
  if t.undo.isEmpty then s
  else
    let s1 := s.drawerWrite pa t.undo
    (if t.undoBad then { s1 with drawer := s1.drawer.addPoison 128 pa 128 } else s1).contextFault t.ctx 2
/-- LINK_DOWN_TIMEOUT: the waiting reads complete as poisoned data, the waiting writes are lost (R384). -/
def downTimeout (s : State) (l : LinkId) : State :=
  if !s.downLate l then s
  else
    let reqs := s.reqs.filter fun r => !r.2.served && s.reqDown r.2 == some l
    let copies := s.copies.filter fun x => decide (x.2.next < x.2.total) && (s.copyDown x.1 x.2).contains l
    let s1 := s.modLink l fun x => { x with downAt := some s.tick, queue := [], seqOut := 0, seqIn := 0, ackIn := 65535, ackOut := 65535 }
    let s2 := reqs.foldl (fun t r => if (lookup t.reqs r.1).isSome then t.loseReq r.1 r.2 else t) s1
    let s3 := copies.foldl (fun t x => if (lookup t.copies x.1).isSome then t.loseUnit l x.1 x.2 else t) s2
    if l.fab then s3 else (s.link l).queue.reverse.foldl (fun t x => t.loseWrite l x) s3

/-! ### Training -/

/-- A number of slots that training makes even on a fabric link (R374, R378). -/
def trainedOf (fab : Bool) (n : Nat) : Nat := if fab && n % 2 = 1 then n + 1 else n
/-- D of a link from its measured delays, in slots: the far end's offset is in picoseconds (R374, R378). -/
def trainedDelay (fab : Bool) (fout fin eoff : Nat) : Nat :=
  trainedOf fab (trainedOf fab fout + (eoff + 499) / 500 + trainedOf fab fin + 80)
/-- Training tunes the rings of a link and lets them settle: their heater codes and readings are open, and MON is the mean of 16 frames
with that reading (R388, R435; logs 1 and 88). -/
def tuneRings (s : State) (l : LinkId) : State :=
  (List.range 16).foldl (fun t r =>
    let x := t.freeWord.toNat
    let level := x / 4096 % 1024
    let s1 := ((t.drawFree.setFld (lkIdx l 0x30) (lkInst l r) 11 0 (x % 4096)).setFld (lkIdx l 0x30) (lkInst l r) 61 61 0).setFld
      (lkIdx l 0x30) (lkInst l r) 25 16 level
    { s1 with rings := put s1.rings (linkKey l * 16 + r) ⟨none, 0, none, level, List.replicate 16 level⟩ }) s
/-- Whether one of some links is not yet up or absent (R435). -/
def anyTraining (s : State) (ls : List LinkId) : Bool := ls.any fun l => s.linkState l != 0 && s.linkState l != 2
/-- The links of one kind (R5). -/
def linksOf (fab : Bool) : List LinkId := (List.range (if fab then 16 else 96)).map fun n => ⟨fab, n⟩
/-- Links begin to train (R435). -/
def startTraining (s : State) (ls : List LinkId) : State := ls.foldl (fun t l => t.setFld (lkIdx l 0) (lkInst l 0) 63 62 1) s
/-- A link has trained, or is absent: the fabric links train once every memory link is done, and bring-up step 5 is over when they are
too. The drawers found are those of the links that are up (R396, R435, R436). -/
def trainingOver (s : State) (l : LinkId) : State :=
  if s.power.trained || s.anyTraining (linksOf false) then s
  else if !l.fab && (linksOf true).all fun x => s.linkState x == 0 then s.startTraining (linksOf true)
  else if s.anyTraining (linksOf true) then s
  else
    let found := (List.range 96).filter fun n => s.linkUp ⟨false, n⟩
    { s with power := { s.power with trained := true }, drawers := found }.setFld 0x3007 0 43 32 (32 * found.length)
/-- The other end's frame boundaries and tick: the end of the higher package id takes an open offset, and an open value at the next
frame (R434; logs 1 and 88). -/
def alignTick (s : State) (l : LinkId) (peer : Nat) : State :=
  if l.fab && decide (peer < s.pkgId) then
    { s.drawFree with tickSet := some (s.freeWord.toNat % 2 ^ 48), frameOff := s.freeWord.toNat / 2 ^ 48 % 384 }
  else s
/-- LINK_TRAIN_DONE: a link in training, or down, is up with its delay and timetable; one found without a far end (no delay) is absent
(R4, R374, R377, R378, R386, R434, R435). -/
def trainStep (s : State) (l : LinkId) (fout fin eoff peer : Nat) : State :=
  if !linkOk l || (s.linkState l ≠ 1 && s.linkState l ≠ 3) then s
  else if fout = 0 then (s.setReg (lkIdx l 0) (lkInst l 0) 0).trainingOver l
  else
    let stat := setBits (setBits (setBits 0 63 62 2) 41 32 (trainedDelay l.fab fout fin eoff)) 30 24 (if l.fab then peer else 0)
    let t := s.defaultTable l peer
    let s1 := ((s.setReg (lkIdx l 0) (lkInst l 0) stat).clearOut l).modLink l fun x =>
      { x with
        outDir := DirState.zero, inDir := DirState.zero, nak := false, lastClock := [], downAt := none
        gap := trainedDelay l.fab fout fin eoff - trainedOf l.fab fout - trainedOf l.fab fin
        windows := (List.range 8).map fun w => (w, s.tick) }
    (((((s1.storeTable l 0 t).storeTable l 32768 t).setMap l).tuneRings l |>.alignTick l peer).trainingOver l).wakeRetry

end State

/-- LINK_SLOT (R303, R306, R307, R373, R390). -/
def execLinkSlot (link : LinkId) (pos : Nat) (s : State) : Host.Outcome State Fault Refusal := .next (s.giveSlot link (pos % 256))
/-- DRAWER_COMMAND_EXECUTE (R372, R373, R378). -/
def execDrawerCommandExecute (link : Nat) (flit : Flit) (s : State) : Host.Outcome State Fault Refusal :=
  .next (s.drawerCommand link flit)
/-- FLIT_RECEIVE (R371, R372, R381 to R383, R427). -/
def execFlitReceive (link : LinkId) (flit : Flit) (s : State) : Host.Outcome State Fault Refusal := .next (s.receiveFlit link flit)
/-- HAND_BACK (R380, R382, R383). -/
def execHandBack (link : LinkId) (dir : Dir) (wl : Nat) (slot : Nat) (s : State) : Host.Outcome State Fault Refusal :=
  .next (s.handBackStep link dir wl slot)
/-- WAVELENGTH_TRAINED (R383). -/
def execWavelengthTrained (link : LinkId) (dir : Dir) (wl : Nat) (s : State) : Host.Outcome State Fault Refusal :=
  .next (s.trainedStep link dir wl)
/-- WAVELENGTH_REJOIN (R383, R385, R427). -/
def execWavelengthRejoin (link : LinkId) (dir : Dir) (wl : Nat) (s : State) : Host.Outcome State Fault Refusal :=
  .next (s.rejoinStep link dir wl)
/-- WLTHR_WINDOW_END (R383). -/
def execWlthrWindowEnd (link : LinkId) (wl : Nat) (s : State) : Host.Outcome State Fault Refusal := .next (s.windowEnd link wl)
/-- LINK_DOWN (R384). -/
def execLinkDown (link : LinkId) (s : State) : Host.Outcome State Fault Refusal := .next (s.downStep link)
/-- LINK_DOWN_TIMEOUT (R384). -/
def execLinkDownTimeout (link : LinkId) (s : State) : Host.Outcome State Fault Refusal := .next (s.downTimeout link)
/-- LINK_TRAIN_DONE (R374, R377, R378, R434, R435). -/
def execLinkTrainDone (link : LinkId) (fout : Nat) (fin : Nat) (eoff : Nat) (peer : Nat) (s : State) : Host.Outcome State
    Fault Refusal :=
  .next (s.trainStep link fout fin eoff peer)
/-- TTCOMMIT (R376). -/
def execTtcommit (link : LinkId) (s : State) : Host.Outcome State Fault Refusal :=
  let r := s.ttcommit link .outside
  .next (match r.2 with
    | some n => { r.1 with cmdResult := BitVec.ofNat 64 n }
    | none => r.1)
/-- TTCOMMIT_SHADOW_REQUEST (R376). -/
def execTtcommitShadowRequest (link : LinkId) (far : List (BitVec 64)) (s : State) : Host.Outcome State Fault Refusal :=
  .next (s.shadowRequest link far)
/-- TTCOMMIT_TIMEOUT (R376). -/
def execTtcommitTimeout (link : LinkId) (s : State) : Host.Outcome State Fault Refusal := .next (s.commitTimeout link)
/-- TIMETABLE_TAKE_EFFECT (R376, R379). -/
def execTimetableTakeEffect (link : LinkId) (s : State) : Host.Outcome State Fault Refusal := .next (s.takeEffect link)

end Sys2Proof.Machine
end

