-- ==== Sys2Proof/Machine/Rings.lean ====
section
/-!
DEFINITION. Ring heaters (R387 to R389, R420): writes and steps of HEAT, rotation, settling and the monitor reading. Rows
HEAT_WRITE, RINGSTEP, ROTATE, HEAT_TAKE_EFFECT, ROTATE_TAKE_EFFECT, SETTLE_END and MON_UPDATE.
-/
namespace Sys2Proof.Machine

/-- A ring with no change on its way. -/
def RingState.zero : RingState := ⟨none, 0, none, 0, []⟩
/-- Heater codes by which a resonance moves for one kelvin of the die (R387). -/
def codesPerKelvin : Nat := 80
/-- Heater codes of one channel spacing (R387). -/
def channelCodes : Nat := 1200
/-- Heater codes of the free spectral range: 8 spacings (R387). -/
def rangeCodes : Nat := 9600
/-- The highest heater code (R387). -/
def heatMax : Nat := 4095
/-- The code that keeps a ring on its wavelength once its die has warmed by some kelvins, and takes it n spacings further (R387). -/
def codeFor (h warmer n : Int) : Int := h - codesPerKelvin * warmer + channelCodes * n
/-- What a ring whose resonance moves to spacing k reaches with its next order, at the same code (R387): k + 1 comes with k - 7. -/
def nextOrder (k : Int) : Int := k - rangeCodes / channelCodes
/-- Key of a ring. -/
def ringKey (r : RingId) : Nat := State.linkKey r.link * 16 + r.ring % 16
/-- The ring under a key. -/
def ringOf (k : Nat) : RingId := ⟨State.linkOf (k / 16), k % 16⟩
/-- A ring's register instance (R388). -/
def ringInst (r : RingId) : Nat := lkInst r.link (r.ring % 16)
/-- An operand of RINGSTEP has no bit outside [12:0] (R388). -/
def stepOk (op : DWord) : Bool := decide (op.toNat < 8192)
/-- An operand of ROTATE has no bit outside [0] (R388). -/
def rotateOk (op : DWord) : Bool := decide (op.toNat < 2)
/-- The signed step of a RINGSTEP operand (R388). -/
def stepOf (op : DWord) : Int := (op.setWidth 13).toInt
/-- Rings of a direction: 0 to 7 transmit, 8 to 15 receive (R387). -/
def dirRings (l : LinkId) (d : Dir) : List RingId := (List.range 8).map fun i => ⟨l, if d = .outbound then i else 8 + i⟩

namespace State

/-- A ring's state. -/
def ring (s : State) (r : RingId) : RingState := lookupD RingState.zero s.rings (ringKey r)
/-- A ring's state changed. -/
def modRing (s : State) (r : RingId) (f : RingState → RingState) : State :=
  { s with rings := putD RingState.zero s.rings (ringKey r) (f (s.ring r)) }
/-- A field of RING. -/
def ringFld (s : State) (r : RingId) (hi lo : Nat) : Nat := s.fld (lkIdx r.link 0x30) (ringInst r) hi lo
/-- A field of RING set. -/
def setRing (s : State) (r : RingId) (hi lo v : Nat) : State := s.setFld (lkIdx r.link 0x30) (ringInst r) hi lo v
/-- HEAT of a ring. -/
def heat (s : State) (r : RingId) : Nat := s.ringFld r 11 0

/-- The code in force: that before a change which has still to take effect (R388, R389). -/
def heatInForce (s : State) (r : RingId) : Nat := if (s.ring r).effect.isSome then (s.ring r).old else s.heat r
/-- The core cycle at which the next frame begins (R12, R370). -/
def nextFrame (s : State) : Nat := s.clk + 384 - s.frameClk
/-- Core cycles of the 32 frames for which a ring settles (R388). -/
def settleTime : Nat := 32 * 384
/-- A new HEAT: it takes effect at the next frame boundary, and SETTLE stands until 32 frames after it (R388, R420). A value
that changes nothing starts nothing. -/
def changeHeat (s : State) (r : RingId) (v : Nat) : State :=
  if v = s.heat r then s
  else ((s.setRing r 11 0 v).setRing r 61 61 1).modRing r fun x =>
    { x with effect := some s.nextFrame, old := s.heatInForce r, settleEnd := some (s.nextFrame + settleTime) }
/-- A write of RING: SATHI and SATLO are cleared by ones, and HEAT takes the value (R13, R388). -/
def writeRing (s : State) (r : RingId) (v : DWord) : State :=
  let s1 := if v.getLsbD 63 then s.setRing r 63 63 0 else s
  let s2 := if v.getLsbD 62 then s1.setRing r 62 62 0 else s1
  s2.changeHeat r (bits v 11 0)
/-- RINGSTEP: HEAT moves by the step, clamped to 0 and 4,095; the result of R388. -/
def ringStep (s : State) (r : RingId) (op : DWord) : State × DWord :=
  let sum : Int := s.heat r + stepOf op
  let v := (min 4095 (max 0 sum)).toNat
  let s1 := if sum < 0 then s.setRing r 62 62 1 else if 4095 < sum then s.setRing r 63 63 1 else s
  (s1.changeHeat r v, BitVec.ofNat 64 (v + (if sum < 0 then 8192 else 0) + (if 4095 < sum then 16384 else 0)))

/-! ### Rotation -/

/-- A retrain of the link is in progress (R383, R389). -/
def retraining (s : State) (l : LinkId) : Bool := (s.link l).outDir.wlOut.isSome || (s.link l).inDir.wlOut.isSome
/-- The first maintenance slot at or behind a slot number (R389). -/
def nextMaintenance (s : State) (l : LinkId) (n : Nat) : Nat :=
  ((List.range 512).map (n + ·)).find? (fun k => s.ttKind l (k % 256) == 2) |>.getD n
/-- ROTATE: refused at once with 1, or set for its maintenance slot: the first at least one frame ahead for the transmit rings, which a
control flit names (log 90), the next one for the receive rings (R389). -/
def rotateStep (s : State) (l : LinkId) (op : DWord) (who : Asker) : State × Option Nat :=
  if !s.linkUp l || s.retraining l then (s, some 1)
  else
    let d : Dir := if op.getLsbD 0 then .inbound else .outbound
    let slot := s.nextMaintenance l (s.slotNow + if op.getLsbD 0 then 1 else 256)
    let s1 := s.modLink l fun x => { x with rotate := x.rotate ++ [(d, slot, who)] }
    (if d = .outbound then s1.sendControl l 9 (toBytes 7 0 ++ toBytes 8 slot) else s1, none)
/-- A rotation's slot has come. -/
def rotateDue (s : State) (l : LinkId) (d : Dir) : Option (Dir × Nat × Asker) :=
  (s.link l).rotate.find? fun e => e.1 == d && decide (e.2.1 ≤ s.slotNow)
/-- A ring rotated to the next longer wavelength: one spacing up, settling from this slot, or for as long as a change that has still to
take effect asks (R389, R420; log 89). What its photodiode reads from then on is open (log 1). -/
def rotateRing (s : State) (r : RingId) : State :=
  let s1 := ((s.setRing r 11 0 (min heatMax (s.heat r + channelCodes))).setRing r 58 56 ((s.ringFld r 58 56 + 1) % 8)).setRing r 61 61 1
  s1.drawFree.modRing r fun x =>
    { x with old := x.old + channelCodes, settleEnd := some (max (x.settleEnd.getD 0) (s.clk + settleTime)), level := s.freeWord.toNat % 1024 }
/-- The deserializer lanes after one end's rings have rotated: by a turn of the receive rings here a lane gets the wavelength of the next
stripe, by one of the far end's transmit rings that of the stripe before (R389). -/
def turnLanes (s : State) (l : LinkId) (d : Dir) : State :=
  s.modLink l fun x => { x with lanes := x.lanes.map fun w => (w + if d = .inbound then 1 else 7) % 8 }
/-- ROTATE_TAKE_EFFECT: the rings of the direction rotate, and with receive rings the lanes here; or the command answers 1 where a ring
would pass 4,095 from the code in force (R389). -/
def rotateEffect (s : State) (l : LinkId) (d : Dir) : State :=
  match s.rotateDue l d with
  | none => s
  | some e =>
    let s1 := s.modLink l fun x => { x with rotate := x.rotate.erase e }
    if (dirRings l d).any fun r => decide (heatMax < s.heatInForce r + channelCodes) then s1.answerBind e.2.2 1
    else
      let s2 := (dirRings l d).foldl rotateRing s1
      (if d = .inbound then s2.turnLanes l .inbound else s2).answerBind e.2.2 0
/-- The slot has come at which the far end's transmit rings rotate (R389). -/
def farTurnDue (s : State) (l : LinkId) : Option Nat := (s.link l).farTurns.find? fun n => decide (n ≤ s.slotNow)
/-- The lanes here follow the far end's transmit rings (R389). -/
def farTurn (s : State) (l : LinkId) (n : Nat) : State :=
  (s.modLink l fun x => { x with farTurns := x.farTurns.erase n }).turnLanes l .outbound

/-! ### Settling and monitoring -/

/-- A heater change takes effect. -/
def heatDue (s : State) (r : RingId) : Bool :=
  match (s.ring r).effect with
  | some t => decide (t ≤ s.clk)
  | none => false
/-- HEAT_TAKE_EFFECT: what the photodiode reads from then on is open (R388; log 1). -/
def heatEffect (s : State) (r : RingId) : State :=
  if s.heatDue r then s.drawFree.modRing r fun x => { x with effect := none, level := s.freeWord.toNat % 1024 } else s
/-- A ring has settled. -/
def settleDue (s : State) (r : RingId) : Bool :=
  match (s.ring r).settleEnd with
  | some n => decide (n ≤ s.clk)
  | none => false
/-- SETTLE_END: SETTLE falls (R388, R420). -/
def settleStep (s : State) (r : RingId) : State :=
  if s.settleDue r then (s.setRing r 61 61 0).modRing r fun x => { x with settleEnd := none } else s
/-- MON_UPDATE: what the photodiode reads at present. Each frame that ends with SETTLE at 0 counts it once (R388, R420). -/
def monStep (s : State) (r : RingId) (reading : Nat) : State := s.modRing r fun x => { x with level := reading % 1024 }

end State

/-- HEAT_WRITE (R388, R420). -/
def execHeatWrite (ring : RingId) (v : BitVec 64) (s : State) : Host.Outcome State Fault Refusal := .next (s.writeRing ring v)
/-- RINGSTEP; an operand with other bits is refused (R388). -/
def execRingstep (ring : RingId) (op : BitVec 64) (s : State) : Host.Outcome State Fault Refusal :=
  .next (s.answer (if stepOk op then some (s.ringStep ring op) else none))
/-- ROTATE; an operand with other bits is refused (R388, R389). -/
def execRotate (link : LinkId) (op : BitVec 64) (s : State) : Host.Outcome State Fault Refusal :=
  if rotateOk op then
    let r := s.rotateStep link op .outside
    .next (match r.2 with
      | some n => { r.1 with cmdResult := BitVec.ofNat 64 n }
      | none => r.1)
  else .next (s.answer none)
/-- HEAT_TAKE_EFFECT (R388). -/
def execHeatTakeEffect (ring : RingId) (s : State) : Host.Outcome State Fault Refusal := .next (s.heatEffect ring)
/-- ROTATE_TAKE_EFFECT (R389, R420, R423). -/
def execRotateTakeEffect (link : LinkId) (dir : Dir) (s : State) : Host.Outcome State Fault Refusal :=
  .next (s.rotateEffect link dir)
/-- SETTLE_END (R388, R420). -/
def execSettleEnd (ring : RingId) (s : State) : Host.Outcome State Fault Refusal := .next (s.settleStep ring)
/-- MON_UPDATE (R388, R420). -/
def execMonUpdate (ring : RingId) (reading : Nat) (s : State) : Host.Outcome State Fault Refusal :=
  .next (s.monStep ring reading)

end Sys2Proof.Machine
end

