-- ==== Sys2Proof/Machine/SysTable.lean ====
section
/-!
DEFINITION. The map of the system registers (R279, R280): for each assigned index the fields by type (R13), whether the
map gives it a command, and which instances exist. Fabric-link registers stand 0x1000 above those of memory links (R386).
-/
namespace Sys2Proof.Machine

/-- A register of the map: masks of its fields by type (R13), and whether it is a command only. -/
structure RegInfo where
  rw  : Nat
  ro  : Nat
  w1c : Nat
  rc  : Nat
  wo  : Nat
  cmd : Bool
  deriving DecidableEq, Repr

/-- The map of assigned indices below 0x4000 (R286, R290, R292, R393, R398, R401). PCFG [56:52] is reserved, whatever R409 leaves there (log
99). -/
def regInfoLow : Nat → Option RegInfo
  | 0x0000 => some ⟨0, 0xFF, 0, 0, 0, false⟩ -- SCAUSE
  | 0x0001 => some ⟨0xFFFFFFFFFFFFFFFF, 0, 0, 0, 0, false⟩ -- SEPC
  | 0x0002 => some ⟨0, 0xFFFFFFFFFFFFFFFF, 0, 0, 0, false⟩ -- SVAL
  | 0x0003 => some ⟨0, 0xFFFFFFFF, 0, 0, 0, false⟩ -- SAUX
  | 0x0004 => some ⟨0, 0x1, 0, 0, 0, false⟩ -- SSTAT
  | 0x0005 => some ⟨0xFFFFFFFFFFFFFFFF, 0, 0, 0, 0, false⟩ -- SSAVE_A
  | 0x0006 => some ⟨0xFFFFFFFFFFFFFFFF, 0, 0, 0, 0, false⟩ -- SSAVE_B
  | 0x1000 => some ⟨0x7FFFFFFFFF0FFFFF, 0, 0, 0, 0, false⟩ -- CTXCFG
  | 0x1001 => some ⟨0x3FFFFFFFF000, 0, 0, 0, 0, false⟩ -- CTXPT
  | 0x1002 => some ⟨0xFFFFFFFFFFFFFFFF, 0, 0, 0, 0, false⟩ -- CTXVEC
  | 0x1003 => some ⟨0, 0xE0FF00000000FFFF, 0, 0, 0, false⟩ -- CTXSTAT
  | 0x1004 => some ⟨0, 0, 0, 0, 0, true⟩ -- CTXCMD
  | 0x1005 => some ⟨0, 0x5, 0x1A, 0, 0, false⟩ -- CTXEV
  | 0x1006 => some ⟨0xFFFFFFFFFFFFFFFF, 0, 0, 0, 0, false⟩ -- CTXEVT
  | 0x2000 => some ⟨0x8000FFFFF000FFFF, 0, 0, 0, 0, false⟩ -- FQCFG
  | 0x2001 => some ⟨0x1FFFFFFFFFFFFFF, 0, 0, 0, 0, false⟩ -- FQBASE
  | 0x2002 => some ⟨0xFFFFFFFF, 0, 0, 0, 0, false⟩ -- FQHEAD
  | 0x2003 => some ⟨0, 0xFFFFFFFF, 0, 0, 0, false⟩ -- FQTAIL
  | 0x2004 => some ⟨0, 0x5, 0x2, 0, 0, false⟩ -- FQSTAT
  | 0x3000 => some ⟨0xFE0FFFFFFFFFFFFF, 0, 0, 0, 0, false⟩ -- PCFG
  | 0x3001 => some ⟨0xFFFFFFFFFFFFFFFF, 0, 0, 0, 0, false⟩ -- PCLUS
  | 0x3002 => some ⟨0xFFFFFFFFFFFFFFFF, 0, 0, 0, 0, false⟩ -- PLINK
  | 0x3003 => some ⟨0xFFFFFFFFFFFFFFFF, 0, 0, 0, 0, false⟩ -- PQUEUE
  | 0x3004 => some ⟨0xFFFFFFFFFFFFFFFF, 0, 0, 0, 0, false⟩ -- PFQ
  | 0x3005 => some ⟨0xFFFFFFFFFFFFFFFF, 0, 0, 0, 0, false⟩ -- PSG
  | 0x3006 => some ⟨0xFFFFFFFFFFFFFFFF, 0, 0, 0, 0, false⟩ -- PRING
  | 0x3007 => some ⟨0xFFF00000FFF, 0, 0, 0, 0, false⟩ -- PMEM
  | 0x3008 => some ⟨0x7FF000003FF, 0, 0, 0, 0, false⟩ -- PDSP
  | 0x3009 => some ⟨0x1FFFFF001FFFFF, 0, 0, 0, 0, false⟩ -- PSHARE
  | 0x300A => some ⟨0x1FFFF0000FFFF, 0, 0, 0, 0, false⟩ -- PCTX
  | 0x3010 => some ⟨0xFFF00000FFF, 0, 0, 0, 0, false⟩ -- SHRANGE
  | 0x3020 => some ⟨0x8000FFFF000FFFFF, 0, 0, 0, 0, false⟩ -- STAB
  | 0x3021 => some ⟨0, 0x8700FFFFFFFFFFFF, 0, 0, 0, false⟩ -- SLSTAT
  | 0x3030 => some ⟨0, 0xF000000000000FFF, 0, 0, 0, false⟩ -- WIPESTAT
  | _ => none
/-- The map of indices 0x4000 to 0x7FFF (R312 to R315, R323, R332, R333, R339, R353, R369). -/
def regInfoMid : Nat → Option RegInfo
  | 0x4000 => some ⟨0xFC0FE0FFFFFFFFFF, 0, 0, 0, 0, false⟩ -- SGCFG
  | 0x4001 => some ⟨0x3FF000003FF, 0, 0, 0, 0, false⟩ -- SGDSP
  | 0x4002 => some ⟨0xC000FFFFFFFFFFFF, 0, 0, 0, 0, false⟩ -- SGIG
  | 0x4003 => some ⟨0xC000FFFFFFFFFFFF, 0, 0, 0, 0, false⟩ -- SGMX
  | 0x4004 => some ⟨0xC000FFFFFFFFFFFF, 0, 0, 0, 0, false⟩ -- SGCP
  | 0x4008 => some ⟨0, 0xFFFFFFFFFFFF, 0, 0, 0, false⟩ -- SRVDL
  | 0x4009 => some ⟨0, 0xC000000001FFFFFF, 0, 0, 0, false⟩ -- SRVQ
  | 0x400A => some ⟨0, 0x1FFFFF, 0, 0, 0, false⟩ -- TSUM
  | 0x4100 => some ⟨0xFFC0FFFFFFFFFFFF, 0, 0, 0, 0, false⟩ -- LSRV
  | 0x4200 => some ⟨0, 0, 0, 0, 0, true⟩ -- RBIND
  | 0x4201 => some ⟨0, 0, 0, 0, 0, true⟩ -- RUNBIND
  | 0x5000 => some ⟨0x800FFFFF000FFFFF, 0, 0, 0, 0, false⟩ -- PECFG
  | 0x5001 => some ⟨0x3FFFFFFFF000, 0, 0, 0, 0, false⟩ -- SAGBASE
  | 0x5002 => some ⟨0xFFFFFFFF, 0, 0, 0, 0, false⟩ -- SAGLEN
  | 0x5003 => some ⟨0, 0xFFFFFFFF, 0, 0, 0, false⟩ -- SAGNEED
  | 0x5004 => some ⟨0, 0xF000FFFFFFFFFFFF, 0, 0, 0, false⟩ -- PESTAT
  | 0x5100 => some ⟨0xE000FFFFFF000000, 0, 0, 0, 0, false⟩ -- LQCFG
  | 0x5101 => some ⟨0x1FFFFFFFFFFFFFF, 0, 0, 0, 0, false⟩ -- LQBASE
  | 0x5102 => some ⟨0, 0xFFFFFFFF, 0, 0, 0, false⟩ -- LQHEAD
  | 0x5103 => some ⟨0xFFFFFFFF, 0, 0, 0, 0, false⟩ -- LQTAIL
  | 0x5104 => some ⟨0, 0x3, 0x4, 0, 0, false⟩ -- LQSTAT
  | 0x5200 => some ⟨0x800000000000FFFF, 0, 0, 0, 0, false⟩ -- RLCFG
  | 0x5201 => some ⟨0x80FFFFFFFFFFFFFF, 0, 0, 0, 0, false⟩ -- RLENT
  | 0x5202 => some ⟨0xFFFFFFFFFFFFFFFF, 0, 0, 0, 0, false⟩ -- RLPC
  | 0x5203 => some ⟨0, 0, 0, 0, 0xFFFFFFFFFFFFFFFF, false⟩ -- RLKEY
  | 0x5204 => some ⟨0xFFFFFFFFFFFFFFFF, 0, 0, 0, 0, false⟩ -- RLSEQ
  | 0x5205 => some ⟨0, 0, 0, 0xFFFFFFFF, 0, false⟩ -- RLDROP
  | 0x5300 => some ⟨0x800000000000007F, 0, 0, 0, 0, false⟩ -- XDEST
  | 0x5301 => some ⟨0xFFFFFFFFFFFFFFFF, 0, 0, 0, 0, false⟩ -- XTICKET0
  | 0x5302 => some ⟨0xFFFFFFFFFFFFFFFF, 0, 0, 0, 0, false⟩ -- XTICKET1
  | 0x6000 => some ⟨0x3FFFFFFFF000, 0, 0, 0, 0, false⟩ -- ASROOT
  | 0x6001 => some ⟨0x3FFFFFFFF7FF, 0, 0, 0, 0, false⟩ -- CTXRM
  | 0x6002 => some ⟨0, 0, 0, 0, 0, true⟩ -- RMSYNC
  | 0x6003 => some ⟨0x7FFF, 0, 0, 0, 0, false⟩ -- TCQUOTA
  | 0x6004 => some ⟨0, 0, 0, 0, 0, true⟩ -- TRREPLAY
  | 0x6005 => some ⟨0, 0, 0, 0, 0, true⟩ -- FRZERO
  | 0x6006 => some ⟨0x3FFFFFFFF000, 0, 0, 0, 0, false⟩ -- FTBASE
  | 0x7000 => some ⟨0, 0, 0, 0xFFFFFFFFFFFFFFFF, 0, false⟩ -- ECNT
  | 0x7001 => some ⟨0, 0x7FFFFFFFFFFFFFFF, 0x8000000000000000, 0, 0, false⟩ -- ELAST
  | 0x7002 => some ⟨0, 0x80003FFFFFFFF001, 0, 0, 0, false⟩ -- RETLIST
  | 0x7003 => some ⟨0, 0, 0, 0, 0, true⟩ -- RETIRE
  | 0x7004 => some ⟨0xFFFF, 0, 0, 0, 0, false⟩ -- CECFG
  | 0x7005 => some ⟨0, 0xF0000000FFFFFFFF, 0, 0, 0, false⟩ -- REFSTAT
  | 0x7006 => some ⟨0, 0xFFFFF, 0, 0, 0, false⟩ -- WDSTAT
  | 0x7007 => some ⟨0, 0, 0, 0, 0, true⟩ -- ERRINJ
  | _ => none
/-- The map of indices from 0x8000 (R386, R388, R390, R392, R404, R434). -/
def regInfoHigh : Nat → Option RegInfo
  | 0x8000 => some ⟨0, 0xF00003FF7FFF0000, 0, 0, 0, false⟩ -- LKSTAT
  | 0x8010 => some ⟨0xE00000000000001F, 0, 0, 0, 0, false⟩ -- TTAB
  | 0x8011 => some ⟨0, 0, 0, 0, 0, true⟩ -- TTCOMMIT
  | 0x8012 => some ⟨0, 0xFFFFFFFFFFFFFFFF, 0, 0, 0, false⟩ -- DMAP
  | 0x8013 => some ⟨0, 0xFFFF00FF0F01, 0, 0, 0, false⟩ -- LATTAB
  | 0x8020 => some ⟨0, 0xC0000000FFFFFFFF, 0, 0xFFFF00000000, 0, false⟩ -- WLST
  | 0x8021 => some ⟨0xF0000000FFFFFFFF, 0, 0, 0, 0, false⟩ -- WLTHR
  | 0x8022 => some ⟨0, 0, 0, 0xFFFFFFFFFFFFFFFF, 0, false⟩ -- WLCNT
  | 0x8030 => some ⟨0xFFF, 0x2700000003FF0000, 0xC000000000000000, 0, 0, false⟩ -- RING
  | 0x8031 => some ⟨0, 0, 0, 0, 0, true⟩ -- RINGSTEP
  | 0x8032 => some ⟨0, 0, 0, 0, 0, true⟩ -- ROTATE
  | 0x9000 => some ⟨0, 0xF00003FF7FFF0000, 0, 0, 0, false⟩ -- LKSTAT
  | 0x9010 => some ⟨0xE00000000000001F, 0, 0, 0, 0, false⟩ -- TTAB
  | 0x9011 => some ⟨0, 0, 0, 0, 0, true⟩ -- TTCOMMIT
  | 0x9012 => some ⟨0, 0xFFFFFFFFFFFFFFFF, 0, 0, 0, false⟩ -- DMAP
  | 0x9013 => some ⟨0, 0xFFFF00FF0F01, 0, 0, 0, false⟩ -- LATTAB
  | 0x9020 => some ⟨0, 0xC0000000FFFFFFFF, 0, 0xFFFF00000000, 0, false⟩ -- WLST
  | 0x9021 => some ⟨0xF0000000FFFFFFFF, 0, 0, 0, 0, false⟩ -- WLTHR
  | 0x9022 => some ⟨0, 0, 0, 0xFFFFFFFFFFFFFFFF, 0, false⟩ -- WLCNT
  | 0x9030 => some ⟨0xFFF, 0x2700000003FF0000, 0xC000000000000000, 0, 0, false⟩ -- RING
  | 0x9031 => some ⟨0, 0, 0, 0, 0, true⟩ -- RINGSTEP
  | 0x9032 => some ⟨0, 0, 0, 0, 0, true⟩ -- ROTATE
  | 0x9100 => some ⟨0xFFFFFFFFFFFFFFFF, 0, 0, 0, 0, false⟩ -- FGMAP
  | 0x9101 => some ⟨0x8000000000000007, 0, 0, 0, 0, false⟩ -- FXGSEL
  | 0x9200 => some ⟨0xC000FFFFFFF00FFF, 0, 0, 0, 0, false⟩ -- ERCFG
  | 0x9201 => some ⟨0x1FFFFFFFFFFFFFF, 0, 0, 0, 0, false⟩ -- ERBASE
  | 0x9202 => some ⟨0xFFFFFFFF00000000, 0xFFFFFFFF, 0, 0, 0, false⟩ -- ERPTR
  | 0x9203 => some ⟨0, 0, 0, 0xFFFFFFFFFFFFFFFF, 0, false⟩ -- EDROP
  | 0xA000 => some ⟨0, 0xFFFF000000000000, 0, 0, 0, false⟩ -- BOOTSTAT
  | 0xA001 => some ⟨0, 0x3, 0, 0, 0, false⟩ -- LCSTATE
  | 0xA002 => some ⟨0, 0, 0, 0, 0, true⟩ -- LCADV
  | 0xA003 => some ⟨0, 0x3F, 0, 0, 0, false⟩ -- RBCNT
  | 0xA004 => some ⟨0, 0, 0, 0, 0, true⟩ -- RBADV
  | 0xA010 => some ⟨0, 0xFFFFFFFFFFFFFFFF, 0, 0, 0, false⟩ -- MEAS
  | 0xA011 => some ⟨0, 0, 0, 0, 0, true⟩ -- MREXT
  | 0xB000 => some ⟨0, 0xFFFFFFFFFFFFFFFF, 0, 0, 0, false⟩ -- DEVID
  | 0xB001 => some ⟨0x7F, 0, 0, 0, 0, false⟩ -- PKGID
  | 0xB002 => some ⟨0, 0xFFFFFFFFFFFF, 0, 0, 0, false⟩ -- TBASE
  | 0xB003 => some ⟨0, 0, 0, 0, 0, true⟩ -- TBSET
  | 0xB004 => some ⟨0, 0xFFF, 0x8000000000000000, 0, 0, false⟩ -- TEMP
  | 0xB005 => some ⟨0, 0xFFFFFFFF, 0, 0, 0, false⟩ -- PWR
  | 0xB006 => some ⟨0xFFF0FFF, 0, 0, 0, 0, false⟩ -- THCFG
  | _ => none
/-- The register at an index (R280). -/
def regInfo (idx : Nat) : Option RegInfo :=
  if idx < 0x4000 then regInfoLow idx else if idx < 0x8000 then regInfoMid idx else regInfoHigh idx

/-- Indices whose map defines a command (R295). -/
def hasCommand (idx : Nat) : Bool :=
  match regInfo idx with
  | some r => r.cmd || decide (0x4002 ≤ idx ∧ idx ≤ 0x4004) || idx == 0x4100
  | none => false
/-- Indices that SYSW may not name: commands, templates and link-server entries (R291, R313). -/
def noWrite (idx : Nat) : Bool := hasCommand idx

/-- Uses of instance bits [7:0] of a link register (R386, R388). -/
def linkLow (idx low : Nat) : Bool :=
  match idx % 0x1000 with
  | 0x010 | 0x013 => true
  | 0x012 => decide (low < 4)
  | 0x020 | 0x022 => decide (low < 8)
  | 0x030 | 0x031 => decide (low < 16)
  | _ => low == 0
/-- Instances of a link register (R386, R388). -/
def linkInst (idx inst : Nat) : Bool :=
  decide (nb inst 14 8 < if 0x9000 ≤ idx then 16 else 96) && inst / 65536 == 0 &&
  (!inst.testBit 15 || idx % 0x1000 == 0x010) && linkLow idx (inst % 256)
/-- Instances of SRVDL, SRVQ and TSUM (R300, R314). -/
def srvInst (idx inst : Nat) : Bool :=
  let cls := nb inst 31 29
  let eng := nb inst 28 8
  decide (cls < 5) && decide (eng < match cls with
    | 0 => 2304
    | 1 | 2 => 576
    | 3 => 96
    | _ => 16) && (idx == 0x400A || decide (cls < 3) || decide (inst % 256 < 32))
/-- Whether an instance of a register exists (check 2 of R281). -/
def instOk (idx inst : Nat) : Bool :=
  if idx < 0x1000 then true
  else if idx < 0x2000 then decide (inst < 65536)
  else if idx < 0x3000 then decide (inst < 64)
  else if 0x8000 ≤ idx && idx < 0x9100 then linkInst idx inst
  else match idx with
    | 0x3000 | 0x3001 | 0x3003 | 0x3004 | 0x3007 | 0x3008 | 0x3009 | 0x300A | 0x3021 | 0x6003 => decide (inst < 17)
    | 0x3002 => decide (inst < 68) && decide (inst % 4 < 2)
    | 0x3005 | 0x3006 => decide (inst < 68)
    | 0x3020 => decide (inst < 136)
    | 0x4000 | 0x4001 | 0x4002 | 0x4003 | 0x4004 | 0x4200 | 0x4201 | 0x5201 | 0x5204 | 0x9101 => decide (inst < 256)
    | 0x4008 | 0x4009 | 0x400A => srvInst idx inst
    | 0x4100 => decide (nb inst 14 8 < if inst.testBit 31 then 16 else 96) && nb inst 30 15 == 0 && nb inst 7 5 == 0
    | 0x5000 | 0x5001 | 0x5002 | 0x5003 | 0x5004 | 0x5300 | 0x5301 | 0x5302 | 0x6000 | 0x6001 | 0x6002 | 0x7006 =>
      decide (inst < 65536)
    | 0x5100 | 0x5101 | 0x5102 | 0x5103 | 0x5104 | 0x6004 | 0x7000 | 0x7001 | 0xA010 => decide (inst < 64)
    | 0x5200 | 0x9203 | 0xB004 => decide (inst < 4)
    | 0x5202 => decide (inst < 512)
    | 0x5203 | 0x7002 => decide (inst < 1024)
    | 0x5205 => decide (1 ≤ inst) && decide (inst ≤ 6)
    | 0x7005 => decide (inst < 96)
    | 0x9100 | 0xA011 => decide (inst < 16)
    | 0x9200 | 0x9201 | 0x9202 => decide (inst < 256)
    | 0xB005 => inst == 16 || (decide (inst < 16) && decide (inst % 4 < 3))
    | _ => inst == 0

end Sys2Proof.Machine
end

