-- ==== Sys2Proof/Machine/SysRead.lean ====
section
/-!
DEFINITION. Reading system registers (R279, R281, R295): who accesses (R277, R282, R285), and the value a read returns, with
the fields that the device computes.
-/
namespace Sys2Proof.Machine

/-- Who makes an access: its level, partition, and the thread, or none for a window of a PCIe function (R277, R282, R285). -/
structure Who where
  level : Nat
  part  : Nat
  th    : Option Nat
  deriving DecidableEq, Repr

/-- q of a server as 25 bits (R314). -/
def q25 (q : Int) : Nat := (q % 33554432).toNat

namespace State

/-- The thread as it accesses system registers (R277). -/
def whoIs (s : State) (k : Nat) : Who :=
  let ctx := (s.thread k).ctx
  ⟨s.priv ctx, s.partOf ctx, some k⟩
/-- A device supervisor outside the package (R285). -/
def deviceWho : Who := ⟨2, 0, none⟩

/-- A register of region 0 of a thread (R286). -/
def supReg (th : Thread) (idx : Nat) : DWord :=
  match idx with
  | 0 => th.sup.trap.cause.setWidth 64
  | 1 => th.sup.trap.tpc
  | 2 => th.sup.trap.val
  | 3 => th.sup.trap.aux.setWidth 64
  | 4 => if th.sup.inTrap then 1 else 0
  | 5 => th.sup.saveA
  | _ => th.sup.saveB
/-- The server an instance of SRVDL, SRVQ or TSUM names (R314). -/
def srvOfInst (inst : Nat) : SrvKey := srvKeyOf inst
/-- TSUM: the sum of the servers installed on an engine (R310, R314). -/
def engineSum (s : State) (k : SrvKey) : Nat :=
  let n := match k.cls with
    | .mc => s.linkSum false k.eng fun _ _ => true
    | .fx => s.linkSum true k.eng fun _ _ => true
    | c => (((List.range 256).filter fun g => s.srvInstalled ⟨c, k.eng, g⟩).map fun g =>
        valueUtil c (s.reg (templateIdx c) g)).sum
  min n 2097151
/-- SRVDL and SRVQ of a server (R314). -/
def srvDl (s : State) (k : SrvKey) : DWord := if s.srvInstalled k then BitVec.ofNat 64 (s.srv k).d else 0
def srvQr (s : State) (k : SrvKey) : DWord :=
  if s.srvInstalled k then
    let x := s.srv k
    setBits (setBits (setBits 0 63 63 x.pend.toNat) 62 62 x.held.toNat) 24 0 (q25 x.q)
  else 0
/-- LSRV as a supervisor reads it: of another partition's entry only EN (R313). -/
def lsrvSeen (s : State) (w : Who) (inst : Nat) : DWord :=
  let v := s.reg 0x4100 inst
  if w.level = 1 && v.getLsbD 63 && !s.partSg w.part (bits v 61 54) then setBits 0 63 63 1 else v
/-- LQSTAT.WAITING: the head packet has been read and waits on a condition (R323, R327). -/
def lqWaiting (s : State) (hq : Nat) : Bool :=
  match lookup s.heads hq with
  | none => false
  | some b =>
    let ctx := s.fld 0x5100 hq 47 32
    let p := parsePacket b
    let met (a v : DWord) : Bool := match s.waitMet hq ctx a v with
      | .ok (_, m) => m
      | .error _ => false
    s.packetOk ctx b && !(met p.w0a p.w0v && met p.w1a p.w1v)

/-- The register of a ring whose photodiode nothing has read: from the 16th frame on its MON is open (R388, R420; log 1). -/
def ringUnread (s : State) (fab : Bool) (inst : Nat) : Bool :=
  (lookup s.rings (ringKey ⟨⟨fab, nb inst 14 8⟩, inst⟩)).isNone && decide (6144 ≤ s.clk)
/-- A read draws an open value: PWR once its 1,000 µs have passed, and MON of a ring that nothing has read (R388, R434; log 1). -/
def readsOpen (s : State) (idx inst : Nat) : Bool :=
  match idx with
  | 0xB005 => decide (3000000 ≤ s.clk)
  | 0x8030 => s.ringUnread false inst
  | 0x9030 => s.ringUnread true inst
  | _ => false
/-- The value a read returns, with the fields the device computes (R290, R292, R314, R323, R333, R369, R386, R434). -/
def sysValue (s : State) (w : Who) (idx inst : Nat) : DWord :=
  let v := s.reg idx inst
  match idx with
  | 0x1003 => setBits v 15 0 ((s.groups.filter fun g => g.2.ctx == inst).length)
  | 0x1005 => (s.events inst).setWidth 64
  | 0x2004 => setBits v 0 0 (decide (s.fqCount inst = s.fqSize inst)).toNat
  | 0x4008 => s.srvDl (srvOfInst inst)
  | 0x4009 => s.srvQr (srvOfInst inst)
  | 0x400A => BitVec.ofNat 64 (s.engineSum (srvOfInst inst))
  | 0x4100 => s.lsrvSeen w inst
  | 0x5003 => BitVec.ofNat 64 (s.sagNeed inst % 4294967296)
  | 0x5104 => setBits (setBits v 1 1 (s.lqWaiting inst).toNat) 0 0 (decide (s.lqCount inst = s.lqSize inst)).toNat
  | 0x5203 => 0
  | 0x7006 => BitVec.ofNat 64 (s.watchMs inst % 1048576)
  | 0x8013 => s.lattab ⟨false, nb inst 14 8⟩ (inst % 256)
  | 0x9013 => s.lattab ⟨true, nb inst 14 8⟩ (inst % 256)
  | 0x8030 | 0x9030 => if s.readsOpen idx inst then setBits v 25 16 (s.freeWord.toNat % 1024) else v
  | 0xB002 => BitVec.ofNat 64 s.tick
  | 0xB005 => if s.readsOpen idx inst then BitVec.ofNat 64 (s.freeWord.toNat % 4294967296) else v
  | _ => v
/-- What a read leaves behind: RC fields are cleared (R295), and an open value is drawn (log 1). -/
def sysAfterRead (s : State) (idx inst : Nat) : State :=
  match regInfo idx with
  | some r =>
    if s.readsOpen idx inst then s.drawFree
    else if r.rc = 0 then s
    else s.setReg idx inst (s.reg idx inst &&& ~~~(BitVec.ofNat 64 r.rc))
  | none => s
/-- SYSR of a register that passed its checks: the state and the value (R295). A command reads as zero. -/
def sysRead (s : State) (w : Who) (idx inst : Nat) : State × DWord :=
  if idx < 0x1000 then
    (s, match w.th with
      | some k => supReg (s.thread k) idx
      | none => 0)
  else match regInfo idx with
    | some r => if r.cmd then (s, 0) else (s.sysAfterRead idx inst, s.sysValue w idx inst)
    | none => (s, 0)

end State
end Sys2Proof.Machine
end

