-- ==== Sys2Proof/Machine/SysCheck.lean ====
section
/-!
DEFINITION. The checks of a system register access in their order (R281): the index, the instance, the reach (R282) and the
value, with the rules of each register's map (R290 to R292, R312, R313, R323, R332, R353, R369, R386, R392 to R395, R398, R404,
R434).
-/
namespace Sys2Proof.Machine

/-- A read, a write of a value, or a command with its operand (R295). -/
inductive SysOp where
  | read
  | write (v : DWord)
  | exec (v : DWord)
  deriving DecidableEq, Repr
/-- A failed check: the cause of R287 and the subcode of SYS_VAL (R281). -/
structure SysFail where
  cause : BitVec 8
  sub   : Word
  deriving DecidableEq, Repr
/-- The value of a write or the operand of a command. -/
def SysOp.val : SysOp → DWord
  | .read => 0
  | .write v => v
  | .exec v => v
/-- An access that writes or commands. -/
def SysOp.changes : SysOp → Bool
  | .read => false
  | _ => true

/-- Masks of two numbers share a bit. -/
def meetBits (a b : Nat) : Bool := a &&& b != 0
/-- Two ranges of base and size share a unit. -/
def meetRange (a b : Nat × Nat) : Bool := decide (max a.1 b.1 < min (a.1 + a.2) (b.1 + b.2))
/-- A number lies in a range of base and size. -/
def inSpan (r : Nat × Nat) (n : Nat) : Bool := decide (r.1 ≤ n) && decide (n < r.1 + r.2)
/-- An address is a multiple of a unit times 2^n. -/
def alignedTo (va unit n : Nat) : Bool := va % (unit * 2 ^ n) == 0

namespace State

/-! ### Reach (R282) -/

/-- A context in a partition supervisor's reach (R282). -/
def ctxReach (s : State) (p c : Nat) : Bool := s.partCtx p c && (s.partOf c == p || s.ctxState c == 0)
/-- A link-server command a partition supervisor may give (R313). -/
def lsrvMay (s : State) (p inst : Nat) (v : DWord) : Bool :=
  let old := s.reg 0x4100 inst
  (!old.getLsbD 63 || s.partSg p (bits old 61 54)) && (!v.getLsbD 63 || s.partSg p (bits v 61 54))
/-- What a partition supervisor reaches at indices below 0x5000 (R282, R290, R292, R313, R393, R398). -/
def reachLow (s : State) (p idx inst : Nat) (op : SysOp) : Bool :=
  let ro := !op.changes
  match idx with
  | 0x1000 => s.ctxReach p inst && (ro || (bits op.val 60 56 == p && decide (bits op.val 62 61 ≤ 1)))
  | 0x1001 | 0x1002 | 0x1003 | 0x1004 | 0x1005 | 0x1006 => s.ctxReach p inst
  | 0x2000 | 0x2001 | 0x2002 | 0x2003 | 0x2004 => s.partFq p inst
  | 0x3000 | 0x3001 | 0x3003 | 0x3004 | 0x3007 | 0x3008 | 0x3009 | 0x300A => ro && inst == p
  | 0x3002 | 0x3005 | 0x3006 => ro && inst / 4 == p
  | 0x3020 => inst / 8 == p
  | 0x3021 => inst == p
  | 0x4000 => s.partSg p inst && (ro || bits op.val 62 58 == p)
  | 0x4001 | 0x4002 | 0x4003 | 0x4004 | 0x4200 | 0x4201 => s.partSg p inst
  | 0x4008 | 0x4009 =>
    if nb inst 31 29 < 3 then s.partSg p (inst % 256) else nb inst 31 29 == 3 && s.partLink p (nb inst 28 8)
  | 0x4100 => !inst.testBit 31 && s.partLink p (nb inst 14 8) && (ro || s.lsrvMay p inst op.val)
  | _ => false
/-- What a partition supervisor reaches from 0x5000 up (R333, R323, R353, R369, R386, R388, R390, R392, R395, R434). -/
def reachHigh (s : State) (p idx inst : Nat) (op : SysOp) : Bool :=
  let ro := !op.changes
  match idx with
  | 0x5000 | 0x5003 | 0x5004 | 0x5300 | 0x5301 | 0x5302 | 0x6001 | 0x6002 | 0x7006 => s.ctxReach p inst
  | 0x5001 | 0x5002 => ro && s.ctxReach p inst
  | 0x5100 | 0x5101 | 0x5102 | 0x5103 | 0x5104 => s.partLq p inst
  | 0x6003 => ro && inst == p
  | 0x6004 => s.partFq p inst
  | 0x6005 => true
  | 0x7005 => s.partLink p inst
  | 0x8000 | 0x8012 | 0x8013 | 0x8020 | 0x8021 | 0x8022 | 0x8030 | 0x8031 | 0x8032 => s.partLink p (nb inst 14 8)
  | 0x8010 | 0x8011 => ro && s.partLink p (nb inst 14 8)
  | 0x9101 => s.partSg p inst
  | 0x9201 | 0x9202 => s.partRing p inst
  | 0xB000 | 0xB001 | 0xB002 | 0xB003 | 0xB004 | 0xB005 | 0xB006 => ro
  | _ => false
/-- Frames an FRZERO operand names are all in reach (R353, R396). -/
def frzReach (s : State) (w : Who) (v : DWord) : Bool := (frzFrames v).all (s.frameReach w.part (w.level == 2))
/-- Check 3 of R281: the instance is in reach (R282). -/
def inReach (s : State) (w : Who) (idx inst : Nat) (op : SysOp) : Bool :=
  (w.level == 2 || idx < 0x1000 || s.reachLow w.part idx inst op || s.reachHigh w.part idx inst op) &&
  match idx, op with
  | 0x6005, .exec v => s.frzReach w v
  | _, _ => true

/-! ### Values (check 4) -/

/-- Every context is FREE. -/
def allFree (s : State) : Bool := s.liveContexts.isEmpty
/-- A fault queue's value check (R292). -/
def fqCheck (s : State) (idx q : Nat) (v : DWord) : Option Nat :=
  let on := s.fld 0x2000 q 63 63 == 1
  match idx with
  | 0x2000 =>
    if on then if v.getLsbD 63 then some 2 else none
    else if !v.getLsbD 63 then none
    else if bits v 31 28 < 4 then some 1
    else if alignedTo (s.fld 0x2001 q 56 0) 64 (bits v 31 28) then none else some 3
  | 0x2001 => if on then some 2 else if alignedTo (bits v 56 0) 64 (s.fld 0x2000 q 31 28) then none else some 3
  | 0x2002 =>
    if (s.fld 0x2003 q 31 0 + 4294967296 - bits v 31 0) % 4294967296 ≤ s.fqSize q then none else some 1
  | _ => none
/-- Another enabled queue has the same owner and local number (R323). -/
def lqTwin (s : State) (q : Nat) (v : DWord) : Bool :=
  (List.range 64).any fun r => r != q && s.fld 0x5100 r 63 63 == 1 && s.fld 0x5100 r 47 32 == bits v 47 32 &&
    s.fld 0x5100 r 31 29 == bits v 31 29
/-- A launch queue's value check (R323). -/
def lqCheck (s : State) (idx q : Nat) (v : DWord) : Option Nat :=
  let on := s.fld 0x5100 q 63 63 == 1
  match idx with
  | 0x5100 =>
    if on && v.getLsbD 63 then some 2
    else if bits v 62 61 = 3 then some 1
    else if !v.getLsbD 63 then none
    else if bits v 28 24 < 1 || 15 < bits v 28 24 then some 1
    else if !alignedTo (s.fld 0x5101 q 56 0) 128 (bits v 28 24) then some 3
    else if s.lqTwin q v then some 1 else none
  | 0x5101 => if on then some 2 else if alignedTo (bits v 56 0) 128 (s.fld 0x5100 q 28 24) then none else some 3
  | 0x5103 => if s.fld 0x5100 q 62 61 = 0 then none else some 2
  | _ => none

/-- Server groups named by a context that runs, drains or saves (R312). -/
def groupBusy (s : State) (sg : Nat) : Bool :=
  s.liveContexts.any fun c => s.sgrpOf c == sg && (s.ctxState c == 2 || s.ctxState c == 3 || s.ctxState c == 4)
/-- Base and size of a group's die-scratchpad window, in units (R312). -/
def groupWindow (s : State) (sg : Nat) : Nat × Nat := (s.fld 0x4001 sg 9 0, s.fld 0x4001 sg 41 32)
/-- The other enabled server groups. -/
def otherGroups (s : State) (sg : Nat) : List Nat := (List.range 256).filter fun g => g != sg && s.sgOn g
/-- A group's window breaks R312 or R395: past the die scratchpad, outside its partition's range, or over the window of another enabled
group. -/
def windowBad (s : State) (sg : Nat) : Bool :=
  let p := s.sgPart sg
  let w := s.groupWindow sg
  decide (1024 < w.1 + w.2) ||
  (decide (w.2 ≠ 0) && (decide (w.1 < s.fld 0x3008 p 9 0) ||
    decide (s.fld 0x3008 p 9 0 + s.fld 0x3008 p 42 32 < w.1 + w.2))) ||
  (s.otherGroups sg).any fun g => decide (w.2 ≠ 0) && decide ((s.groupWindow g).2 ≠ 0) && meetRange w (s.groupWindow g)
/-- A group's ways or weight break R312 or R395. -/
def sharesBad (s : State) (sg : Nat) : Bool :=
  let p := s.sgPart sg
  let swt := s.fld 0x4000 sg 51 45
  let own := (s.otherGroups sg).filter fun g => s.sgPart g == p
  decide (16 < p) || swt == 0 || decide (64 < swt) ||
  decide (s.fld 0x4000 sg 39 32 &&& s.fld 0x3000 p 39 32 ≠ s.fld 0x4000 sg 39 32) ||
  decide (s.fld 0x4000 sg 31 0 &&& s.fld 0x3000 p 31 0 ≠ s.fld 0x4000 sg 31 0) ||
  decide (s.fld 0x3000 p 51 40 < swt + (own.map fun g => s.fld 0x4000 g 51 45).sum)
/-- A write of SGCFG or SGDSP leaves its group in breach of R312 or R395: SGCFG is held to the ways and the weight, and where it enables
the group to the window it then uses (log 93); SGDSP to the window. -/
def groupBad (s : State) (idx sg : Nat) : Bool :=
  if idx = 0x4000 then s.sharesBad sg || (s.sgOn sg && s.windowBad sg) else s.windowBad sg

/-- What a partition holds: clusters, links, queues, fault queues, server groups, rings, ways, window and contexts (R393). -/
def holdings (s : State) (p : Nat) : List Nat :=
  let word (i n : Nat) : Nat := (s.reg i n).toNat
  let wide (i : Nat) : Nat := ((List.range 4).map fun j => word i (4 * p + j) * 2 ^ (64 * j)).sum
  [word 0x3001 p, wide 0x3002, word 0x3003 p, word 0x3004 p, wide 0x3005, wide 0x3006, s.fld 0x3000 p 39 32, s.fld 0x3000 p 31 0]
/-- Memory, die-scratchpad and context ranges of a partition. -/
def partMem (s : State) (p : Nat) : Nat × Nat := (s.fld 0x3007 p 11 0, s.fld 0x3007 p 43 32)
def partDsp (s : State) (p : Nat) : Nat × Nat := (s.fld 0x3008 p 9 0, s.fld 0x3008 p 42 32)
def partCtxs (s : State) (p : Nat) : Nat × Nat := (s.fld 0x300A p 15 0, s.fld 0x300A p 48 32)
/-- Two enabled partitions hold one resource (R394). -/
def partsClash (s : State) (p q : Nat) : Bool :=
  ((s.holdings p).zip (s.holdings q)).any (fun x => meetBits x.1 x.2) || meetRange (s.partMem p) (s.partMem q) ||
  meetRange (s.partDsp p) (s.partDsp q) || meetRange (s.partCtxs p) (s.partCtxs q) ||
  s.fld 0x3000 p 61 57 == s.fld 0x3000 q 61 57
/-- The partition table breaks R394 as it stands. -/
def tableBad (s : State) : Bool :=
  let cap := 32 * s.drawers.length
  let sh := (s.fld 0x3010 0 11 0, s.fld 0x3010 0 43 32)
  let all := List.range 17
  let on := all.filter s.partOn
  decide (cap < sh.1 + sh.2) ||
  all.any (fun p =>
    let m := s.partMem p
    decide (cap < m.1 + m.2) || (decide (m.2 ≠ 0) && decide (sh.2 ≠ 0) && meetRange m sh) ||
    decide (1024 < (s.partDsp p).1 + (s.partDsp p).2) || decide (65536 < (s.partCtxs p).1 + (s.partCtxs p).2)) ||
  on.any (fun p => decide (p = 0) != decide (s.fld 0x3000 p 61 57 = 0)) ||
  decide (1015808 < (on.map fun p => s.fld 0x3009 p 52 32).sum) ||
  decide (1032192 < (on.map fun p => s.fld 0x3009 p 20 0).sum) ||
  on.any fun p => on.any fun q => decide (p < q) && s.partsClash p q
/-- A write of the partition table clears a resource in use (R395). -/
def clearsInUse (s t : State) (idx inst : Nat) : Bool :=
  let p := inst
  let gone (i : Nat) : Bool := (s.reg idx inst).getLsbD i && !(t.reg idx inst).getLsbD i
  match idx with
  | 0x3000 =>
    (s.partOn p && !t.partOn p && s.liveContexts.any fun c => s.partOf c == p) ||
    (List.range 256).any fun g => s.sgOn g && s.sgPart g == p &&
      (meetBits (s.fld 0x4000 g 39 32) (s.fld 0x3000 p 39 32 - (s.fld 0x3000 p 39 32 &&& t.fld 0x3000 p 39 32)) ||
       meetBits (s.fld 0x4000 g 31 0) (s.fld 0x3000 p 31 0 - (s.fld 0x3000 p 31 0 &&& t.fld 0x3000 p 31 0)))
  | 0x3003 => (List.range 64).any fun q => gone q && s.fld 0x5100 q 63 63 == 1
  | 0x3004 => (List.range 64).any fun q => gone q && s.fld 0x2000 q 63 63 == 1
  | 0x3005 => (List.range 64).any fun g => gone g && s.sgOn (64 * (inst % 4) + g)
  | 0x3006 => (List.range 64).any fun r => gone r && s.fld 0x9200 (64 * (inst % 4) + r) 63 63 == 1
  | 0x300A => s.liveContexts.any fun c => inSpan (s.partCtxs p) c && !inSpan (t.partCtxs p) c
  | _ => false

/-- The value a register takes when v is written: RW fields from v, W1C fields cleared by ones, the rest kept (R13). -/
def merged (s : State) (idx inst : Nat) (v : DWord) : DWord :=
  match regInfo idx with
  | some r =>
    let m := if idx = 0x3002 && inst % 4 = 1 then 0xFFFFFFFF else r.rw ||| r.wo
    let rw : DWord := BitVec.ofNat 64 m
    let clr : DWord := BitVec.ofNat 64 r.w1c &&& v
    ((s.reg idx inst &&& ~~~rw) ||| (v &&& rw)) &&& ~~~clr
  | none => s.reg idx inst
/-- The value check of a write to the partition table (R393 to R395). -/
def partCheck (s : State) (idx inst : Nat) (v : DWord) : Option Nat :=
  let t := s.setReg idx inst (s.merged idx inst v)
  if idx = 0x3000 && 16 < bits v 61 57 then some 1
  else if idx = 0x300A && 65536 < bits v 48 32 then some 1
  else if s.clearsInUse t idx inst then some 2
  else if t.tableBad then some 1 else none
/-- The value check of a write below 0x5000. -/
def writeLow (s : State) (w : Who) (idx inst : Nat) (v : DWord) : Option Nat :=
  let early := s.ctxState inst == 0 || s.ctxState inst == 1
  match idx with
  | 0x1000 =>
    if !early then some 2
    else if bits v 62 61 = 3 || 16 < bits v 60 56 || 63 < bits v 31 24 then some 1 else none
  | 0x1001 => if early then none else some 2
  | 0x1002 => if bits v 4 0 = 0 then none else some 3
  | 0x2000 | 0x2001 | 0x2002 => s.fqCheck idx inst v
  | 0x3000 | 0x3001 | 0x3002 | 0x3003 | 0x3004 | 0x3005 | 0x3006 | 0x3007 | 0x3008 | 0x3009 | 0x300A | 0x3010 =>
    s.partCheck idx inst v
  | 0x3020 =>
    if w.level ≠ 2 || s.partOn (inst / 8) then some 2
    else if bits v 19 0 ≠ 0 && (bits v 19 0 < 100 || 1000000 < bits v 19 0) then some 1 else none
  | 0x4000 | 0x4001 =>
    if s.groupBusy inst then some 2
    else if (s.setReg idx inst (s.merged idx inst v)).groupBad idx inst then some 1 else none
  | _ => none
/-- The value check of a write from 0x5000 up. -/
def writeHigh (s : State) (idx inst : Nat) (v : DWord) : Option Nat :=
  match idx with
  | 0x5100 | 0x5101 | 0x5103 => s.lqCheck idx inst v
  | 0x5201 => if s.fld 0x5201 inst 63 63 = 1 then some 2 else none
  | 0x5202 => if s.fld 0x5201 (inst / 2) 63 63 = 1 then some 2 else none
  | 0x5203 => if s.fld 0x5201 (inst / 4) 63 63 = 1 then some 2 else none
  | 0x6000 => if s.liveContexts.any fun c => s.asidOf c == inst then some 2 else none
  | 0x6001 => if 1024 < bits v 10 0 then some 1 else none
  | 0x6003 =>
    if s.fld 0x6003 inst 14 0 < bits v 14 0 &&
        decide (16384 < bits v 14 0 + (((List.range 17).filter (· != inst)).map fun p => s.fld 0x6003 p 14 0).sum) then some 1
    else none
  | 0x6006 => if s.allFree then none else some 2
  | 0x8010 | 0x9010 => if inst.testBit 15 then some 2 else if 4 < bits v 63 61 then some 1 else none
  | 0x8021 | 0x9021 => if 9 < bits v 63 60 then some 1 else none
  | 0x9200 =>
    let mask : DWord := 0x4000FFFFFFF00FFF
    if s.fld 0x9200 inst 63 63 = 1 && (v &&& mask) ≠ (s.reg 0x9200 inst &&& mask) then some 2
    else if v.getLsbD 63 && bits v 31 28 < 4 then some 1 else none
  | 0x9201 => if alignedTo (bits v 56 0) 32 (s.fld 0x9200 inst 31 28) then none else some 3
  | 0xB001 => if s.allFree then none else some 2
  | 0xB006 => if bits v 27 16 < bits v 11 0 then some 1 else none
  | _ => none
/-- The value check of a command. -/
def execCheck (s : State) (w : Who) (idx inst : Nat) (v : DWord) : Option Nat :=
  match idx with
  | 0x1004 => if v = 0 || 9 < v.toNat then some 1 else none
  | 0x4200 => if w.th.isNone then some 2 else none
  | 0x7007 => if s.lifeCycle ≠ 1 then some 2 else if bits v 59 58 = 1 || bits v 59 58 = 2 then none else some 1
  | 0x8031 | 0x9031 => if stepOk v then none else some 1
  | 0x8032 | 0x9032 => if rotateOk v then none else some 1
  | 0xA011 => if inst < 6 || w.th.isNone then some 2 else if v.toNat % 32 = 0 then none else some 3
  | 0xB003 => if s.allFree && !((List.range 16).any fun n => s.linkUp ⟨true, n⟩) then none else some 2
  | _ => none
/-- Check 4 of R281. -/
def valueCheck (s : State) (w : Who) (idx inst : Nat) (op : SysOp) : Option Nat :=
  match op with
  | .read => none
  | .write v => if idx < 0x1000 then none else if idx < 0x5000 then s.writeLow w idx inst v else s.writeHigh idx inst v
  | .exec v => s.execCheck w idx inst v

/-- Check 1 of R281: the index is assigned, and names a register the operation may act on (R291, R295, R313); region 0 is for
threads alone (R285). -/
def indexOk (w : Who) (idx : Nat) (op : SysOp) : Bool :=
  (regInfo idx).isSome && (0x1000 ≤ idx || w.th.isSome) &&
  match op with
  | .read => true
  | .write _ => !noWrite idx
  | .exec _ => hasCommand idx
/-- The checks of R281 in their order; none when the access may be made. -/
def sysCheck (s : State) (w : Who) (idx inst : Nat) (op : SysOp) : Option SysFail :=
  if !indexOk w idx op then some ⟨causeSysIdx, 0⟩
  else if !instOk idx inst then some ⟨causeSysInst, 0⟩
  else if !s.inReach w idx inst op then some ⟨causeSysOwn, 0⟩
  else (s.valueCheck w idx inst op).map fun n => ⟨causeSysVal, BitVec.ofNat 32 n⟩

end State
end Sys2Proof.Machine
end

