-- ==== Sys2Proof/Machine/SysAccess.lean ====
section
/-!
DEFINITION. Writes and commands of system registers with their effects (R281 to R285, R291 to R295), the instructions SYSR, SYSW
and SYSX, and the rows that write registers or use a host window (R285, R324, R436). Rows LCADV, RBADV, MREXT, TBSET,
FQCFG_WRITE, FQHEAD_WRITE, LQCFG_WRITE, QUEUE_TAIL_WRITE, ERPTR_TAIL_WRITE, REGISTER_WRITE, HOST_SEL_WRITE, HOST_DATA_READ,
HOST_DATA_WRITE and HOST_EXEC_WRITE.
-/
namespace Sys2Proof.Machine
/-- What a command comes to: its result, or a wait for an event that brings the result (R295). -/
inductive SysResult where
  | done (s : State) (r : DWord)
  | later (s : State)

namespace State

/-! ### Writes -/

/-- Context of a fault record's bytes (R351, R368). -/
def recordCtx (b : Bytes) : Nat := ofBytes ((b.drop 8).take 2)
/-- FQCFG written: RINGF is cleared; a queue that is disabled ends the contexts whose records waited, one that is enabled takes
waiting records (R292, R293). -/
def writeFqcfg (s : State) (q : Nat) (v : DWord) : State :=
  let s1 := (s.setReg 0x2000 q v).setFld 0x2004 q 2 2 0
  if s.fld 0x2000 q 63 63 = 1 && s1.fld 0x2000 q 63 63 = 0 then
    let lost := s1.fqWait.filter fun w => w.fq == q
    lost.foldl (fun t w => t.contextFault (recordCtx w.bytes) 2) { s1 with fqWait := s1.fqWait.filter fun w => w.fq != q }
  else s1.drainRecords q
/-- LQCFG written: a queue that is disabled forgets its head packet and its parked read (R323). -/
def writeLqcfg (s : State) (q : Nat) (v : DWord) : State :=
  let s1 := s.setReg 0x5100 q v
  if s1.fld 0x5100 q 63 63 = 1 then s1
  else { s1.withdraw fun r => r == .queue q with heads := del s1.heads q, stuckQ := s1.stuckQ.filter (· != q) }
/-- A tail is taken, or discarded with BADTAIL; a disabled queue ignores it (R324). -/
def writeTail (s : State) (q t : Nat) : State :=
  let old := s.fld 0x5103 q 31 0
  if s.fld 0x5100 q 63 63 = 0 then s
  else if (t + 4294967296 - old) % 4294967296 + s.lqCount q ≤ s.lqSize q then s.setReg 0x5103 q (BitVec.ofNat 64 (t % 4294967296))
  else s.setFld 0x5104 q 2 2 1
/-- SGCFG written; the window of a group it enables is zeroed before a context uses it (R8, R320). Work held at a server is tried again, as
servers may be installed now (R301). -/
def writeGroup (s : State) (sg : Nat) (v : DWord) : State :=
  let s1 := s.setReg 0x4000 sg v
  (if !s.sgOn sg && s1.sgOn sg then s1.zeroWindow sg else s1).wakeRetry
/-- SGDSP written: the old and the new window are zeroed, but for what another enabled group has (R320). -/
def writeWindow (s : State) (sg : Nat) (v : DWord) : State := ((s.zeroWindow sg).setReg 0x4001 sg v).zeroWindow sg
/-- TCQUOTA written: entries past the new quota of a partition leave each die, the least recent first (R350). -/
def writeQuota (s : State) (p : Nat) (v : DWord) : State :=
  let younger (e : TcEntry) : Nat := (s.tc.filter fun x => x.die == e.die && x.part == p && decide (e.stamp < x.stamp)).length
  { s.setReg 0x6003 p v with tc := s.tc.filter fun e => e.part != p || decide (younger e < bits v 14 0) }
/-- A register of region 0 written (R286). -/
def writeSup (th : Thread) (idx : Nat) (v : DWord) : Thread :=
  match idx with
  | 1 => { th with sup := { th.sup with trap := { th.sup.trap with tpc := v } } }
  | 5 => { th with sup := { th.sup with saveA := v } }
  | 6 => { th with sup := { th.sup with saveB := v } }
  | _ => th
/-- SYSW of a register that passed its checks (R13, R295). Clusters and server groups decide which servers are installed
(R301), so work held at one is tried again. -/
def sysWrite (s : State) (w : Who) (idx inst : Nat) (v : DWord) : State :=
  if idx < 0x1000 then
    match w.th with
    | some k => s.modThread k fun th => writeSup th idx v
    | none => s
  else
    let x := s.merged idx inst v
    match idx with
    | 0x2000 => s.writeFqcfg inst x
    | 0x2002 => (s.setReg 0x2002 inst x).drainRecords inst
    | 0x3001 => (s.setReg idx inst x).wakeRetry
    | 0x4000 => s.writeGroup inst x
    | 0x4001 => s.writeWindow inst x
    | 0x5100 => s.writeLqcfg inst x
    | 0x5103 => s.writeTail inst (bits v 31 0)
    | 0x6003 => s.writeQuota inst x
    | 0x8021 => (s.setReg idx inst x).sendControl ⟨false, nb inst 14 8⟩ 10 (toBytes 7 0 ++ toBytes 8 x.toNat)
    | 0x8030 => s.writeRing ⟨⟨false, nb inst 14 8⟩, inst % 16⟩ v
    | 0x9030 => s.writeRing ⟨⟨true, nb inst 14 8⟩, inst % 16⟩ v
    | _ => s.setReg idx inst x

/-! ### Commands -/

/-- LCADV: the fuses of a later state, which takes effect at the next reset; 1 when the target is not later than LC (R404,
R405). -/
def lcadv (s : State) (op : DWord) : State × DWord :=
  let t := bits op 1 0
  if t ≤ s.lifeCycle then (s, 1) else ({ s with lcNext := some (max t (s.lcNext.getD 0)) }, 0)
/-- RBADV: the rollback counter advances; 1 when not above CNT (R404). -/
def rbadv (s : State) (op : DWord) : State × DWord :=
  if bits op 5 0 ≤ s.fld 0xA003 0 5 0 then (s, 1) else (s.setFld 0xA003 0 5 0 (bits op 5 0), 0)
/-- The 32 bytes of a measurement register (R404). -/
def measured (s : State) (i : Nat) : Bytes := (List.range 4).flatMap fun j => toBytes 8 (s.reg 0xA010 (4 * i + j)).toNat
/-- A measurement register set. -/
def setMeasured (s : State) (i : Nat) (b : Bytes) : State :=
  (List.range 4).foldl (fun t j => t.setReg 0xA010 (4 * i + j) (BitVec.ofNat 64 (ofBytes ((b.drop (8 * j)).take 8)))) s
/-- extend(i, d) of R404. -/
def extendMr (s : State) (i : Nat) (d : Bytes) : State := s.setMeasured i (sm3 (s.measured i ++ d))
/-- TBSET: tick takes the operand at the next frame boundary (R434). -/
def tbset (s : State) (op : DWord) : State × DWord := ({ s with tickSet := some (bits op 47 0) }, 0)

/-- A result known at once or later. -/
def soonOr (x : State × Option Nat) : SysResult :=
  match x.2 with
  | some n => .done x.1 (BitVec.ofNat 64 n)
  | none => .later x.1
/-- SYSX of a command that passed its checks, for the one who gave it (R291, R295). RBIND and MREXT, which read memory of a thread,
stand in their own bodies. -/
def sysExec (s : State) (w : Who) (who : Asker) (idx inst : Nat) (op : DWord) : SysResult :=
  let now (x : State × DWord) : SysResult := .done x.1 x.2
  let fab := decide (0x9000 ≤ idx)
  let link : LinkId := ⟨fab, nb inst 14 8⟩
  match idx with
  | 0x1004 => let r := s.ctxCommand inst op.toNat; .done r.1 (BitVec.ofNat 64 r.2)
  | 0x4002 => now (s.templateCommand .ig inst op)
  | 0x4003 => now (s.templateCommand .mx inst op)
  | 0x4004 => now (s.templateCommand .cp inst op)
  | 0x4100 => now (s.lsrvCommand (inst.testBit 31) (nb inst 14 8) (inst % 32) op)
  | 0x4201 => soonOr (s.unbindFor who inst op.toNat)
  | 0x6002 => now (s.rmsync inst)
  | 0x6004 => now (s.trreplay inst op)
  | 0x6005 => match s.frzero w.part (w.level == 2) op with
    | some t => .done t 0
    | none => .done s 0
  | 0x7003 => now (s.retireFrame (bits op 45 12) false)
  | 0x7007 => .done (s.errinj op) 0
  | 0x8011 | 0x9011 => soonOr (s.ttcommit link who)
  | 0x8031 | 0x9031 => now (s.ringStep ⟨link, inst % 16⟩ op)
  | 0x8032 | 0x9032 => soonOr (s.rotateStep link op who)
  | 0xA002 => now (s.lcadv op)
  | 0xA004 => now (s.rbadv op)
  | 0xB003 => now (s.tbset op)
  | _ => .done s 0

end State

/-! ### Instructions -/

/-- SVAL of causes 14 to 17 (R286). -/
def sysVal (idx inst : Nat) : DWord := BitVec.ofNat 64 (inst * 4294967296 + idx)
/-- A system instruction acts as FENCE.SEQ.S, which advances the domain clock, and makes its checks, then goes on (R95, R281,
R283). -/
def sysGuard (k : Nat) (th : Thread) (idx inst : Nat) (op : SysOp) (s : State) (go : State → Lane) : Lane :=
  match s.flushFirst th true true .s with
  | (s1, some w) => .hold s1 w
  | (s1, none) =>
    match s1.sysCheck (s1.whoIs k) idx inst op with
    | some f => .trap f.cause (sysVal idx inst) f.sub
    | none => go (s1.clockRelease th.ctx)
/-- SYSR (R295). -/
def sysrBody (d a : Reg) (idx : Nat) : Body := fun env k s =>
  let th := env.before.thread k
  let inst := (th.rv a).toNat
  sysGuard k th idx inst .read s fun s1 =>
    let r := s1.sysRead (s1.whoIs k) idx inst
    .done (r.1.modThread k fun t => t.ww d r.2)
/-- SYSW (R295). -/
def syswBody (d a : Reg) (idx : Nat) : Body := fun env k s =>
  let th := env.before.thread k
  let inst := (th.rv a).toNat
  sysGuard k th idx inst (.write (th.rw d)) s fun s1 => .done (s1.sysWrite (s1.whoIs k) idx inst (th.rw d))

/-- n bytes that a command reads at an address of its thread, as a load under R53 (R315, R404): the state and the bytes, or
what becomes of the thread. -/
def sysFetch (k : Nat) (th : Thread) (addr : DWord) (n : Nat) (s : State) (go : State → Bytes → Lane) : Lane :=
  match s.access th k addr n n false true with
  | .error c => .trap c addr 0
  | .ok (.global va) =>
    match s.readGlobal ⟨th.ctx, va, true, false, 0⟩ n with
    | .ok (s1, x, false) => go s1 x
    | .ok (s1, _, true) => .hold (s1.killGang k 1 addr th.pc) .resp
    | .error e => s.failLaunch k th addr e
  | .ok l =>
    if s.locWaits l n false then .hold s .retry
    else if (s.readLoc l n).2 then .hold (s.killGang k 1 addr th.pc) .resp
    else go s (s.readLoc l n).1
/-- A thread waits for the event that brings a command's result to pair d, and the threads after it for its end (R284, R295). -/
def sysLater (k : Nat) (d : Reg) (s : State) : Lane := .last (s.modThread k fun t => { t with wait := .sys d })
/-- RBIND by a thread: the record is read once, hop 0 judged here, and the thread waits while later hops answer (R315, R316). -/
def rbindBody (k : Nat) (th : Thread) (d : Reg) (sg : Nat) (addr : DWord) (s : State) : Lane :=
  sysFetch k th addr 64 s fun s1 b =>
    let t := (s1.modThread k fun t => { t with wait := .sys d }).bindRecord sg b (.thread k d)
    if (t.thread k).wait = .sys d then .last t else .done t
/-- MREXT by a thread (R404). -/
def mrextBody (k : Nat) (th : Thread) (d : Reg) (i : Nat) (addr : DWord) (s : State) : Lane :=
  sysFetch k th addr 32 s fun s1 b => .done ((s1.extendMr i b).modThread k fun t => t.ww d 0)
/-- SYSX (R291, R295): a thread that tears down its own context receives nothing. -/
def sysxBody (d a : Reg) (idx : Nat) : Body := fun env k s =>
  let th := env.before.thread k
  let inst := (th.rv a).toNat
  let op := th.rw d
  sysGuard k th idx inst (.exec op) s fun s1 =>
    if idx = 0x4200 then rbindBody k th d inst op s1
    else if idx = 0xA011 then mrextBody k th d inst op s1
    else match s1.sysExec (s1.whoIs k) (.thread k d) idx inst op with
      | .done s2 r => .done (s2.modThread k fun t => t.ww d r)
      | .later s2 => sysLater k d s2

/-- SYSR (R281 to R284, R295). -/
def execSysr (h : Head) (d : Reg) (a : Reg) (idx : BitVec 16) (s : State) : Host.Outcome State Fault Refusal :=
  issue (.sysr h d a idx) (sysrBody d a idx.toNat) s
/-- SYSW (R281 to R284, R295). -/
def execSysw (h : Head) (d : Reg) (a : Reg) (idx : BitVec 16) (s : State) : Host.Outcome State Fault Refusal :=
  issue (.sysw h d a idx) (syswBody d a idx.toNat) s
/-- SYSX (R281 to R284, R291, R295). -/
def execSysx (h : Head) (d : Reg) (a : Reg) (idx : BitVec 16) (s : State) : Host.Outcome State Fault Refusal :=
  issue (.sysx h d a idx) (sysxBody d a idx.toNat) s

/-! ### Rows of commands and writes -/

/-- A write of a device supervisor outside: its checks, then the write; a failed check changes nothing (R281, R285). -/
def State.outsideWrite (s : State) (idx inst : Nat) (v : DWord) : State :=
  match s.sysCheck State.deviceWho idx inst (.write v) with
  | some _ => s.answer none
  | none => s.sysWrite State.deviceWho idx inst v
/-- LCADV (R404, R405). -/
def execLcadv (op : BitVec 64) (s : State) : Host.Outcome State Fault Refusal := .next (s.answer (some (s.lcadv op)))
/-- RBADV (R404). -/
def execRbadv (op : BitVec 64) (s : State) : Host.Outcome State Fault Refusal := .next (s.answer (some (s.rbadv op)))
/-- MREXT of a digest; only MR6 to MR15 (R404). -/
def execMrext (mr : Nat) (digest : Bytes) (s : State) : Host.Outcome State Fault Refusal :=
  .next (s.answer (if mr < 6 || 16 ≤ mr then none else some (s.extendMr mr digest, 0)))
/-- TBSET (R434). -/
def execTbset (op : BitVec 64) (s : State) : Host.Outcome State Fault Refusal :=
  .next (s.answer (if (s.sysCheck State.deviceWho 0xB003 0 (.exec op)).isSome then none else some (s.tbset op)))
/-- FQCFG_WRITE (R292, R293). -/
def execFqcfgWrite (fq : Nat) (v : BitVec 64) (s : State) : Host.Outcome State Fault Refusal := .next (s.outsideWrite 0x2000 fq v)
/-- FQHEAD_WRITE (R293). -/
def execFqheadWrite (fq : Nat) (v : BitVec 64) (s : State) : Host.Outcome State Fault Refusal := .next (s.outsideWrite 0x2002 fq v)
/-- LQCFG_WRITE (R323). -/
def execLqcfgWrite (lq : Nat) (v : BitVec 64) (s : State) : Host.Outcome State Fault Refusal := .next (s.outsideWrite 0x5100 lq v)
/-- The partition a virtual function acts for (R397). -/
def State.vfPart (s : State) (v : Nat) : Option Nat :=
  (List.range 17).find? fun p => s.partOn p && s.fld 0x3000 p 61 57 == v && p != 0
/-- The hardware queue behind the m-th pair of locations of a function's queue window: the m-th queue allotted to its partition,
in ascending number (R324, R397). -/
def State.windowQueue (s : State) (fn m : Nat) : Option Nat :=
  (if fn = 0 then some 0 else s.vfPart fn).bind fun p => ((List.range 64).filter (s.partLq p))[m]?
/-- With whose reach a function's windows act; none while the function has no windows: before enumeration, after a boot failure,
or for a virtual function no enabled partition names (R397, R403, R435). -/
def State.hostWho (s : State) (fn : Nat) : Option Who :=
  if !s.power.pcie || s.fld 0xA000 0 59 56 ≠ 0 then none
  else if fn = 0 then some State.deviceWho
  else (s.vfPart fn).map fun p => ⟨1, p, none⟩
/-- A read of the queue window: TAIL and HEAD of the m-th allotted queue; ones where the function has no windows (R324, R403). -/
def State.windowRead (s : State) (fn off : Nat) : DWord :=
  match (s.hostWho fn).bind fun _ => s.windowQueue fn (off / 16) with
  | some q => if off % 16 = 0 then s.reg 0x5103 q else s.reg 0x5102 q
  | none => 0xFFFFFFFFFFFFFFFF
/-- A write of TAIL in the queue window: ignored for a queue whose PROD is not host, and where the function has no windows (R324,
R403). -/
def State.windowTail (s : State) (fn m : Nat) (v : DWord) : State :=
  match (s.hostWho fn).bind fun _ => s.windowQueue fn m with
  | some q => if s.fld 0x5100 q 62 61 ≠ 0 then s else s.writeTail q (bits v 31 0)
  | none => s
/-- QUEUE_TAIL_WRITE: through a queue window, where `lq` is 64 times the function and the number of the location's queue within it
(log 77), or by SYSW of a hardware queue (R323, R324). -/
def execQueueTailWrite (lq : Nat) (v : BitVec 64) (win : Bool) (s : State) : Host.Outcome State Fault Refusal :=
  if win then .next (s.windowTail (lq / 64) (lq % 64) v)
  else .next (s.outsideWrite 0x5103 lq v)
/-- ERPTR_TAIL_WRITE (R392). -/
def execErptrTailWrite (ring : Nat) (v : BitVec 64) (s : State) : Host.Outcome State Fault Refusal :=
  .next (s.outsideWrite 0x9202 ring v)
/-- REGISTER_WRITE: a system register with no row of its own (R13, R283). -/
def execRegisterWrite (idx : Nat) (inst : Nat) (v : BitVec 64) (s : State) : Host.Outcome State Fault Refusal :=
  .next (s.outsideWrite (idx % 65536) (inst % 4294967296) v)

/-! ### Host windows (R285, R397, R436) -/

namespace State

/-- Indices the physical function's window serves before bring-up step 5 completes (R436). -/
def earlyIndex (idx : Nat) : Bool := idx == 0xA000 || idx == 0xA001 || idx == 0x3030 || (0xB000 ≤ idx && idx < 0xC000)
/-- SEL's index and instance. -/
def selIdx (w : HostWin) : Nat := bits w.sel 47 32
def selInst (w : HostWin) : Nat := bits w.sel 31 0
/-- An access a window serves at this stage of bring-up: until step 5 completes only to the early indices, and ENABLE while the wipe
runs, which answers 3 (R401, R436). -/
def hostServes (s : State) (w : HostWin) (op : SysOp) : Bool :=
  s.power.trained || earlyIndex (selIdx w) || (selIdx w == 0x1004 && op == .exec 1 && s.fld 0x3030 0 63 63 == 1)
/-- The window's check of an access: R436, then R281. -/
def hostCheck (s : State) (who : Who) (w : HostWin) (op : SysOp) : Bool :=
  s.hostServes w op && (s.sysCheck who (selIdx w) (selInst w) op).isNone
/-- ERR is set and the location that answers reads all ones (R285). -/
def hostFail (w : HostWin) : HostWin := { w with sel := setBits w.sel 63 63 1 }
/-- A write of SEL: instance and index are set and ERR is cleared (R285). -/
def hostSel (s : State) (fn : Nat) (v : DWord) : State :=
  if (s.hostWho fn).isNone then s else s.setHostWin fn { s.hostWin fn with sel := setBits v 63 48 0 }
/-- A read of SEL or EXEC, or of the location behind them; ones where the function has no windows (R285, R403). -/
def hostLoc (s : State) (fn off : Nat) : DWord :=
  if (s.hostWho fn).isNone then 0xFFFFFFFFFFFFFFFF
  else if off = 0 then (s.hostWin fn).sel else if off = 16 then (s.hostWin fn).exec else 0
/-- A read of DATA: SYSR through the window; its value is left in the window's data (R285). -/
def hostRead (s : State) (fn : Nat) : State :=
  let w := s.hostWin fn
  let ones : DWord := 0xFFFFFFFFFFFFFFFF
  match s.hostWho fn with
  | none => { s.setHostWin fn { w with data := ones } with cmdResult := ones }
  | some who =>
    if s.hostCheck who w .read then
      let r := s.sysRead who (selIdx w) (selInst w)
      { r.1.setHostWin fn { w with data := r.2 } with cmdResult := r.2 }
    else { s.setHostWin fn { hostFail w with data := ones } with cmdResult := ones }
/-- A write of DATA: SYSW through the window (R285). -/
def hostWrite (s : State) (fn : Nat) (v : DWord) : State :=
  let w := s.hostWin fn
  match s.hostWho fn with
  | none => s
  | some who =>
    if s.hostCheck who w (.write v) then s.sysWrite who (selIdx w) (selInst w) v
    else s.setHostWin fn (hostFail w)
/-- A write of EXEC: SYSX through the window; its result is what EXEC reads, at once or when it comes (R285). -/
def hostExec (s : State) (fn : Nat) (v : DWord) : State :=
  let w := s.hostWin fn
  match s.hostWho fn with
  | none => s
  | some who =>
    if s.hostCheck who w (.exec v) then
      match s.sysExec who (.window fn) (selIdx w) (selInst w) v with
      | .done t r => { t.setHostWin fn { w with exec := r } with cmdResult := r }
      | .later t => t
    else { s.setHostWin fn { hostFail w with exec := 0xFFFFFFFFFFFFFFFF } with cmdResult := 0xFFFFFFFFFFFFFFFF }

end State

/-- HOST_SEL_WRITE (R285). -/
def execHostSelWrite (fn : Nat) (v : BitVec 64) (s : State) : Host.Outcome State Fault Refusal := .next (s.hostSel fn v)
/-- HOST_DATA_READ (R281, R282, R285, R397, R436). -/
def execHostDataRead (fn : Nat) (s : State) : Host.Outcome State Fault Refusal := .next (s.hostRead fn)
/-- HOST_DATA_WRITE (R281, R282, R285, R397, R436). -/
def execHostDataWrite (fn : Nat) (v : BitVec 64) (s : State) : Host.Outcome State Fault Refusal := .next (s.hostWrite fn v)
/-- HOST_EXEC_WRITE (R281, R282, R285, R397, R436). -/
def execHostExecWrite (fn : Nat) (v : BitVec 64) (s : State) : Host.Outcome State Fault Refusal := .next (s.hostExec fn v)

end Sys2Proof.Machine
end

