-- ==== Sys2Proof/Machine/System.lean ====
section
/-!
DEFINITION. The other system instructions: return from a supervisor trap (R296), dropping translations (R297), cache ranges
(R298) and waiting for events (R299). Instructions ERET, TINV, CINVR and WAITI.
-/
namespace Sys2Proof.Machine

/-- SVAL of a failed TINV or CINVR (R286). -/
def ctxVal (c : Nat) : DWord := BitVec.ofNat 64 (c * 4294967296)

namespace State

/-- A context in a supervisor's reach; a number past 65,535 names none (R4, R282, R297, R298; log 94). -/
def mayCtx (s : State) (w : Who) (c : Nat) : Bool := decide (c < 65536) && (w.level == 2 || s.ctxReach w.part c)

/-- Whether a cached leaf serves addresses of a context in [lo, hi): under its own ASID, or under a canonical name that its remap
table gives (R297, R349, R354). -/
def leafServes (s : State) (c lo hi : Nat) (e : TcEntry) : Bool :=
  let meets (a b : Nat) : Bool := decide (a < b) && decide (e.base < b) && decide (a < e.base + e.size)
  e.part == s.partOf c && ((e.asid == s.asidOf c && meets lo hi) || (lookupD [] s.remap c).any fun r =>
    let a := max lo (4096 * r.lbase)
    let b := min hi (4096 * (r.lbase + r.pages))
    r.casid == e.asid && decide (a < b) && meets (a - 4096 * r.lbase + 4096 * r.cbase) (b - 4096 * r.lbase + 4096 * r.cbase))
/-- Translation-cache entries that a TINV drops (R297). -/
def tinvDrops (s : State) (w : Who) (kind : TinvKind) (c base pages : Nat) (e : TcEntry) : Bool :=
  let lo := base / 4096 * 4096
  match kind with
  | .all => w.level == 2 || e.part == w.part
  | .ctx => s.leafServes c 0 (2 ^ 57) e
  | .range => s.leafServes c lo (lo + 4096 * pages) e
/-- TINV performed (R297). -/
def tinv (s : State) (w : Who) (kind : TinvKind) (c base pages : Nat) : State :=
  { s with tc := s.tc.filter fun e => !s.tinvDrops w kind c base pages e }

/-- Two contexts of one partition whose requests may use one cached leaf: they share an ASID, or a canonical name (R349, R350). -/
def sharesLeaves (s : State) (c x : Nat) : Bool :=
  s.partOf c == s.partOf x && (s.asidOf c == s.asidOf x || (lookupD [] s.remap c).any fun e =>
    e.casid == s.asidOf x || (lookupD [] s.remap x).any fun f => e.casid == f.casid)
/-- The requests to memory of this package that a TINV waits for: those of the contexts it names, and of any that share their leaves,
which have still to be performed (R297; log 100). -/
def tinvOut (s : State) (w : Who) (kind : TinvKind) (c pages : Nat) : List Nat :=
  let mine (x : Nat) : Bool := match kind with
    | .all => w.level == 2 || s.partOf x == w.part
    | .ctx => s.sharesLeaves c x
    | .range => pages != 0 && s.sharesLeaves c x
  (s.reqs.filter fun r => r.2.link.isNone && !r.2.served && mine r.2.ctx).map Prod.fst

/-- Whether a cached line is a line of a context in [lo, hi): none, or whether it belongs to a declared shared region (R298). -/
def lineOf (s : State) (c lo hi : Nat) (l : Line) : Option Bool :=
  let a := 128 * l.cline
  let within (va : Nat) : Bool := decide (lo ≤ va) && decide (va < hi)
  if (lookupD [] s.remap c).any fun e => e.casid == l.asid && decide (4096 * e.cbase ≤ a) && decide (a < 4096 * (e.cbase + e.pages)) &&
      within (a - 4096 * e.cbase + 4096 * e.lbase) then some true
  else if l.asid == s.asidOf c && within a && (s.remapEntry c a).isNone then some false
  else none
/-- A line of L2 handled by CINVR (R298). -/
def cinvrLine (op : CinvOp) (c lo hi : Nat) (s : State) (k : Nat) : State :=
  match lookup s.l2 k with
  | none => s
  | some l =>
    match s.lineOf c lo hi l with
    | none => s
    | some shared =>
      let clean : State := s.cleanLine c l
      match op with
      | .cln => clean.setL2 k { l with dirty := false }
      | .inv => { clean with l2 := del clean.l2 k }
      | .disc => if shared then { clean with l2 := del clean.l2 k } else { s with l2 := del s.l2 k }
/-- CINVR over [lo, hi), whole lines: L2 first, then L1 and the instruction caches (R298). -/
def cinvr (s : State) (op : CinvOp) (c lo hi : Nat) : State :=
  let s1 := (keysOf s.l2).foldl (cinvrLine op c lo hi) s
  if op = .cln then s1
  else { s1 with
    l1 := keep (fun _ l => (s.lineOf c lo hi l).isNone) s1.l1
    icache := s1.icache.filter fun b => !(b.ctx == c && decide (lo < 32 * b.block + 32) && decide (32 * b.block < hi)) }

end State

/-- ERET (R296). -/
def eretBody (i : Instr) : Body := fun env k s =>
  if (env.before.thread k).sup.inTrap then .done (s.modThread k leaveSupervisor) else .trap causeIllegal (Instr.tval i) 10
/-- TINV: the entries are dropped, and it completes once the requests that were out have been performed (R297, R354). -/
def tinvBody (kind : TinvKind) (a b c : Reg) : Body := fun env k s =>
  let th := env.before.thread k
  let ctx := (th.rv a).toNat
  if kind ≠ .all && !s.mayCtx (s.whoIs k) ctx then .trap causeSysOwn (ctxVal ctx) 0
  else
    let out := s.tinvOut (s.whoIs k) kind ctx (th.rv c).toNat
    let s1 := s.tinv (s.whoIs k) kind ctx (th.rw b).toNat (th.rv c).toNat
    if out.isEmpty then .done s1 else .last (s1.modThread k fun t => { t with wait := .quiet out })
/-- CINVR (R298): a FENCE.SEQ.S first, which advances the domain clock (R95, R354). Its checks are in the order of R281: reach, then value
(log 94). -/
def cinvrBody (op : CinvOp) (a b c : Reg) : Body := fun env k s =>
  let th := env.before.thread k
  let ctx := (th.rv a).toNat
  let base := (th.rw b).toNat
  let len := (th.rv c).toNat
  match s.flushFirst th true true .s with
  | (s1, some w) => .hold s1 w
  | (s1, none) =>
    if !s1.mayCtx (s1.whoIs k) ctx then .trap causeSysOwn (ctxVal ctx) 0
    else if len = 0 then .done (s1.clockRelease th.ctx)
    else if 2 ^ 57 < base + len then .trap causeSysVal (ctxVal ctx) 1
    else .done ((s1.clockRelease th.ctx).cinvr op ctx (base / 128 * 128) ((base + len + 127) / 128 * 128))
/-- WAITI (R299). -/
def waitiBody (d a : Reg) : Body := fun env k s =>
  let th := env.before.thread k
  let m : BitVec 5 := (th.rv a).setWidth 5
  let e := s.events th.ctx &&& m
  if m = 0 then .done (s.modThread k fun t => t.wv d 0)
  else if e = 0 then .hold s (.event m)
  else .done (s.modThread k fun t => t.wv d (e.setWidth 32))

/-- ERET (R296). -/
def execEret (h : Head) (s : State) : Host.Outcome State Fault Refusal := issue (.eret h) (eretBody (.eret h)) s
/-- TINV (R297). -/
def execTinv (h : Head) (kind : TinvKind) (a : Reg) (b : Reg) (c : Reg) (s : State) : Host.Outcome State Fault Refusal :=
  issue (.tinv h kind a b c) (tinvBody kind a b c) s
/-- CINVR (R298). -/
def execCinvr (h : Head) (op : CinvOp) (a : Reg) (b : Reg) (c : Reg) (s : State) : Host.Outcome State Fault Refusal :=
  issue (.cinvr h op a b c) (cinvrBody op a b c) s
/-- WAITI (R299). -/
def execWaiti (h : Head) (d : Reg) (a : Reg) (s : State) : Host.Outcome State Fault Refusal :=
  issue (.waiti h d a) (waitiBody d a) s

end Sys2Proof.Machine
end

