-- ==== Sys2Proof/Machine/Ethernet.lean ====
section
/-!
DEFINITION. Ethernet ports: remote launch requests (R330 to R332), and ordinary frames through receive and transmit rings (R391,
R392). Rows REMOTE_LAUNCH_REQUEST, ETH_RX_FRAME and ETH_TX_FRAME.
-/
namespace Sys2Proof.Machine

/-- Payload of a frame given from its destination address on, without FCS: behind the EtherType, and behind one 802.1Q tag
(R330, R391). -/
def framePayload (b : Bytes) : Bytes := if (b.drop 12).take 2 = [0x81, 0x00] then b.drop 18 else b.drop 14
/-- Priority of a frame given from its destination address on: that of its 802.1Q tag, 0 without one (R391). -/
def framePriority (b : Bytes) : Nat := if (b.drop 12).take 2 = [0x81, 0x00] then (b.getD 14 0).toNat / 32 else 0
/-- A frame without its FCS has a length the ports take: 64 to 9,216 bytes with it (R391). -/
def frameLength (b : Bytes) : Bool := decide (60 ≤ b.length) && decide (b.length ≤ 9212)
/-- A priority-based flow control frame: its enabled priorities with their times in quanta of 512 bit times (R391; log 92). -/
def pausesOf (f : EthFrame) : Option (List (Nat × Nat)) :=
  let p := framePayload f.bytes
  let word (i : Nat) : Nat := 256 * (p.getD i 0).toNat + (p.getD (i + 1) 0).toNat
  if f.etype ≠ 0x8808 || word 0 ≠ 0x0101 then none
  else some (((List.range 8).filter fun i => (word 2).testBit i).map fun i => (i, word (4 + 2 * i)))
/-- n bytes cut at line boundaries from an address on: offset and bytes of each piece. -/
def spanPieces : Nat → Nat → Bytes → List (Nat × Bytes)
  | 0, _, _ => []
  | _ + 1, _, [] => []
  | fuel + 1, va, b => (va, b.take (128 - va % 128)) :: spanPieces fuel (va / 128 * 128 + 128) (b.drop (128 - va % 128))

namespace State

/-! ### Remote launch -/

/-- A drop counted for a reason (R331, R332). -/
def rlDrop (s : State) (reason : Nat) : State := s.setFld 0x5205 reason 31 0 (s.fld 0x5205 reason 31 0 + 1)
/-- The lowest enabled entry with a key id (R331). -/
def rlEntry (s : State) (key : Nat) : Option Nat :=
  (List.range 256).find? fun e => s.fld 0x5201 e 63 63 == 1 && s.fld 0x5201 e 31 0 == key
/-- The 32 key bytes of an entry (R332). -/
def rlKey (s : State) (e : Nat) : Bytes := (List.range 4).flatMap fun k => toBytes 8 (s.reg 0x5203 (4 * e + k)).toNat
/-- The hardware queue a request may use: in QMASK, and owned by the entry's context as a network queue (R331). -/
def rlQueue (s : State) (e lq : Nat) : Option Nat :=
  if lq < 8 && (s.fld 0x5201 e 55 48).testBit lq then s.localQueue (s.fld 0x5201 e 47 32) lq 2 else none
/-- REMOTE_LAUNCH_REQUEST: the checks of R331 in their order, then the packet is appended; an append that its owner's tables do
not allow drops the request (log 12). -/
def remoteLaunch (s : State) (port : Nat) (p : Bytes) : State :=
  if s.fld 0x5200 port 63 63 = 0 || 4 ≤ port then s
  else match s.rlEntry (pktField p 0 4) with
    | none => s.rlDrop 1
    | some e =>
      let entry := pktField p 0x10 8
      if hmacSm3 (s.rlKey e) (p.take 0x90) ≠ (p.drop 0x90).take 32 then s.rlDrop 2
      else if pktField p 8 8 ≤ (s.reg 0x5204 e).toNat then s.rlDrop 3
      else match s.rlQueue e (pktField p 4 1) with
        | none => s.rlDrop 4
        | some q =>
          if entry < (s.reg 0x5202 (2 * e)).toNat || (s.reg 0x5202 (2 * e + 1)).toNat ≤ entry then s.rlDrop 5
          else if s.lqSize q ≤ s.lqCount q then s.rlDrop 6
          else match s.appendPacket q ((p.drop 0x10).take 128) with
            | .ok s1 => s1.setReg 0x5204 e (BitVec.ofNat 64 (pktField p 8 8))
            | .error _ => s

/-! ### Rings -/

/-- Bytes read for a context across lines; none on a fault or poison. -/
def readSpan (s : State) (ctx : Nat) : List (Nat × Bytes) → Option (State × Bytes)
  | [] => some (s, [])
  | p :: rest =>
    match s.readGlobal ⟨ctx, p.1, true, false, 0⟩ p.2.length with
    | .ok (s1, b, false) => (readSpan s1 ctx rest).map fun x => (x.1, b ++ x.2)
    | _ => none
/-- Bytes written for a context across lines; none on a fault. -/
def writeSpan (s : State) (ctx : Nat) : List (Nat × Bytes) → Option State
  | [] => some s
  | p :: rest =>
    match s.writeGlobal ⟨ctx, p.1, false, true, 1⟩ p.2 with
    | .ok s1 => writeSpan s1 ctx rest
    | .error _ => none
/-- Pieces of a range of a global space. -/
def piecesOf (va : Nat) (b : Bytes) : List (Nat × Bytes) := spanPieces (b.length / 128 + 2) va b
/-- HEAD and TAIL of an Ethernet ring (R392). -/
def erHead (s : State) (r : Nat) : Nat := s.fld 0x9202 r 31 0
def erTail (s : State) (r : Nat) : Nat := s.fld 0x9202 r 63 32
/-- Owner of a ring, and the address of the descriptor at HEAD. -/
def erOwner (s : State) (r : Nat) : Nat := s.fld 0x9200 r 47 32
def erSlot (s : State) (r : Nat) : Nat := s.fld 0x9201 r 56 0 + 32 * (s.erHead r % 2 ^ s.fld 0x9200 r 31 28)
/-- HEAD advances (R392). -/
def erDone (s : State) (r : Nat) : State := s.setFld 0x9202 r 31 0 (s.erHead r + 1)
/-- The receive ring a frame goes to (R392). -/
def rxRing (s : State) (port vid pcp : Nat) : Option Nat :=
  ((List.range 64).map (64 * port + ·)).find? fun r => s.fld 0x9200 r 63 63 == 1 && s.fld 0x9200 r 62 62 == 0 &&
    s.fld 0x9200 r 11 0 == vid && (s.fld 0x9200 r 27 20).testBit pcp
/-- A frame dropped for lack of a ring or a buffer (R392). -/
def noRing (s : State) (port : Nat) : State := s.setFld 0x9203 port 31 0 (s.fld 0x9203 port 31 0 + 1)
/-- A frame stored in the buffer at HEAD of a ring, its descriptor marked and HEAD advanced; none where there is no buffer that
takes it (R392). -/
def storeFrame (s : State) (r : Nat) (b : Bytes) : Option State :=
  let ctx := s.erOwner r
  if s.erHead r = s.erTail r || s.ctxState ctx = 0 then none
  else match s.readGlobal ⟨ctx, s.erSlot r, true, false, 0⟩ 32 with
    | .ok (s1, d, false) =>
      if pktField d 8 2 < b.length then none
      else match s1.writeSpan ctx (piecesOf (pktField d 0 8) b) with
        | none => none
        | some s2 =>
          let d' := d.take 8 ++ toBytes 2 b.length ++ [d.getD 10 0 ||| 1] ++ d.drop 11
          match s2.writeGlobal ⟨ctx, s.erSlot r, false, true, 1⟩ d' with
          | .ok s3 => some (s3.erDone r)
          | .error _ => none
    | _ => none
/-- A priority of a port is paused for some quanta, or no more with none: 512 bit times at 1.6 Tb/s are 112/25 of 1/14 ns (R391; log
92). -/
def pausePriority (port : Nat) (s : State) (x : Nat × Nat) : State :=
  { s with pfc := put s.pfc (8 * port + x.1) (s.unitNow + (112 * x.2 + 24) / 25) }
/-- A priority of a port is paused (R391). -/
def paused (s : State) (port pri : Nat) : Bool := decide (s.unitNow < lookupD 0 s.pfc (8 * port + pri))
/-- ETH_RX_FRAME: a bad FCS is dropped and counted, a length the ports do not take is dropped (log 92), flow control pauses priorities,
a remote-launch frame goes to R331, an ordinary one to its ring (R391, R392). -/
def receiveFrame (s : State) (port : Nat) (f : EthFrame) : State :=
  if 4 ≤ port then s
  else if !f.fcsOk then s.setFld 0x9203 port 63 32 (s.fld 0x9203 port 63 32 + 1)
  else if !frameLength f.bytes then s
  else if s.fld 0x5200 port 63 63 = 1 && s.fld 0x5200 port 15 0 = f.etype then s.remoteLaunch port (framePayload f.bytes)
  else match pausesOf f with
  | some l => l.foldl (pausePriority port) s
  | none => match s.rxRing port f.vid f.pcp with
    | none => s.noRing port
    | some r => (s.storeFrame r f.bytes).getD (s.noRing port)
/-- A transmit ring has a descriptor to send. -/
def txReady (s : State) (r : Nat) : Bool :=
  s.fld 0x9200 r 63 63 == 1 && s.fld 0x9200 r 62 62 == 1 && s.erHead r != s.erTail r && s.ctxState (s.erOwner r) != 0
/-- The frame of the descriptor at HEAD; none on a fault or poison. -/
def txFrame (s : State) (r : Nat) : Option (State × Bytes) :=
  match s.readGlobal ⟨s.erOwner r, s.erSlot r, true, false, 0⟩ 32 with
  | .ok (s1, d, false) => s1.readSpan (s.erOwner r) (piecesOf (pktField d 0 8) (List.replicate (pktField d 8 2) 0))
  | _ => none
/-- The frame at HEAD of a ring has a priority that is paused (R391). -/
def txPaused (s : State) (r : Nat) : Bool :=
  match s.txFrame r with
  | some (_, b) => s.paused (r / 64) (framePriority b)
  | none => false
/-- The transmit ring of a port whose turn it is, but for paused priorities (R391, R392). -/
def txNext (s : State) (port : Nat) : Option Nat :=
  let turn := lookupD 0 s.ethTurn port
  ((List.range 64).map fun i => 64 * port + (turn + i) % 64).find? fun r => s.txReady r && !s.txPaused r
/-- ETH_TX_FRAME: the descriptor at HEAD is sent, and HEAD advances; one that cannot be read, or whose length is none that the ports take,
is passed over (R391, R392; logs 12 and 92). -/
def sendFrame (s : State) (r : Nat) : State :=
  if !s.txReady r || s.txPaused r then s
  else
    let s0 : State := { s with ethTurn := put s.ethTurn (r / 64) (r % 64 + 1) }
    match s0.txFrame r with
    | some (s1, b) => (if frameLength b then s1.emit (.ethernet (r / 64) b) else s1).erDone r
    | none => s0.erDone r

end State

/-- REMOTE_LAUNCH_REQUEST (R330 to R332). -/
def execRemoteLaunchRequest (port : Nat) (payload : Bytes) (s : State) : Host.Outcome State Fault Refusal :=
  .next (s.remoteLaunch port payload)
/-- ETH_RX_FRAME (R391, R392). -/
def execEthRxFrame (port : Nat) (frame : EthFrame) (s : State) : Host.Outcome State Fault Refusal :=
  .next (s.receiveFrame port frame)
/-- ETH_TX_FRAME (R392). -/
def execEthTxFrame (ring : Nat) (s : State) : Host.Outcome State Fault Refusal := .next (s.sendFrame ring)

end Sys2Proof.Machine
end

