-- ==== Sys2Proof/Machine/Boot.lean ====
section
/-!
DEFINITION. Power and reset (R8, R401, R433, R435, R437), secure boot and measurements (R403 to R405), SPDM answers (R406),
temperature (R433, R434) and function level reset (R397). Rows POWER_ON, WIPE_DONE, PCIE_ENUMERATION, RESET_REQUEST,
THERMAL_TRIP, TEMPERATURE_SAMPLE, FUNCTION_LEVEL_RESET, GET_VERSION, GET_CAPABILITIES, NEGOTIATE_ALGORITHMS, GET_DIGESTS,
GET_CERTIFICATE, CHALLENGE, GET_MEASUREMENTS, SPDM_UNSUPPORTED_REQUEST and POWER_LOSS.
-/
namespace Sys2Proof.Machine

/-- Events that parts of the package make due among themselves; they end with a reset. -/
def internalEvent : Instr → Bool
  | .memoryResponse _ _ _ | .gangKill _ _ | .subonRequest _ | .subonReply _ _ | .homeSliceRequest _ => true
  | _ => false

namespace State

/-! ### Reset and power -/

/-- The life-cycle state that takes effect after the wipe of a reset: what LCADV has blown since the last one, or what that one left to
come (R405). -/
def lcComing (s : State) : Option Nat := (s.lcNext.toList ++ s.lcDue.toList).max?
/-- The state after a reset or a loss of power: as State.reset, with the fuses, the boot flash, what has left the package, and what still
comes to it from outside (R8, R401, R404, R405, R433). -/
def resetFrom (s : State) (on : Bool) : State :=
  let kept : Cells DWord := s.sys.filter fun e => e.1 / 4294967296 == 0xA001 || e.1 / 4294967296 == 0xA003 || e.1 / 4294967296 == 0xB000
  let r : State := { State.reset with
    sys := kept, power := { State.reset.power with on := on }, drawers := s.drawers, lcDue := s.lcComing, flash := s.flash, offers := s.offers
    outbox := s.outbox, inbox := s.inbox.filter fun i => !internalEvent i, freeCtr := s.freeCtr, cmdResult := s.cmdResult }
  if s.lcComing.isSome then r.setFld 0x3030 0 62 60 2 else r
/-- Loss of power (R433). -/
def powerOff (s : State) : State := s.resetFrom false

/-! ### Boot -/

/-- A boot that stops with an error (R403, R404). -/
def bootFail (s : State) (stage err img : Nat) : State :=
  ((s.setFld 0xA000 0 63 60 stage).setFld 0xA000 0 59 56 err).setFld 0xA000 0 55 48 img
/-- The images of a bundle in order: each is verified and measured, up to the first that fails (R403). -/
def bootImages (key : Bytes) (s : State) (i : Nat) : List BootImage → State
  | [] => { s.setFld 0xA000 0 63 60 4 with power := { s.power with booted := true } }
  | x :: rest =>
    let d := sm3 x.bytes
    if !Config.sm2Verify key (d ++ [BitVec.ofNat 8 i]) x.sig then s.bootFail 3 4 i
    else bootImages key (s.extendMr (x.mr.val + 1) d) (i + 1) rest
/-- The boot ROM on a bundle: the signing certificate gives its key and version (R403; byte widths of LC and RBCNT are log 13). -/
def bootRom (s : State) (b : Bundle) : State :=
  let h := sm3 b.rootKey
  let lc := s.lifeCycle
  let rb := s.fld 0xA003 0 5 0
  if h ≠ Config.rootHash && !(lc < 2 && h = Config.devHash) then s.bootFail 1 1 0
  else if !Config.sm2Verify b.rootKey b.cert [] then s.bootFail 2 2 0
  else if Config.certVersion b.cert < rb then s.bootFail 2 3 0
  else
    bootImages (Config.certKey b.cert) (s.extendMr 0 (sm3 ([BitVec.ofNat 8 lc, BitVec.ofNat 8 rb] ++ b.cert))) 0 b.images
/-- A package with its rails up and its reference clock locked runs the boot ROM on a bundle; the wipe runs beside it (R401, R403,
R435). -/
def startUp (s : State) (b : Bundle) : State :=
  let t := s.resetFrom true
  ({ t with power := { t.power with lock := true } } : State).bootRom b
/-- POWER_ON: rails, clock, boot ROM on the bundle in the flash; the wipe runs until WIPE_DONE (R401, R403, R435). -/
def powerUp (s : State) (b : Bundle) : State := ({ s with flash := some b } : State).startUp b
/-- RESET_REQUEST: the package is reset as by a power-on, boot ROM and all (R403, R437). -/
def resetStep (s : State) : State :=
  match s.power.on, s.flash with
  | true, some b => s.startUp b
  | on, _ => s.resetFrom on
/-- The boot ROM has run to its end, or has stopped with an error (R403, R435). -/
def bootOver (s : State) : Bool := s.fld 0xA000 0 63 60 == 4 || s.fld 0xA000 0 59 56 != 0
/-- WIPE_DONE, once the boot ROM is over: every memory is zero, a new life-cycle state takes effect, and after a boot the memory links
begin to train (R8, R401, R403, R405, R435). -/
def wipeStep (s : State) : State :=
  if s.fld 0x3030 0 63 63 = 0 || !s.bootOver then s
  else
    let s1 := ((s.setFld 0x3030 0 63 63 0).setFld 0x3030 0 11 0 (32 * s.drawers.length))
    let s2 : State := { s1 with drawer := Store.zero, dsp := [], l1 := [], l2 := [], icache := [], tc := [] }
    let s3 : State := match s.lcDue with
      | some t => { s2.setFld 0xA001 0 1 0 (max t s2.lifeCycle) with lcDue := none }
      | none => s2
    if s.power.booted && !s.power.trained then s3.startTraining (linksOf false) else s3
/-- PCIE_ENUMERATION: the windows open once the boot ROM is done (R435). -/
def pcieStep (s : State) : State :=
  if s.bootOver then { s with power := { s.power with pcie := true } } else s

/-! ### Temperature and function level reset -/

/-- TEMPERATURE_SAMPLE: TJ is set, WARN rises at WARNT, and a die at TRIPT stops the package (R433, R434). -/
def sampleStep (s : State) (die : Nat) (tj : BitVec 12) : State :=
  if 4 ≤ die then s
  else if s.fld 0xB006 0 27 16 ≤ tj.toNat then s.powerOff
  else
    let s1 := s.setFld 0xB004 die 11 0 tj.toNat
    if s.fld 0xB006 0 11 0 ≤ tj.toNat then s1.setFld 0xB004 die 63 63 1 else s1
/-- FUNCTION_LEVEL_RESET of a virtual function: its partition's contexts are torn down, and its die-scratchpad range is zeroed
(R397). -/
def flrStep (s : State) (vf : Nat) : State :=
  match s.vfPart vf with
  | none => s
  | some p =>
    let s1 := (s.liveContexts.filter fun c => s.partOf c == p).foldl (fun t c => (t.teardownCtx c).1) s
    let base := 65536 * s.fld 0x3008 p 9 0
    { s1 with dsp := mapValues (fun _ m => storeOutside m base (base + 65536 * s.fld 0x3008 p 42 32)) s1.dsp }

/-! ### The board controller (R437) -/

/-- What the board controller reads: DEVID, BOOTSTAT, LCSTATE, WIPESTAT, and every instance of TEMP and PWR; none for any other state
(R437). A reading of PWR leaves the next open value behind. -/
def boardRead (s : State) (idx inst : Nat) : Option (State × DWord) :=
  let known := idx == 0xB000 || idx == 0xA000 || idx == 0xA001 || idx == 0x3030 || idx == 0xB004 || idx == 0xB005
  if known && instOk idx inst then some (s.sysRead deviceWho idx inst) else none
/-- The reference-clock lock, as the board controller reads it (R435, R437). -/
def boardLock (s : State) : Bool := s.power.lock
/-- The alert line: a TEMP.WARN is set (R437). -/
def alertLine (s : State) : Bool := (List.range 4).any fun die => s.fld 0xB004 die 63 63 == 1

/-! ### SPDM -/

/-- An SPDM message: version, code and two parameters, then its body. -/
def spdmMsg (ver code p1 p2 : Nat) (body : Bytes) : Bytes :=
  [BitVec.ofNat 8 ver, BitVec.ofNat 8 code, BitVec.ofNat 8 p1, BitVec.ofNat 8 p2] ++ body
/-- A request is made under a version that is answered: 1.2 or 1.3 (R406). -/
def spdmKnown (m : Bytes) : Bool := m.getD 0 0x12 == 0x12 || m.getD 0 0x12 == 0x13
/-- Version an answer is given under: that of the request, 1.2 where it has none that is answered. -/
def spdmVer (m : Bytes) : Nat := if spdmKnown m then (m.getD 0 0x12).toNat else 0x12
/-- Parameters of a request. -/
def spdmP1 (m : Bytes) : Nat := (m.getD 2 0).toNat
def spdmP2 (m : Bytes) : Nat := (m.getD 3 0).toNat
/-- An ERROR answer (R406): 0x07 UnsupportedRequest, 0x05 Unspecified, 0x01 InvalidRequest, 0x41 VersionMismatch. -/
def spdmError (m : Bytes) (code : Nat) : Bytes := spdmMsg (spdmVer m) 0x7F code 0 []
/-- An answer leaves by the DOE mailbox of the physical function; the transcript holds both messages (R406). -/
def spdmAnswer (s : State) (fn : Nat) (m a : Bytes) : State :=
  if fn ≠ 0 then s else { s with spdmLog := s.spdmLog ++ m ++ a }.emit (.spdm a)
/-- A request under 1.2 or 1.3 is answered by what follows, another by an ERROR (R406; log 46). -/
def spdmServe (s : State) (fn : Nat) (m : Bytes) (go : State) : State :=
  if spdmKnown m then go else s.spdmAnswer fn m (spdmError m 0x41)
/-- A number of some width where a bit of it is offered at an offset of a request, else zero. -/
def spdmPick (m : Bytes) (off bit n : Nat) : Bytes := toBytes n (if (ofBytes ((m.drop off).take n)).testBit bit then 2 ^ bit else 0)
/-- The body of ALGORITHMS: of what a request offers, the DMTF measurements with SM3_256, SM2_ECC_SM2_P256 and SM3_256 are selected,
and nothing else (R406; log 91). -/
def spdmAlgorithms (m : Bytes) : Bytes :=
  toBytes 2 36 ++ spdmPick m 6 0 1 ++ [0] ++ (if (m.getD 6 0).getLsbD 0 then toBytes 4 128 else toBytes 4 0) ++ spdmPick m 8 9 4 ++
    spdmPick m 12 6 4 ++ List.replicate 16 0
/-- 32 open bytes (log 1). -/
def spdmNonce (s : State) : State × Bytes :=
  ((((s.drawFree).drawFree).drawFree).drawFree, (List.range 4).flatMap fun i => toBytes 8 (Config.free (s.freeCtr + i)).toNat)
/-- A measurement block: index i + 1 carries MRi as a raw digest (R406). -/
def spdmBlock (s : State) (i : Nat) : Bytes :=
  [BitVec.ofNat 8 (i + 1), 1] ++ toBytes 2 35 ++ [0] ++ toBytes 2 32 ++ s.measured i
/-- Blocks a GET_MEASUREMENTS asks for: none when the index names none (R406). -/
def spdmBlocks (s : State) (op : Nat) : Option (List Bytes) :=
  if op = 0 then some []
  else if op = 0xFF then some ((List.range 16).map s.spdmBlock)
  else if op ≤ 16 then some [s.spdmBlock (op - 1)] else none
/-- CHALLENGE's answer: chain digest, nonce, measurement digest, signature of the identity key; ERROR in RETURN (R405, R406). -/
def spdmChallenge (s : State) (fn : Nat) (m : Bytes) : State :=
  if s.lifeCycle = 3 then s.spdmAnswer fn m (spdmError m 5)
  else
    let n := s.spdmNonce
    let sum := if spdmP2 m = 0 then [] else sm3 ((List.range 16).flatMap s.spdmBlock)
    let a := spdmMsg (spdmVer m) 0x03 (spdmP1 m) 1 (sm3 Config.certChain ++ n.2 ++ sum ++ toBytes 2 0)
    n.1.spdmAnswer fn m (a ++ Config.identitySign (s.spdmLog ++ m ++ a))
/-- GET_MEASUREMENTS' answer, signed where asked; a signed one is ERROR in RETURN (R405, R406). -/
def spdmMeasure (s : State) (fn : Nat) (m : Bytes) : State :=
  let signed := spdmP1 m % 2 = 1
  if signed && s.lifeCycle = 3 then s.spdmAnswer fn m (spdmError m 5)
  else match s.spdmBlocks (spdmP2 m) with
    | none => s.spdmAnswer fn m (spdmError m 1)
    | some bs =>
      let n := s.spdmNonce
      let rec_ := bs.flatten
      let a := spdmMsg (spdmVer m) 0x60 (if spdmP2 m = 0 then 16 else 0) 0
        (toBytes 1 bs.length ++ toBytes 3 rec_.length ++ rec_ ++ n.2 ++ toBytes 2 0)
      n.1.spdmAnswer fn m (if signed then a ++ Config.identitySign (s.spdmLog ++ m ++ a) else a)
/-- GET_CERTIFICATE's answer: the portion of slot 0's chain (R406). -/
def spdmCertificate (m : Bytes) : Bytes :=
  let off := ofBytes ((m.drop 4).take 2)
  let len := min (ofBytes ((m.drop 6).take 2)) (Config.certChain.length - off)
  if spdmP1 m % 16 ≠ 0 then spdmError m 1
  else spdmMsg (spdmVer m) 0x02 0 0
    (toBytes 2 len ++ toBytes 2 (Config.certChain.length - off - len) ++ (Config.certChain.drop off).take len)

end State

/-- POWER_ON (R401, R403, R435). -/
def execPowerOn (bundle : Bundle) (s : State) : Host.Outcome State Fault Refusal := .next (s.powerUp bundle)
/-- WIPE_DONE (R401, R405, R435). -/
def execWipeDone (s : State) : Host.Outcome State Fault Refusal := .next s.wipeStep
/-- PCIE_ENUMERATION (R435). -/
def execPcieEnumeration (s : State) : Host.Outcome State Fault Refusal := .next s.pcieStep
/-- RESET_REQUEST (R437). -/
def execResetRequest (s : State) : Host.Outcome State Fault Refusal := .next s.resetStep
/-- THERMAL_TRIP: a die has reached TRIPT and the package stops (R433). -/
def execThermalTrip (die : Nat) (s : State) : Host.Outcome State Fault Refusal := .next (if die < 4 then s.powerOff else s)
/-- TEMPERATURE_SAMPLE (R433, R434). -/
def execTemperatureSample (die : Nat) (tj : BitVec 12) (s : State) : Host.Outcome State Fault Refusal :=
  .next (s.sampleStep die tj)
/-- FUNCTION_LEVEL_RESET (R397). -/
def execFunctionLevelReset (vf : Nat) (s : State) : Host.Outcome State Fault Refusal := .next (s.flrStep vf)
/-- GET_VERSION: 1.2 and 1.3; a new transcript begins (R406). -/
def execGetVersion (fn : Nat) (msg : Bytes) (s : State) : Host.Outcome State Fault Refusal :=
  .next (({ s with spdmLog := if fn = 0 then [] else s.spdmLog } : State).spdmAnswer fn msg
    (State.spdmMsg 0x10 0x04 0 0 (toBytes 2 0x0200 ++ toBytes 2 0x1200 ++ toBytes 2 0x1300)))
/-- GET_CAPABILITIES (R406). -/
def execGetCapabilities (fn : Nat) (msg : Bytes) (s : State) : Host.Outcome State Fault Refusal :=
  .next (s.spdmServe fn msg (s.spdmAnswer fn msg (State.spdmMsg (State.spdmVer msg) 0x61 0 0 Config.spdmCapabilities)))
/-- NEGOTIATE_ALGORITHMS: SM2 and SM3 only (R406). -/
def execNegotiateAlgorithms (fn : Nat) (msg : Bytes) (s : State) : Host.Outcome State Fault Refusal :=
  .next (s.spdmServe fn msg (s.spdmAnswer fn msg (State.spdmMsg (State.spdmVer msg) 0x63 0 0 (State.spdmAlgorithms msg))))
/-- GET_DIGESTS: slot 0 holds a chain (R406). -/
def execGetDigests (fn : Nat) (msg : Bytes) (s : State) : Host.Outcome State Fault Refusal :=
  .next (s.spdmServe fn msg (s.spdmAnswer fn msg (State.spdmMsg (State.spdmVer msg) 0x01 0 1 (sm3 Config.certChain))))
/-- GET_CERTIFICATE (R406). -/
def execGetCertificate (fn : Nat) (msg : Bytes) (s : State) : Host.Outcome State Fault Refusal :=
  .next (s.spdmServe fn msg (s.spdmAnswer fn msg (State.spdmCertificate msg)))
/-- CHALLENGE (R405, R406). -/
def execChallenge (fn : Nat) (msg : Bytes) (s : State) : Host.Outcome State Fault Refusal :=
  .next (s.spdmServe fn msg (s.spdmChallenge fn msg))
/-- GET_MEASUREMENTS (R405, R406). -/
def execGetMeasurements (fn : Nat) (msg : Bytes) (s : State) : Host.Outcome State Fault Refusal :=
  .next (s.spdmServe fn msg (s.spdmMeasure fn msg))
/-- SPDM_UNSUPPORTED_REQUEST: ERROR, UnsupportedRequest (R406). -/
def execSpdmUnsupportedRequest (fn : Nat) (msg : Bytes) (s : State) : Host.Outcome State Fault Refusal :=
  .next (s.spdmAnswer fn msg (State.spdmError msg 7))
/-- POWER_LOSS (R433, R437). -/
def execPowerLoss (s : State) : Host.Outcome State Fault Refusal := .next s.powerOff

end Sys2Proof.Machine
end

