-- ==== Sys2Proof/Machine/Dispatch.lean ====
section
/-!
DEFINITION. The machine's meaning of an instruction: one arm per constructor, each a direct call of its own definition.
-/
namespace Sys2Proof.Machine

/-- What an instruction, or an event of another agent of the package, makes of a state. -/
def exec (i : Instr) (s : State) : Host.Outcome State Fault Refusal :=
  match i with
  | .iaddS h ty sat sub d a b c => Sys2Proof.Machine.execIaddS h ty sat sub d a b c s
  | .iaddW h ty sat sub d a imm c => Sys2Proof.Machine.execIaddW h ty sat sub d a imm c s
  | .isubS h ty sat sub d a b c => Sys2Proof.Machine.execIsubS h ty sat sub d a b c s
  | .isubW h ty sat sub d a imm c => Sys2Proof.Machine.execIsubW h ty sat sub d a imm c s
  | .imulS h ty sat d a b => Sys2Proof.Machine.execImulS h ty sat d a b s
  | .imulW h ty sat d a imm => Sys2Proof.Machine.execImulW h ty sat d a imm s
  | .imulhS h ty d a b => Sys2Proof.Machine.execImulhS h ty d a b s
  | .imulhW h ty d a imm => Sys2Proof.Machine.execImulhW h ty d a imm s
  | .imad h ty sat d a b c => Sys2Proof.Machine.execImad h ty sat d a b c s
  | .imadw h ty sat d a b c => Sys2Proof.Machine.execImadw h ty sat d a b c s
  | .idivS h ty d a b => Sys2Proof.Machine.execIdivS h ty d a b s
  | .idivW h ty d a imm => Sys2Proof.Machine.execIdivW h ty d a imm s
  | .iremS h ty d a b => Sys2Proof.Machine.execIremS h ty d a b s
  | .iremW h ty d a imm => Sys2Proof.Machine.execIremW h ty d a imm s
  | .iminS h ty d a b => Sys2Proof.Machine.execIminS h ty d a b s
  | .iminW h ty d a imm => Sys2Proof.Machine.execIminW h ty d a imm s
  | .imaxS h ty d a b => Sys2Proof.Machine.execImaxS h ty d a b s
  | .imaxW h ty d a imm => Sys2Proof.Machine.execImaxW h ty d a imm s
  | .iabs h ty sat d a => Sys2Proof.Machine.execIabs h ty sat d a s
  | .ineg h ty sat d a => Sys2Proof.Machine.execIneg h ty sat d a s
  | .isad h ty sat d a b c => Sys2Proof.Machine.execIsad h ty sat d a b c s
  | .iadd64S h ty sat d a b => Sys2Proof.Machine.execIadd64S h ty sat d a b s
  | .iadd64W h ty sat d a imm => Sys2Proof.Machine.execIadd64W h ty sat d a imm s
  | .isub64S h ty sat d a b => Sys2Proof.Machine.execIsub64S h ty sat d a b s
  | .isub64W h ty sat d a imm => Sys2Proof.Machine.execIsub64W h ty sat d a imm s
  | .imul64 h ty sat d a b => Sys2Proof.Machine.execImul64 h ty sat d a b s
  | .andS h d a b => Sys2Proof.Machine.execAndS h d a b s
  | .andW h d a imm => Sys2Proof.Machine.execAndW h d a imm s
  | .orS h d a b => Sys2Proof.Machine.execOrS h d a b s
  | .orW h d a imm => Sys2Proof.Machine.execOrW h d a imm s
  | .xorS h d a b => Sys2Proof.Machine.execXorS h d a b s
  | .xorW h d a imm => Sys2Proof.Machine.execXorW h d a imm s
  | .andnS h d a b => Sys2Proof.Machine.execAndnS h d a b s
  | .andnW h d a imm => Sys2Proof.Machine.execAndnW h d a imm s
  | .ornS h d a b => Sys2Proof.Machine.execOrnS h d a b s
  | .ornW h d a imm => Sys2Proof.Machine.execOrnW h d a imm s
  | .not h d a => Sys2Proof.Machine.execNot h d a s
  | .shlS h d a b => Sys2Proof.Machine.execShlS h d a b s
  | .shlW h d a imm => Sys2Proof.Machine.execShlW h d a imm s
  | .shrS h d a b => Sys2Proof.Machine.execShrS h d a b s
  | .shrW h d a imm => Sys2Proof.Machine.execShrW h d a imm s
  | .sarS h d a b => Sys2Proof.Machine.execSarS h d a b s
  | .sarW h d a imm => Sys2Proof.Machine.execSarW h d a imm s
  | .rotS h d a b => Sys2Proof.Machine.execRotS h d a b s
  | .rotW h d a imm => Sys2Proof.Machine.execRotW h d a imm s
  | .fsh h dir d a b c => Sys2Proof.Machine.execFsh h dir d a b c s
  | .bfx h ty d a b c => Sys2Proof.Machine.execBfx h ty d a b c s
  | .bfi h d a b c => Sys2Proof.Machine.execBfi h d a b c s
  | .popc h wide d a => Sys2Proof.Machine.execPopc h wide d a s
  | .clz h wide d a => Sys2Proof.Machine.execClz h wide d a s
  | .ctz h wide d a => Sys2Proof.Machine.execCtz h wide d a s
  | .brev h wide d a => Sys2Proof.Machine.execBrev h wide d a s
  | .permS h d a b => Sys2Proof.Machine.execPermS h d a b s
  | .permW h d a imm => Sys2Proof.Machine.execPermW h d a imm s
  | .isetS h ty cmp d a b => Sys2Proof.Machine.execIsetS h ty cmp d a b s
  | .isetW h ty cmp d a imm => Sys2Proof.Machine.execIsetW h ty cmp d a imm s
  | .isetvS h ty cmp d a b => Sys2Proof.Machine.execIsetvS h ty cmp d a b s
  | .isetvW h ty cmp d a imm => Sys2Proof.Machine.execIsetvW h ty cmp d a imm s
  | .sel h d a b c => Sys2Proof.Machine.execSel h d a b c s
  | .mov h wide d a => Sys2Proof.Machine.execMov h wide d a s
  | .movi h d imm => Sys2Proof.Machine.execMovi h d imm s
  | .movw h d imm => Sys2Proof.Machine.execMovw h d imm s
  | .plop h tt d a b c => Sys2Proof.Machine.execPlop h tt d a b c s
  | .p2v h bit d a => Sys2Proof.Machine.execP2v h bit d a s
  | .v2p h bit d a => Sys2Proof.Machine.execV2p h bit d a s
  | .getid h d code => Sys2Proof.Machine.execGetid h d code s
  | .br h cn a imm => Sys2Proof.Machine.execBr h cn a imm s
  | .bru h cn a tgt => Sys2Proof.Machine.execBru h cn a tgt s
  | .jmp h imm => Sys2Proof.Machine.execJmp h imm s
  | .call h d imm => Sys2Proof.Machine.execCall h d imm s
  | .callr h d a => Sys2Proof.Machine.execCallr h d a s
  | .ret h a => Sys2Proof.Machine.execRet h a s
  | .reform h a imm => Sys2Proof.Machine.execReform h a imm s
  | .exit h => Sys2Proof.Machine.execExit h s
  | .nopS h => Sys2Proof.Machine.execNopS h s
  | .nopW h => Sys2Proof.Machine.execNopW h s
  | .nopX h => Sys2Proof.Machine.execNopX h s
  | .yield h => Sys2Proof.Machine.execYield h s
  | .nap h a => Sys2Proof.Machine.execNap h a s
  | .faddS h fmt rnd d a b => Sys2Proof.Machine.execFaddS h fmt rnd d a b s
  | .faddW h fmt rnd d a imm => Sys2Proof.Machine.execFaddW h fmt rnd d a imm s
  | .fsubS h fmt rnd d a b => Sys2Proof.Machine.execFsubS h fmt rnd d a b s
  | .fsubW h fmt rnd d a imm => Sys2Proof.Machine.execFsubW h fmt rnd d a imm s
  | .fmulS h fmt rnd d a b => Sys2Proof.Machine.execFmulS h fmt rnd d a b s
  | .fmulW h fmt rnd d a imm => Sys2Proof.Machine.execFmulW h fmt rnd d a imm s
  | .ffma h fmt rnd d a b c => Sys2Proof.Machine.execFfma h fmt rnd d a b c s
  | .fdiv h fmt rnd d a b => Sys2Proof.Machine.execFdiv h fmt rnd d a b s
  | .fminS h fmt d a b => Sys2Proof.Machine.execFminS h fmt d a b s
  | .fminW h fmt d a imm => Sys2Proof.Machine.execFminW h fmt d a imm s
  | .fmaxS h fmt d a b => Sys2Proof.Machine.execFmaxS h fmt d a b s
  | .fmaxW h fmt d a imm => Sys2Proof.Machine.execFmaxW h fmt d a imm s
  | .fsetS h fmt cmp d a b => Sys2Proof.Machine.execFsetS h fmt cmp d a b s
  | .fsetW h fmt cmp d a imm => Sys2Proof.Machine.execFsetW h fmt cmp d a imm s
  | .fsetvS h fmt cmp d a b => Sys2Proof.Machine.execFsetvS h fmt cmp d a b s
  | .fsetvW h fmt cmp d a imm => Sys2Proof.Machine.execFsetvW h fmt cmp d a imm s
  | .fcls h fmt d a => Sys2Proof.Machine.execFcls h fmt d a s
  | .frnd h fmt rnd d a => Sys2Proof.Machine.execFrnd h fmt rnd d a s
  | .f2i h ty fmt rnd d a => Sys2Proof.Machine.execF2i h ty fmt rnd d a s
  | .i2f h ty fmt rnd d a => Sys2Proof.Machine.execI2f h ty fmt rnd d a s
  | .fcvt h dst src rnd d a => Sys2Proof.Machine.execFcvt h dst src rnd d a s
  | .rcp h fmt rnd d a => Sys2Proof.Machine.execRcp h fmt rnd d a s
  | .rsq h fmt rnd d a => Sys2Proof.Machine.execRsq h fmt rnd d a s
  | .sqrt h fmt rnd d a => Sys2Proof.Machine.execSqrt h fmt rnd d a s
  | .exp2 h fmt rnd d a => Sys2Proof.Machine.execExp2 h fmt rnd d a s
  | .log2 h fmt rnd d a => Sys2Proof.Machine.execLog2 h fmt rnd d a s
  | .fstat h d => Sys2Proof.Machine.execFstat h d s
  | .hadd2 h fmt rnd d a b => Sys2Proof.Machine.execHadd2 h fmt rnd d a b s
  | .hsub2 h fmt rnd d a b => Sys2Proof.Machine.execHsub2 h fmt rnd d a b s
  | .hmul2 h fmt rnd d a b => Sys2Proof.Machine.execHmul2 h fmt rnd d a b s
  | .hfma2 h fmt rnd d a b c => Sys2Proof.Machine.execHfma2 h fmt rnd d a b c s
  | .hmin2 h fmt d a b => Sys2Proof.Machine.execHmin2 h fmt d a b s
  | .hmax2 h fmt d a b => Sys2Proof.Machine.execHmax2 h fmt d a b s
  | .hcvt2 h op fmt rnd d a b => Sys2Proof.Machine.execHcvt2 h op fmt rnd d a b s
  | .vadd2 h ty sat d a b => Sys2Proof.Machine.execVadd2 h ty sat d a b s
  | .vsub2 h ty sat d a b => Sys2Proof.Machine.execVsub2 h ty sat d a b s
  | .vmin2 h ty d a b => Sys2Proof.Machine.execVmin2 h ty d a b s
  | .vmax2 h ty d a b => Sys2Proof.Machine.execVmax2 h ty d a b s
  | .vacsel h sat d a b c sv => Sys2Proof.Machine.execVacsel h sat d a b c sv s
  | .vshf h op d c a b => Sys2Proof.Machine.execVshf h op d c a b s
  | .vbfly h d c a mask => Sys2Proof.Machine.execVbfly h d c a mask s
  | .vred h op ty sat rnd d a => Sys2Proof.Machine.execVred h op ty sat rnd d a s
  | .vscan h op ty sat rnd d a => Sys2Proof.Machine.execVscan h op ty sat rnd d a s
  | .vote h op d a => Sys2Proof.Machine.execVote h op d a s
  | .ldS h ord sc sz d a am off => Sys2Proof.Machine.execLdS h ord sc sz d a am off s
  | .ldW h ord sc sz d a am off => Sys2Proof.Machine.execLdW h ord sc sz d a am off s
  | .stS h ord sc sz d a am off => Sys2Proof.Machine.execStS h ord sc sz d a am off s
  | .stW h ord sc sz d a am off => Sys2Proof.Machine.execStW h ord sc sz d a am off s
  | .atom h ord sc aop ty d a am c off => Sys2Proof.Machine.execAtom h ord sc aop ty d a am c off s
  | .acas h ord sc ty d ps a am c n off => Sys2Proof.Machine.execAcas h ord sc ty d ps a am c n off s
  | .red h ord sc aop ty a am c off => Sys2Proof.Machine.execRed h ord sc aop ty a am c off s
  | .prefS h lv a am off => Sys2Proof.Machine.execPrefS h lv a am off s
  | .prefW h lv a am off => Sys2Proof.Machine.execPrefW h lv a am off s
  | .cflushS h op a am off => Sys2Proof.Machine.execCflushS h op a am off s
  | .cflushW h op a am off => Sys2Proof.Machine.execCflushW h op a am off s
  | .fence h ord sc => Sys2Proof.Machine.execFence h ord sc s
  | .bar h hood k => Sys2Proof.Machine.execBar h hood k s
  | .bara h d k => Sys2Proof.Machine.execBara h d k s
  | .barw h a k => Sys2Proof.Machine.execBarw h a k s
  | .subon h prime d a b c l => Sys2Proof.Machine.execSubon h prime d a b c l s
  | .suboff h d a => Sys2Proof.Machine.execSuboff h d a s
  | .subq h d a => Sys2Proof.Machine.execSubq h d a s
  | .subfl h => Sys2Proof.Machine.execSubfl h s
  | .rmac h z d a b desc => Sys2Proof.Machine.execRmac h z d a b desc s
  | .rmag h z d a b c desc => Sys2Proof.Machine.execRmag h z d a b c desc s
  | .acz h d => Sys2Proof.Machine.execAcz h d s
  | .acldS h d a am off => Sys2Proof.Machine.execAcldS h d a am off s
  | .acldW h d a am off => Sys2Proof.Machine.execAcldW h d a am off s
  | .acstS h z d a am off => Sys2Proof.Machine.execAcstS h z d a am off s
  | .acstW h z d a am off => Sys2Proof.Machine.execAcstW h z d a am off s
  | .acrd h d a e => Sys2Proof.Machine.execAcrd h d a e s
  | .acwr h d a e => Sys2Proof.Machine.execAcwr h d a e s
  | .acmul h rnd d a b => Sys2Proof.Machine.execAcmul h rnd d a b s
  | .cpi h d a b c desc => Sys2Proof.Machine.execCpi h d a b c desc s
  | .cpo h d a b c desc => Sys2Proof.Machine.execCpo h d a b c desc s
  | .cpl h d a b c desc => Sys2Proof.Machine.execCpl h d a b c desc s
  | .cpr h d a b c desc => Sys2Proof.Machine.execCpr h d a b c desc s
  | .cpf h d b c desc => Sys2Proof.Machine.execCpf h d b c desc s
  | .cpq h d a k => Sys2Proof.Machine.execCpq h d a k s
  | .cpk h d a k => Sys2Proof.Machine.execCpk h d a k s
  | .tlwS h a k => Sys2Proof.Machine.execTlwS h a k s
  | .tlwW h imm k => Sys2Proof.Machine.execTlwW h imm k s
  | .tlwCtr h sc d a am off => Sys2Proof.Machine.execTlwCtr h sc d a am off s
  | .tlr h iss d k => Sys2Proof.Machine.execTlr h iss d k s
  | .tladv h d k => Sys2Proof.Machine.execTladv h d k s
  | .hire h win comb d a c imm => Sys2Proof.Machine.execHire h win comb d a c imm s
  | .hjoin h d a b => Sys2Proof.Machine.execHjoin h d a b s
  | .hsync h => Sys2Proof.Machine.execHsync h s
  | .hrd h d k => Sys2Proof.Machine.execHrd h d k s
  | .hret h a => Sys2Proof.Machine.execHret h a s
  | .hrel h => Sys2Proof.Machine.execHrel h s
  | .lnch h d a q => Sys2Proof.Machine.execLnch h d a q s
  | .trap h n => Sys2Proof.Machine.execTrap h n s
  | .bkpt h => Sys2Proof.Machine.execBkpt h s
  | .tret h mode a => Sys2Proof.Machine.execTret h mode a s
  | .tmfr h d code => Sys2Proof.Machine.execTmfr h d code s
  | .sysr h d a idx => Sys2Proof.Machine.execSysr h d a idx s
  | .sysw h d a idx => Sys2Proof.Machine.execSysw h d a idx s
  | .sysx h d a idx => Sys2Proof.Machine.execSysx h d a idx s
  | .eret h => Sys2Proof.Machine.execEret h s
  | .tinv h kind a b c => Sys2Proof.Machine.execTinv h kind a b c s
  | .cinvr h op a b c => Sys2Proof.Machine.execCinvr h op a b c s
  | .waiti h d a => Sys2Proof.Machine.execWaiti h d a s
  | .hamperAged core entry => Sys2Proof.Machine.execHamperAged core entry s
  | .hamperDraw core => Sys2Proof.Machine.execHamperDraw core s
  | .waveExchange core ig => Sys2Proof.Machine.execWaveExchange core ig s
  | .napExpire core slot tag => Sys2Proof.Machine.execNapExpire core slot tag s
  | .userTrapEntry th trap => Sys2Proof.Machine.execUserTrapEntry th trap s
  | .supervisorTrapEntry th trap => Sys2Proof.Machine.execSupervisorTrapEntry th trap s
  | .helperIssueLimit th => Sys2Proof.Machine.execHelperIssueLimit th s
  | .homeSliceRequest tag => Sys2Proof.Machine.execHomeSliceRequest tag s
  | .memoryResponse tag data poison => Sys2Proof.Machine.execMemoryResponse tag data poison s
  | .domainRequest req => Sys2Proof.Machine.execDomainRequest req s
  | .domainRefused tag => Sys2Proof.Machine.execDomainRefused tag s
  | .subonRequest req => Sys2Proof.Machine.execSubonRequest req s
  | .subonReply req status => Sys2Proof.Machine.execSubonReply req status s
  | .primingRead core entry => Sys2Proof.Machine.execPrimingRead core entry s
  | .basketFlushTimer pub sub => Sys2Proof.Machine.execBasketFlushTimer pub sub s
  | .basketApply pub sub => Sys2Proof.Machine.execBasketApply pub sub s
  | .matrixPassComplete pass => Sys2Proof.Machine.execMatrixPassComplete pass s
  | .copyUnit copy => Sys2Proof.Machine.execCopyUnit copy s
  | .copyComplete copy => Sys2Proof.Machine.execCopyComplete copy s
  | .serverReplenish srv => Sys2Proof.Machine.execServerReplenish srv s
  | .packetTake hq => Sys2Proof.Machine.execPacketTake hq s
  | .hoodPlace part => Sys2Proof.Machine.execHoodPlace part s
  | .placementReserve launch => Sys2Proof.Machine.execPlacementReserve launch s
  | .groupLeave gid => Sys2Proof.Machine.execGroupLeave gid s
  | .gangKill hood cause => Sys2Proof.Machine.execGangKill hood cause s
  | .watchdogExpire ctx => Sys2Proof.Machine.execWatchdogExpire ctx s
  | .drainComplete ctx => Sys2Proof.Machine.execDrainComplete ctx s
  | .drainLimitExpire ctx => Sys2Proof.Machine.execDrainLimitExpire ctx s
  | .saveComplete ctx => Sys2Proof.Machine.execSaveComplete ctx s
  | .saveIncomplete ctx => Sys2Proof.Machine.execSaveIncomplete ctx s
  | .sliceExpire part => Sys2Proof.Machine.execSliceExpire part s
  | .remoteLaunchRequest port payload => Sys2Proof.Machine.execRemoteLaunchRequest port payload s
  | .ethRxFrame port frame => Sys2Proof.Machine.execEthRxFrame port frame s
  | .ethTxFrame ring => Sys2Proof.Machine.execEthTxFrame ring s
  | .enable ctx => Sys2Proof.Machine.execEnable ctx s
  | .teardown ctx => Sys2Proof.Machine.execTeardown ctx s
  | .signal ctx => Sys2Proof.Machine.execSignal ctx s
  | .start ctx => Sys2Proof.Machine.execStart ctx s
  | .drain ctx => Sys2Proof.Machine.execDrain ctx s
  | .save ctx => Sys2Proof.Machine.execSave ctx s
  | .restore ctx => Sys2Proof.Machine.execRestore ctx s
  | .exportImage ctx => Sys2Proof.Machine.execExportImage ctx s
  | .importImage ctx => Sys2Proof.Machine.execImportImage ctx s
  | .sgig sg op => Sys2Proof.Machine.execSgig sg op s
  | .sgmx sg op => Sys2Proof.Machine.execSgmx sg op s
  | .sgcp sg op => Sys2Proof.Machine.execSgcp sg op s
  | .lsrv inst op => Sys2Proof.Machine.execLsrv inst op s
  | .rbind sg record => Sys2Proof.Machine.execRbind sg record s
  | .rbindHopRequest req => Sys2Proof.Machine.execRbindHopRequest req s
  | .rbindHopTimeout sg => Sys2Proof.Machine.execRbindHopTimeout sg s
  | .runbind sg pkg => Sys2Proof.Machine.execRunbind sg pkg s
  | .rmsync ctx => Sys2Proof.Machine.execRmsync ctx s
  | .trreplay fq op => Sys2Proof.Machine.execTrreplay fq op s
  | .frzero op => Sys2Proof.Machine.execFrzero op s
  | .retire op => Sys2Proof.Machine.execRetire op s
  | .errinj op => Sys2Proof.Machine.execErrinj op s
  | .ttcommit link => Sys2Proof.Machine.execTtcommit link s
  | .ttcommitShadowRequest link far => Sys2Proof.Machine.execTtcommitShadowRequest link far s
  | .ttcommitTimeout link => Sys2Proof.Machine.execTtcommitTimeout link s
  | .timetableTakeEffect link => Sys2Proof.Machine.execTimetableTakeEffect link s
  | .ringstep ring op => Sys2Proof.Machine.execRingstep ring op s
  | .rotate link op => Sys2Proof.Machine.execRotate link op s
  | .lcadv op => Sys2Proof.Machine.execLcadv op s
  | .rbadv op => Sys2Proof.Machine.execRbadv op s
  | .mrext mr digest => Sys2Proof.Machine.execMrext mr digest s
  | .tbset op => Sys2Proof.Machine.execTbset op s
  | .fqcfgWrite fq v => Sys2Proof.Machine.execFqcfgWrite fq v s
  | .fqheadWrite fq v => Sys2Proof.Machine.execFqheadWrite fq v s
  | .lqcfgWrite lq v => Sys2Proof.Machine.execLqcfgWrite lq v s
  | .queueTailWrite lq v win => Sys2Proof.Machine.execQueueTailWrite lq v win s
  | .erptrTailWrite ring v => Sys2Proof.Machine.execErptrTailWrite ring v s
  | .heatWrite ring v => Sys2Proof.Machine.execHeatWrite ring v s
  | .registerWrite idx inst v => Sys2Proof.Machine.execRegisterWrite idx inst v s
  | .hostSelWrite fn v => Sys2Proof.Machine.execHostSelWrite fn v s
  | .hostDataRead fn => Sys2Proof.Machine.execHostDataRead fn s
  | .hostDataWrite fn v => Sys2Proof.Machine.execHostDataWrite fn v s
  | .hostExecWrite fn v => Sys2Proof.Machine.execHostExecWrite fn v s
  | .refreshFrame link => Sys2Proof.Machine.execRefreshFrame link s
  | .scrubReturn link line status => Sys2Proof.Machine.execScrubReturn link line status s
  | .scrubRepair link => Sys2Proof.Machine.execScrubRepair link s
  | .linkSlot link pos => Sys2Proof.Machine.execLinkSlot link pos s
  | .drawerCommandExecute link flit => Sys2Proof.Machine.execDrawerCommandExecute link flit s
  | .flitReceive link flit => Sys2Proof.Machine.execFlitReceive link flit s
  | .handBack link dir wl slot => Sys2Proof.Machine.execHandBack link dir wl slot s
  | .wavelengthTrained link dir wl => Sys2Proof.Machine.execWavelengthTrained link dir wl s
  | .wavelengthRejoin link dir wl => Sys2Proof.Machine.execWavelengthRejoin link dir wl s
  | .wlthrWindowEnd link wl => Sys2Proof.Machine.execWlthrWindowEnd link wl s
  | .linkDown link => Sys2Proof.Machine.execLinkDown link s
  | .linkDownTimeout link => Sys2Proof.Machine.execLinkDownTimeout link s
  | .linkTrainDone link fout fin eoff peer => Sys2Proof.Machine.execLinkTrainDone link fout fin eoff peer s
  | .heatTakeEffect ring => Sys2Proof.Machine.execHeatTakeEffect ring s
  | .rotateTakeEffect link dir => Sys2Proof.Machine.execRotateTakeEffect link dir s
  | .settleEnd ring => Sys2Proof.Machine.execSettleEnd ring s
  | .monUpdate ring reading => Sys2Proof.Machine.execMonUpdate ring reading s
  | .powerOn bundle => Sys2Proof.Machine.execPowerOn bundle s
  | .wipeDone => Sys2Proof.Machine.execWipeDone s
  | .pcieEnumeration => Sys2Proof.Machine.execPcieEnumeration s
  | .resetRequest => Sys2Proof.Machine.execResetRequest s
  | .thermalTrip die => Sys2Proof.Machine.execThermalTrip die s
  | .temperatureSample die tj => Sys2Proof.Machine.execTemperatureSample die tj s
  | .functionLevelReset vf => Sys2Proof.Machine.execFunctionLevelReset vf s
  | .getVersion fn msg => Sys2Proof.Machine.execGetVersion fn msg s
  | .getCapabilities fn msg => Sys2Proof.Machine.execGetCapabilities fn msg s
  | .negotiateAlgorithms fn msg => Sys2Proof.Machine.execNegotiateAlgorithms fn msg s
  | .getDigests fn msg => Sys2Proof.Machine.execGetDigests fn msg s
  | .getCertificate fn msg => Sys2Proof.Machine.execGetCertificate fn msg s
  | .challenge fn msg => Sys2Proof.Machine.execChallenge fn msg s
  | .getMeasurements fn msg => Sys2Proof.Machine.execGetMeasurements fn msg s
  | .spdmUnsupportedRequest fn msg => Sys2Proof.Machine.execSpdmUnsupportedRequest fn msg s
  | .ctxevtTime ctx => Sys2Proof.Machine.execCtxevtTime ctx s
  | .powerLoss => Sys2Proof.Machine.execPowerLoss s

end Sys2Proof.Machine
end

