-- ==== Sys2Proof/Machine/Due.lean ====
section
/-!
DEFINITION. What the package does by itself next: for each kind of event inside it, whether one is due and the state after
it. Every choice changes the state, so the due events of a moment come to an end.
-/
namespace Sys2Proof.Machine
namespace State

/-! ### Requests at the home slices -/

/-- A request that waits at a home slice of this package: it has come by the network, and waits for no line (R321, R373). -/
def atSlice (s : State) (tag : Nat) (r : MemReq) : Bool :=
  !r.served && r.link.isNone && r.fill.isNone && s.onWay (.request tag) == 0
/-- The L2 slice request port of a request (R65, R319). -/
def portOf (s : State) (r : MemReq) : Nat := s.sliceOf r.ctx (reqVa r)
/-- An earlier request for the line of a request waits at the home slice for that line (R197). -/
def lineAwaited (s : State) (tag : Nat) (r : MemReq) : Bool :=
  let line (x : MemReq) : Nat × Nat := ((s.canon x.ctx (reqVa x)).asid, (s.canon x.ctx (reqVa x)).va / 128)
  s.reqs.any fun e => decide (e.1 < tag) && !e.2.served && e.2.fill.isSome && reqVa e.2 / 128 % 32 == reqVa r / 128 % 32 && line e.2 == line r
/-- Requests the home slices can serve: those that wait for no link that is down (R384), in arrival order. One that would be performed
at once while an earlier one waits for their line waits for it too: the requests for one line are performed in their order (R197). -/
def sliceQueue (s : State) : List (Nat × MemReq) :=
  s.reqs.filter fun r => s.atSlice r.1 r.2 && (s.reqDown r.2).isNone &&
    (!s.lineAwaited r.1 r.2 || (s.missPa (accessOf r.2)).isSome)
/-- Deficit of a server group at a port; the entry of group 256 holds the group being visited plus 1 (R319). -/
def deficit (s : State) (port g : Nat) : Nat := lookupD 0 s.deficits (port * 512 + g)
/-- A deficit set. -/
def setDeficit (s : State) (port g v : Nat) : State := { s with deficits := putD 0 s.deficits (port * 512 + g) v }
/-- The group a port serves next and its deficit before it sends: the visited group while its deficit covers a request of
128 bytes, else the next backlogged group, whose deficit grows by SWT x 128 (R319). -/
def drrGroup (s : State) (port : Nat) (groups : List Nat) : Option (Nat × Nat) :=
  let cur := s.deficit port 256
  if cur ≠ 0 && groups.contains (cur - 1) && decide (128 ≤ s.deficit port (cur - 1)) then
    some (cur - 1, s.deficit port (cur - 1))
  else
    let next := match (groups.filter fun g => decide (cur ≤ g)).min? with
      | some g => some g
      | none => groups.min?
    next.map fun g => (g, s.deficit port g + 128 * s.fld 0x4000 g 51 45)
/-- The request a port serves next by deficit round-robin, with the deficits after it (R319). -/
def drrTake (s : State) (port : Nat) : Option (State × Nat) :=
  let q := s.sliceQueue.filter fun r => s.portOf r.2 == port
  (s.drrGroup port (q.map fun r => s.sgrpOf r.2.ctx)).bind fun g =>
    let own := q.filter fun r => s.sgrpOf r.2.ctx == g.1
    own.head?.map fun r =>
      ((s.setDeficit port g.1 (if own.length = 1 then 0 else g.2 - 128)).setDeficit port 256 (g.1 + 1), r.1)

/-- HOME_SLICE_REQUEST is due: a request whose line has come from the drawer is served; else the first waiting request names the port
(R61, R319, R373). -/
def dueRequest (s : State) : Option State :=
  match s.reqs.find? fun r => !r.2.served && r.2.fill == some true && !s.lineAwaited r.1 r.2 with
  | some r => some (s.serveRequest r.1)
  | none => s.sliceQueue.head?.bind fun r => (s.drrTake (s.portOf r.2)).map fun x => x.1.serveRequest x.2
/-- A domain request that waited for its MC server is performed (R302, R304). -/
def dueDomain (s : State) : Option State := s.domainNext.map s.retryDomain
/-- A router output sends a flit (R321). -/
def dueNet (s : State) : Option State := s.routeDue.map s.routeFlit

/-! ### Threads -/

/-- Lanes of a core that threads, the shadows of protected ones and helpers hold (R34, R244). -/
def lanesHeld (s : State) (core : Nat) : Nat :=
  ((s.threads.filter fun e => e.2.core == core && e.2.status == .live).map fun e => if (s.pktOf e.2).prot then 2 else 1).sum
/-- A launch waits for a place on a helper's core, no lane there is vacant, and its context's IG server has an earlier deadline than
the recruiter's: the helper is released (R253; log 54). -/
def pressed (s : State) (k : Nat) (th : Thread) : Bool :=
  th.hidx != 0 && decide (2048 ≤ s.lanesHeld th.core) && s.launches.any fun e =>
    let own := s.issueKey k
    let new := s.igKey e.2.ctx th.core (s.thread (k - th.hidx)).slot
    e.2.waitFrom.isSome && s.partHasCore (s.partOf e.2.ctx) th.core && s.srvInstalled new &&
      (!s.srvInstalled own || decide ((s.srv new).d < (s.srv own).d))
/-- NAP_EXPIRE, CTXEVT_TIME, an end of a drain, a trap that waits for its thread, HELPER_ISSUE_LIMIT (R78, R171, R253, R257, R290,
R299). -/
def dueThread (s : State) : Option State :=
  s.threads.findSome? fun e =>
    if e.2.status != .live then none
    else if e.2.hidx ≠ 0 && (decide (65536 ≤ e.2.issued) || s.pressed e.1 e.2) then some (s.forceRelease e.1)
    else match e.2.wait with
      | .nap t => if t ≤ s.clk then some (s.expireNap e.2.core e.2.slot e.2.tag) else none
      | .event m => if s.events e.2.ctx &&& m ≠ 0 then some (s.wakeEvents e.2.ctx) else none
      | .drain pub sub mark => if s.updatesBelow pub sub mark then none else some s.wakeDrains
      | .entry sup t => if e.2.pend = 0 then some (s.enterTrap sup e.1 t) else none
      | _ => none
/-- Whether the exchange of an issue group would move a wave (R32). -/
def exchangeDue (s : State) (core ig : Nat) : Bool :=
  let act := s.activeWaves core ig
  (s.nextPending core ig).isSome &&
    (decide (act.length < 8) || (act.any fun w => s.waveHeld core w.1) || (s.overdue core ig).isSome)
/-- HAMPER_AGED, HAMPER_DRAW and WAVE_EXCHANGE (R26 to R28, R32). -/
def dueWave (s : State) : Option State :=
  match s.cores.findSome? fun c => (c.2.hampers.find? fun h => s.ageDue h.2).map fun h => s.ageHamper c.1 h.1 with
  | some t => some t
  | none => match s.cores.find? fun c => (s.drawChoice c.1).isSome with
    | some c => some (s.drawNext c.1)
    | none => ((distinct ((keysOf s.waves).map (· / 16))).find? fun g => s.exchangeDue (g / 4) (g % 4)).map fun g =>
        s.exchangeIg (g / 4) (g % 4)

/-! ### Streams, matrix passes and copies -/

/-- A stream's oldest sent basket has come by the network and can be applied, in part at least (R67, R77, R83, R321). -/
def basketDue (s : State) (pub sub : Nat) (x : Stream) : Bool :=
  match x.sent with
  | [] => false
  | [] :: _ => true
  | (u :: _) :: _ => decide (s.onWay (.basket pub sub) < x.paid) && (s.applyUpdate u).isSome
/-- A priming piece can be read (R80). -/
def primeDue (s : State) (e : SubEntry) : Bool :=
  (match e.prime with
    | some (_ + 1) => true
    | _ => false) && (s.memberOf e.hood e.pmem).isSome && (s.memberOf e.hood e.smem).isSome
/-- BASKET_FLUSH_TIMER, BASKET_APPLY and PRIMING_READ (R76, R77, R80). -/
def dueStream (s : State) : Option State :=
  match s.streams.find? fun e => !e.2.basket.isEmpty && decide (e.2.since + 32 ≤ s.clk) with
  | some e => some (s.flushStream (e.1 / 1024) (e.1 % 1024))
  | none => match s.streams.find? fun e => decide (e.2.paid < e.2.sent.length) && !s.payHeld (e.1 / 1024) e.2 with
    | some e => some (s.payBasket (e.1 / 1024) (e.1 % 1024))
    | none => match s.streams.find? fun e => s.basketDue (e.1 / 1024) (e.1 % 1024) e.2 with
    | some e => some (s.applyStream (e.1 / 1024) (e.1 % 1024))
    | none => s.cores.findSome? fun c => (c.2.subOut.find? fun e => s.primeDue e.2).map fun e => s.primeNext c.1 e.1
/-- MATRIX_PASS_COMPLETE (R220). -/
def duePass (s : State) : Option State := (s.passes.find? fun p => s.instDue p.2.inst).map fun p => s.finishPass p.1
/-- A copy's unit is due: its context runs, its gang is not being killed, and no link it needs is down (R234, R239, R335, R363,
R384). -/
def copyDue (s : State) (id : Nat) (c : CopyRec) : Bool :=
  s.ctxIssues (s.copyCtx c) && (s.hood (s.group c.gid).hood).dying.isNone && s.unitDue id c && (s.copyDown id c).isEmpty
/-- The CP server of a copy. -/
def copyKey (s : State) (c : CopyRec) : SrvKey := s.cpKey (s.copyCtx c) c.core
/-- The copy of the least deadline, then of the lower server id, then the older one (R303). -/
def firstCopy (s : State) : List (Nat × CopyRec) → Option (Nat × CopyRec)
  | [] => none
  | c :: l =>
    let d (x : Nat × CopyRec) : Nat := (s.srv (s.copyKey x.2)).d
    match firstCopy s l with
    | none => some c
    | some e => some (if d e < d c || (d e == d c && decide ((s.copyKey e.2).id < (s.copyKey c.2).id)) then e else c)
/-- The copy whose unit a copy engine starts: of a server by R303, else of the background group whose turn it is (R306). -/
def chooseCopy (s : State) (core : Nat) (q : List (Nat × CopyRec)) : Option (Nat × CopyRec) :=
  let served := q.filter fun c => s.srvInstalled (s.copyKey c.2)
  if !served.isEmpty then s.firstCopy served
  else
    let far (c : Nat × CopyRec) : Nat := ((s.copyKey c.2).id + 256 - (s.core core).cpTurn) % 256
    q.find? fun c => q.all fun e => decide (far c ≤ far e)
/-- The router output a copy unit's data goes to: the home slice of a destination in global memory, else its core (R61, R321). -/
def unitOut (s : State) (c : CopyRec) : Nat :=
  match s.access (s.thread c.th) c.th c.dst 1 1 false false with
  | .ok (.global va) | .ok (.own va) => s.sliceOf (s.copyCtx c) va
  | _ => coreOut c.core
/-- An engine starts a unit of a copy, whose data goes by the network as bulk: the next one starts two core cycles later, 192 in a
frame (R300, R321). -/
def startUnit (s : State) (c : Nat × CopyRec) : State :=
  ((s.copyUnitStep c.1).sendPacket (s.unitOut c.2) vcBulk c.2.core 128 (.unit c.1)).modCore c.2.core fun k =>
    { k with cpNext := s.clk + 2
             cpTurn := if s.srvInstalled (s.copyKey c.2) then k.cpTurn else ((s.copyKey c.2).id + 1) % 256 }
/-- COPY_COMPLETE and COPY_UNIT: copies that end, pauses to note, and the units the free engines start (R234 to R237, R303). -/
def dueCopy (s : State) : Option State :=
  match s.copies.find? fun c => copyEnded c.2 with
  | some c => some (s.completeCopy c.1)
  | none =>
    let all := s.copies.filter fun c => s.copyDue c.1 c.2
    match all.find? fun c => (s.copyBlock c.1 c.2).isSome with
    | some c => some (s.copyUnitStep c.1)
    | none =>
      let free := all.filter fun c => decide ((s.core c.2.core).cpNext ≤ s.clk)
      match free with
      | [] => none
      | c :: _ => (s.chooseCopy c.2.core (free.filter fun e => e.2.core == c.2.core)).map s.startUnit

/-! ### Launches and contexts -/

/-- A poll of a queue's head takes, rejects or reads something; a poll that only waits changes nothing (R326, R327). -/
def duePacket (s : State) : Option State :=
  ((List.range 64).filter s.queueLive).findSome? fun hq =>
    let t := s.takePacket hq
    if t.sys = s.sys && t.heads = s.heads && t.stuckQ = s.stuckQ && t.launches = s.launches && t.faults = s.faults then none
    else some t
/-- GROUP_LEAVE, HOOD_PLACE and PLACEMENT_RESERVE (R327 to R329). -/
def dueLaunch (s : State) : Option State :=
  match s.groups.find? fun g => s.mayLeave g.1 with
  | some g => some (s.leaveGroup g.1)
  | none => match s.launches.find? fun l => s.reserveDue l.1 l.2 with
    | some l => some (s.reservePart l.1)
    | none => ((List.range 17).find? s.placeDue).map fun p => s.placeStep p (s.mayPlace p)
/-- A partition's rotation has a step to take: at most one change of slice in a frame (R399). -/
def sliceDue (s : State) (p : Nat) : Bool :=
  let cur := s.sliceCtx p (s.fld 0x3021 p 58 56)
  let holds := s.fld 0x3021 p 63 63 == 1
  let st := s.ctxState cur
  let busy := holds && (st == 3 || st == 4)
  let gone := holds && (st == 0 || st == 6)
  s.rotates p && !(holds && !gone && s.fld 0x3021 p 47 0 == s.tick) &&
  match s.sliceChoice p with
  | some e => !holds || (st != 2 && !busy) ||
      (!busy && (s.sliceOver p || !s.ctxWork cur) && e != s.fld 0x3021 p 58 56)
  | none => holds && !busy && (s.sliceOver p || gone)
/-- WATCHDOG_EXPIRE, DRAIN_COMPLETE, DRAIN_LIMIT_EXPIRE, SAVE_INCOMPLETE, SAVE_COMPLETE and SLICE_EXPIRE (R290, R335, R336,
R399). -/
def dueContext (s : State) : Option State :=
  match (keysOf s.watch).find? s.watchExpired with
  | some c => some (s.watchdogStep c)
  | none => match s.liveContexts.findSome? fun c =>
      if s.drained c then some (s.drainDone c)
      else if s.drainExpired c then some (s.drainLimitStep c)
      else if s.saveExpired c then some (s.saveIncompleteStep c)
      else if s.saveQuiet c then some (s.saveDone c)
      else none with
    | some t => some t
    | none => ((List.range 17).find? s.sliceDue).map s.sliceStep

/-! ### Servers, memory and links -/

/-- A server becomes active as work arrives for it (R305); SERVER_REPLENISH (R302). -/
def dueServer (s : State) : Option State :=
  match s.wakeDue with
  | some k => some (s.arrive k)
  | none => (s.servers.find? fun e => s.srvInstalled (srvKeyOf e.1) && e.2.held && decide (e.2.d ≤ s.tick)).map fun e =>
    (s.replenish (srvKeyOf e.1)).wakeRetry
/-- What follows from an error that a read found, and REFRESH_FRAME (R358, R361, R366, R367). -/
def dueMemory (s : State) : Option State :=
  match s.found with
  | (link, line, unc) :: rest =>
    some (({ s with found := rest } : State).scrubReturn link line (if unc then .uncorrectable else .corrected))
  | [] => (s.drawers.find? fun n => s.linkUp ⟨false, n⟩ && (s.link ⟨false, n⟩).refreshed != some s.tick).map s.refreshFrame
/-- The present slot of a link, where it carries something and has not been used yet (R373, R375, R382). -/
def slotDue (s : State) (l : LinkId) : Option Nat :=
  let x := s.link l
  if !s.linkUp l then none
  else (s.outSlot l).bind fun n =>
    if x.last == some (s.tick * 256 + n) then none
    else match s.slotUse l n with
      | .none => none
      | _ => some n
/-- The event of one link that is due (R373, R376, R383 to R385, R389). -/
def dueOfLink (s : State) (l : LinkId) : Option State :=
  if s.adoptDue l then some (s.takeEffect l)
  else if s.commitWaits l then some (s.nextCommit l)
  else if s.returnDue l then some (s.drawerReturn l)
  else if s.wlLost l then some (s.downStep l)
  else if stallsOver (s.link l) then some (s.writeStalls l fun e => e.dir.isNone)
  else if s.commitLate l then some (s.commitTimeout l)
  else if s.downLate l then some (s.downTimeout l)
  else match s.rejoinDue l .outbound, s.rejoinDue l .inbound with
    | some w, _ => some (s.rejoinStep l .outbound w)
    | none, some w => some (s.rejoinStep l .inbound w)
    | none, none =>
      if let some n := s.farTurnDue l then some (s.farTurn l n)
      else if (s.rotateDue l .outbound).isSome then some (s.rotateEffect l .outbound)
      else if (s.rotateDue l .inbound).isSome then some (s.rotateEffect l .inbound)
      else match (List.range 8).find? (s.windowOver l) with
        | some w => some (s.windowEnd l w)
        | none => (s.slotDue l).map (s.giveSlot l)
/-- Events of the links, of RBIND's hops and RUNBIND's answers, of the rings, and frames to send (R315, R316, R388, R392). -/
def dueLink (s : State) : Option State :=
  match (keysOf s.links).findSome? fun k => s.dueOfLink (linkOf k) with
  | some t => some t
  | none => match s.builds.find? s.buildLate with
    | some b => some (s.hopTimeout b.sg)
    | none => match s.unbindDue with
    | some u => some (s.unbindEnd u)
    | none => match s.rings.find? fun e => s.heatDue (ringOf e.1) || s.settleDue (ringOf e.1) with
      | some e => some (if s.heatDue (ringOf e.1) then s.heatEffect (ringOf e.1) else s.settleStep (ringOf e.1))
      | none => ((List.range 4).findSome? s.txNext).map s.sendFrame

/-- The first event inside the package that is due, and the state after it. Servers are replenished before the work that they hold is
looked at (R303, R304). -/
def due (s : State) : Option State :=
  [dueMemory, dueNet, dueRequest, dueDomain, duePass, dueServer, dueStream, dueCopy, dueThread, dueWave, dueKill, dueContext, dueLaunch, duePacket,
    dueLink].findSome? fun f => f s

/-! ### The package between instructions -/

/-- What the package does with no fragment at hand and no event waiting: the first due event, else the next fragment to issue
is taken, else a core cycle passes (R12, R22, R31). -/
def goOn (s : State) : State :=
  match s.due with
  | some t => t
  | none => match s.nextIssue with
    | some w => s.takeFragment w.1 w.2
    | none => s.nextCycle

/-! ### A fragment placed by hand -/

/-- The launch packet of a placed fragment: one thread with 128 registers and 8 accumulators. -/
def placedPacket : Packet :=
  { Packet.zero with gx := 1, gy := 1, gz := 1, nx := 1, ny := 1, nz := 1, hw := 1, hh := 1, hg := 1, regs := 128, acc := 8 }
/-- One thread of context 0 on core 0, at address 0, as the fragment at hand, with a block of code in its core's instruction
cache; the context is RUNNING. -/
def placeCode (s : State) (code : Bytes) : State :=
  let n := s.fresh
  let th : Thread := { Thread.zero with gid := n + 2, lane := 0, tag := n + 3 }
  let k := threadKey (n + 2) 0 0
  { s.setCtxState 0 2 with
    power := { s.power with on := true }
    launches := put s.launches n { Launch.zero with pkt := placedPacket, next := 1, left := 1 }
    hoods := put s.hoods (n + 1) { Hood.zero with launch := n, groups := [n + 2] }
    groups := put s.groups (n + 2) { Group.zero with launch := n, hood := n + 1, n := 1, slots := [0] }
    waves := put s.waves 0 ⟨n + 2, s.clk, true, s.clk, s.clk, []⟩
    threads := put s.threads k th
    icache := ⟨0, 0, n, 0, code⟩ :: s.icache
    cur := [k], rivals := [], inbox := [], fresh := n + 4 }

end State
end Sys2Proof.Machine
end

