-- ==== Sys2Proof/Machine/Errors.lean ====
section
/-!
DEFINITION. Errors that ERRINJ armed for the storage structures of the package (R357, R369): where the next write of a structure's
offset shows, and what the error comes to. How offsets number the structures is log 76. The drawer's own errors (code 13) stand with
its writes and reads.
-/
namespace Sys2Proof.Machine
namespace State

/-- Number of a thread's place in the register structures: core, wave slot and lane (log 76). -/
def placeNo (th : Thread) : Nat := (th.core * 64 + th.slot) * 32 + th.lane
/-- The live thread or helper at a place. -/
def threadAt (s : State) (helper : Bool) (n : Nat) : Option Nat :=
  (s.threads.find? fun e => e.2.status == .live && (e.2.hidx != 0) == helper && placeNo e.2 == n).map Prod.fst
/-- The group whose lowest wave slot has a number. -/
def groupAt (s : State) (n : Nat) : Option Nat :=
  (s.groups.find? fun e => e.2.slots.min?.any fun m => e.2.core * 64 + m == n).map Prod.fst
/-- A containment fault of a group's gang for its state (R357, R363). -/
def containGroup (s : State) (gid : Nat) : State :=
  s.post (.gangKill (s.group gid).hood ⟨4, 0, 0, (s.group gid).hpos⟩)
/-- An error counted at a die with the context charged; one that is not corrected has its effect (R357, R369). -/
def errorHits (s : State) (x : Inject) (die ctx : Nat) (effect : State → State) : State :=
  let s1 := s.countError die x.code x.unc ctx x.loc
  if x.unc then effect s1 else s1
/-- A register of a thread was written: an error there stands until the register is written again, and its read is consumption; one in
the helper pool contains the recruiter's gang (R357, R360). -/
def regHits (s : State) (x : Inject) (k : Nat) (r : RegRef) : State :=
  let th := s.thread k
  s.errorHits x (dieOf th.core) th.ctx fun t =>
    if x.code = 3 then t.containGroup th.gid else t.modThread k fun y => { y with bad := r :: y.bad }
/-- Registers of a thread that an offset of a register structure counts (log 76). -/
def regSpan (x : Inject) : Nat := if x.code = 0 || x.code = 3 then 128 else 8
/-- The thread whose register a location names. -/
def regThread (s : State) (x : Inject) : Option Nat := s.threadAt (x.code == 3) (x.loc / regSpan x)
/-- The on-chip word a location of code 4 or 6 names: core scratchpad, a lane slice, or die scratchpad (log 76). -/
def scratchLoc (s : State) (x : Inject) : Option Loc :=
  if x.code = 6 then some (.dsp (x.loc / 67108864) (x.loc % 67108864))
  else if x.loc.testBit 40 then (s.threadAt false (x.loc % 1099511627776 / 4096)).map fun k => .slice k (x.loc % 4096)
  else (s.groupAt (x.loc / 1048576)).map fun g => .alloc g (x.loc % 1048576)
/-- The store an on-chip word lies in, and its first byte there. -/
def wordOf (s : State) : Loc → Option (Store × Nat)
  | .alloc g o => some ((s.group g).alloc, o / 8 * 8)
  | .slice k o => some ((s.thread k).slice, o / 8 * 8)
  | .dsp d o => some (lookupD Store.zero s.dsp d, o / 8 * 8)
  | _ => none
/-- A store with its lowest bit at an address turned. -/
def flipStore (m : Store) (a : Nat) : Store := m.setByte a (m.byte a ^^^ 1)
/-- What a location of codes 0 to 7 holds, as a number; none where there is no such location now. -/
def locValue (s : State) (x : Inject) : Option Nat :=
  let n := x.loc % regSpan x
  match x.code with
  | 0 | 3 => (s.regThread x).map fun k => ((s.thread k).rvn n).toNat
  | 1 => (s.regThread x).map fun k => ((s.thread k).rarow (BitVec.ofNat 8 n)).foldl (fun a w => a * 2 ^ 32 + w.toNat) 0
  | 2 => (s.regThread x).map fun k => ((s.thread k).p.getLsbD n).toNat
  | 4 | 6 => ((s.scratchLoc x).bind s.wordOf).map fun w => ofBytes (w.1.read w.2 8)
  | 5 => (lookup s.l1 x.loc).map fun l => ofBytes (l.read 0 128)
  | 7 => (lookup s.l2 x.loc).map fun l => ofBytes (l.read 0 128)
  | _ => none
/-- The state with a bit of that location turned. -/
def flipLoc (s : State) (x : Inject) : State :=
  let n := x.loc % regSpan x
  let thread (f : Thread → Thread) : State := match s.regThread x with
    | some k => s.modThread k f
    | none => s
  let line (l : Line) : Line := { l with data := (flipStore ⟨l.data, []⟩ 0).cells }
  match x.code with
  | 0 | 3 => thread fun t => t.wvn n (t.rvn n ^^^ 1)
  | 1 => thread fun t => t.wa (BitVec.ofNat 8 n) 0 (t.ra (BitVec.ofNat 8 n) 0 ^^^ 1)
  | 2 => thread fun t => { t with p := t.p ^^^ (1#96 <<< n) }
  | 4 | 6 => match s.scratchLoc x with
    | some (.alloc g o) => s.modGroup g fun y => { y with alloc := flipStore y.alloc (o / 8 * 8) }
    | some (.slice k o) => s.modThread k fun t => { t with slice := flipStore t.slice (o / 8 * 8) }
    | some (.dsp d o) => { s with dsp := put s.dsp d (flipStore (lookupD Store.zero s.dsp d) (o / 8 * 8)) }
    | _ => s
  | 5 => { s with l1 := adjust s.l1 x.loc line }
  | 7 => { s with l2 := adjust s.l2 x.loc line }
  | _ => s
/-- A step writes a location: it holds something else afterwards, or what it would have held there if it had held something else before
is not left as it was (R369). `go` is the step. -/
def written (go : State → Option State) (b s : State) (x : Inject) : Bool :=
  b.locValue x != s.locValue x || match go (b.flipLoc x) with
    | some t => t.locValue x != (b.flipLoc x).locValue x
    | none => false
/-- Codes 0 to 3: register files. -/
def regStrike (s : State) (x : Inject) : Option State :=
  let kind : RegClass := if x.code = 1 then .acc else if x.code = 2 then .pred else .vec
  (s.regThread x).map fun k => s.regHits x k ⟨kind, x.loc % regSpan x⟩
/-- Code 4: core scratchpad and lane slices; code 6: die scratchpad. The 8-byte word is poisoned (R357, R359). -/
def scratchStrike (s : State) (x : Inject) : Option State :=
  (s.scratchLoc x).map fun l =>
    let at_ : Nat × Nat := match l with
      | .alloc g _ => (dieOf (s.group g).core, (s.group g).ctx)
      | .slice k _ => (dieOf (s.thread k).core, (s.thread k).ctx)
      | .dsp d _ => (d, 0)
      | _ => (0, 0)
    s.errorHits x at_.1 at_.2 fun t => t.poisonLoc l 1
/-- Code 5: an L1 line is invalidated; code 7: a clean L2 line is invalidated, a dirty one poisoned, and no L1 holds it any more (R357,
R359). -/
def lineStrike (s : State) (x : Inject) : Option State :=
  if x.code = 5 then
    (lookup s.l1 x.loc).map fun _ => s.errorHits x (dieOf (x.loc / 2048)) 0 fun t => { t with l1 := del t.l1 x.loc }
  else
    (lookup s.l2 x.loc).map fun l => s.errorHits x (x.loc / 2097152) 0 fun t =>
      if l.dirty then (t.dropL1 l.asid l.cline).setL2 x.loc { l with poison := true } else { t with l2 := del t.l2 x.loc }
/-- The group whose matrix work or copy holds a scoreboard entry. -/
def holderGroup (s : State) : Holder → Nat
  | .copy id => ((lookup s.copies id).map CopyRec.gid).getD 0
  | .pass id => ((lookup s.passes id).map Pass.gid).getD 0
/-- Code 8: a hamper entry; code 9: a core's copy records and scoreboard. The gang is contained (R357). -/
def coreStrike (b s : State) (x : Inject) : Option State :=
  if x.code = 8 then
    (lookup (s.core (x.loc / 256)).hampers (x.loc % 256)).bind fun h =>
      if lookup (b.core (x.loc / 256)).hampers (x.loc % 256) = some h then none
      else some (s.errorHits x (dieOf (x.loc / 256)) (s.group h.gid).ctx fun t => t.containGroup h.gid)
  else
    let rec_ := (s.copies.find? fun c => c.2.core == x.loc && lookup b.copies c.1 != some c.2).map fun c => c.2.gid
    let entry := ((s.core x.loc).score.find? fun e => decide ((b.core x.loc).score.count e < (s.core x.loc).score.count e)).map fun e =>
      s.holderGroup e.owner
    (rec_.or entry).map fun g => s.errorHits x (dieOf x.loc) (s.group g).ctx fun t => t.containGroup g
/-- Code 10: an instruction block is fetched again; code 11: a translation-cache entry is dropped (R357). -/
def cacheStrike (b s : State) (x : Inject) : Option State :=
  if x.code = 10 then
    (s.icache.find? fun e => e.core == x.loc && !b.icache.contains e).map fun e =>
      s.errorHits x (dieOf x.loc) e.ctx fun t => { t with icache := t.icache.erase e }
  else
    (s.tc.find? fun e => e.die == x.loc && !b.tc.contains e).map fun e =>
      s.errorHits x x.loc 0 fun t => { t with tc := t.tc.erase e }
/-- What an uncorrectable error makes of a packet: a request, a basket or the data of a copy contains the sending gang, response data is
delivered poisoned (R82, R357). -/
def spoilPacket (s : State) (o : Nat) (p : NetPacket) : State :=
  match p.item with
  | .request tag => match lookup s.reqs tag with
    | some r => s.containGroup (s.thread r.th).gid
    | none => s
  | .basket pub sub => match ((s.stream pub sub).sent[(s.stream pub sub).paid - 1]?).bind List.head? with
    | some u => match s.memberOf u.hood u.smem with
      | some g => s.containGroup g
      | none => s
    | none => s
  | .response (.memoryResponse tag data _) =>
    let r := s.router o
    let q := r.queue.map fun e => if e = p then { p with item := .response (.memoryResponse tag data true) } else e
    { s with routers := put s.routers o { r with queue := q } }
  | .unit id => match lookup s.copies id with
    | some c => s.containGroup c.gid
    | none => s
  | _ => s
/-- Code 12: a packet of the on-die network at an output. -/
def packetStrike (b s : State) (x : Inject) : Option State :=
  ((s.router x.loc).queue.find? fun p => !(b.router x.loc).queue.contains p).map fun p =>
    s.errorHits x (if x.loc < 256 then x.loc / 64 else dieOf (x.loc - 256)) 0 fun t => t.spoilPacket x.loc p
/-- A transaction of a memory link for the drawer line of an address. -/
def ofLine (s : State) (l : LinkId) (pa : Nat) (t : Txn) : Bool :=
  flitKind t.flit == 1 && s.channelPa l.n (cmdBits t.flit 34 0) / 128 == pa / 128
/-- Code 14: a flit of the memory link that carries an address is lost and sent again; code 15: each gang whose request a replay
buffer entry held is contained (R357, R382). -/
def linkStrike (b s : State) (x : Inject) : Option State :=
  let l : LinkId := ⟨false, s.channelOf x.loc⟩
  ((s.link l).flight.find? fun t => s.ofLine l x.loc t && !(b.link l).flight.contains t).map fun t =>
    s.errorHits x (linkDie l.n) t.ctx fun u =>
      if x.code = 14 then u.reissue l
      else match t.copy.bind (lookup u.copies), lookup u.reqs t.tag with
        | some c, _ => u.containGroup c.gid
        | none, some r => u.containGroup (u.thread r.th).gid
        | none, none => u
/-- What an armed error comes to in a step from one state to another: none where its location is not written (R357, R369). -/
def strikeOne (go : State → Option State) (b s : State) (x : Inject) : Option State :=
  match x.code with
  | 0 | 1 | 2 | 3 => if written go b s x then s.regStrike x else none
  | 4 | 6 => if written go b s x then s.scratchStrike x else none
  | 5 | 7 => if written go b s x then s.lineStrike x else none
  | 8 | 9 => b.coreStrike s x
  | 10 | 11 => b.cacheStrike s x
  | 12 => b.packetStrike s x
  | 14 | 15 => b.linkStrike s x
  | _ => none
/-- The armed errors that a step's writes meet strike, each once (R369). -/
def strike (go : State → Option State) (b s : State) : State :=
  s.inject.foldl (fun t x =>
    if b.inject.contains x then
      match strikeOne go b t x with
      | some u => { u with inject := u.inject.erase x }
      | none => t
    else t) s

/-- Nothing armed: nothing strikes. -/
theorem strike_nil {go : State → Option State} {b s : State} (h : s.inject = []) : strike go b s = s := by simp [strike, h]

end State
end Sys2Proof.Machine
end

