-- ==== Sys2Proof/Machine/Step.lean ====
section
/-!
DEFINITION. One step of the package, and the placing of one instruction where the next step fetches it.
-/
namespace Sys2Proof.Machine

/-- POWER_ON, the one event a package without power takes (R435). -/
def isPowerOn : Instr → Bool
  | .powerOn _ => true
  | _ => false

/-- One step before errors: without power only POWER_ON is taken; the fragment at hand issues its instruction; else the first event
that waits is taken; else the package goes on by itself. -/
def cleanStep (s : State) : Host.Outcome State Fault Refusal :=
  if s.power.on then
    match s.cur with
    | _ :: _ => match s.fetchIssue with
      | .run s1 i => exec i s1
      | .stay s1 => .next s1
    | [] => match s.inbox with
      | i :: rest => exec i { s with inbox := rest }
      | [] => .next s.goOn
  else match s.inbox with
    | i :: rest => if isPowerOn i then exec i { s with inbox := rest } else .next { s with inbox := rest }
    | [] => .fault .noPower
/-- The state after a step, if there is one. -/
def stepped (s : State) : Option State :=
  match cleanStep s with
  | .next t => some t
  | _ => none
/-- A step's outcome with the armed errors its writes met (R357, R369). -/
def struckBy (s : State) (o : Host.Outcome State Fault Refusal) : Host.Outcome State Fault Refusal :=
  match o with
  | .next t => .next (State.strike stepped s t)
  | x => x
/-- One step (R357, R369). -/
def step (s : State) : Host.Outcome State Fault Refusal := struckBy s (cleanStep s)

/-- An instruction's words placed where the next step fetches them, in a fragment of one thread (log 14). -/
def State.withFetchWord (s : State) (nbits w : Nat) : State :=
  s.placeCode (leBytes (nbits / 8) (w % 2 ^ nbits) ++ List.replicate (32 - nbits / 8) 0)

end Sys2Proof.Machine
end

