-- ==== Sys2Proof/Safety.lean ====
section
/-!
DEFINITION. What counts as a safe run, and the terms the statements use: when an instruction is ready to execute in the
fragment at hand (R133, R139, R142, R246), what an issue may change beside its threads (R31, R302), and the canonical form of
main memory.
-/
namespace Sys2Proof.Safety
open Sys2Proof.Machine

/-- A run of n steps that meets no fault and no refusal. -/
def SafeRun (n : Nat) (s : State) : Prop := ∃ t, Host.Core.run core n s = .next t

/-- Main memory is in its canonical form: addresses strictly rising and no listed byte zero. -/
def DrawerOk (s : State) : Prop := Memory.wf s.drawer = true

/-- Nothing stops instruction i in thread k, whose record is th: if the guard makes it active, no check of R139, R142 or R246
finds a trap, the lanes of a protected pair agree where they are compared (R35), and no register it reads holds an uncorrectable
error (R357). -/
def Clear (i : Instr) (s : State) (k : Nat) (th : Thread) : Prop :=
  th.active i.head = true → preTrap s i k th = none ∧ (compares i.raw.op = true → th.skew = false) ∧
    ∀ r ∈ Instr.readRefs i, r ∉ th.bad

/-- Instruction i is ready in the fragment at hand: there is a fragment, its threads are distinct and there, and nothing
stops i in any of them. -/
structure Ready (i : Instr) (s : State) : Prop where
  cur   : s.cur ≠ []
  nodup : s.cur.Nodup
  clear : ∀ k ∈ s.cur, ∃ th, lookup s.threads k = some th ∧ Clear i s k th

/-- Instruction i is ready in a fragment of the one thread k, which is active and whose record is th; no other thread of the
fragment has executed i before (R21). -/
structure Alone (i : Instr) (s : State) (k : Nat) (th : Thread) : Prop where
  cur    : s.cur = [k]
  here   : lookup s.threads k = some th
  active : th.active i.head = true
  clear  : preTrap s i k th = none
  whole  : compares i.raw.op = true → th.skew = false
  sound  : ∀ r ∈ Instr.readRefs i, r ∉ th.bad
  entire : s.begunTag th [k] = none

/-- t is s but for its threads, the fragment at hand, and what an issue counts: the wave's last issue, the charge of its
issue server or the turn of background work, fresh fragment tags, and where the cycle's choice of fragments goes on. Every memory,
register and queue of the package is as before. -/
def OnlyThreads (s t : State) : Prop :=
  t = { s with
    threads := t.threads, cur := t.cur, waves := t.waves, servers := t.servers, turns := t.turns, fresh := t.fresh
    cursor := t.cursor }

/-- A record with another fragment tag. -/
def tagged (th : Thread) (tag : Nat) : Thread := { th with tag := tag }

/-- i executes to its end in the fragment at hand and changes nothing but its threads: every active thread k becomes `f s k` of
its record behind i, every other thread of the fragment only passes i, and no other thread changes. A fragment may split, so
a thread's tag is open. -/
def Rewrites (i : Instr) (f : State → Nat → Thread → Thread) : Prop :=
  ∀ s, Ready i s → ∃ t, exec i s = .next t ∧ OnlyThreads s t ∧ t.cur = [] ∧
    (∀ k, k ∉ s.cur → lookup t.threads k = lookup s.threads k) ∧
    ∀ k ∈ s.cur, ∃ th tag, lookup s.threads k = some th ∧ lookup t.threads k =
      some (tagged (if th.active i.head then f s k (advance i th) else advance i th) tag)

end Sys2Proof.Safety
end

