-- ==== Sys2Proof/Safety/Terms.lean ====
section
/-!
DEFINITION. The figures of the spec that the statements compare the model with, written from its rules apart from the model's
own definitions: exact integers, bit fields, and what an instruction or an event leaves behind.
-/
namespace Sys2Proof.Terms
open Sys2Proof.Machine Sys2Proof.Safety

/-! ### Integer results (R156 to R165) -/

/-- The low bits of a register read by a type of at most 32 bits: ext of R156. -/
def num (ty : Ty) (x : Word) : Int :=
  match ty with
  | .s8 => (x.setWidth 8).toInt
  | .z8 => (x.setWidth 8).toNat
  | .s16 => (x.setWidth 16).toInt
  | .z16 => (x.setWidth 16).toNat
  | .s32 => x.toInt
  | _ => x.toNat

/-- An exact value brought into the range of a type (R104). -/
def clampTo (ty : Ty) (y : Int) : Int :=
  match ty with
  | .s8 => max (-128) (min y 127)
  | .z8 => max 0 (min y 255)
  | .s16 => max (-32768) (min y 32767)
  | .z16 => max 0 (min y 65535)
  | .s32 => max (-2147483648) (min y 2147483647)
  | .z32 => max 0 (min y 4294967295)
  | .s64 => max (-9223372036854775808) (min y 9223372036854775807)
  | _ => max 0 (min y 18446744073709551615)

/-- y mod 2^n, extended to 32 bits by the type (R156). -/
def word (ty : Ty) (y : Int) : Word :=
  match ty with
  | .s8 => (BitVec.ofInt 8 y).signExtend 32
  | .z8 => (BitVec.ofInt 8 y).zeroExtend 32
  | .s16 => (BitVec.ofInt 16 y).signExtend 32
  | .z16 => (BitVec.ofInt 16 y).zeroExtend 32
  | _ => BitVec.ofInt 32 y

/-- The narrow-type rule of R156 on an exact value. -/
def narrow (ty : Ty) (sat : Bool) (y : Int) : Word := word ty (if sat then clampTo ty y else y)

/-- A pair read by .S64 or .Z64 (R159). -/
def num64 (ty : Ty) (x : DWord) : Int := if ty = .s64 then x.toInt else x.toNat

/-- A 64-bit result, clamped when SAT is 1 (R158, R159). -/
def wide64 (ty : Ty) (sat : Bool) (y : Int) : DWord := BitVec.ofInt 64 (if sat then clampTo ty y else y)

/-- IMM32 extended to 64 bits by type (R159). -/
def immWide (ty : Ty) (imm : Word) : DWord := if ty = .s64 then imm.signExtend 64 else imm.zeroExtend 64

/-- Quotient of R158. -/
def quot (ty : Ty) (a b : Word) : Word :=
  if b = 0 then 0xFFFFFFFF
  else if ty = .s32 ∧ a = 0x80000000 ∧ b = 0xFFFFFFFF then 0x80000000
  else BitVec.ofInt 32 ((num ty a).tdiv (num ty b))

/-- Remainder of R158. -/
def remd (ty : Ty) (a b : Word) : Word :=
  if b = 0 then a
  else if ty = .s32 ∧ a = 0x80000000 ∧ b = 0xFFFFFFFF then 0
  else BitVec.ofInt 32 (num ty a - (num ty a).tdiv (num ty b) * num ty b)

/-- Bit i of the wide or narrow register of a bit-counting instruction. -/
def bitAt (th : Thread) (wide : Bool) (a : Reg) (i : Nat) : Bool := if wide then (th.rw a).getLsbD i else (th.rv a).getLsbD i

/-- Its width. -/
def bitWidth (wide : Bool) : Nat := if wide then 64 else 32

/-- BFX of R161: the field of `len` bits at `pos` of vA extended without end, itself extended by type. -/
def field (ty : Ty) (a : Word) (pos len : Nat) : Word :=
  if len = 0 then 0
  else
    let f : Int := num ty a / 2 ^ pos % 2 ^ len
    if ty = .s32 ∧ 2 ^ (len - 1) ≤ f then BitVec.ofInt 32 (f - 2 ^ len) else BitVec.ofInt 32 f

/-- The byte a nibble of PERM's selector names (R161). -/
def permOf (a old : Word) (k : Nat) : BitVec 8 :=
  if k ≤ 3 then a.extractLsb' (8 * k) 8
  else if k ≤ 7 then old.extractLsb' (8 * (k - 4)) 8
  else if k ≤ 11 then (if a.getLsbD (8 * (k - 8) + 7) then 0xFF else 0)
  else 0

/-- PERM (R161). -/
def perm (a sel old : Word) : Word :=
  permOf a old (sel.extractLsb' 12 4).toNat ++ permOf a old (sel.extractLsb' 8 4).toNat ++
  permOf a old (sel.extractLsb' 4 4).toNat ++ permOf a old (sel.extractLsb' 0 4).toNat

/-- The comparison SUB names (R162). -/
def holdsInt (c : ICmp) (a b : Int) : Bool :=
  match c with
  | .eq => decide (a = b)
  | .ne => decide (a ≠ b)
  | .lt => decide (a < b)
  | .le => decide (a ≤ b)
  | .gt => decide (a > b)
  | .ge => decide (a ≥ b)

/-- An operand of a comparison: the low bits of a register, or a pair (R162). -/
def side (ty : Ty) (th : Thread) (r : Reg) : Int := if ty.wide then num64 ty (th.rw r) else num ty (th.rv r)

/-- IMM32 as the second operand (R156, R162). -/
def sideImm (ty : Ty) (imm : Word) : Int := if ty.wide then num64 ty (immWide ty imm) else num ty imm

/-! ### Predicates, identity and transfers of control (R40, R44, R164 to R171) -/

/-- The values of GETID (R44), by name, for a thread record of a state; a helper's record holds its recruiter's tid, group and
core. -/
def ident (s : State) (th : Thread) : List (Nat × DWord) :=
  let hood := (s.hood (s.group th.gid).hood).index
  let p := s.pktOf th
  let ig : SrvKey := ⟨.ig, 4 * th.core + th.slot / 16, s.sgrpOf th.ctx⟩
  [(0, BitVec.ofNat 64 th.tid), (1, BitVec.ofNat 64 (hood % p.nx)), (2, BitVec.ofNat 64 (hood / p.nx % p.ny)),
    (3, BitVec.ofNat 64 (hood / p.nx / p.ny)), (4, BitVec.ofNat 64 (p.hw * p.hh * p.hg)), (5, BitVec.ofNat 64 hood),
    (6, BitVec.ofNat 64 (s.group th.gid).hpos), (7, BitVec.ofNat 64 th.lane), (8, BitVec.ofNat 64 (th.lane / 8)),
    (9, BitVec.ofNat 64 (th.core % 144)), (10, BitVec.ofNat 64 (th.core / 144)),
    (11, BitVec.ofNat 64 ((s.reg 0xB001 0).toNat % 128)), (12, BitVec.ofNat 64 s.clk), (13, BitVec.ofNat 64 s.tick),
    (14, if s.srvInstalled ig then BitVec.ofNat 64 ((s.srv ig).q.toNat % 4294967296) else 0xFFFFFFFF),
    (15, BitVec.ofNat 64 th.ctx), (16, if p.prot then 1 else 0), (17, BitVec.ofNat 64 th.hidx)]

/-- A branch taken to an address. -/
def goTo (th : Thread) (pc : DWord) : Thread := { th with pc := pc }

/-- The target of BRU in a thread (R166). -/
def bruAddress (th : Thread) : BruTarget → DWord
  | .imm d => th.pc + d.signExtend 64
  | .reg b => th.rw b

/-- Core cycles a fragment naps: the largest of min(vA, 1,048,576) over its active threads, 0 without one (R171). -/
def napFor (h : Head) (a : Reg) (s : State) : Nat :=
  ((s.cur.filter fun k => (s.thread k).active h).map fun k => min ((s.thread k).rv a).toNat 1048576).foldr max 0

/-- A hamper is the one a REFORM of a thread names: its group, target and key (R25). -/
def namesHamper (x : Hamper) (th : Thread) (imm : BitVec 32) (a : Reg) : Prop :=
  x.gid = th.gid ∧ x.target = th.pc + imm.signExtend 64 ∧ x.key = th.rv a

/-! ### Floating point (R105 to R111, R174 to R184) -/

/-- Fraction bits of a format (R106). -/
def fracLen : Fmt → Nat
  | .f32 => 23
  | .f16 => 10
  | .bf16 => 7

/-- Exponent bits of a format (R106). -/
def expLen : Fmt → Nat
  | .f32 => 8
  | .f16 => 5
  | .bf16 => 8

/-- Width of a format. -/
def fmtWidth (f : Fmt) : Nat := 1 + expLen f + fracLen f

/-- The exponent field of a pattern. -/
def expOf (f : Fmt) (x : Nat) : Nat := x / 2 ^ fracLen f % 2 ^ expLen f

/-- The fraction field of a pattern. -/
def fracOf (f : Fmt) (x : Nat) : Nat := x % 2 ^ fracLen f

/-- Whether the sign bit of a pattern is 1. -/
def negative (f : Fmt) (x : Nat) : Prop := x / 2 ^ (expLen f + fracLen f) % 2 = 1

/-- A finite pattern: its exponent field is not all ones (R106). -/
def finite (f : Fmt) (x : Nat) : Prop := x < 2 ^ fmtWidth f ∧ expOf f x ≠ 2 ^ expLen f - 1

/-- A NaN (R106). -/
def nanPat (f : Fmt) (x : Nat) : Prop := x < 2 ^ fmtWidth f ∧ expOf f x = 2 ^ expLen f - 1 ∧ fracOf f x ≠ 0

/-- A signalling NaN: the top fraction bit is 0 (R106). -/
def sigPat (f : Fmt) (x : Nat) : Prop := nanPat f x ∧ fracOf f x < 2 ^ (fracLen f - 1)

/-- Infinity of a sign. -/
def infPat (f : Fmt) (neg : Bool) : Nat :=
  (if neg then 2 ^ (expLen f + fracLen f) else 0) + (2 ^ expLen f - 1) * 2 ^ fracLen f

/-- Zero of a sign. -/
def zeroPat (f : Fmt) (neg : Bool) : Nat := if neg then 2 ^ (expLen f + fracLen f) else 0

/-- The canonical NaN of a format: positive, with the top fraction bit alone (R106). -/
def quietPat (f : Fmt) : Nat := infPat f false + 2 ^ (fracLen f - 1)

/-- The value of a pattern that is no NaN (R106); an infinity has the value that would come next above the largest finite
one. -/
def value (f : Fmt) (x : Nat) : ℚ :=
  (if x / 2 ^ (expLen f + fracLen f) % 2 = 1 then -1 else 1) *
    (if expOf f x = 0 then (fracOf f x : ℚ) * 2 ^ (2 - 2 ^ (expLen f - 1) - fracLen f : ℤ)
    else ((2 ^ fracLen f + fracOf f x : ℕ) : ℚ) * 2 ^ ((expOf f x : ℤ) + 1 - 2 ^ (expLen f - 1) - fracLen f))

/-- The least normal magnitude of a format. -/
def leastNormal (f : Fmt) : ℚ := 2 ^ (2 - 2 ^ (expLen f - 1) : ℤ)

/-- The magnitude next above the largest finite one. -/
def overTop (f : Fmt) : ℚ := 2 ^ (2 ^ (expLen f - 1) : ℤ)

/-- r is the pattern to which a mode rounds the exact y ≠ 0 (R107): nearest with ties to even, where an infinity stands next
above the largest finite value; toward zero; the least value not below y; the greatest value not above y. -/
def RoundsTo (f : Fmt) (md : Rm) (y : ℝ) (r : Nat) : Prop :=
  r < 2 ^ fmtWidth f ∧ ¬nanPat f r ∧ (negative f r ↔ y < 0) ∧
  match md with
  | .rn => ∀ z, z < 2 ^ fmtWidth f → ¬nanPat f z →
      |y - value f r| ≤ |y - value f z| ∧ (|y - value f r| = |y - value f z| → value f z ≠ value f r → r % 2 = 0)
  | .rz => finite f r ∧ |(value f r : ℝ)| ≤ |y| ∧ ∀ z, finite f z → |(value f z : ℝ)| ≤ |y| → |value f z| ≤ |value f r|
  | .rp => ((finite f r ∧ y ≤ value f r) ∨ r = infPat f false) ∧ ∀ z, finite f z → y ≤ value f z → value f r ≤ value f z
  | .rm => ((finite f r ∧ value f r ≤ y) ∨ r = infPat f true) ∧ ∀ z, finite f z → value f z ≤ y → value f z ≤ value f r

/-- The exact number ± m · 2^e. -/
def exact (neg : Bool) (m : Nat) (e : Int) : ℚ := (if neg then -1 else 1) * ((m : ℚ) * 2 ^ e)

/-- The exact y ≠ 0 below the least normal magnitude reaches it when it is rounded as if the exponent had no lower end: it lies within half
a unit of it to nearest, within one unit in a direction away from zero (R107). -/
def reachesNormal (f : Fmt) (md : Rm) (y : ℚ) : Prop :=
  let u := leastNormal f / 2 ^ (fracLen f + 1)
  match md with
  | .rn => leastNormal f - u / 2 ≤ |y|
  | .rz => False
  | .rp => 0 < y ∧ leastNormal f - u < |y|
  | .rm => y < 0 ∧ leastNormal f - u < |y|

/-- The integer to which a mode rounds (R111, R179). -/
def intOf (md : Rm) (y : ℚ) : Int :=
  match md with
  | .rz => if 0 ≤ y then ⌊y⌋ else ⌈y⌉
  | .rp => ⌈y⌉
  | .rm => ⌊y⌋
  | .rn =>
    if y - ⌊y⌋ < 1 / 2 then ⌊y⌋
    else if 1 / 2 < y - ⌊y⌋ then ⌊y⌋ + 1
    else if ⌊y⌋ % 2 = 0 then ⌊y⌋ else ⌊y⌋ + 1

/-- Least and greatest value of an integer type (R104). -/
def typeLo : Ty → Int
  | .s8 => -128
  | .s16 => -32768
  | .s32 => -2147483648
  | .s64 => -9223372036854775808
  | _ => 0

/-- Greatest value of an integer type (R104). -/
def typeHi : Ty → Int
  | .s8 => 127
  | .z8 => 255
  | .s16 => 32767
  | .z16 => 65535
  | .s32 => 2147483647
  | .z32 => 4294967295
  | .s64 => 9223372036854775807
  | _ => 18446744073709551615

/-- The relation a comparison of two numbers names (R177). -/
def holdsNum (c : FCmp) (x y : ℚ) : Prop :=
  match c with
  | .eq => x = y
  | .ne => x ≠ y
  | .lt => x < y
  | .le => x ≤ y
  | .gt => x > y
  | .ge => x ≥ y
  | .un => False
  | .num => True

/-- The pattern a form reads from a register (R174). -/
def pat (f : Fmt) (x : Word) : Nat := x.toNat % 2 ^ fmtWidth f

/-- A result with its flags: vD takes the pattern, zero above 16 bits in a 16-bit format, and the flags are added to the status
word (R47, R174). -/
def putF (th : Thread) (d : Reg) (r : Nat × BitVec 5) : Thread :=
  { th.wv d (BitVec.ofNat 32 r.1) with fp := th.fp ||| r.2 }

/-- Flags added to the status word of a thread record (R47). -/
def flagged (th : Thread) (fl : BitVec 5) : Thread := { th with fp := th.fp ||| fl }

/-- A 16-bit lane of a register (R105). -/
def laneBits (x : Word) (l : Nat) : Nat := x.toNat / 65536 ^ l % 65536

/-- Two lanes with the flags of both (R105, R183). -/
def lanes (x y : Nat × BitVec 5) : Nat × BitVec 5 := (x.1 % 65536 + 65536 * (y.1 % 65536), x.2 ||| y.2)

/-- The number in a lane by type (R185). -/
def laneNum (ty : Ty) (x : Word) (l : Nat) : Int := num ty (BitVec.ofNat 32 (laneBits x l))

/-- A word of two lane results taken mod 2^16 (R185). -/
def lanePair (f : Nat → Int) : Word := BitVec.ofInt 16 (f 1) ++ BitVec.ofInt 16 (f 0)

/-- The 16-bit format other than the named one (R184). -/
def half16 (f : Fmt) : Fmt := if f = .f16 then .bf16 else .f16

/-- add16 of VACSEL (R186). -/
def metric (sat : Bool) (a b : Nat) : Nat := if sat then min (a + b) 65535 else (a + b) % 65536

/-- One successor of the butterfly: its decision and its metric; ties keep m0 (R186). -/
def successor (sat : Bool) (m x : Word) : Bool × Nat :=
  let c0 := metric sat (laneBits m 0) (laneBits x 0)
  let c1 := metric sat (laneBits m 1) (laneBits x 1)
  if c1 < c0 then (true, c1) else (false, c0)

/-- Threads a cross-lane instruction with head h of thread k takes part with: the active threads of the fragment, or a helper
alone (R187, R191). -/
def partners (s : State) (h : Head) (k : Nat) : List Nat :=
  if (s.thread k).hidx ≠ 0 then [k] else s.cur.filter fun j => (s.thread j).active h

/-- The present thread at lane i below the width of 32, or 16 in a protected launch (R187). -/
def atLane (s : State) (h : Head) (k i : Nat) : Option Nat :=
  if i < if (s.pktOf (s.thread k)).prot then 16 else 32 then
    (partners s h k).find? fun j => (s.thread j).lane = i
  else none

/-- Levels of the tree and of the scan (R112, R113). -/
def levels (s : State) (k : Nat) : Nat := if (s.pktOf (s.thread k)).prot then 4 else 5

/-- The combine of VRED and VSCAN (R189). -/
def combine (op : RedOp) (ty : Ty) (sat : Bool) (md : Rm) (a b : Word) : Word × BitVec 5 :=
  if ty = .f32 then
    let r := match op with
      | .add => fAdd .f32 md a.toNat b.toNat
      | .max => fMinMax .f32 true a.toNat b.toNat
      | _ => fMinMax .f32 false a.toNat b.toNat
    (BitVec.ofNat 32 r.1, r.2)
  else (match op with
    | .add => narrow ty sat (num ty a + num ty b)
    | .min => word ty (min (num ty a) (num ty b))
    | .max => word ty (max (num ty a) (num ty b))
    | .and => a &&& b
    | .or => a ||| b
    | .xor => a ^^^ b, 0)

/-- node(a, b) of R112 with the flags of both sides and of the node. -/
def nodeAll (comb : Word → Word → Word × BitVec 5) (a b : Option (Word × BitVec 5)) : Option (Word × BitVec 5) :=
  match a, b with
  | none, y => y
  | x, none => x
  | some x, some y => some ((comb x.1 y.1).1, x.2 ||| y.2 ||| (comb x.1 y.1).2)

/-- node(a, b) of R112 with the flags of b's slot and of the node (R189). -/
def nodeSlot (comb : Word → Word → Word × BitVec 5) (a b : Option (Word × BitVec 5)) : Option (Word × BitVec 5) :=
  match a, b with
  | none, y => y
  | some x, none => some (x.1, 0)
  | some x, some y => some ((comb x.1 y.1).1, y.2 ||| (comb x.1 y.1).2)

/-- The tree of R112 over n levels: its slots after the last level. -/
def tree (comb : Word → Word → Word × BitVec 5) (n : Nat) (y : Nat → Option (Word × BitVec 5)) :
    Nat → Option (Word × BitVec 5) :=
  (List.range n).foldl (fun y k i => if i % 2 ^ (k + 1) = 0 then nodeAll comb (y i) (y (i + 2 ^ k)) else y i) y

/-- The scan of R113 over n levels. -/
def scan (comb : Word → Word → Word × BitVec 5) (n : Nat) (y : Nat → Option (Word × BitVec 5)) :
    Nat → Option (Word × BitVec 5) :=
  (List.range n).foldl (fun y k i => if 2 ^ k ≤ i then nodeSlot comb (y (i - 2 ^ k)) (y i) else y i) y

/-- A slot written to vD with its flags; an absent one leaves the thread alone. -/
def takeOpt (th : Thread) (d : Reg) (x : Option (Word × BitVec 5)) : Thread :=
  match x with
  | some r => flagged (th.wv d r.1) r.2
  | none => th

/-- vA of the present thread at each lane. -/
def slots (s : State) (h : Head) (k : Nat) (a : Reg) (i : Nat) : Option (Word × BitVec 5) :=
  (atLane s h k i).map fun j => ((s.thread j).rv a, 0)

/-- The result of a VSHF or VBFLY that names lane j (R188). -/
def shuffled (s : State) (h : Head) (k : Nat) (d c a : Reg) (j : Option Nat) (th : Thread) : Thread :=
  match j.bind (atLane s h k) with
  | some t => (th.wv d ((s.thread t).rv a)).wp c true
  | none => (th.wv d (th.rv a)).wp c false

/-- Bits [31:0] with bit i set where p holds. -/
def maskOf (p : Nat → Bool) : Word := BitVec.ofNat 32 (((List.range 32).filter p).map fun i => 2 ^ i).sum

/-! ### Memory accesses (R49 to R62, R146, R192 to R203) -/

/-- The address of a memory operand (R146): a pair plus the offset, or an aperture with the 32-bit sum below it. -/
def address (th : Thread) (am : Am) (a : Reg) (off : DWord) : DWord :=
  match am with
  | .pair => th.rw a + off
  | .slice => 0xC0000000#32 ++ (th.rv a + off.setWidth 32)
  | .core => 0xD0000000#32 ++ (th.rv a + off.setWidth 32)
  | .dsp => 0xF0000000#32 ++ (th.rv a + off.setWidth 32)

/-- The offset of an S or W form, extended by sign (R146). -/
def offset : Off → DWord
  | .short c => c.signExtend 64
  | .long i => i.signExtend 64

/-- Storage of this package's scratchpads and vector registers, reached without a home slice (R55 to R59, R49). -/
def onChip : Loc → Prop
  | .alloc _ _ | .slice _ _ | .dsp _ _ | .regs _ _ => True
  | .global _ | .own _ | .peer _ _ => False

/-- Byte i of on-chip storage; register byte b of a thread is byte b mod 4 of register b / 4 (R48). -/
def byteOf (s : State) (l : Loc) (i : Nat) : Byte :=
  match l with
  | .alloc g off => (s.group g).alloc.byte (off + i)
  | .slice k off => (s.thread k).slice.byte (off + i)
  | .dsp d off => (lookupD Store.zero s.dsp d).byte (off + i)
  | .regs k b => ((s.thread k).rvn ((b + i) / 4)).extractLsb' (8 * ((b + i) % 4)) 8
  | .global _ | .own _ | .peer _ _ => 0

/-- The little-endian number in n bytes of on-chip storage (R10). -/
def numberAt (s : State) (l : Loc) (n : Nat) : Nat := ((List.range n).map fun i => (byteOf s l i).toNat * 256 ^ i).sum

/-- A location names one of the n bytes from another up. -/
def within (l : Loc) (n : Nat) (l' : Loc) : Prop :=
  match l, l' with
  | .alloc g o, .alloc g' o' => g = g' ∧ o ≤ o' ∧ o' < o + n
  | .slice k o, .slice k' o' => k = k' ∧ o ≤ o' ∧ o' < o + n
  | .dsp d o, .dsp d' o' => d = d' ∧ o ≤ o' ∧ o' < o + n
  | .regs k o, .regs k' o' => k = k' ∧ o ≤ o' ∧ o' < o + n
  | _, _ => False

/-- The group or thread that storage belongs to is resident; registers belong to a thread that has not exited (R50). -/
def there (s : State) : Loc → Prop
  | .alloc g _ => lookup s.groups g ≠ none
  | .slice k _ => lookup s.threads k ≠ none
  | .regs k _ => ∃ th, lookup s.threads k = some th ∧ th.status ≠ .exited
  | _ => True

/-- Main memory and the system registers are as before. -/
def Kept (s t : State) : Prop := t.drawer = s.drawer ∧ t.sys = s.sys

/-- Every thread but k is as before. -/
def OthersKept (s t : State) (k : Nat) : Prop := ∀ j, j ≠ k → lookup t.threads j = lookup s.threads j

/-- Two records agree in everything a program sees: registers, flags, pc, traps and what the thread waits for. -/
def SameRegs (u w : Thread) : Prop :=
  u.v = w.v ∧ u.p = w.p ∧ u.a = w.a ∧ u.fp = w.fp ∧ u.pc = w.pc ∧ u.trap = w.trap ∧ u.hand = w.hand ∧ u.sup = w.sup ∧
    u.status = w.status ∧ u.wait = w.wait

/-- Every thread but k has the registers, flags, pc and trap registers it had; a lane slice may have been written. -/
def OthersRegs (s t : State) (k : Nat) : Prop :=
  ∀ j x, j ≠ k → lookup s.threads j = some x → ∃ y, lookup t.threads j = some y ∧ SameRegs y x

/-- The number x loaded into vD, wD or qD by the size and sign of an LD (R195). -/
def landed (th : Thread) (sz : LdSz) (d : Reg) (x : Nat) : Thread :=
  match sz with
  | .s8 => th.wv d ((BitVec.ofNat 8 x).signExtend 32)
  | .z8 => th.wv d ((BitVec.ofNat 8 x).zeroExtend 32)
  | .s16 => th.wv d ((BitVec.ofNat 16 x).signExtend 32)
  | .z16 => th.wv d ((BitVec.ofNat 16 x).zeroExtend 32)
  | .b32 => th.wv d (BitVec.ofNat 32 x)
  | .b64 => th.ww d (BitVec.ofNat 64 x)
  | .b128 => th.wx d (BitVec.ofNat 128 x)

/-- An LD of either form. -/
def load (h : Head) (ord : Ord) (sc : Scope) (sz : LdSz) (d a : Reg) (am : Am) : Off → Instr
  | .short c => .ldS h ord sc sz d a am c
  | .long i => .ldW h ord sc sz d a am i

/-- An ST of either form. -/
def store (h : Head) (ord : Ord) (sc : Scope) (sz : StSz) (d a : Reg) (am : Am) : Off → Instr
  | .short c => .stS h ord sc sz d a am c
  | .long i => .stW h ord sc sz d a am i

/-- Byte i of what an ST stores (R196). -/
def stored (th : Thread) (sz : StSz) (d : Reg) (i : Nat) : Byte :=
  match sz with
  | .b8 | .b16 | .b32 => (th.rv d).extractLsb' (8 * i) 8
  | .b64 => (th.rw d).extractLsb' (8 * i) 8
  | .b128 => (th.rx d).extractLsb' (8 * i) 8

/-- The new value of an atomic on an n-byte location (R198). -/
def newValue (op : Aop) (ty : Ty) (old x : Nat) : Nat :=
  let w := if ty.wide then 64 else 32
  let val (y : Nat) : Int := if ty = .s32 ∨ ty = .s64 then (if 2 ^ (w - 1) ≤ y then (y : Int) - 2 ^ w else y) else y
  match op with
  | .add => if ty = .f32 then (fAdd .f32 .rn old x).1 else (old + x) % 2 ^ w
  | .min => if ty = .f32 then (fMinMax .f32 false old x).1 else if val x < val old then x else old
  | .max => if ty = .f32 then (fMinMax .f32 true old x).1 else if val old < val x then x else old
  | .and => Nat.land old x
  | .or => Nat.lor old x
  | .xor => Nat.xor old x
  | .exch => x
  | .inc => if x ≤ old then 0 else old + 1
  | .dec => if old = 0 ∨ x < old then x else old - 1

/-- Types of atomics (R198). -/
def atomType (op : Aop) (ty : Ty) : Prop :=
  match op with
  | .add | .min | .max => ty = .s32 ∨ ty = .z32 ∨ ty = .s64 ∨ ty = .z64 ∨ ty = .f32
  | .and | .or | .xor => ty = .z32 ∨ ty = .z64
  | .exch => ty = .z32 ∨ ty = .z64 ∨ ty = .f32
  | .inc | .dec => ty = .z32

/-- Bytes of an atomic's type. -/
def atomLen (ty : Ty) : Nat := if ty.wide then 8 else 4

/-- A register or pair as a number. -/
def regNum (th : Thread) (wide : Bool) (r : Reg) : Nat := if wide then (th.rw r).toNat else (th.rv r).toNat

/-- A number written to a register or pair. -/
def putNum (th : Thread) (wide : Bool) (r : Reg) (x : Nat) : Thread :=
  if wide then th.ww r (BitVec.ofNat 64 x) else th.wv r (BitVec.ofNat 32 x)

/-- An access that is ready on on-chip storage: it need not wait, meets no poison and has nothing to flush first. -/
def readyAt (s : State) (th : Thread) (ord : Ord) (sc : Scope) (l : Loc) (n : Nat) : Prop :=
  onChip l ∧ there s l ∧ s.locWaits l n true = false ∧ (s.readLoc l n).2 = false ∧
    (s.flushFirst th ord.releases (ord == .seq) sc).2 = none

/-- The address a request for a location of main memory carries: the address within this package, or the whole address x for a
peer package. -/
def remoteVa (x : DWord) : Loc → Option DWord
  | .global va | .own va => some (BitVec.ofNat 64 va)
  | .peer _ _ => some x
  | .alloc _ _ | .slice _ _ | .dsp _ _ | .regs _ _ => none

/-- Thread k goes on behind i with one more request outstanding, and the request asks for op on n bytes at va, its answer going where
dest says. -/
def Asks (i : Instr) (s : State) (k : Nat) (th : Thread) (op : ReqOp) (va : DWord) (n : Nat) (dest : Dest) : Prop :=
  ∃ t u q, exec i s = .next t ∧ lookup t.threads k = some u ∧ SameRegs u (advance i th) ∧ u.pend = th.pend + 1 ∧
    lookup t.reqs s.fresh = some q ∧ q.th = k ∧ q.ctx = th.ctx ∧ q.op = op ∧ q.va = va ∧ q.size = n ∧
    q.dest = dest ∧ q.served = false ∧ Kept s t ∧ OthersKept s t k

/-- Thread k takes the trap (c, val, aux) at instruction i: as a user thread it enters the launch's handler with TPC, TCAUSE,
TVAL and TAUX written (R257); as a supervisor it enters CTXVEC with SEPC, SCAUSE, SVAL and SAUX written (R287). Registers keep
their values and the instruction does not execute. -/
def TakesTrap (i : Instr) (s : State) (k : Nat) (th : Thread) (c : BitVec 8) (val : DWord) (aux : Word) : Prop :=
  ∃ t u, exec i s = .next t ∧ lookup t.threads k = some u ∧ Kept s t ∧ OthersKept s t k ∧
    u.v = th.v ∧ u.p = th.p ∧ u.a = th.a ∧ u.fp = th.fp ∧ u.las = [] ∧ u.wait = .none ∧
    (s.priv th.ctx = 0 → u.trap = ⟨c, th.pc, val, aux⟩ ∧ u.hand = true ∧ u.pc = (s.pktOf th).handler ∧ u.sup = th.sup) ∧
    (s.priv th.ctx ≠ 0 → u.sup.trap = ⟨c, th.pc, val, aux⟩ ∧ u.sup.inTrap = true ∧ u.pc = s.reg 0x1002 th.ctx ∧
      u.trap = th.trap ∧ u.hand = th.hand)

/-- A thread that can take a trap: no helper, and not in the handler already (R257, R287). -/
def canTrap (s : State) (th : Thread) : Prop :=
  th.hidx = 0 ∧ (s.priv th.ctx = 0 → (s.pktOf th).handler ≠ 0 ∧ th.hand = false) ∧
    (s.priv th.ctx ≠ 0 → s.reg 0x1002 th.ctx ≠ 0 ∧ th.sup.inTrap = false)

/-! ### Home slices and responses (R60 to R64, R315, R360) -/

/-- Byte j of a line. -/
def lineByte (l : Line) (j : Nat) : Byte := lookupD 0 l.data j

/-- The number in n bytes of a line from byte o up. -/
def lineNumber (l : Line) (o n : Nat) : Nat := ((List.range n).map fun j => (lineByte l (o + j)).toNat * 256 ^ j).sum

/-- A line of L2 after n bytes from o up are written with a number. -/
def Overwritten (t : State) (key : Nat) (l : Line) (o n x : Nat) : Prop :=
  ∃ l', lookup t.l2 key = some l' ∧ l'.dirty = true ∧ lineNumber l' o n = x % 256 ^ n ∧
    ∀ j, ¬(o ≤ j ∧ j < o + n) → lineByte l' j = lineByte l j

/-- No L1 of the package holds the canonical line. -/
def noCopies (t : State) (l : Line) : Prop := ∀ e ∈ t.l1, ¬(e.2.asid = l.asid ∧ e.2.cline = l.cline)

/-- The number in a list of bytes, lowest first. -/
def leNumber (b : Bytes) : Nat := ((List.range b.length).map fun j => (b.getD j 0).toNat * 256 ^ j).sum

/-- The address of a request within its package. -/
def within53 (q : MemReq) : Nat := if q.domain then q.va.toNat % 2 ^ 53 else q.va.toNat

/-- A control flit with a code and bytes behind it waits on a link, and nothing else is new (R375; the codes are log 11's). -/
def SendsControl (s t : State) (l : LinkId) (code : Nat) (b : Bytes) : Prop :=
  t = { s with links := t.links } ∧ (t.link l).maint = (s.link l).maint ++
    [⟨3 * 2 ^ 28, 0, ((BitVec.ofNat 8 code :: b) ++ List.replicate 128 0).take 128⟩]

/-- A control flit with a code and bytes behind it waits on a link at the end of what an event does. -/
def EndsWithControl (s t : State) (l : LinkId) (code : Nat) (b : Bytes) : Prop :=
  (t.link l).maint = (s.link l).maint ++ [⟨3 * 2 ^ 28, 0, ((BitVec.ofNat 8 code :: b) ++ List.replicate 128 0).take 128⟩]

/-! ### Hints, fences, barriers, subscriptions and timelines (R71 to R81, R201 to R214) -/

/-- Instruction i is done in the thread alone at hand, which goes on behind it with nothing written; other threads, the
scratchpads and the system registers are as before. -/
def Passes (i : Instr) (s : State) (k : Nat) (th : Thread) : Prop :=
  ∃ t, exec i s = .next t ∧ lookup t.threads k = some (advance i th) ∧ OthersKept s t k ∧ t.sys = s.sys ∧
    t.groups = s.groups ∧ t.dsp = s.dsp ∧ t.reqs = s.reqs

/-- The word SUBQ returns of an entry with n updates outstanding (R73): ACTIVE from its installation on. -/
def subWord (e : SubEntry) (n : Nat) : Nat :=
  (e.len / 256 - 1) * 2 ^ 56 + min n 65535 * 2 ^ 32 + (if e.final then 2 ^ 31 else 0) + e.pmem % 32 * 2 ^ 20 + e.poff % 2 ^ 20

/-! ### Matrix work and accumulators (R41, R114 to R126, R215 to R227) -/

/-- Bytes of one block's records in a row (R118, R119). -/
def recordLen (f : MxFmt) : Nat := if f = .bq then 128 else 256

/-- Natural stride of a row of kb blocks (R118, R119). -/
def rowLen (f : MxFmt) (kb : Nat) : Nat := recordLen f * kb + 16

/-- Stride of an operand: the field in units of 16 bytes, or the natural one for 0 (R217). -/
def stride (x : BitVec 16) (f : MxFmt) (kb : Nat) : Nat := if x = 0 then rowLen f kb else 16 * x.toNat

/-- Offset of a thread's A row (R218). -/
def rowOffset (th : Thread) (a : Reg) (idx : Option Reg) (sa : Nat) : Nat :=
  (th.rv a).toNat + (match idx with
    | none => th.lane % 8
    | some r => (th.rv r).toNat) * sa

/-- A row that passes the checks of R218 in an allocation. -/
def rowFits (size off len : Nat) : Prop := off < 1048576 ∧ off % 16 = 0 ∧ off + len ≤ size

/-- Byte o of a row read from memory. -/
def rowByte (row : Bytes) (o : Nat) : Nat := (row.getD o 0).toNat

/-- Plane i of a residue pass over records at offsets x and y of two rows (R117, R122). -/
def plane (a : Bytes) (x : Nat) (b : Bytes) (y i : Nat) : Nat :=
  let m := [128, 127, 125, 121].getD i 1
  ((List.range 32).map fun j => (rowByte a (x + 32 * i + j) % m) * (rowByte b (y + 32 * i + j) % m)).sum % m

/-- The X of one pass (R122, R123). -/
def passValue (a : Bytes) (x : Nat) (b : Bytes) (y : Nat) : Int :=
  let n := (plane a x b y 0 * 682625 + plane a x b y 1 * 1008000 + plane a x b y 2 * 341376) % 2032000
  if 1016000 ≤ n then (n : Int) - 2032000 else n

/-- Offsets of the passes of block k, high record first (R124). -/
def passOffsets (fa fb : MxFmt) (k : Nat) : List (Nat × Nat) :=
  let x := recordLen fa * k
  let y := recordLen fb * k
  match fa, fb with
  | .bq, .bq => [(x, y)]
  | .bx, .bx => [(x, y), (x, y + 128), (x + 128, y)]
  | .bx, .bq => [(x, y), (x + 128, y)]
  | .bq, .bx => [(x, y), (x, y + 128)]

/-- The exact integer T of block k (R124). -/
def blockInt (fa fb : MxFmt) (a b : Bytes) (k : Nat) : Int :=
  let p (x y : Nat) : Int := passValue a (recordLen fa * k + x) b (recordLen fb * k + y)
  match fa, fb with
  | .bq, .bq => p 0 0
  | .bx, .bx => p 0 0 * 2 ^ 14 + (p 0 128 + p 128 0) * 2 ^ 7
  | .bx, .bq => p 0 0 * 2 ^ 7 + p 128 0
  | .bq, .bx => p 0 0 * 2 ^ 7 + p 0 128

/-- Scale code of block k of a row (R115, R118, R119). -/
def scaleCode (f : MxFmt) (kb : Nat) (row : Bytes) (k : Nat) : Nat :=
  (rowByte row (recordLen f * kb + 2 * k) + 256 * rowByte row (recordLen f * kb + 2 * k + 1)) % 512

/-- One block of R125 takes an accumulator element from acc to acc'. -/
def BlockStep (acc acc' sa sb : Nat) (t : Int) : Prop :=
  (sa = 511 ∨ sb = 511 ∨ nanPat .f32 acc → acc' = 0x7FC00000) ∧
  (sa ≠ 511 → sb ≠ 511 → ¬nanPat .f32 acc → (t = 0 ∨ ¬finite .f32 acc → acc' = acc) ∧
    (t ≠ 0 → finite .f32 acc →
      let y := value .f32 acc + t * 2 ^ ((sa : Int) + sb - 512)
      (y = 0 → acc' = 0) ∧ (y ≠ 0 → RoundsTo .f32 .rn y acc')))

/-- R125 over kb blocks in ascending order. -/
def Accumulates (fa fb : MxFmt) (kb : Nat) (a b : Bytes) (acc acc' : Nat) : Prop :=
  ∃ f : Nat → Nat, f 0 = acc ∧ f kb = acc' ∧ ∀ k, k < kb →
    BlockStep (f k) (f (k + 1)) (scaleCode fa kb a k) (scaleCode fb kb b k) (blockInt fa fb a b k)

/-- An ACLD or ACST of either form. -/
def acLoad (h : Head) (d a : Reg) (am : Am) : Off → Instr
  | .short c => .acldS h d a am c
  | .long i => .acldW h d a am i

/-- An ACST of either form. -/
def acStore (h : Head) (z : Bool) (d a : Reg) (am : Am) : Off → Instr
  | .short c => .acstS h z d a am c
  | .long i => .acstW h z d a am i

/-- Byte j of an accumulator as a row in memory (R227). -/
def accByte (th : Thread) (d : Reg) (j : Nat) : Byte := (th.ra d (j / 4)).extractLsb' (8 * (j % 4)) 8

/-! ### Copies (R66 to R69, R228 to R240) -/

/-- A copy of each kind; CPF has no source. -/
def copyInstr (h : Head) (kind : CpKind) (d a b c : Reg) (m : CpDesc) : Instr :=
  match kind with
  | .cpi => .cpi h d a b c m
  | .cpo => .cpo h d a b c m
  | .cpl => .cpl h d a b c m
  | .cpr => .cpr h d a b c m
  | .cpf => .cpf h d b c m

/-- Source address of a copy. -/
def copySrc (th : Thread) (kind : CpKind) (a : Reg) : DWord := if kind = .cpf then 0 else th.rw a

/-- Scale address of a copy (R229). -/
def copyScale (th : Thread) (m : CpDesc) (c : Reg) : DWord := if CpFmt.scaled m.fmt then th.rw c else 0

/-- The row of a destination in core scratchpad at offset o, of n bytes, and the bytes of it that block j covers (R234). -/
def blockLo (o j : Nat) : Nat := max (0xD000000000000000 + o) (((0xD000000000000000 + o) / 128 + j) * 128) - (0xD000000000000000 + o)
def blockHi (o n j : Nat) : Nat :=
  min (0xD000000000000000 + o + n) (((0xD000000000000000 + o) / 128 + j + 1) * 128) - (0xD000000000000000 + o)

/-- A copy of one row may start its next unit: nothing of it is under way, no scoreboard entry stands before it and no server on its
path is held (R67, R233 to R236). -/
structure CanStart (s : State) (id : Nat) (c : CopyRec) : Prop where
  here   : lookup s.copies id = some c
  group  : lookup s.groups c.gid ≠ none
  thread : ∃ th, lookup s.threads c.th = some th ∧ th.gid = c.gid
  oneRow : c.desc.nrm1 = 0
  going  : c.stop = false
  idle   : c.units = []
  more   : c.next < c.total
  awake  : c.state ≠ .paused 2
  free   : s.copyWaits id = false
  server : s.heldNow (s.cpKey (s.copyCtx c) c.core) = false
  path   : (s.unitPath id c).any (s.linkShort (s.copyCtx c)) = false

/-- An address of the core aperture whose n bytes lie in the scratchpad of a copy's group. -/
def inScratch (s : State) (c : CopyRec) (a : DWord) (o n : Nat) : Prop :=
  a.toNat = 0xD000000000000000 + o ∧ o + n ≤ 2 ^ 20 ∧ o + n ≤ (s.pktOf (s.thread c.th)).scratch

/-- Bytes from o up of a group's scratchpad become b, and no other byte of it changes. -/
def BytesAt (s t : State) (gid o : Nat) (b : Bytes) : Prop :=
  ∀ n, (t.group gid).alloc.byte n = if o ≤ n ∧ n < o + b.length then b.getD (n - o) 0 else (s.group gid).alloc.byte n

/-- The copy has gone on to its next unit. -/
def MovesOn (t : State) (id : Nat) (c : CopyRec) : Prop := lookup t.copies id = some { c with next := c.next + 1, state := .moving }

/-- Half-word j of a run of bytes, and its 32-bit word j. -/
def halfWord (b : Bytes) (j : Nat) : Nat := (b.getD (2 * j) 0).toNat + 256 * (b.getD (2 * j + 1) 0).toNat
def fullWord (b : Bytes) (j : Nat) : Nat := halfWord b (2 * j) + 65536 * halfWord b (2 * j + 1)

/-- Element j of a BQ8 or BQ4 block (R114, R116). -/
def quantized (eight : Bool) (b : Bytes) (j : Nat) : Int :=
  if eight then (b.getD j 0).toInt
  else
    let x := (b.getD (j / 2) 0).toNat / 16 ^ (j % 2) % 16
    if 8 ≤ x then (x : Int) - 16 else x

/-- The record of 32 integers: plane i holds the residues by its modulus (R117). -/
def residues (x : Nat → Int) : Bytes :=
  (List.range 128).map fun n => BitVec.ofNat 8 (x (n % 32) % ([128, 127, 125, 121].getD (n / 32) 1 : Nat)).toNat

/-- Scale code of a block of 32 bfloat16 values (R121). -/
def bxCode (v : Nat → Nat) : Nat :=
  if (List.range 32).any fun j => expOf .bf16 (v j) = 255 then 511
  else if (List.range 32).all fun j => v j % 32768 = 0 then 0
  else ((List.range 32).map fun j => max 1 (expOf .bf16 (v j))).foldr max 0 + 117

/-- The integer n of element j, and its high and low parts (R121). -/
def bxInt (v : Nat → Nat) (j : Nat) : Int :=
  if bxCode v = 511 ∨ bxCode v = 0 then 0 else intOf .rn (value .bf16 (v j) * 2 ^ (256 - bxCode v : ℤ))
def bxHigh (v : Nat → Nat) (j : Nat) : Int := (bxInt v j + 64) / 128
def bxLow (v : Nat → Nat) (j : Nat) : Int := bxInt v j - 128 * bxHigh v j

/-- The scale tail of a bisque row: l codes and zero bytes up to 16 (R118, R119). -/
def scaleTail (l : Nat) (code : Nat → Nat) : Bytes :=
  (List.range 16).map fun n => if n < 2 * l then BitVec.ofNat 8 (code (n / 2) / 256 ^ (n % 2)) else 0

/-- A block of 32 binary32 values glazes to a scale code and elements; c is 6 for BQ8 and 2 for BQ4 (R127). -/
def Glazed (c lo hi : Int) (v : Nat → Nat) (sc : Nat) (q : Nat → Int) : Prop :=
  ((∃ j, j < 32 ∧ expOf .f32 (v j) = 255) → sc = 511 ∧ ∀ j, j < 32 → q j = 0) ∧
  ((∀ j, j < 32 → expOf .f32 (v j) ≠ 255) →
    ((∀ j, j < 32 → value .f32 (v j) = 0) → sc = 0 ∧ ∀ j, j < 32 → q j = 0) ∧
    ∀ e : Int, (∃ j, j < 32 ∧ 2 ^ e ≤ |value .f32 (v j)|) → (∀ j, j < 32 → |value .f32 (v j)| < 2 ^ (e + 1)) →
      (sc : Int) = max 0 (min 510 (e - c + 256)) ∧
      ∀ j, j < 32 → q j = max lo (min hi (intOf .rn (value .f32 (v j) * 2 ^ (256 - (sc : Int))))))

/-- The bytes of glazed elements (R114, R116). -/
def glazedBytes (eight : Bool) (q : Nat → Int) : Bytes :=
  if eight then (List.range 32).map fun j => BitVec.ofInt 8 (q j)
  else (List.range 16).map fun i => BitVec.ofInt 8 (q (2 * i) % 16 + 16 * (q (2 * i + 1) % 16))

/-! ### Helpers, launches and traps (R241 to R260, R286 to R299) -/

/-- The reduction a COMB code names (R241, R250). -/
def combOf : Comb → RedOp × Ty
  | .none | .addS32 => (.add, .s32)
  | .addF32 => (.add, .f32)
  | .min => (.min, .s32)
  | .max => (.max, .s32)
  | .and => (.and, .z32)
  | .or => (.or, .z32)
  | .xor => (.xor, .z32)

/-- Registers of a HIRE window (R241). -/
def winSize : Win → Nat
  | .w8 => 8
  | .w16 => 16
  | .w32 => 32
  | .w64 => 64

/-! ### System registers and system instructions (R277 to R299) -/

/-- The forms of a system register access: a read, a write of wD, a command with operand wD (R295). -/
def sysForm (h : Head) (d a : Reg) (idx : BitVec 16) (th : Thread) (i : Instr) (op : SysOp) : Prop :=
  (i = .sysr h d a idx ∧ op = .read) ∨ (i = .sysw h d a idx ∧ op = .write (th.rw d)) ∨ (i = .sysx h d a idx ∧ op = .exec (th.rw d))

/-- A register of region 0 of a thread, by its index (R286). -/
def regionZero (th : Thread) (x : Nat) : DWord :=
  [th.sup.trap.cause.zeroExtend 64, th.sup.trap.tpc, th.sup.trap.val, th.sup.trap.aux.zeroExtend 64,
    if th.sup.inTrap then 1 else 0, th.sup.saveA, th.sup.saveB].getD x 0

/-- Indices whose write does more than set the register: FQCFG, FQHEAD, SGDSP, LQCFG, LQTAIL and RING. -/
def writesMore (x : Nat) : Prop := x ∈ [0x2000, 0x2002, 0x4001, 0x5100, 0x5103, 0x8030, 0x9030]

/-- What SYSW leaves in bit j of a register: v in RW and WO fields, zero where a W1C field is written as one, else the old bit
(R13). -/
def bitAfter (r : RegInfo) (old v : DWord) (j : Nat) : Bool :=
  if r.rw.testBit j || r.wo.testBit j then v.getLsbD j
  else if r.w1c.testBit j then old.getLsbD j && !v.getLsbD j else old.getLsbD j

/-- A cached leaf serves an address of context c in [lo, hi): under the context's own name, or under the canonical name that its
remap table gives (R297, R349, R354). -/
def servesRange (s : State) (c lo hi : Nat) (e : TcEntry) : Prop :=
  let meets (x y : Nat) : Prop := x < y ∧ e.base < y ∧ x < e.base + e.size
  e.part = s.partOf c ∧ ((e.asid = s.asidOf c ∧ meets lo hi) ∨ ∃ r ∈ lookupD [] s.remap c, r.casid = e.asid ∧
    let x := max lo (4096 * r.lbase)
    let y := min hi (4096 * (r.lbase + r.pages))
    x < y ∧ meets (x - 4096 * r.lbase + 4096 * r.cbase) (y - 4096 * r.lbase + 4096 * r.cbase))

/-- The translation-cache entries TINV drops (R297). -/
def tinvHits (s : State) (th : Thread) (kind : TinvKind) (c base n : Nat) (e : TcEntry) : Prop :=
  match kind with
  | .all => s.priv th.ctx = 2 ∨ e.part = s.partOf th.ctx
  | .ctx => servesRange s c 0 (2 ^ 57) e
  | .range => servesRange s c (base / 4096 * 4096) (base / 4096 * 4096 + 4096 * n) e

/-- A cached line is of a declared shared region of context c with an address in [lo, hi) (R298). -/
def sharedLine (s : State) (c lo hi : Nat) (l : Line) : Prop :=
  ∃ e ∈ lookupD [] s.remap c, e.casid = l.asid ∧ 4096 * e.cbase ≤ 128 * l.cline ∧ 128 * l.cline < 4096 * (e.cbase + e.pages) ∧
    lo ≤ 128 * l.cline - 4096 * e.cbase + 4096 * e.lbase ∧ 128 * l.cline - 4096 * e.cbase + 4096 * e.lbase < hi

/-- A cached line is a private line of context c with an address in [lo, hi) (R298). -/
def privateLine (s : State) (c lo hi : Nat) (l : Line) : Prop :=
  l.asid = s.asidOf c ∧ lo ≤ 128 * l.cline ∧ 128 * l.cline < hi ∧ s.remapEntry c (128 * l.cline) = none

/-- The requests of context x may use a cached leaf of context c: they share an ASID or a canonical name (R349, R350). -/
def shareLeaf (s : State) (c x : Nat) : Prop :=
  s.partOf c = s.partOf x ∧ (s.asidOf c = s.asidOf x ∨ ∃ e ∈ lookupD [] s.remap c,
    e.casid = s.asidOf x ∨ ∃ f ∈ lookupD [] s.remap x, e.casid = f.casid)

/-- TINV completes only behind the requests of context x (R297, R354). -/
def tinvAwaits (s : State) (th : Thread) (kind : TinvKind) (c n x : Nat) : Prop :=
  match kind with
  | .all => s.priv th.ctx = 2 ∨ s.partOf x = s.partOf th.ctx
  | .ctx => shareLeaf s c x
  | .range => n ≠ 0 ∧ shareLeaf s c x

/-- A thread enters its trap handler: the trap registers hold the trap, and it runs from the launch's handler, or at level 1 or
2 from CTXVEC (R257, R287). -/
def Enters (s t : State) (k : Nat) (th : Thread) (x : Trap) : Prop :=
  ∃ u, lookup t.threads k = some u ∧ Kept s t ∧ OthersKept s t k ∧ u.v = th.v ∧ u.p = th.p ∧ u.a = th.a ∧ u.fp = th.fp ∧
    u.las = [] ∧ u.wait = .none ∧
    (s.priv th.ctx = 0 → u.trap = x ∧ u.hand = true ∧ u.pc = (s.pktOf th).handler ∧ u.sup = th.sup) ∧
    (s.priv th.ctx ≠ 0 → u.sup.trap = x ∧ u.sup.inTrap = true ∧ u.pc = s.reg 0x1002 th.ctx ∧ u.trap = th.trap ∧ u.hand = th.hand)

/-- An operand that no instruction may name in a thread (R37, R40, R41, R134, R164). -/
def BadOperand (s : State) (th : Thread) : Operand → Prop
  | .none => False
  | .v r => s.nRegs th ≤ r.toNat
  | .w r => r.toNat % 2 = 1 ∨ s.nRegs th ≤ r.toNat + 1
  | .x r => r.toNat % 4 ≠ 0 ∨ s.nRegs th ≤ r.toNat + 3
  | .p r => 96 ≤ r.toNat ∧ r ≠ 127
  | .pg r => r ≠ 0 ∧ r ≠ 32 ∧ r ≠ 64
  | .a r => 8 ≤ r.toNat ∨ s.nAcc th ≤ r.toNat

/-- Opcodes forbidden to a helper (R169, R214, R215, R242, R278). -/
def notForHelpers (op : Nat) : Prop :=
  op ∈ [0x46, 0xA8, 0xA9, 0xAA, 0xDA, 0xE0, 0xE6, 0xE7, 0xE8, 0xE9] ∨ (0xC0 ≤ op ∧ op ≤ 0xC7) ∨ (0xD0 ≤ op ∧ op ≤ 0xD6) ∨ 0xF0 ≤ op

/-- Opcodes that end their thread's windows, and FSTAT: they raise no LA_VIOL (R143, R182). -/
def noLaViol (op : Nat) : Prop :=
  op ∈ [0x46, 0x47, 0x49, 0x4A, 0x73, 0xA7, 0xA8, 0xA9, 0xAA, 0xD8, 0xE0, 0xE1, 0xE2, 0xE7, 0xE8, 0xE9, 0xF0, 0xF1, 0xF2, 0xF3]

/-- A register through which an instruction breaks a window: it reads or writes a result, or writes a source (R142). -/
def breaks (i : Instr) (w : LaWin) (r : RegRef) : Prop :=
  (r ∈ Instr.readRefs i ∧ r ∈ w.dsts) ∨ (r ∈ Instr.writeRefs i ∧ (r ∈ w.dsts ∨ r ∈ w.srcs))

/-- A register as TAUX of LA_VIOL names it (R142). -/
def auxOf (r : RegRef) : Nat :=
  (match r.cls with
    | .vec => 0
    | .pred => 256
    | .acc => 512) + r.n

/-! ### Steps, encodings, the canonical form of memory, reset (R8, R12, R129 to R140) -/

/-- The bytes of a block from an address on, as the fields of an instruction (R129, R132). -/
def fieldsAt (b : Bytes) (pc : DWord) : Raw := Raw.unpack (BitVec.ofNat 128 (leNat ((b.drop (pc.toNat % 32)).take 16)))

/-- The bits of an instruction, lowest 32 bits first. -/
def words (w0 w1 w2 w3 : BitVec 32) : BitVec 128 := w3 ++ w2 ++ w1 ++ w0

/-! ### Events of waves, hampers and servers (R25 to R32, R171, R290, R299, R304) -/

/-- The home lane of the thread with a key (R18, R34). -/
def homeOfThread (s : State) (k : Nat) : Nat :=
  if (s.pktOf (s.thread k)).prot then (s.thread k).tid % 16 else (s.thread k).tid % 32

/-- A hamper may be drawn now: it became full, aged or forced in an earlier cycle (R27). -/
def mayDraw (s : State) (h : Hamper) : Prop :=
  ((∀ l, l < (if (s.groupPkt h.gid).prot then 16 else 32) → ∃ x ∈ h.ths, homeOfThread s x.1 = l) ∨ h.aged = true ∨ h.forced = true) ∧
    h.madeAt < s.clk

/-- A filed thread is the first of its home lane: filed earliest, the lower key on a tie (R28). -/
def firstOfLane (s : State) (h : Hamper) (x : Nat × Int) : Prop :=
  ∀ y ∈ h.ths, homeOfThread s y.1 = homeOfThread s x.1 → x.2 < y.2 ∨ (x.2 = y.2 ∧ x.1 ≤ y.1)

/-- A slot of an issue group holds a pending wave that is ready (R32). -/
def pendingReady (s : State) (core ig slot : Nat) (w : Wave) : Prop :=
  16 * ig ≤ slot ∧ slot < 16 * ig + 16 ∧ lookup s.waves (State.waveKey core slot) = some w ∧ w.active = false ∧
    s.waveReady core slot = true

/-- A thread is held by a long-latency event: memory, a timeline, a barrier, the scoreboard or a full copy queue, a CPK, a
subscription, or parking (R32, R240). -/
def longHeld (s : State) (k : Nat) (th : Thread) : Prop :=
  match th.wait with
  | .timeline _ _ | .counter | .bar _ _ | .barw _ _ | .rearm _ _ | .hood _ | .retry | .drain _ _ _ | .subon | .fault _ | .stop _ _ => True
  | _ => ∃ r ∈ s.reqs, r.2.th = k

/-- Every fragment of the wave in a slot is held by a long-latency event (R32). -/
def allHeld (s : State) (core slot : Nat) : Prop :=
  ∀ k, k ∈ s.waveThreads core slot → s.fragmentReady core slot (s.thread k).tag = false ∧
    ∃ j ∈ s.fragment core slot (s.thread k).tag, longHeld s j (s.thread j)

/-- A slot of an issue group holds an active wave: one with threads in it (R31, R32). -/
def activeAt (s : State) (core ig slot : Nat) (w : Wave) : Prop :=
  16 * ig ≤ slot ∧ slot < 16 * ig + 16 ∧ lookup s.waves (State.waveKey core slot) = some w ∧ w.active = true ∧
    s.waveThreads core slot ≠ []

/-- Active waves of an issue group. -/
def activeCount (s : State) (core ig : Nat) : Nat :=
  ((List.range 16).filter fun i => match lookup s.waves (State.waveKey core (16 * ig + i)) with
    | some w => w.active && !(s.waveThreads core (16 * ig + i)).isEmpty
    | none => false).length

/-! ### Commands and stages of a context (R253, R290, R291, R333 to R340, R399) -/

/-- A command left a result and a state. -/
def Answers (i : Instr) (s : State) (n : Nat) (after : State → Prop) : Prop :=
  ∃ t, exec i s = .next t ∧ t.cmdResult = BitVec.ofNat 64 n ∧ after t

/-- Nothing but the result is new. -/
def OnlyResult (s t : State) : Prop := t = { s with cmdResult := t.cmdResult }

/-- No thread of a group of context c is left. -/
def workGone (s t : State) (c : Nat) : Prop :=
  ∀ k g, lookup s.groups (k / 32768) = some g → g.ctx = c → lookup t.threads k = none

/-- Bits [hi:lo] of a register's value. -/
def part (x : DWord) (hi lo : Nat) : Nat := x.toNat / 2 ^ lo % 2 ^ (hi + 1 - lo)

/-- FCLASS of a context (R290). -/
def fclass (s : State) (c : Nat) : Nat := part (s.reg 0x1003 c) 55 48

/-- IMGV of a context (R333). -/
def imgv (s : State) (c : Nat) : Nat := part (s.reg 0x5004 c) 63 63

/-- STAGE of a context (R333). -/
def stage (s : State) (c : Nat) : Nat := part (s.reg 0x5004 c) 62 60

/-- What ENABLE needs besides a FREE context (R291, R342, R395, R401, R403). -/
def enableOk (s : State) (c : Nat) : Prop :=
  let cfg := s.reg 0x1000 c
  let p := part cfg 60 56
  let root := part (s.reg 0x1001 c) 45 12
  let known := part (s.reg 0x6000 (part cfg 55 40)) 45 12
  let sg := part cfg 39 32
  (s.reg 0x3030 0).getLsbD 63 = false ∧ part (s.reg 0xA000 0) 59 56 = 0 ∧ root ≠ 0 ∧
    (s.reg 0x3000 p).getLsbD 63 = true ∧
    (s.reg 0x3005 (4 * p + sg / 64)).getLsbD (sg % 64) = true ∧ (s.reg 0x3004 p).getLsbD (part cfg 31 24) = true ∧
    part (s.reg 0x300A p) 15 0 ≤ c ∧ c < part (s.reg 0x300A p) 15 0 + part (s.reg 0x300A p) 48 32 ∧ (known = 0 ∨ known = root)

/-! ### Launches, groups and Ethernet (R18 to R20, R39, R253, R325 to R332, R356, R363, R364, R391, R392) -/

/-- A little-endian field of a packet or a payload. -/
def leAt (b : Bytes) (off n : Nat) : Nat := leNumber ((b.drop off).take n)

/-- The packet that 128 bytes hold (R325). -/
def PacketIs (p : Packet) (b : Bytes) : Prop :=
  (p.entry.toNat, p.arg.toNat, p.handler.toNat) = (leAt b 0 8, leAt b 8 8, leAt b 0x38 8) ∧
  (p.gx, p.gy, p.gz) = (leAt b 0x10 2, leAt b 0x12 2, leAt b 0x14 2) ∧
  (p.nx, p.ny, p.nz) = (leAt b 0x18 4, leAt b 0x1C 4, leAt b 0x20 4) ∧
  (p.hw, p.hh, p.hg) = (leAt b 0x24 1, leAt b 0x25 1, leAt b 0x26 1) ∧
  (p.regs, p.acc, p.slice, p.scratch) = (leAt b 0x28 2, leAt b 0x2A 1, leAt b 0x2C 2, leAt b 0x30 4) ∧
  (p.prot, p.replay) = (decide (leAt b 0x34 4 % 2 = 1), decide (leAt b 0x34 4 / 2 % 2 = 1)) ∧
  (p.w0a.toNat, p.w0v.toNat, p.w1a.toNat, p.w1v.toNat) = (leAt b 0x40 8, leAt b 0x48 8, leAt b 0x50 8, leAt b 0x58 8) ∧
  (p.ca.toNat, p.cv.toNat) = (leAt b 0x60 8, leAt b 0x68 8)

/-- A remote launch request is dropped and counted for a reason (R331, R332). -/
def Drops (i : Instr) (s : State) (n : Nat) : Prop :=
  ∃ t, exec i s = .next t ∧ part (t.reg 0x5205 n) 31 0 = (part (s.reg 0x5205 n) 31 0 + 1) % 2 ^ 32 ∧ t.drawer = s.drawer ∧
    t.l2 = s.l2 ∧ t.threads = s.threads ∧ ∀ q, t.reg 0x5103 q = s.reg 0x5103 q

/-- An Ethernet ring's HEAD advances by one (R392). -/
def HeadMoves (s t : State) (r : Nat) : Prop :=
  part (t.reg 0x9202 r) 31 0 = (part (s.reg 0x9202 r) 31 0 + 1) % 2 ^ 32

/-! ### Commands of servers, routes, translation and reliability (R308 to R316, R349, R352, R353, R361, R366 to R369, R404, R434) -/

/-- The utilisation a template or link-server value asks for on an engine of a capacity (R310). -/
def asked (v : DWord) (cap : Nat) : Nat :=
  let q := part v 23 0
  let n := part v 47 24
  if v.getLsbD 63 then if n = 0 then 0 else (q * 2 ^ 20 + n * cap - 1) / (n * cap) else 0

/-- A result with a sum in [52:32] and a status below (R311). -/
def sumAnd (sum status : Nat) : Nat := min sum (2 ^ 21 - 1) * 2 ^ 32 + status

/-- A command's result reaches the agent outside that gave it. -/
def Result (t : State) (n : Nat) : Prop := t.cmdResult = BitVec.ofNat 64 n

/-- What a turnstile command that would set a register to v comes to: bad budget, group not enabled, bound passed, share passed,
or done (R308, R311). -/
def TurnRule (s t : State) (idx inst : Nat) (v : DWord) (cap rest : Nat) (on : Bool) (past pastShare : Nat → Prop) : Prop :=
  let u := asked v cap
  let old := asked (s.reg idx inst) cap
  let en := v.getLsbD 63
  let zero : Prop := part v 23 0 = 0 ∨ part v 47 24 = 0
  let legal : Prop := en = false ∨ (¬zero ∧ on = true)
  (en = true → zero → Result t (sumAnd (rest + old) 3) ∧ OnlyResult s t) ∧
  (en = true → ¬zero → on = false → Result t (sumAnd (rest + old) 4) ∧ OnlyResult s t) ∧
  (legal → old < u → past u → Result t (sumAnd (rest + u) 1) ∧ OnlyResult s t) ∧
  (legal → old < u → ¬past u → pastShare u → Result t (sumAnd (rest + u) 2) ∧ OnlyResult s t) ∧
  (legal → ¬(old < u ∧ (past u ∨ pastShare u)) → Result t (sumAnd (rest + u) 0) ∧
    t.reg idx inst = v ∧ t.drawer = s.drawer ∧ ∀ y m, m < 2 ^ 32 → (y ≠ idx ∨ m ≠ inst) → t.reg y m = s.reg y m)

/-- A command that is refused answers all ones and changes nothing else (R285). -/
def Refused (i : Instr) (s : State) : Prop := Answers i s (2 ^ 64 - 1) (OnlyResult s)

/-! ### Links and rings (R303, R306, R366, R371 to R390, R420, R427) -/

/-- A register of a link: memory links from 0x8000, fabric links from 0x9000 (R386). -/
def linkReg (s : State) (l : LinkId) (low i : Nat) : DWord := s.reg ((if l.fab then 0x9000 else 0x8000) + low) (l.n * 256 + i)

/-- Kind of a position of the shadow, and of the timetable in force, which reads at instance bit 15 (R375). -/
def shadowAt (s : State) (l : LinkId) (p : Nat) : DWord := linkReg s l 0x10 p
def forceAt (s : State) (l : LinkId) (p : Nat) : DWord := linkReg s l 0x10 (p + 32768)

/-- The shadows of the two ends disagree at some position (R376). -/
def Clash (own far : Nat → Nat) : Prop :=
  ∃ p, p < 256 ∧ ((own p = 2 ∧ far p ≠ 2) ∨ (own p ≠ 2 ∧ far p = 2) ∨ ((own p = 4 ↔ far p = 4) ∧ ¬(own p = 2 ∧ far p = 2)))

/-- The first 32 positions: idle before pool before owned, each from the highest down (R379). -/
def mapOf (kind : Nat → Nat) : List Nat :=
  let of (n : Nat) : List Nat := ((List.range 256).filter fun p => kind p = n).reverse
  (of 0 ++ of 1 ++ of 3).take 32

/-- The kind of a position after training (R377). -/
def trainedKind (fab : Bool) (own peer p : Nat) : Nat :=
  if fab then if p % 64 = 63 then 2 else if (p % 2 = 0 ↔ own < peer) then 1 else 4 else if p % 32 = 31 then 2 else 1

/-- D of R378 from the measured delays and the far end's offset in picoseconds; on a fabric link each delay and D are even. -/
def delayD (fab : Bool) (fout fin eoff : Nat) : Nat :=
  let up (n : Nat) : Nat := if fab then n + n % 2 else n
  up (up fout + (eoff + 499) / 500 + up fin + 80)

/-- A direction of a link. -/
def dirAt (s : State) (l : LinkId) (d : Dir) : DirState :=
  match d with
  | .outbound => (s.link l).outDir
  | .inbound => (s.link l).inDir

/-- The bit of LKSTAT of a degraded direction (R386). -/
def isDegraded (s : State) (l : LinkId) (d : Dir) : Bool :=
  (linkReg s l 0 0).getLsbD (match d with
    | .outbound => 61
    | .inbound => 60)

/-- The RING register of a ring (R388). -/
def ringReg (s : State) (r : RingId) : DWord := linkReg s r.link 0x30 r.ring

/-- HEAT of a ring. -/
def heatOf (s : State) (r : RingId) : Nat := part (ringReg s r) 11 0

/-- The code in force: HEAT, but the one before it while a change has still to take effect (R388, R389). -/
def codeInForce (s : State) (r : RingId) : Nat := if (s.ring r).effect = none then heatOf s r else (s.ring r).old

/-- A change of HEAT waits for the next frame boundary and settles for the 32 frames after it (R388, R420). -/
def Changes (s t : State) (r : RingId) (v : Nat) : Prop :=
  let next := s.clk + 384 - s.frameClk
  heatOf t r = v ∧ part (ringReg t r) 58 56 = part (ringReg s r) 58 56 ∧ part (ringReg t r) 25 16 = part (ringReg s r) 25 16 ∧
  (v ≠ heatOf s r → part (ringReg t r) 61 61 = 1 ∧ (t.ring r).effect = some next ∧
    (t.ring r).settleEnd = some (next + 32 * 384) ∧ (t.ring r).old = codeInForce s r) ∧ t.drawer = s.drawer ∧ t.threads = s.threads

/-- The fields of a flit this end sends: those of its own contents, its number, and what the header says of the link (R371). -/
def SentAs (s : State) (l : LinkId) (seq : Nat) (x f : Flit) : Prop :=
  f.cmd = x.cmd ∧ f.data = x.data ∧ part f.hdr 63 48 = seq % 65536 ∧ part f.hdr 47 32 = ((s.link l).seqIn + 65535) % 65536 ∧
  part f.hdr 31 31 = (s.link l).nak.toNat ∧ part f.hdr 30 28 = flitKind x ∧ part f.hdr 15 0 = (flitCrc f).toNat

/-- A flit leaves on a link as the only new message. -/
def Leaves (s t : State) (l : LinkId) (tag seq : Nat) (x : Flit) : Prop :=
  ∃ f, t.outbox = s.outbox ++ [if l.fab then .domain l.n tag f else .drawer l.n f] ∧ SentAs s l seq x f ∧ (t.link l).nak = false

/-- A flit with a header that asks for nothing: no replay, no hand-back, every wavelength in service (R371). -/
def Plain (f : Flit) : Prop := part f.hdr 31 31 = 0 ∧ part f.hdr 19 16 = 0 ∧ part f.hdr 27 20 = 255

/-- A number is not at or behind an acknowledged one (R371). -/
def notAcked (ack : Nat) (x : Txn) : Bool := decide (32768 ≤ (ack + 65536 - part x.flit.hdr 63 48) % 65536)

/-- A flit that is sent again keeps everything but the mark (R382). -/
def sentAgain (x : Txn) : Txn := { x with again := true }

/-! ### What reaches the package from outside (R13, R281, R285, R324, R397, R401, R403 to R406, R433 to R437) -/

/-- An event that writes register x at instance n as a device supervisor outside does. -/
def outsideWrites (i : Instr) (x n : Nat) (v : DWord) : Prop :=
  (i = .fqcfgWrite n v ∧ x = 0x2000) ∨ (i = .fqheadWrite n v ∧ x = 0x2002) ∨ (i = .lqcfgWrite n v ∧ x = 0x5100) ∨
  (i = .queueTailWrite n v false ∧ x = 0x5103) ∨ (i = .erptrTailWrite n v ∧ x = 0x9202) ∨ (i = .registerWrite x n v ∧ x < 65536)

/-- The four checks of an access in their order (R281). -/
def Checks (s : State) (w : Who) (x n : Nat) (op : SysOp) : Prop :=
  State.indexOk w x op = true ∧ instOk x n = true ∧ s.inReach w x n op = true ∧ s.valueCheck w x n op = none

/-- What becomes of a tail write (R324): ignored at a disabled queue, taken within the room of the ring, else BADTAIL. -/
def TailRule (s t : State) (q v : Nat) : Prop :=
  let tail := part (s.reg 0x5103 q) 31 0
  let held := (tail + 2 ^ 32 - part (s.reg 0x5102 q) 31 0) % 2 ^ 32
  let fits : Prop := (v + 2 ^ 32 - tail) % 2 ^ 32 + held ≤ 2 ^ part (s.reg 0x5100 q) 28 24
  (part (s.reg 0x5100 q) 63 63 = 0 → t = s) ∧
  (part (s.reg 0x5100 q) 63 63 = 1 → fits → t.reg 0x5103 q = BitVec.ofNat 64 v ∧ t.reg 0x5104 q = s.reg 0x5104 q) ∧
  (part (s.reg 0x5100 q) 63 63 = 1 → ¬fits → t.reg 0x5103 q = s.reg 0x5103 q ∧ part (t.reg 0x5104 q) 2 2 = 1)

/-- A virtual function's partition: the enabled one that names it (R397). -/
def vfNames (s : State) (fn p : Nat) : Prop :=
  0 < p ∧ p ≤ 16 ∧ part (s.reg 0x3000 p) 63 63 = 1 ∧ part (s.reg 0x3000 p) 61 57 = fn

/-- The partition whose allotted queues a function's queue window shows, in ascending number (R324, R397). -/
def winPart (s : State) (fn p : Nat) : Prop :=
  (fn = 0 ∧ p = 0) ∨ (fn ≠ 0 ∧ vfNames s fn p ∧ ∀ q, vfNames s fn q → p ≤ q)

/-- With whose reach the windows of a function act: the device supervisor's for function 0, the partition supervisor's for a
virtual one, once enumerated and without a boot failure (R285, R397, R403, R435). -/
def WinWho (s : State) (fn : Nat) (w : Who) : Prop :=
  s.power.pcie = true ∧ part (s.reg 0xA000 0) 59 56 = 0 ∧
  ((fn = 0 ∧ w = ⟨2, 0, none⟩) ∨ ∃ p, fn ≠ 0 ∧ vfNames s fn p ∧ (∀ q, vfNames s fn q → p ≤ q) ∧ w = ⟨1, p, none⟩)

/-- A window's access is made: it passes R436's restriction, which leaves ENABLE its answer 3 during the wipe, and the checks of R281. -/
def Served (s : State) (w : Who) (x n : Nat) (op : SysOp) : Prop :=
  (s.power.trained = true ∨ x ∈ [0xA000, 0xA001, 0x3030] ∨ (0xB000 ≤ x ∧ x < 0xC000) ∨
    (x = 0x1004 ∧ op = .exec 1 ∧ part (s.reg 0x3030 0) 63 63 = 1)) ∧ Checks s w x n op

/-- ERR of a function's window. -/
def winErr (s : State) (fn : Nat) : Bool := (s.hostWin fn).sel.getLsbD 63

/-- A reset or a loss of power leaves no work on the device, a wipe to come, no window and no training; the fuses stay (R8, R401,
R433, R437). -/
def Restarted (s t : State) : Prop :=
  t.threads = [] ∧ t.groups = [] ∧ t.launches = [] ∧ t.copies = [] ∧ t.reqs = [] ∧ t.power.pcie = false ∧ t.power.trained = false ∧
  part (t.reg 0x3030 0) 63 63 = 1 ∧ part (t.reg 0x3030 0) 62 60 = (if s.lcNext = none ∧ s.lcDue = none then 1 else 2) ∧
  t.lcNext = none ∧ (∀ n, s.lcNext = some n → s.lcDue = none → t.lcDue = some n) ∧ t.flash = s.flash ∧
  (∀ c, c < 65536 → t.ctxState c = 0) ∧ t.reg 0xA001 0 = s.reg 0xA001 0 ∧ t.reg 0xA003 0 = s.reg 0xA003 0

/-- STAGE, ERR and IMG of BOOTSTAT (R404). -/
def bootIs (t : State) (stage err : Nat) : Prop := part (t.reg 0xA000 0) 63 60 = stage ∧ part (t.reg 0xA000 0) 59 56 = err

/-- The signature of image j of a bundle verifies (R403). -/
def imageOk (b : Bundle) (j : Nat) : Prop :=
  ∀ x, b.images[j]? = some x → Config.sm2Verify (Config.certKey b.cert) (sm3 x.bytes ++ [BitVec.ofNat 8 j]) x.sig = true

/-- An answer leaves by the mailbox, and the transcript holds both messages (R406). -/
def Says (i : Instr) (s : State) (log : Bytes) (a : Bytes) : Prop :=
  ∃ t, exec i s = .next t ∧ t.outbox = s.outbox ++ [.spdm a] ∧ t.spdmLog = log ++ a ∧ Kept s t ∧ t.threads = s.threads

/-- A message of a code, under the version of the request, whose bytes hold others. -/
def Message (a msg : Bytes) (code : Nat) : Prop := a.getD 0 0 = msg.getD 0 0x12 ∧ (a.getD 1 0).toNat = code
def Holds (a x : Bytes) : Prop := ∃ l r, a = l ++ x ++ r

end Sys2Proof.Terms
end

