-- ==== Sys2Proof/Certificates/Slice0/Obligations.lean ====
section
/-!
DEFINITION. The statements for the provers: one Prop for each obligation of OBLIGATIONS.json.
-/
section
open Sys2Proof Sys2Proof.Machine Sys2Proof.Safety Sys2Proof.Terms

/-! ### Integer results (R156 to R165) -/

/-- R156: IADD and ISUB without carry, IMUL, IMAD, IMIN, IMAX, IABS and INEG of every type, in all their forms: the result
in vD, every other part of the state as it was. -/
def Obligations.NarrowIntegerResults : Prop :=
  ∀ (h : Head) (ty : Ty) (sat : Bool) (d a b c : Reg) (imm : Word), ty.narrow = true →
    Rewrites (.iaddS h ty sat .none d a b 0) (fun _ _ th => th.wv d (narrow ty sat (num ty (th.rv a) + num ty (th.rv b)))) ∧
    Rewrites (.iaddW h ty sat .none d a imm 0) (fun _ _ th => th.wv d (narrow ty sat (num ty (th.rv a) + num ty imm))) ∧
    Rewrites (.isubS h ty sat .none d a b 0) (fun _ _ th => th.wv d (narrow ty sat (num ty (th.rv a) - num ty (th.rv b)))) ∧
    Rewrites (.isubW h ty sat .none d a imm 0) (fun _ _ th => th.wv d (narrow ty sat (num ty (th.rv a) - num ty imm))) ∧
    Rewrites (.imulS h ty sat d a b) (fun _ _ th => th.wv d (narrow ty sat (num ty (th.rv a) * num ty (th.rv b)))) ∧
    Rewrites (.imulW h ty sat d a imm) (fun _ _ th => th.wv d (narrow ty sat (num ty (th.rv a) * num ty imm))) ∧
    Rewrites (.imad h ty sat d a b c)
      (fun _ _ th => th.wv d (narrow ty sat (num ty (th.rv a) * num ty (th.rv b) + num ty (th.rv c)))) ∧
    Rewrites (.iminS h ty d a b) (fun _ _ th => th.wv d (word ty (min (num ty (th.rv a)) (num ty (th.rv b))))) ∧
    Rewrites (.iminW h ty d a imm) (fun _ _ th => th.wv d (word ty (min (num ty (th.rv a)) (num ty imm)))) ∧
    Rewrites (.imaxS h ty d a b) (fun _ _ th => th.wv d (word ty (max (num ty (th.rv a)) (num ty (th.rv b))))) ∧
    Rewrites (.imaxW h ty d a imm) (fun _ _ th => th.wv d (word ty (max (num ty (th.rv a)) (num ty imm)))) ∧
    Rewrites (.iabs h ty sat d a) (fun _ _ th => th.wv d (narrow ty sat (|num ty (th.rv a)|))) ∧
    Rewrites (.ineg h ty sat d a) (fun _ _ th => th.wv d (narrow ty sat (-num ty (th.rv a))))

/-- R157: the carry forms of IADD and ISUB on 32-bit types: vD takes the sum or difference mod 2^32, pC (which .CI and .CIO
read first) takes the carry or borrow in .CO and .CIO. -/
def Obligations.CarryResults : Prop :=
  ∀ (h : Head) (ty : Ty) (d a b c : Reg) (imm : Word) (cin cout : Bool) (sub : Carry), ty.is32 = true →
    (sub, cin, cout) ∈ [(Carry.co, false, true), (Carry.ci, true, false), (Carry.cio, true, true)] →
    let carry (th : Thread) : Nat := if cin && th.rp c then 1 else 0
    let put (th : Thread) (x : Word) (y : Bool) : Thread := if cout then (th.wv d x).wp c y else th.wv d x
    let plus (th : Thread) (x y : Word) : Thread :=
      put th (BitVec.ofNat 32 (x.toNat + y.toNat + carry th)) (decide (2 ^ 32 ≤ x.toNat + y.toNat + carry th))
    let minus (th : Thread) (x y : Word) : Thread :=
      put th (x - y - BitVec.ofNat 32 (carry th)) (decide (x.toNat < y.toNat + carry th))
    Rewrites (.iaddS h ty false sub d a b c) (fun _ _ th => plus th (th.rv a) (th.rv b)) ∧
    Rewrites (.iaddW h ty false sub d a imm c) (fun _ _ th => plus th (th.rv a) imm) ∧
    Rewrites (.isubS h ty false sub d a b c) (fun _ _ th => minus th (th.rv a) (th.rv b)) ∧
    Rewrites (.isubW h ty false sub d a imm c) (fun _ _ th => minus th (th.rv a) imm)

/-- R158: IMULH, IMADW, IDIV, IREM and ISAD. -/
def Obligations.WideAndDivisionResults : Prop :=
  ∀ (h : Head) (ty : Ty) (sat : Bool) (d a b c : Reg) (imm : Word),
    (ty.is32 = true →
      Rewrites (.imulhS h ty d a b) (fun _ _ th => th.wv d (BitVec.ofInt 32 (num ty (th.rv a) * num ty (th.rv b) / 2 ^ 32))) ∧
      Rewrites (.imulhW h ty d a imm) (fun _ _ th => th.wv d (BitVec.ofInt 32 (num ty (th.rv a) * num ty imm / 2 ^ 32))) ∧
      Rewrites (.imadw h ty sat d a b c) (fun _ _ th =>
        let t64 : Ty := if ty = .s32 then .s64 else .z64
        th.ww d (wide64 t64 sat (num ty (th.rv a) * num ty (th.rv b) + num64 t64 (th.rw c)))) ∧
      Rewrites (.idivS h ty d a b) (fun _ _ th => th.wv d (quot ty (th.rv a) (th.rv b))) ∧
      Rewrites (.idivW h ty d a imm) (fun _ _ th => th.wv d (quot ty (th.rv a) imm)) ∧
      Rewrites (.iremS h ty d a b) (fun _ _ th => th.wv d (remd ty (th.rv a) (th.rv b))) ∧
      Rewrites (.iremW h ty d a imm) (fun _ _ th => th.wv d (remd ty (th.rv a) imm))) ∧
    (ty.narrow = true → Rewrites (.isad h ty sat d a b c) (fun _ _ th =>
      let y : Int := |num ty (th.rv a) - num ty (th.rv b)| + (th.rv c).toNat
      th.wv d (BitVec.ofInt 32 (if sat then min y (2 ^ 32 - 1) else y))))

/-- R159: IADD64, ISUB64 and IMUL64 of pairs. -/
def Obligations.PairIntegerResults : Prop :=
  ∀ (h : Head) (ty : Ty) (sat : Bool) (d a b : Reg) (imm : Word), ty.wide = true →
    Rewrites (.iadd64S h ty sat d a b)
      (fun _ _ th => th.ww d (wide64 ty sat (num64 ty (th.rw a) + num64 ty (th.rw b)))) ∧
    Rewrites (.iadd64W h ty sat d a imm)
      (fun _ _ th => th.ww d (wide64 ty sat (num64 ty (th.rw a) + num64 ty (immWide ty imm)))) ∧
    Rewrites (.isub64S h ty sat d a b)
      (fun _ _ th => th.ww d (wide64 ty sat (num64 ty (th.rw a) - num64 ty (th.rw b)))) ∧
    Rewrites (.isub64W h ty sat d a imm)
      (fun _ _ th => th.ww d (wide64 ty sat (num64 ty (th.rw a) - num64 ty (immWide ty imm)))) ∧
    Rewrites (.imul64 h ty sat d a b)
      (fun _ _ th => th.ww d (wide64 ty sat (num64 ty (th.rw a) * num64 ty (th.rw b))))

/-- R160: the logic and shift instructions, with every shift amount defined. -/
def Obligations.LogicAndShiftResults : Prop :=
  ∀ (h : Head) (d a b c : Reg) (imm : Word),
    Rewrites (.andS h d a b) (fun _ _ th => th.wv d (th.rv a &&& th.rv b)) ∧
    Rewrites (.andW h d a imm) (fun _ _ th => th.wv d (th.rv a &&& imm)) ∧
    Rewrites (.orS h d a b) (fun _ _ th => th.wv d (th.rv a ||| th.rv b)) ∧
    Rewrites (.orW h d a imm) (fun _ _ th => th.wv d (th.rv a ||| imm)) ∧
    Rewrites (.xorS h d a b) (fun _ _ th => th.wv d (th.rv a ^^^ th.rv b)) ∧
    Rewrites (.xorW h d a imm) (fun _ _ th => th.wv d (th.rv a ^^^ imm)) ∧
    Rewrites (.andnS h d a b) (fun _ _ th => th.wv d (th.rv a &&& ~~~th.rv b)) ∧
    Rewrites (.andnW h d a imm) (fun _ _ th => th.wv d (th.rv a &&& ~~~imm)) ∧
    Rewrites (.ornS h d a b) (fun _ _ th => th.wv d (th.rv a ||| ~~~th.rv b)) ∧
    Rewrites (.ornW h d a imm) (fun _ _ th => th.wv d (th.rv a ||| ~~~imm)) ∧
    Rewrites (.not h d a) (fun _ _ th => th.wv d (~~~th.rv a)) ∧
    Rewrites (.shlS h d a b) (fun _ _ th => th.wv d (th.rv a <<< (th.rv b).toNat)) ∧
    Rewrites (.shlW h d a imm) (fun _ _ th => th.wv d (th.rv a <<< imm.toNat)) ∧
    Rewrites (.shrS h d a b) (fun _ _ th => th.wv d (th.rv a >>> (th.rv b).toNat)) ∧
    Rewrites (.shrW h d a imm) (fun _ _ th => th.wv d (th.rv a >>> imm.toNat)) ∧
    Rewrites (.sarS h d a b)
      (fun _ _ th => th.wv d (BitVec.ofInt 32 ((th.rv a).toInt / 2 ^ min (th.rv b).toNat 31))) ∧
    Rewrites (.sarW h d a imm) (fun _ _ th => th.wv d (BitVec.ofInt 32 ((th.rv a).toInt / 2 ^ min imm.toNat 31))) ∧
    Rewrites (.rotS h d a b) (fun _ _ th =>
      th.wv d (((th.rv a ++ th.rv a : DWord) <<< ((th.rv b).toNat % 32)).extractLsb' 32 32)) ∧
    Rewrites (.rotW h d a imm) (fun _ _ th =>
      th.wv d (((th.rv a ++ th.rv a : DWord) <<< (imm.toNat % 32)).extractLsb' 32 32)) ∧
    Rewrites (.fsh h .right d a b c) (fun _ _ th =>
      th.wv d (((th.rv b ++ th.rv a : DWord) >>> min (th.rv c).toNat 32).extractLsb' 0 32)) ∧
    Rewrites (.fsh h .left d a b c) (fun _ _ th =>
      th.wv d (((th.rv a ++ th.rv b : DWord) <<< min (th.rv c).toNat 32).extractLsb' 32 32))

/-- R161: BFX, BFI, POPC, CLZ, CTZ, BREV and PERM. -/
def Obligations.BitFieldResults : Prop :=
  ∀ (h : Head) (ty : Ty) (wide : Bool) (d a b c : Reg) (imm : Word),
    (ty.is32 = true → Rewrites (.bfx h ty d a b c) (fun _ _ th =>
      th.wv d (field ty (th.rv a) ((th.rv b).toNat % 256) (min ((th.rv c).toNat % 256) 32)))) ∧
    Rewrites (.bfi h d a b c) (fun _ _ th =>
      let pos := (th.rv b).toNat % 256
      let len := min ((th.rv c).toNat % 256) 32
      let mask : Word := BitVec.ofNat 32 ((2 ^ len - 1) * 2 ^ pos)
      th.wv d ((th.rv d &&& ~~~mask) ||| (th.rv a <<< pos &&& mask))) ∧
    Rewrites (.popc h wide d a) (fun _ _ th =>
      th.wv d (BitVec.ofNat 32 ((List.range (bitWidth wide)).countP (bitAt th wide a)))) ∧
    Rewrites (.clz h wide d a) (fun _ _ th =>
      th.wv d (BitVec.ofNat 32 ((List.range (bitWidth wide)).reverse.takeWhile fun i => !bitAt th wide a i).length)) ∧
    Rewrites (.ctz h wide d a) (fun _ _ th =>
      th.wv d (BitVec.ofNat 32 ((List.range (bitWidth wide)).takeWhile fun i => !bitAt th wide a i).length)) ∧
    Rewrites (.brev h wide d a) (fun _ _ th =>
      if wide then th.ww d (th.rw a).reverse else th.wv d (th.rv a).reverse) ∧
    Rewrites (.permS h d a b) (fun _ _ th => th.wv d (perm (th.rv a) (th.rv b) (th.rv d))) ∧
    Rewrites (.permW h d a imm) (fun _ _ th => th.wv d (perm (th.rv a) imm (th.rv d)))

/-- R162 and R163: ISET and ISETV of every integer type, SEL, MOV, MOVI, MOVW and PLOP. -/
def Obligations.CompareMoveResults : Prop :=
  ∀ (h : Head) (ty : Ty) (cmp : ICmp) (tt : BitVec 8) (d a b c : Reg) (imm : Word) (imm' : DWord),
    (ty.integral = true →
      Rewrites (.isetS h ty cmp d a b) (fun _ _ th => th.wp d (holdsInt cmp (side ty th a) (side ty th b))) ∧
      Rewrites (.isetW h ty cmp d a imm) (fun _ _ th => th.wp d (holdsInt cmp (side ty th a) (sideImm ty imm))) ∧
      Rewrites (.isetvS h ty cmp d a b)
        (fun _ _ th => th.wv d (if holdsInt cmp (side ty th a) (side ty th b) then 1 else 0)) ∧
      Rewrites (.isetvW h ty cmp d a imm)
        (fun _ _ th => th.wv d (if holdsInt cmp (side ty th a) (sideImm ty imm) then 1 else 0))) ∧
    Rewrites (.sel h d a b c) (fun _ _ th => th.wv d (if th.rp c then th.rv a else th.rv b)) ∧
    Rewrites (.mov h false d a) (fun _ _ th => th.wv d (th.rv a)) ∧
    Rewrites (.mov h true d a) (fun _ _ th => th.ww d (th.rw a)) ∧
    Rewrites (.movi h d imm) (fun _ _ th => th.wv d imm) ∧
    Rewrites (.movw h d imm') (fun _ _ th => th.ww d imm') ∧
    Rewrites (.plop h tt d a b c)
      (fun _ _ th => th.wp d (tt.getLsbD (4 * (th.rp a).toNat + 2 * (th.rp b).toNat + (th.rp c).toNat)))

/-! ### Predicates, identity and transfers of control (R40, R44, R164 to R171) -/

/-- R44, R164, R165: P2V, V2P and GETID with every selector. That srvq is read before the instruction's own charge is the model's choice
(log 68). -/
def Obligations.PredicateMoveAndIdentityResults : Prop :=
  ∀ (h : Head) (d a : Reg),
    Rewrites (.p2v h false d a) (fun _ _ th => th.wv d (BitVec.extractLsb' a.toNat 32 th.p)) ∧
    Rewrites (.p2v h true d a) (fun _ _ th => th.wv d (if th.rp a then 1 else 0)) ∧
    Rewrites (.v2p h false d a) (fun _ _ th => th.wpg d (th.rv a)) ∧
    Rewrites (.v2p h true d a) (fun _ _ th => th.wp d (decide (th.rv a ≠ 0))) ∧
    ∀ (code : BitVec 8), code.toNat ≤ 17 → Rewrites (.getid h d code) (fun s _ th =>
      let x := ((ident s th).lookup code.toNat).getD 0
      if code = 12 ∨ code = 13 then th.ww d x else th.wv d (x.extractLsb' 0 32))

/-- R37 and R40: vector registers, pairs, quads and predicates read back what was written and no write reaches another
register; pT reads as 1 and discards writes; a group write reaches its 32 predicates. -/
def Obligations.RegisterFile : Prop :=
  ∀ (th : Thread) (d r : Reg) (x : Word) (y : DWord) (z : BitVec 128) (b : Bool),
    (th.wv d x).rv r = (if r = d then x else th.rv r) ∧
    (th.ww d y).rw d = y ∧
    (∀ n, n ≠ d.toNat → n ≠ d.toNat + 1 → (th.ww d y).rvn n = th.rvn n) ∧
    (th.wx d z).rx d = z ∧
    (∀ n, ¬(d.toNat ≤ n ∧ n < d.toNat + 4) → (th.wx d z).rvn n = th.rvn n) ∧
    th.rp 127 = true ∧ th.wp 127 b = th ∧
    (d.toNat < 96 → (th.wp d b).rp d = b) ∧
    (r ≠ d → r.toNat < 96 → (th.wp d b).rp r = th.rp r) ∧
    (d.toNat ≤ 64 → ∀ n, n < 96 → (th.wpg d x).p.getLsbD n =
      if d.toNat ≤ n ∧ n < d.toNat + 32 then x.getLsbD (n - d.toNat) else th.p.getLsbD n)

/-- R166, R167 and R171: BR, JMP, CALL, CALLR and RET in each thread, and NOP at its three lengths. Targets of immediate
distances count from the instruction's own address. -/
def Obligations.TransferResults : Prop :=
  ∀ (h : Head) (cn : Bool) (d a : Reg) (imm : BitVec 32),
    Rewrites (.br h cn a imm)
      (fun s k th => if th.rp a != cn then goTo th ((s.thread k).pc + imm.signExtend 64) else th) ∧
    Rewrites (.jmp h imm) (fun s k th => goTo th ((s.thread k).pc + imm.signExtend 64)) ∧
    Rewrites (.call h d imm)
      (fun s k th => (goTo th ((s.thread k).pc + imm.signExtend 64)).ww d ((s.thread k).pc + 12)) ∧
    Rewrites (.callr h d a) (fun s k th => (goTo th (th.rw a)).ww d ((s.thread k).pc + 8)) ∧
    Rewrites (.ret h a) (fun _ _ th => goTo th (th.rw a)) ∧
    Rewrites (.nopS h) (fun _ _ th => th) ∧
    Rewrites (.nopW h) (fun _ _ th => th) ∧
    Rewrites (.nopX h) (fun _ _ th => th)

/-- R168: when the active threads of BRU have one condition and one target, all threads of the fragment, active or not, go on
together, to the target when the condition is 1 and behind the BRU otherwise. -/
def Obligations.UniformBranchTogether : Prop :=
  ∀ (h : Head) (cn : Bool) (a : Reg) (tgt : BruTarget) (s : State) (c : Bool) (pc : DWord),
    Ready (.bru h cn a tgt) s → (∃ k ∈ s.cur, (s.thread k).active h = true) →
    (∀ k ∈ s.cur, (s.thread k).active h = true →
      ((s.thread k).rp a != cn) = c ∧ bruAddress (s.thread k) tgt = pc) →
    ∃ t, exec (.bru h cn a tgt) s = .next t ∧ OnlyThreads s t ∧ ∀ k ∈ s.cur, ∃ th tag, lookup s.threads k = some th ∧
      lookup t.threads k = some (tagged (if c then goTo (advance (.bru h cn a tgt) th) pc
        else advance (.bru h cn a tgt) th) tag)

/-- R171, R32: YIELD and NAP change no register and no memory. YIELD goes on behind itself; NAP keeps its fragment waiting for
the largest min(vA, 1,048,576) of its active threads, counted from the issue, and not at all when that is 0. R25, R26, R169 and
R170: REFORM leaves the lane vacant and files its thread in the hamper of (target, vA), or in a new one
when there is none, an entry is free and not kept for a waiting thread, and none waits for that hamper; with none and all 128
entries taken it waits at the REFORM. EXIT ends a thread that
is no helper, closes its LA windows and its HIRE, and with that HIRE every helper of it goes; in a helper EXIT takes the helper
away. No memory and no system register changes. -/
def Obligations.WaveInstructions : Prop :=
  (∀ (h : Head) (a : Reg),
    Rewrites (.yield h) (fun _ _ th => th) ∧
    ∀ (s : State), Ready (.nap h a) s → ∃ t, exec (.nap h a) s = .next t ∧ OnlyThreads s t ∧ t.cur = [] ∧
      (∀ k, k ∉ s.cur → lookup t.threads k = lookup s.threads k) ∧
      ∀ k ∈ s.cur, ∃ th tag, lookup s.threads k = some th ∧ lookup t.threads k = some (tagged (
        if napFor h a s = 0 then advance (.nap h a) th
        else { advance (.nap h a) th with wait := .nap (s.clk + napFor h a s) }) tag)) ∧
  (∀ (h : Head) (a : Reg) (imm : BitVec 32) (s : State) (k : Nat) (th : Thread), Alone (.reform h a imm) s k th →
    let hs := (s.core th.core).hampers
    ∃ t u, exec (.reform h a imm) s = .next t ∧ lookup t.threads k = some u ∧ t.drawer = s.drawer ∧ t.sys = s.sys ∧
      u.v = th.v ∧ u.p = th.p ∧ u.a = th.a ∧
      ((∀ e ∈ hs, ¬namesHamper e.2 th imm a) → (∀ e, e < 128 → lookup hs e ≠ none) →
        u.wait = .reform ∧ u.pc = th.pc ∧ u.status = th.status) ∧
      ((∀ e ∈ hs, ¬namesHamper e.2 th imm a) → (∃ e, e < 128 ∧ lookup hs e = none ∧ e ∉ (s.core th.core).kept) →
        (∀ w ∈ (s.core th.core).reformQ, ¬(w.th / 32768 = th.gid ∧ w.target = th.pc + imm.signExtend 64 ∧ w.key = th.rv a)) →
        u.status = .filed ∧ ∃ e x, lookup (t.core th.core).hampers e = some x ∧ namesHamper x th imm a ∧
          x.ths = [(k, (s.clk : Int))]) ∧
      ∀ e x, lookup hs e = some x → namesHamper x th imm a → (∀ y ∈ hs, namesHamper y.2 th imm a → y.1 = e) →
        u.status = .filed ∧ ∃ y, lookup (t.core th.core).hampers e = some y ∧ y.ths = x.ths ++ [(k, (s.clk : Int))]) ∧
  (∀ (h : Head) (s : State) (k : Nat) (th : Thread), Alone (.exit h) s k th → th.hidx = 0 →
    (∀ hr, th.hire = some hr → 0 ∉ hr.live) →
    ∃ t u, exec (.exit h) s = .next t ∧ lookup t.threads k = some u ∧ u.status = .exited ∧ u.las = [] ∧ u.hire = none ∧
      u.wait = .none ∧ u.v = th.v ∧ u.p = th.p ∧ u.a = th.a ∧ t.drawer = s.drawer ∧ t.sys = s.sys ∧
      ∀ hr, th.hire = some hr → ∀ i ∈ hr.live, lookup t.threads (k + i) = none) ∧
  (∀ (h : Head) (s : State) (k : Nat) (th : Thread), Alone (.exit h) s k th → th.hidx ≠ 0 → th.hidx ≤ k →
    ∃ t, exec (.exit h) s = .next t ∧ lookup t.threads k = none ∧ t.drawer = s.drawer ∧ t.sys = s.sys)

/-! ### Floating point (R105 to R111, R174 to R184) -/

/-- R107, R47: the one rounding every arithmetic form goes through rounds the exact number under every mode in every format,
subnormals kept; NX tells whether the result differs from it, OF that its magnitude overflowed, UF that the result is tiny and
inexact, where tiny is said of the exact number rounded with no lower end of the exponent; NV and DZ are left alone. -/
def Obligations.RoundingIsExact : Prop :=
  ∀ (f : Fmt) (md : Rm) (neg : Bool) (m : Nat) (e : Int), 0 < m →
    let y := exact neg m e
    let r := roundTo f md neg m e
    RoundsTo f md y r.1 ∧
    (r.2.getLsbD 0 = true ↔ ¬(finite f r.1 ∧ value f r.1 = y)) ∧
    (r.2.getLsbD 2 = true ↔ ¬finite f r.1 ∨ overTop f ≤ |y|) ∧
    (r.2.getLsbD 1 = true ↔ r.2.getLsbD 0 = true ∧ |y| < leastNormal f ∧ ¬reachesNormal f md y) ∧
    (r.2.getLsbD 0 = true → |value f r.1| < leastNormal f → r.2.getLsbD 1 = true) ∧
    r.2.getLsbD 3 = false ∧ r.2.getLsbD 4 = false

/-- R107, R109, R111, R175, R180, R181: on finite operands FADD, FSUB, FMUL, FFMA, FDIV, RCP, SQRT and RSQ round the exact
result once, I2F the exact integer and FCVT between two formats the exact value; an exact zero has the sign R175 gives it. -/
def Obligations.FiniteArithmeticIsExact : Prop :=
  ∀ (f g : Fmt) (md : Rm) (a b c : Nat) (v : Int), finite f a → finite f b → finite f c →
    (value f a + value f b ≠ 0 → RoundsTo f md (value f a + value f b : ℚ) (fAdd f md a b).1) ∧
    (value f a - value f b ≠ 0 → RoundsTo f md (value f a - value f b : ℚ) (fSub f md a b).1) ∧
    (value f a + value f b = 0 → (negative f a ↔ ¬negative f b) →
      fAdd f md a b = (zeroPat f (decide (md = .rm)), 0)) ∧
    (value f a - value f b = 0 → (negative f a ↔ negative f b) →
      fSub f md a b = (zeroPat f (decide (md = .rm)), 0)) ∧
    (∀ sa : Bool, (sa = true ↔ negative f a) →
      (value f a + value f b = 0 → (negative f a ↔ negative f b) → fAdd f md a b = (zeroPat f sa, 0)) ∧
      (value f a - value f b = 0 → (negative f a ↔ ¬negative f b) → fSub f md a b = (zeroPat f sa, 0)) ∧
      (value f a = 0 → fConvert g f md a = (zeroPat g sa, 0))) ∧
    (value f a * value f b ≠ 0 → RoundsTo f md (value f a * value f b : ℚ) (fMul f md a b).1) ∧
    (value f a * value f b = 0 → ∃ neg, (neg = true ↔ ¬(negative f a ↔ negative f b)) ∧
      fMul f md a b = (zeroPat f neg, 0)) ∧
    (value f a * value f b + value f c ≠ 0 → RoundsTo f md (value f a * value f b + value f c : ℚ) (fFma f md a b c).1) ∧
    (∀ sp sc : Bool, (sp = true ↔ ¬(negative f a ↔ negative f b)) → (sc = true ↔ negative f c) →
      (value f a * value f b + value f c = 0 →
        fFma f md a b c = (zeroPat f (if sp = sc then sp else decide (md = .rm)), 0)) ∧
      (value f a = 0 → value f b ≠ 0 → fDiv f md a b = (zeroPat f sp, 0))) ∧
    (value f a ≠ 0 → value f b ≠ 0 → RoundsTo f md (value f a / value f b : ℚ) (fDiv f md a b).1) ∧
    (value f a ≠ 0 → RoundsTo f md (1 / value f a : ℚ) (fRcp f md a).1) ∧
    (0 < value f a → RoundsTo f md (Real.sqrt (value f a)) (fSqrt f md a).1) ∧
    (0 < value f a → RoundsTo f md (1 / Real.sqrt (value f a)) (fRsq f md a).1) ∧
    (v ≠ 0 → RoundsTo g md (v : ℝ) (roundInt g md v).1) ∧ roundInt g md 0 = (0, 0) ∧
    (value f a ≠ 0 → RoundsTo g md (value f a : ℝ) (fConvert g f md a).1)

/-- R108, R110, R175, R181: the results on NaNs, infinities and zeros, with the flags NV (16) and DZ (8). -/
def Obligations.FloatSpecialCases : Prop :=
  ∀ (f g : Fmt) (md : Rm) (a b : Nat), a < 2 ^ fmtWidth f → b < 2 ^ fmtWidth f →
    (nanPat f a ∨ nanPat f b → ∃ fl : BitVec 5, (fl = 16 ↔ sigPat f a ∨ sigPat f b) ∧ (fl = 16 ∨ fl = 0) ∧
      fAdd f md a b = (quietPat f, fl) ∧ fSub f md a b = (quietPat f, fl) ∧ fMul f md a b = (quietPat f, fl) ∧
      fDiv f md a b = (quietPat f, fl)) ∧
    (∀ c, c < 2 ^ fmtWidth f →
      let invalid : Prop := ∃ x y, (a = infPat f x ∧ b = zeroPat f y) ∨ (a = zeroPat f x ∧ b = infPat f y)
      let noNaN : Prop := ¬nanPat f a ∧ ¬nanPat f b ∧ ¬nanPat f c
      (¬noNaN ∨ invalid → ∃ fl : BitVec 5, (fl = 16 ↔ sigPat f a ∨ sigPat f b ∨ sigPat f c ∨ invalid) ∧ (fl = 16 ∨ fl = 0) ∧
        fFma f md a b c = (quietPat f, fl)) ∧
      (noNaN → ¬invalid → (∃ x, a = infPat f x ∨ b = infPat f x) → ∀ sp : Bool, (sp = true ↔ ¬(negative f a ↔ negative f b)) →
        fFma f md a b c = if c = infPat f !sp then (quietPat f, 16) else (infPat f sp, 0)) ∧
      (finite f a → finite f b → ∀ x, c = infPat f x → fFma f md a b c = (infPat f x, 0))) ∧
    (finite f a → ∀ x, fAdd f md (infPat f x) a = (infPat f x, 0) ∧ fAdd f md a (infPat f x) = (infPat f x, 0) ∧
      fSub f md (infPat f x) a = (infPat f x, 0) ∧ fSub f md a (infPat f x) = (infPat f !x, 0) ∧
      ∀ neg : Bool, (neg = true ↔ ¬(negative f a ↔ x = true)) → fDiv f md (infPat f x) a = (infPat f neg, 0) ∧
        (value f a ≠ 0 → fMul f md (infPat f x) a = (infPat f neg, 0) ∧ fMul f md a (infPat f x) = (infPat f neg, 0)) ∧
        (value f a = 0 → fMul f md (infPat f x) a = (quietPat f, 16) ∧ fMul f md a (infPat f x) = (quietPat f, 16))) ∧
    (∀ x y, fMul f md (infPat f x) (infPat f y) = (infPat f (x != y), 0)) ∧
    (nanPat f a → ∃ fl : BitVec 5, (fl = 16 ↔ sigPat f a) ∧ (fl = 16 ∨ fl = 0) ∧
      fRcp f md a = (quietPat f, fl) ∧ fRsq f md a = (quietPat f, fl) ∧ fSqrt f md a = (quietPat f, fl) ∧
      fExp2 f md a = (quietPat f, fl) ∧ fLog2 f md a = (quietPat f, fl) ∧ fRnd f md a = (quietPat f, fl) ∧
      fConvert g f md a = (quietPat g, fl)) ∧
    (∀ x : Bool, fAdd f md (infPat f x) (infPat f x) = (infPat f x, 0) ∧
      fAdd f md (infPat f x) (infPat f !x) = (quietPat f, 16) ∧
      fSub f md (infPat f x) (infPat f x) = (quietPat f, 16) ∧
      fMul f md (infPat f x) (zeroPat f false) = (quietPat f, 16) ∧
      fDiv f md (infPat f x) (infPat f false) = (quietPat f, 16) ∧
      fDiv f md (zeroPat f x) (zeroPat f false) = (quietPat f, 16) ∧
      fRsq f md (zeroPat f x) = (infPat f x, 8) ∧ fRcp f md (zeroPat f x) = (infPat f x, 8) ∧
      fSqrt f md (zeroPat f x) = (zeroPat f x, 0) ∧ fLog2 f md (zeroPat f x) = (infPat f true, 8) ∧
      value f (fExp2 f md (zeroPat f x)).1 = 1 ∧ (fExp2 f md (zeroPat f x)).2 = 0 ∧
      fRcp f md (infPat f x) = (zeroPat f x, 0)) ∧
    (finite f a → value f a ≠ 0 → ∀ x neg, (neg = true ↔ ¬(negative f a ↔ x = true)) →
      fDiv f md a (zeroPat f x) = (infPat f neg, 8) ∧ fDiv f md a (infPat f x) = (zeroPat f neg, 0)) ∧
    (finite f a → value f a < 0 → fSqrt f md a = (quietPat f, 16) ∧ fRsq f md a = (quietPat f, 16) ∧
      fLog2 f md a = (quietPat f, 16)) ∧
    fRsq f md (infPat f false) = (0, 0) ∧ fSqrt f md (infPat f false) = (infPat f false, 0) ∧
    fExp2 f md (infPat f false) = (infPat f false, 0) ∧ fLog2 f md (infPat f false) = (infPat f false, 0) ∧
    fExp2 f md (infPat f true) = (0, 0) ∧ fRsq f md (infPat f true) = (quietPat f, 16) ∧
    fSqrt f md (infPat f true) = (quietPat f, 16) ∧ fLog2 f md (infPat f true) = (quietPat f, 16)

/-- R111, R176 to R180: FMIN and FMAX pick an operand with −0 below +0 and prefer a number to a NaN; the comparisons order the
values, unordered ones only .NE and .UN; FRND and F2I round to the integer the mode names, F2I within its type; FCLS names the
class. -/
def Obligations.FloatSelectionResults : Prop :=
  ∀ (f : Fmt) (md : Rm) (ty : Ty) (cmp : FCmp) (a b : Nat), a < 2 ^ fmtWidth f → b < 2 ^ fmtWidth f →
    (¬nanPat f a → ¬nanPat f b →
      (value f a < value f b ∨ (value f a = value f b ∧ negative f a) →
        fMinMax f false a b = (a, 0) ∧ fMinMax f false b a = (a, 0) ∧ fMinMax f true a b = (b, 0) ∧
          fMinMax f true b a = (b, 0)) ∧
      ((fCmp f cmp a b).1 = true ↔ holdsNum cmp (value f a) (value f b)) ∧ (fCmp f cmp a b).2 = 0) ∧
    (nanPat f a → ¬nanPat f b → ∀ mx, (fMinMax f mx a b).1 = b ∧ (fMinMax f mx b a).1 = b ∧
      ((fMinMax f mx a b).2 = 16 ↔ sigPat f a)) ∧
    (nanPat f a → nanPat f b → ∀ mx, (fMinMax f mx a b).1 = quietPat f) ∧
    (nanPat f a ∨ nanPat f b → (fCmp f cmp a b).1 = decide (cmp = .ne ∨ cmp = .un) ∧
      ((fCmp f cmp a b).2 = 16 ↔ sigPat f a ∨ sigPat f b ∨ cmp ∈ [FCmp.lt, .le, .gt, .ge])) ∧
    (finite f a → value f (fRnd f md a).1 = intOf md (value f a) ∧ (negative f (fRnd f md a).1 ↔ negative f a) ∧
      (fRnd f md a).2 = 0) ∧
    (finite f a → ty.integral = true →
      let n := intOf md (value f a)
      fToInt f ty md a = if n < typeLo ty then (typeLo ty, 16) else if typeHi ty < n then (typeHi ty, 16)
        else (n, if value f a = n then 0 else 1)) ∧
    (nanPat f a → fToInt f ty md a = (0, 16)) ∧
    (ty.integral = true → ∀ x, fToInt f ty md (infPat f x) = (if x then typeLo ty else typeHi ty, 16)) ∧
    ∃ k, fClass f a = 2 ^ k ∧
      (k = 0 ↔ a = infPat f true) ∧ (k = 1 ↔ finite f a ∧ negative f a ∧ expOf f a ≠ 0) ∧
      (k = 2 ↔ finite f a ∧ negative f a ∧ expOf f a = 0 ∧ fracOf f a ≠ 0) ∧ (k = 3 ↔ a = zeroPat f true) ∧
      (k = 4 ↔ a = zeroPat f false) ∧ (k = 5 ↔ finite f a ∧ ¬negative f a ∧ expOf f a = 0 ∧ fracOf f a ≠ 0) ∧
      (k = 6 ↔ finite f a ∧ ¬negative f a ∧ expOf f a ≠ 0) ∧ (k = 7 ↔ a = infPat f false) ∧ (k = 8 ↔ sigPat f a) ∧
      (k = 9 ↔ nanPat f a ∧ ¬sigPat f a)

/-- R172, R174 to R182: every scalar floating-point form reads its operands, writes its result to its one destination and adds
its flags to the FP status word; nothing else changes. FSTAT returns that word and clears it. -/
def Obligations.FloatForms : Prop :=
  ∀ (h : Head) (f g : Fmt) (md : Rm) (ty : Ty) (cmp : FCmp) (d a b c : Reg) (imm : Word),
    Rewrites (.faddS h f md d a b) (fun _ _ th => putF th d (fAdd f md (pat f (th.rv a)) (pat f (th.rv b)))) ∧
    Rewrites (.faddW h f md d a imm) (fun _ _ th => putF th d (fAdd f md (pat f (th.rv a)) (pat f imm))) ∧
    Rewrites (.fsubS h f md d a b) (fun _ _ th => putF th d (fSub f md (pat f (th.rv a)) (pat f (th.rv b)))) ∧
    Rewrites (.fsubW h f md d a imm) (fun _ _ th => putF th d (fSub f md (pat f (th.rv a)) (pat f imm))) ∧
    Rewrites (.fmulS h f md d a b) (fun _ _ th => putF th d (fMul f md (pat f (th.rv a)) (pat f (th.rv b)))) ∧
    Rewrites (.fmulW h f md d a imm) (fun _ _ th => putF th d (fMul f md (pat f (th.rv a)) (pat f imm))) ∧
    Rewrites (.ffma h f md d a b c)
      (fun _ _ th => putF th d (fFma f md (pat f (th.rv a)) (pat f (th.rv b)) (pat f (th.rv c)))) ∧
    Rewrites (.fdiv h f md d a b) (fun _ _ th => putF th d (fDiv f md (pat f (th.rv a)) (pat f (th.rv b)))) ∧
    Rewrites (.fminS h f d a b) (fun _ _ th => putF th d (fMinMax f false (pat f (th.rv a)) (pat f (th.rv b)))) ∧
    Rewrites (.fminW h f d a imm) (fun _ _ th => putF th d (fMinMax f false (pat f (th.rv a)) (pat f imm))) ∧
    Rewrites (.fmaxS h f d a b) (fun _ _ th => putF th d (fMinMax f true (pat f (th.rv a)) (pat f (th.rv b)))) ∧
    Rewrites (.fmaxW h f d a imm) (fun _ _ th => putF th d (fMinMax f true (pat f (th.rv a)) (pat f imm))) ∧
    Rewrites (.fsetS h f cmp d a b) (fun _ _ th =>
      let r := fCmp f cmp (pat f (th.rv a)) (pat f (th.rv b))
      flagged (th.wp d r.1) r.2) ∧
    Rewrites (.fsetW h f cmp d a imm) (fun _ _ th =>
      let r := fCmp f cmp (pat f (th.rv a)) (pat f imm)
      flagged (th.wp d r.1) r.2) ∧
    Rewrites (.fsetvS h f cmp d a b) (fun _ _ th =>
      let r := fCmp f cmp (pat f (th.rv a)) (pat f (th.rv b))
      flagged (th.wv d (if r.1 then 1 else 0)) r.2) ∧
    Rewrites (.fsetvW h f cmp d a imm) (fun _ _ th =>
      let r := fCmp f cmp (pat f (th.rv a)) (pat f imm)
      flagged (th.wv d (if r.1 then 1 else 0)) r.2) ∧
    Rewrites (.fcls h f d a) (fun _ _ th => th.wv d (BitVec.ofNat 32 (fClass f (pat f (th.rv a))))) ∧
    Rewrites (.frnd h f md d a) (fun _ _ th => putF th d (fRnd f md (pat f (th.rv a)))) ∧
    Rewrites (.f2i h ty f md d a) (fun _ _ th =>
      let r := fToInt f ty md (pat f (th.rv a))
      flagged (if ty.wide then th.ww d (BitVec.ofInt 64 r.1) else th.wv d (BitVec.ofInt 32 r.1)) r.2) ∧
    (ty.integral = true → Rewrites (.i2f h ty f md d a) (fun _ _ th => putF th d (roundInt f md (side ty th a)))) ∧
    Rewrites (.fcvt h g f md d a) (fun _ _ th => putF th d (fConvert g f md (pat f (th.rv a)))) ∧
    Rewrites (.rcp h f md d a) (fun _ _ th => putF th d (fRcp f md (pat f (th.rv a)))) ∧
    Rewrites (.rsq h f md d a) (fun _ _ th => putF th d (fRsq f md (pat f (th.rv a)))) ∧
    Rewrites (.sqrt h f md d a) (fun _ _ th => putF th d (fSqrt f md (pat f (th.rv a)))) ∧
    Rewrites (.exp2 h f md d a) (fun _ _ th => putF th d (fExp2 f md (pat f (th.rv a)))) ∧
    Rewrites (.log2 h f md d a) (fun _ _ th => putF th d (fLog2 f md (pat f (th.rv a)))) ∧
    Rewrites (.fstat h d) (fun _ _ th => { th.wv d (th.fp.zeroExtend 32) with fp := 0 })

/-- R105, R183 to R186: the packed forms compute each 16-bit lane on its own; VACSEL runs one butterfly. -/
def Obligations.PackedForms : Prop :=
  ∀ (h : Head) (f : Fmt) (md : Rm) (ty : Ty) (sat : Bool) (d a b c sv : Reg), f ≠ .f32 → ty = .s16 ∨ ty = .z16 →
    let two (op : Nat → Nat → Nat × BitVec 5) (x y : Word) : Nat × BitVec 5 :=
      lanes (op (laneBits x 0) (laneBits y 0)) (op (laneBits x 1) (laneBits y 1))
    let clamped (y : Int) : Int := if sat then clampTo ty y else y
    Rewrites (.hadd2 h f md d a b) (fun _ _ th => putF th d (two (fAdd f md) (th.rv a) (th.rv b))) ∧
    Rewrites (.hsub2 h f md d a b) (fun _ _ th => putF th d (two (fSub f md) (th.rv a) (th.rv b))) ∧
    Rewrites (.hmul2 h f md d a b) (fun _ _ th => putF th d (two (fMul f md) (th.rv a) (th.rv b))) ∧
    Rewrites (.hfma2 h f md d a b c) (fun _ _ th => putF th d
      (lanes (fFma f md (laneBits (th.rv a) 0) (laneBits (th.rv b) 0) (laneBits (th.rv c) 0))
        (fFma f md (laneBits (th.rv a) 1) (laneBits (th.rv b) 1) (laneBits (th.rv c) 1)))) ∧
    Rewrites (.hmin2 h f d a b) (fun _ _ th => putF th d (two (fMinMax f false) (th.rv a) (th.rv b))) ∧
    Rewrites (.hmax2 h f d a b) (fun _ _ th => putF th d (two (fMinMax f true) (th.rv a) (th.rv b))) ∧
    Rewrites (.hcvt2 h .pk f md d a b) (fun _ _ th =>
      putF th d (lanes (fConvert f .f32 md (th.rv a).toNat) (fConvert f .f32 md (th.rv b).toNat))) ∧
    Rewrites (.hcvt2 h .upk f md d a b) (fun _ _ th =>
      let lo := fConvert .f32 f .rn (laneBits (th.rv a) 0)
      let hi := fConvert .f32 f .rn (laneBits (th.rv a) 1)
      flagged (th.ww d (BitVec.ofNat 32 hi.1 ++ BitVec.ofNat 32 lo.1)) (lo.2 ||| hi.2)) ∧
    Rewrites (.hcvt2 h .x f md d a b) (fun _ _ th =>
      putF th d (lanes (fConvert f (half16 f) md (laneBits (th.rv a) 0)) (fConvert f (half16 f) md (laneBits (th.rv a) 1)))) ∧
    Rewrites (.vadd2 h ty sat d a b)
      (fun _ _ th => th.wv d (lanePair fun l => clamped (laneNum ty (th.rv a) l + laneNum ty (th.rv b) l))) ∧
    Rewrites (.vsub2 h ty sat d a b)
      (fun _ _ th => th.wv d (lanePair fun l => clamped (laneNum ty (th.rv a) l - laneNum ty (th.rv b) l))) ∧
    Rewrites (.vmin2 h ty d a b)
      (fun _ _ th => th.wv d (lanePair fun l => min (laneNum ty (th.rv a) l) (laneNum ty (th.rv b) l))) ∧
    Rewrites (.vmax2 h ty d a b)
      (fun _ _ th => th.wv d (lanePair fun l => max (laneNum ty (th.rv a) l) (laneNum ty (th.rv b) l))) ∧
    Rewrites (.vacsel h sat d a b c sv) (fun _ _ th =>
      let n0 := successor sat (th.rv a) (th.rv b)
      let n1 := successor sat (th.rv a) (th.rv c)
      (th.wv d (lanePair fun l => if l = 0 then n0.2 else n1.2)).wv sv
        ((th.rv sv <<< 2) ||| (if n1.1 then 2 else 0) ||| (if n0.1 then 1 else 0)))

/-- R112, R113, R187 to R191: the cross-lane instructions read the registers of the present lanes as they stood before, in the
fixed tree and the fixed scan. -/
def Obligations.CrossLaneForms : Prop :=
  ∀ (h : Head) (op : ShfOp) (r : RedOp) (ty : Ty) (sat : Bool) (md : Rm) (v : VoteOp) (d c a b : Reg) (mask : BitVec 5),
    Rewrites (.vshf h op d c a b) (fun s k th =>
      let i := (s.thread k).lane
      let n := (th.rv b).toNat
      shuffled s h k d c a (match op with
        | .idx => some n
        | .up => if n ≤ i then some (i - n) else none
        | .dn => some (i + n)) th) ∧
    Rewrites (.vbfly h d c a mask) (fun s k th => shuffled s h k d c a (some ((s.thread k).lane ^^^ mask.toNat)) th) ∧
    (ty = .s32 ∨ ty = .z32 ∨ (ty = .f32 ∧ r ∈ [RedOp.add, .min, .max]) →
      Rewrites (.vred h r ty sat md d a)
        (fun s k th => takeOpt th d (tree (combine r ty sat md) (levels s k) (slots s h k a) 0)) ∧
      Rewrites (.vscan h r ty sat md d a) (fun s k th =>
        if th.lane < 2 ^ levels s k then takeOpt th d (scan (combine r ty sat md) (levels s k) (slots s h k a) th.lane)
        else th)) ∧
    Rewrites (.vote h v d a) (fun s k th =>
      let here := (List.range 32).filterMap (atLane s h k)
      let at_ (p : Nat → Bool) : Word := maskOf fun i => (atLane s h k i).any p
      match v with
      | .any => th.wp d (here.any fun j => (s.thread j).rp a)
      | .all => th.wp d (here.all fun j => (s.thread j).rp a)
      | .uni => th.wp d (here.all (fun j => (s.thread j).rp a) || here.all fun j => !(s.thread j).rp a)
      | .bal => th.wv d (at_ fun j => (s.thread j).rp a)
      | .act => th.wv d (at_ fun _ => true))

/-! ### Memory accesses (R49 to R62, R146, R192 to R203) -/

/-- R52, R53: what each aperture of the 64-bit address space reaches, and the cause of the trap where it reaches nothing: ADDR
before MISALIGN before SCR_BOUND. Addresses outside every aperture are ADDR. -/
def Obligations.ApertureChecks : Prop :=
  ∀ (s : State) (th : Thread) (k : Nat) (a : DWord) (n align : Nat) (atomic wide : Bool),
    let x := a.toNat
    let p := s.pktOf th
    let hood := (s.group th.gid).hood
    let sg := s.sgrpOf th.ctx
    let pkg := x / 2 ^ 53 % 128
    let own := (s.reg 0xB001 0).toNat % 128
    let r := s.access th k a n align atomic wide
    let check (ok : Prop) [Decidable ok] (l : Loc) : Except (BitVec 8) Loc :=
      if x % align ≠ 0 then .error causeMisalign else if ok then .ok l else .error causeScrBound
    (x < 2 ^ 57 → r = check True (.global x)) ∧
    (x / 2 ^ 60 = 8 → wide = true ∨ (pkg ≠ own ∧
        ((lookup s.routes (sg * 128 + pkg)).isSome = false ∨ (s.reg 0x9101 sg).getLsbD 63 = false)) →
      r = .error causeAddr) ∧
    (x / 2 ^ 60 = 8 → wide = false → pkg = own → r = check True (.own (x % 2 ^ 53))) ∧
    (x / 2 ^ 60 = 8 → wide = false → pkg ≠ own → (lookup s.routes (sg * 128 + pkg)).isSome = true →
      (s.reg 0x9101 sg).getLsbD 63 = true → r = check True (.peer pkg (x % 2 ^ 53))) ∧
    (∀ off, off < 4096 → x = 0xC000000000000000 + off → r = check (off + n ≤ p.slice) (.slice (k - th.hidx) off)) ∧
    (∀ off, off < 2 ^ 20 → x = 0xD000000000000000 + off → r = check (off + n ≤ p.scratch) (.alloc th.gid off)) ∧
    (∀ m off, m < 32 → off < 2 ^ 20 → x = 0xE000000000000000 + m * 2 ^ 20 + off →
      (∀ g, s.memberOf hood m = some g → r = check (m < s.ngr hood ∧ off + n ≤ p.scratch) (.alloc g off)) ∧
      (s.ngr hood ≤ m → r = check False (.alloc th.gid off))) ∧
    (∀ off, off < 2 ^ 26 → x = 0xF000000000000000 + off →
      r = check (off + n ≤ 65536 * ((s.reg 0x4001 sg).toNat / 2 ^ 32 % 1024))
        (.dsp (th.core / 144) (65536 * ((s.reg 0x4001 sg).toNat % 1024) + off))) ∧
    (∀ m t b, m < 32 → t < 2048 → b < 1024 → x = 0xFF00000000000000 + m * 2 ^ 21 + t * 2 ^ 10 + b →
      (atomic = true ∨ wide = true → r = .error causeAddr) ∧
      (atomic = false → wide = false → ∀ g, s.memberOf hood m = some g →
        r = check (m < s.ngr hood ∧ t < (s.group g).n ∧ b + n ≤ 4 * p.regs) (.regs (threadKey g t 0) b))) ∧
    (2 ^ 57 ≤ x → x / 2 ^ 60 ≠ 8 → ¬(0xC000000000000000 ≤ x ∧ x < 0xC000000000001000) →
      ¬(0xD000000000000000 ≤ x ∧ x < 0xD000000000100000) → ¬(0xE000000000000000 ≤ x ∧ x < 0xE000000002000000) →
      ¬(0xF000000000000000 ≤ x ∧ x < 0xF000000004000000) → ¬(0xFF00000000000000 ≤ x ∧ x < 0xFF00000004000000) →
      r = .error causeAddr)

/-- R195, R67: a load that reaches on-chip storage, does not wait on the scoreboard and meets no poison writes the bytes there
into its destination, of every size, sign and ordering; nothing else of the thread, no other thread, no scratchpad, no main
memory and no register of the system changes. -/
def Obligations.OnChipLoads : Prop :=
  ∀ (h : Head) (ord : Ord) (sc : Scope) (sz : LdSz) (d a : Reg) (am : Am) (off : Off) (s : State) (k : Nat) (th : Thread)
    (l : Loc), Alone (load h ord sc sz d a am off) s k th →
    s.access th k (address th am a (offset off)) sz.bytes sz.bytes false false = .ok l → onChip l →
    s.locWaits l sz.bytes false = false → (s.readLoc l sz.bytes).2 = false →
    ∃ t, exec (load h ord sc sz d a am off) s = .next t ∧
      lookup t.threads k = some (landed (advance (load h ord sc sz d a am off) th) sz d (numberAt s l sz.bytes)) ∧
      Kept s t ∧ OthersKept s t k ∧ t.groups = s.groups ∧ t.dsp = s.dsp ∧ t.reqs = s.reqs

/-- R196, R50: a store that reaches on-chip storage and need not wait writes its bytes there, lowest first, and no other byte of
any scratchpad, lane slice or register through the window, no main memory and no register of the system. -/
def Obligations.OnChipStores : Prop :=
  ∀ (h : Head) (ord : Ord) (sc : Scope) (sz : StSz) (d a : Reg) (am : Am) (off : Off) (s : State) (k : Nat) (th : Thread)
    (l : Loc), Alone (store h ord sc sz d a am off) s k th →
    s.access th k (address th am a (offset off)) sz.bytes sz.bytes false false = .ok l → onChip l → there s l →
    s.locWaits l sz.bytes true = false → (s.flushFirst th ord.releases (ord == .seq) sc).2 = none →
    ∃ t u, exec (store h ord sc sz d a am off) s = .next t ∧ lookup t.threads k = some u ∧
      u.pc = (advance (store h ord sc sz d a am off) th).pc ∧ u.p = th.p ∧ u.a = th.a ∧ u.fp = th.fp ∧ Kept s t ∧
      (∀ i, i < sz.bytes → byteOf t l i = stored th sz d i) ∧
      ∀ l', ¬within l sz.bytes l' → byteOf t l' 0 = byteOf s l' 0

/-- R198, R199, R200: ATOM, RED and ACAS on on-chip storage read the location, write the new value there and return the old one;
ACAS writes only where the old value equals vC and sets its predicate to say so. No other byte changes. -/
def Obligations.OnChipAtomics : Prop :=
  ∀ (h : Head) (ord : Ord) (sc : Scope) (op : Aop) (ty : Ty) (d a c n : Reg) (ps : BitVec 7) (am : Am) (off : BitVec 32)
    (s : State) (k : Nat) (th : Thread) (l : Loc), readyAt s th ord sc l (atomLen ty) →
    s.access th k (address th am a (offset (.long off))) (atomLen ty) (atomLen ty) true false = .ok l →
    let old := numberAt s l (atomLen ty)
    (∀ i, i = Instr.atom h ord sc op ty d a am c off ∨ i = Instr.red h ord sc op ty a am c off → atomType op ty → Alone i s k th →
      ∃ t u, exec i s = .next t ∧ lookup t.threads k = some u ∧ Kept s t ∧ OthersRegs s t k ∧
        SameRegs u (match i with
          | .red .. => advance i th
          | _ => putNum (advance i th) ty.wide d old) ∧
        numberAt t l (atomLen ty) = newValue op ty old (regNum th ty.wide c) ∧
        ∀ l', ¬within l (atomLen ty) l' → (∀ j b, l' ≠ .regs j b) → byteOf t l' 0 = byteOf s l' 0) ∧
    (let i := Instr.acas h ord sc ty d ps a am c n off;
      Alone i s k th → ty = .z32 ∨ ty = .z64 →
      ∃ t u, exec i s = .next t ∧ lookup t.threads k = some u ∧ Kept s t ∧ OthersRegs s t k ∧
        SameRegs u ((putNum (advance i th) ty.wide d old).wp (ps.zeroExtend 8) (decide (old = regNum th ty.wide c))) ∧
        numberAt t l (atomLen ty) = (if old = regNum th ty.wide c then regNum th ty.wide n else old) ∧
        ∀ l', ¬within l (atomLen ty) l' → (∀ j b, l' ≠ .regs j b) → byteOf t l' 0 = byteOf s l' 0)

/-- R60 to R62, R195 to R200: an access to global memory or through the domain aperture leaves the core as a request that holds
the operation with its operands, and the thread waits for the answer; a load that finds its line in the L1 with read permission
lands at once instead. HomeSliceAnswers and ResponsesLand say what becomes of the request. -/
def Obligations.RemoteAccesses : Prop :=
  ∀ (h : Head) (ord : Ord) (sc : Scope) (lz : LdSz) (sz : StSz) (op : Aop) (ty : Ty) (d a c n : Reg) (ps : BitVec 7) (am : Am)
    (off : Off) (off32 : BitVec 32) (s : State) (k : Nat) (th : Thread) (l : Loc) (va : DWord),
    let at1 := address th am a (offset off)
    let at2 := address th am a (offset (.long off32))
    let x : DWord := BitVec.ofNat 64 (regNum th ty.wide c)
    let y : DWord := BitVec.ofNat 64 (regNum th ty.wide n)
    let ld := load h ord sc lz d a am off
    let st := store h ord sc sz d a am off
    let atom := Instr.atom h ord sc op ty d a am c off32
    let red := Instr.red h ord sc op ty a am c off32
    let acas := Instr.acas h ord sc ty d ps a am c n off32
    (Alone ld s k th → s.access th k at1 lz.bytes lz.bytes false false = .ok l → remoteVa at1 l = some va →
      (∀ v, l = .global v → s.l1Hit th.core th.ctx v = none) → Asks ld s k th .load va lz.bytes (.load d lz)) ∧
    (∀ v key line, Alone ld s k th → s.access th k at1 lz.bytes lz.bytes false false = .ok (.global v) →
      s.l1Hit th.core th.ctx v = some (key, line) →
      ∃ t, exec ld s = .next t ∧ Kept s t ∧ OthersKept s t k ∧ t.reqs = s.reqs ∧
        lookup t.threads k = some (landed (advance ld th) lz d
          ((List.range lz.bytes).map fun j => (lookupD 0 line.data (v % 128 + j)).toNat * 256 ^ j).sum)) ∧
    ((s.flushFirst th ord.releases (ord == .seq) sc).2 = none →
      (Alone st s k th → s.access th k at1 sz.bytes sz.bytes false false = .ok l → remoteVa at1 l = some va →
        Asks st s k th (.store ((List.range sz.bytes).map (stored th sz d))) va sz.bytes .none) ∧
      (s.access th k at2 (atomLen ty) (atomLen ty) true false = .ok l → remoteVa at2 l = some va →
        (Alone atom s k th → Asks atom s k th (.atomic op ty x) va (atomLen ty) (.old d (atomLen ty))) ∧
        (Alone red s k th → Asks red s k th (.atomic op ty x) va (atomLen ty) .none) ∧
        (Alone acas s k th → Asks acas s k th (.acas ty x y) va (atomLen ty) (.acas d (atomLen ty) ps))))

/-- R53: a memory instruction whose address check fails traps with the cause of the check and TVAL the address. -/
def Obligations.AccessTraps : Prop :=
  ∀ (h : Head) (ord : Ord) (sc : Scope) (lz : LdSz) (sz : StSz) (op : Aop) (ty : Ty) (d a c n : Reg) (ps : BitVec 7) (am : Am)
    (off : Off) (off32 : BitVec 32) (s : State) (k : Nat) (th : Thread) (e : BitVec 8), canTrap s th →
    let at1 := address th am a (offset off)
    let at2 := address th am a (offset (.long off32))
    (Alone (load h ord sc lz d a am off) s k th → s.access th k at1 lz.bytes lz.bytes false false = .error e →
      TakesTrap (load h ord sc lz d a am off) s k th e at1 0) ∧
    (Alone (store h ord sc sz d a am off) s k th → s.access th k at1 sz.bytes sz.bytes false false = .error e →
      TakesTrap (store h ord sc sz d a am off) s k th e at1 0) ∧
    (Alone (.tlwCtr h sc d a am off) s k th → s.access th k at1 8 8 false false = .error e →
      TakesTrap (.tlwCtr h sc d a am off) s k th e at1 0) ∧
    (s.access th k at2 (atomLen ty) (atomLen ty) true false = .error e →
      (Alone (.atom h ord sc op ty d a am c off32) s k th → TakesTrap (.atom h ord sc op ty d a am c off32) s k th e at2 0) ∧
      (Alone (.red h ord sc op ty a am c off32) s k th → TakesTrap (.red h ord sc op ty a am c off32) s k th e at2 0) ∧
      (Alone (.acas h ord sc ty d ps a am c n off32) s k th →
        TakesTrap (.acas h ord sc ty d ps a am c n off32) s k th e at2 0))

/-! ### Home slices and responses (R60 to R64, R315, R360) -/

/-- R61, R64, R198, R200, R321, R373: a request that misses in L2 with its translation in order asks the drawer for its line, and
waits. A request that its home slice serves, with its line in L2 or come from the drawer, is performed on the line at once: a load
answers the line's bytes, a store writes its bytes, an atomic writes its new value and answers the old one, ACAS writes only on
equality. A write leaves the line dirty in its way with every other byte as it was. The answer goes to the core as a packet of VC1
and the request is kept as served. -/
def Obligations.HomeSliceAnswers : Prop :=
  ∀ (s : State) (tag : Nat) (q : MemReq), lookup s.reqs tag = some q → q.served = false → q.link = none →
    let access := State.reqAccess q.ctx (within53 q) q.op
    (∀ pa, q.fill = none → s.missPa access = some pa →
      ∃ t x, exec (.homeSliceRequest tag) s = .next t ∧ lookup t.reqs tag = some { q with fill := some false } ∧
        t = { s with reqs := t.reqs, links := t.links } ∧
        (t.link ⟨false, s.channelOf pa⟩).queue = (s.link ⟨false, s.channelOf pa⟩).queue ++ [x] ∧ x.ctx = q.ctx ∧ x.tag = tag ∧
        x.flit.cmd.toNat / 2 ^ 124 = 1 ∧ x.flit.cmd.toNat % 2 ^ 35 = s.channelOff (pa / 128 * 128) % 2 ^ 35) ∧
    (q.fill = some false → exec (.homeSliceRequest tag) s = .next s) ∧
    ∀ s1 l, q.fill ≠ some false → (q.fill = none → s.missPa access = none) →
      s.serveWith q.fill.isSome access = .ok s1 l → l.poison = false →
    let o := within53 q % 128
    ∃ t, exec (.homeSliceRequest tag) s = .next t ∧ lookup t.reqs tag = some { q with served := true } ∧ t.threads = s.threads ∧
      (∃ data p, (t.router (256 + q.core)).queue = (s.router (256 + q.core)).queue ++ [p] ∧ p.vc = 1 ∧
        p.item = .response (.memoryResponse tag data false) ∧
        match q.op with
        | .store _ => data = []
        | _ => data.length = q.size ∧ ∀ j, j < q.size → data.getD j 0 = lineByte l (o + j)) ∧
      ∀ key cur, s1.l2Find l.asid l.cline = some (key, cur) →
        match q.op with
        | .load => lookup t.l2 key = some cur
        | .store d => Overwritten t key cur o d.length (((List.range d.length).map fun j => (d.getD j 0).toNat * 256 ^ j).sum)
        | .atomic op ty x => atomType op ty → q.size = atomLen ty → x.toNat < 256 ^ q.size →
            Overwritten t key cur o q.size (newValue op ty (lineNumber l o q.size) x.toNat) ∧ noCopies t l
        | .acas ty c x => q.size = atomLen ty →
            if lineNumber l o q.size = c.toNat % 256 ^ q.size then Overwritten t key cur o q.size x.toNat ∧ noCopies t l
            else lookup t.l2 key = some cur

/-- R60, R195, R199, R200, R227, R360: an answer reaches the thread that asked: one request fewer is outstanding and a load's
value, an atomic's old value, the outcome of ACAS or a piece of an accumulator is written; poisoned data is not delivered and
kills the gang. R102: a helper stopped before this, its last answer, ends with it. -/
def Obligations.ResponsesLand : Prop :=
  ∀ (s : State) (tag : Nat) (q : MemReq) (th : Thread) (data : Bytes), lookup s.reqs tag = some q →
    lookup s.threads q.th = some th →
    let less : Thread := { th with pend := th.pend - 1 }
    let x := leNumber data
    let lives : Prop := th.hidx = 0 ∨ th.status ≠ .exited
    let Lands (w : Thread) : Prop := lives → ∃ t, exec (.memoryResponse tag data false) s = .next t ∧ lookup t.threads q.th = some w ∧
      lookup t.reqs tag = none ∧ Kept s t ∧ OthersKept s t q.th
    (q.dest = .none → Lands less) ∧
    (q.dest = .none → th.hidx ≠ 0 → th.hidx ≤ q.th → th.status = .exited → th.pend = 1 → ∃ t,
      exec (.memoryResponse tag data false) s = .next t ∧ lookup t.threads q.th = none ∧ Kept s t) ∧
    (∀ d sz, q.dest = .load d sz → data.length = sz.bytes → Lands (landed less sz d x)) ∧
    (∀ d n, q.dest = .old d n → data.length = n → n = 4 ∨ n = 8 → Lands (putNum less (decide (n = 8)) d x)) ∧
    (∀ d n ps ty c y, q.dest = .acas d n ps → q.op = .acas ty c y → data.length = n → n = 4 ∨ n = 8 →
      Lands ((putNum less (decide (n = 8)) d x).wp (ps.zeroExtend 8) (decide (x = c.toNat % 256 ^ n)))) ∧
    (∀ d piece, q.dest = .acc d piece → data.length = 16 → piece < 4 → lives → ∃ t u, exec (.memoryResponse tag data false) s = .next t ∧
      lookup t.threads q.th = some u ∧ u.v = th.v ∧ u.p = th.p ∧ u.pend = th.pend - 1 ∧ Kept s t ∧ OthersKept s t q.th ∧
      ∀ r e, e < 16 → u.ra r e =
        if r = d ∧ 4 * piece ≤ e ∧ e < 4 * piece + 4 then BitVec.ofNat 32 (leNumber ((data.drop (4 * (e - 4 * piece))).take 4))
        else th.ra r e) ∧
    ((∀ id n at_, q.dest ≠ .copy id n at_) → ∃ t, exec (.memoryResponse tag data true) s = .next t ∧ t.threads = s.threads ∧
      t.inbox = s.inbox ++ [.gangKill (s.group th.gid).hood ⟨1, q.va, q.pc, (s.group th.gid).hpos⟩])

/-- R62, R315, R359, R360, R372: a peer's request is refused with a control flit, and nothing else happens here, when its context is
free, is in another fabric group or the peer is no member; else it waits for its MC server, or the answer carries the request's TAG, the
poison of the line and the bytes of the line that was served, at their place. A refusal that comes back takes away the request and
raises context fault 2. Code 11 of the control flit and the bytes behind it are the model's choice (log 11), and that the answer carries
the poison of the line and not its request's alone is its reading (log 74). -/
def Obligations.DomainRequests : Prop :=
  (∀ (s : State) (q : DomainReq),
    (s.ctxState q.ctx = 0 ∨ (s.reg 0x9101 (s.sgrpOf q.ctx)).getLsbD 63 = false ∨
      (s.reg 0x9101 (s.sgrpOf q.ctx)).toNat % 8 ≠ q.fg) →
    ∃ t, exec (.domainRequest q) s = .next t ∧
      SendsControl s t ⟨true, q.link⟩ 11 ([0, 0, 0] ++ (List.range 4).map fun j => BitVec.ofNat 8 (q.tag % 2 ^ 21 / 256 ^ j))) ∧
  (∀ (s s1 : State) (q : DomainReq) (l : Line), s.domainServes q = true → s.domainHeld q = false → q.op = .read → q.poison = false →
    (s.mergeClock q.fg q.clock).serve ⟨q.ctx, q.va.toNat, true, false, 0⟩ = .ok s1 l → q.va.toNat % 128 + q.size ≤ 128 →
    ∃ t x, exec (.domainRequest q) s = .next t ∧ t = { s1 with links := t.links } ∧
      (t.link ⟨true, q.link⟩).replies = (s1.link ⟨true, q.link⟩).replies ++ [x] ∧ x.ctx = q.ctx ∧ x.far = true ∧
      x.flit.hdr = 2 * 2 ^ 28 ∧ x.flit.cmd.toNat / 2 ^ 64 % 2 ^ 21 = q.tag % 2 ^ 21 ∧ x.flit.cmd.getLsbD 85 = l.poison ∧
      ∀ j, j < q.size → x.flit.data.getD (q.va.toNat % 128 + j) 0 = lineByte l (q.va.toNat % 128 + j)) ∧
  (∀ (s : State) (q : DomainReq), s.domainServes q = true → s.domainHeld q = true →
    exec (.domainRequest q) s = .next { s with domWait := s.domWait ++ [q] }) ∧
  (∀ (s : State) (tag : Nat) (q : MemReq), lookup s.reqs tag = some q → s.ctxState q.ctx ≠ 0 → s.ctxState q.ctx ≠ 6 →
    ∃ t, exec (.domainRefused tag) s = .next t ∧ t.ctxState q.ctx = 6 ∧ t.fld 0x1003 q.ctx 55 48 = 2 ∧
      lookup t.reqs tag = none)

/-! ### Hints, fences, barriers, subscriptions and timelines (R71 to R81, R201 to R214) -/

/-- R201 to R203: PREF and CFLUSH never trap, write no register and make no request; outside the global aperture they change
nothing. Of a line held in a way of the context's mask CFLUSH.INV takes the line out of L2 and of every L1, CFLUSH.CLN
writes it back if it is dirty and leaves it clean, and CFLUSH.L1 takes it out of the issuing core's L1. PREF of a line held moves no
data but into L1, for level 1. FENCE with nothing to
flush or to wait for changes nothing but the thread's windows. -/
def Obligations.HintsAndFences : Prop :=
  ∀ (h : Head) (lv : PrefLv) (op : CfOp) (ord : Ord) (sc : Scope) (a : Reg) (am : Am) (c : BitVec 8) (imm : BitVec 32)
    (s : State) (k : Nat) (th : Thread),
    (Alone (.prefS h lv a am c) s k th → Passes (.prefS h lv a am c) s k th) ∧
    (Alone (.prefW h lv a am imm) s k th → Passes (.prefW h lv a am imm) s k th) ∧
    (Alone (.cflushS h op a am c) s k th → Passes (.cflushS h op a am c) s k th) ∧
    (Alone (.cflushW h op a am imm) s k th → Passes (.cflushW h op a am imm) s k th) ∧
    (Alone (.prefW h lv a am imm) s k th → 2 ^ 57 ≤ (address th am a (offset (.long imm))).toNat →
      ∃ t, exec (.prefW h lv a am imm) s = .next t ∧ OnlyThreads s t) ∧
    (Alone (.cflushW h op a am imm) s k th → 2 ^ 57 ≤ (address th am a (offset (.long imm))).toNat →
      ∃ t, exec (.cflushW h op a am imm) s = .next t ∧ OnlyThreads s t) ∧
    (∀ va key l, Alone (.cflushW h .inv a am imm) s k th → (address th am a (offset (.long imm))).toNat = va → va < 2 ^ 57 →
      s.l2Find (s.canon th.ctx va).asid ((s.canon th.ctx va).va / 128) = some (key, l) →
      (s.reg 0x4000 (s.sgrpOf th.ctx)).getLsbD (key % 32) = true → s.translates th.ctx va = true →
      ∃ t, exec (.cflushW h .inv a am imm) s = .next t ∧ lookup t.l2 key = none ∧ noCopies t l) ∧
    (∀ va key l, Alone (.cflushW h .cln a am imm) s k th → (address th am a (offset (.long imm))).toNat = va → va < 2 ^ 57 →
      s.l2Find (s.canon th.ctx va).asid ((s.canon th.ctx va).va / 128) = some (key, l) →
      (s.reg 0x4000 (s.sgrpOf th.ctx)).getLsbD (key % 32) = true → s.translates th.ctx va = true →
      ∃ t, exec (.cflushW h .cln a am imm) s = .next t ∧ lookup t.l2 key = some { l with dirty := false } ∧ t.l1 = s.l1 ∧
        (l.dirty = false → t.drawer = s.drawer ∧ t.links = s.links) ∧
        (l.dirty = true → (∀ j, j < 128 → t.drawer.byte (l.pa + j) = lineByte l j) ∧
          (∀ b, b < l.pa ∨ l.pa + 128 ≤ b → t.drawer.byte b = s.drawer.byte b) ∧
          ∃ x, (t.link ⟨false, s.channelOf l.pa⟩).queue = (s.link ⟨false, s.channelOf l.pa⟩).queue ++ [x] ∧
            x.flit.cmd.toNat / 2 ^ 124 = 2)) ∧
    (∀ va key l, Alone (.cflushW h .l1 a am imm) s k th → (address th am a (offset (.long imm))).toNat = va → va < 2 ^ 57 →
      s.l2Find (s.canon th.ctx va).asid ((s.canon th.ctx va).va / 128) = some (key, l) →
      (s.reg 0x4000 (s.sgrpOf th.ctx)).getLsbD (key % 32) = true → s.translates th.ctx va = true →
      ∃ t, exec (.cflushW h .l1 a am imm) s = .next t ∧ t.l2 = s.l2 ∧ t.drawer = s.drawer ∧
        ∀ e, e ∈ t.l1 ↔ e ∈ s.l1 ∧ ¬(e.1 / 2048 = th.core ∧ e.2.asid = l.asid ∧ e.2.cline = l.cline)) ∧
    (∀ va key l, Alone (.prefW h lv a am imm) s k th → (address th am a (offset (.long imm))).toNat = va → va < 2 ^ 57 →
      (s.canon th.ctx va).present = true → (s.canon th.ctx va).r = true →
      s.l2Find (s.canon th.ctx va).asid ((s.canon th.ctx va).va / 128) = some (key, l) → l.r = true →
      ∃ t, exec (.prefW h lv a am imm) s = .next t ∧ t.drawer = s.drawer ∧ t.links = s.links ∧
        (∃ l', lookup t.l2 key = some l' ∧ l'.data = l.data ∧ l'.dirty = l.dirty) ∧ (lv ≠ .l1 → t.l1 = s.l1) ∧
        (lv = .l1 → l.poison = false → s.l1Find th.core th.ctx va = none →
          (∃ w, w < 8 ∧ (s.reg 0x4000 (s.sgrpOf th.ctx)).getLsbD (32 + w) = true) →
          ∃ key' x, t.l1Find th.core th.ctx va = some (key', x) ∧ x.data = l.data)) ∧
    (Alone (.fence h ord sc) s k th → (s.flushFirst th ord.releases (ord == .seq) sc).2 = none →
      Passes (.fence h ord sc) s k th) ∧
    (Alone (.fence h ord sc) s k th → (ord = .rlx ∨ ord = .acq ∨ sc = .t ∨ sc = .g) → (sc ≠ .m ∧ sc ≠ .s) →
      ∃ t, exec (.fence h ord sc) s = .next t ∧ OnlyThreads s t)

/-- R79, R204 to R206: BAR and BARA arrive at the group barrier once a phase; the last arrival of the group's threads starts the
next phase and lets the waiting threads go; BARW goes on once its token's phase has released; BARA returns the phase. A second
arrival in a phase waits at the instruction. BAR.H arrives at the hood barrier and waits there until every thread of the hood
has arrived; with the last arrival, and no update of the hood left to apply, the next phase begins and every thread that waits goes
on. -/
def Obligations.Barriers : Prop :=
  ∀ (h : Head) (d a : Reg) (kk : BitVec 2) (s : State) (k : Nat) (th : Thread), lookup s.threads k = some th →
    lookup s.groups th.gid ≠ none →
    let b := s.barrier th.gid kk.toNat
    let ps := s.participants th.gid
    let next := (b.phase + 1) % 4294967296
    let bar := Instr.bar h false kk
    let bara := Instr.bara h d kk
    (k ∉ b.arrived → (∃ p ∈ ps, p ≠ k ∧ p ∉ b.arrived) →
      (Alone bar s k th → ∃ t u, exec bar s = .next t ∧ lookup t.threads k = some u ∧ OthersKept s t k ∧ Kept s t ∧
        u = { advance bar th with wait := .bar kk.toNat b.phase } ∧ t.barrier th.gid kk.toNat = ⟨b.phase, b.arrived ++ [k]⟩) ∧
      (Alone bara s k th → ∃ t u, exec bara s = .next t ∧ lookup t.threads k = some u ∧ OthersKept s t k ∧ Kept s t ∧
        u = (advance bara th).wv d (BitVec.ofNat 32 b.phase) ∧ t.barrier th.gid kk.toNat = ⟨b.phase, b.arrived ++ [k]⟩)) ∧
    (k ∉ b.arrived → k ∈ ps → (∀ p ∈ ps, p ≠ k → p ∈ b.arrived) →
      ∀ i, i = bar ∨ i = bara → Alone i s k th → ∃ t u, exec i s = .next t ∧ lookup t.threads k = some u ∧ Kept s t ∧
        u.wait = .none ∧ u.pc = (advance i th).pc ∧ u.p = th.p ∧ t.barrier th.gid kk.toNat = ⟨next, []⟩ ∧
        (i = bara → u.rv d = BitVec.ofNat 32 b.phase) ∧ (i = bar → u.v = th.v) ∧
        ∀ p ∈ ps, p ≠ k → ∀ x, lookup s.threads p = some x →
          x.wait = .bar kk.toNat b.phase ∨ x.wait = .barw kk.toNat b.phase →
          ∃ y, lookup t.threads p = some y ∧ SameRegs y { x with wait := .none }) ∧
    (k ∈ b.arrived → ∀ i, i = bar ∨ i = bara → Alone i s k th → ∃ t u, exec i s = .next t ∧ lookup t.threads k = some u ∧
      OthersKept s t k ∧ Kept s t ∧ SameRegs u { th with wait := .rearm kk.toNat b.phase } ∧ t.groups = s.groups) ∧
    (Alone (.barw h a kk) s k th → ∃ t u, exec (.barw h a kk) s = .next t ∧ lookup t.threads k = some u ∧ OnlyThreads s t ∧
      OthersKept s t k ∧
      let ahead := ((b.phase : Int) - (th.rv a).toNat) % 4294967296
      u = if 0 < ahead ∧ ahead < 2147483648 then advance (.barw h a kk) th
        else { advance (.barw h a kk) th with wait := .barw kk.toNat (th.rv a).toNat }) ∧
    (Alone (.bar h true 0) s k th → (∃ p ∈ (s.hood (s.group th.gid).hood).groups.flatMap s.participants, p ≠ k ∧
        p ∉ (s.hood (s.group th.gid).hood).bar.arrived) → lookup s.hoods (s.group th.gid).hood ≠ none →
      ∃ t, exec (.bar h true 0) s = .next t ∧ OthersKept s t k ∧ Kept s t ∧
        lookup t.threads k = some { advance (.bar h true 0) th with wait := .hood (s.hood (s.group th.gid).hood).bar.phase } ∧
        (t.hood (s.group th.gid).hood).bar.arrived = (s.hood (s.group th.gid).hood).bar.arrived ++ [k]) ∧
    (Alone (.bar h true 0) s k th →
      let hd := (s.group th.gid).hood
      let ps := (s.hood hd).groups.flatMap s.participants
      lookup s.hoods hd ≠ none → k ∈ ps → (∀ p ∈ ps, p ≠ k → p ∈ (s.hood hd).bar.arrived) →
      (∀ e ∈ s.streams, ∀ u ∈ e.2.basket ++ e.2.sent.flatten, u.hood ≠ hd) →
      ∃ t u, exec (.bar h true 0) s = .next t ∧ Kept s t ∧ lookup t.threads k = some u ∧ SameRegs u (advance (.bar h true 0) th) ∧
        (t.hood hd).bar = ⟨((s.hood hd).bar.phase + 1) % 4294967296, []⟩ ∧
        ∀ p ∈ ps, p ≠ k → ∀ x, lookup s.threads p = some x → (∃ n, x.wait = .hood n) →
          ∃ y, lookup t.threads p = some y ∧ SameRegs y { x with wait := .none })

/-- R72, R73, R79, R81, R211 to R213: SUBON writes the code of the first check that fails, in the order 6, 4, 5, 2, 1, or
reserves an inbound entry and waits for its request's reply; SUBOFF of an offset at which nothing starts writes 7, else it takes
the entry away on both cores and writes 0 once no update is outstanding, and waits at the instruction until then, the stream flushed
and the entry closed; SUBQ returns the entry or zero; SUBFL flushes and goes on when the core has no update outstanding, and waits
at the instruction otherwise. That a tentative entry counts as not ACTIVE and that SUBOFF of it writes 7 is the model's choice
(log 65). -/
def Obligations.Subscriptions : Prop :=
  ∀ (h : Head) (pr : Bool) (d a b c l : Reg) (s : State) (k : Nat) (th : Thread),
    let g := s.group th.gid
    let size := (s.groupPkt th.gid).scratch
    let soff := (th.rv a).toNat
    let pmem := (th.rv b).toNat
    let poff := (th.rv c).toNat
    let len := (th.rv l).toNat
    let fits (o : Nat) : Prop := o % 256 = 0 ∧ len % 256 = 0 ∧ 256 ≤ len ∧ len ≤ 65536 ∧ o + len ≤ size
    let meet (x n y m : Nat) : Prop := x < y + m ∧ y < x + n
    let same : Prop := ∃ p, s.memberOf g.hood pmem = some p ∧ (s.group p).core = g.core
    let clash : Prop := (∃ e ∈ (s.core g.core).subIn, e.2.hood = g.hood ∧ e.2.smem = g.hpos ∧ meet soff len e.2.soff e.2.len) ∨
      ∃ e ∈ (s.core g.core).subOut, e.2.hood = g.hood ∧ e.2.pmem = g.hpos ∧ meet soff len e.2.poff e.2.len
    let on := Instr.subon h pr d a b c l
    let Writes (code : Nat) : Prop := ∃ t, exec on s = .next t ∧ OnlyThreads s t ∧ OthersKept s t k ∧
      lookup t.threads k = some ((advance on th).wv d (BitVec.ofNat 32 code))
    (Alone on s k th →
      (¬(fits soff ∧ fits poff) → Writes 6) ∧
      (fits soff → fits poff → s.ngr g.hood ≤ pmem → Writes 4) ∧
      (fits soff → fits poff → pmem < s.ngr g.hood → same → Writes 5) ∧
      (fits soff → fits poff → pmem < s.ngr g.hood → ¬same → 16 ≤ (s.core g.core).subIn.length → Writes 2) ∧
      (fits soff → fits poff → pmem < s.ngr g.hood → ¬same → (s.core g.core).subIn.length < 16 → clash → Writes 1) ∧
      (fits soff → fits poff → pmem < s.ngr g.hood → ¬same → (s.core g.core).subIn.length < 16 → ¬clash →
        ∃ t e, exec on s = .next t ∧ e < 16 ∧ lookup (s.core g.core).subIn e = none ∧ Kept s t ∧ OthersKept s t k ∧
          lookup t.threads k = some { advance on th with wait := .subon } ∧
          lookup (t.core g.core).subIn e = some ⟨g.hood, g.hpos, soff, pmem, poff, len, false, none, false⟩ ∧
          t.inbox = s.inbox ++ [.subonRequest ⟨k, d, th.gid, e, soff, pmem, poff, len, pr⟩])) ∧
    (let off := Instr.suboff h d a;
      Alone off s k th → th.wait ≠ .drained →
      (s.inboundAt th.gid soff = none → ∃ t, exec off s = .next t ∧ OnlyThreads s t ∧
        lookup t.threads k = some ((advance off th).wv d 7)) ∧
      (∀ key e, s.inboundAt th.gid soff = some (key, e) → s.streams = [] →
        ∃ t, exec off s = .next t ∧ lookup t.threads k = some ((advance off th).wv d 0) ∧ OthersKept s t k ∧ Kept s t ∧
          (∀ x ∈ (t.core g.core).subIn, ¬(x.2.hood = g.hood ∧ x.2.smem = g.hpos ∧ x.2.soff = soff)) ∧
          ∀ x ∈ (t.core (s.pubCore e)).subOut, ¬(x.2.hood = e.hood ∧ x.2.smem = e.smem ∧ x.2.soff = e.soff)) ∧
      ∀ key e x u, s.inboundAt th.gid soff = some (key, e) → g.core < 1024 →
        let pub := s.pubCore e
        lookup s.streams (1024 * pub + g.core) = some x → u ∈ x.basket ++ x.sent.flatten → u.seq < (s.core pub).produced →
        ∃ t w, exec off s = .next t ∧ lookup t.threads k = some w ∧ OthersKept s t k ∧ Kept s t ∧
          SameRegs w { th with wait := .drain pub (some g.core) (s.core pub).produced } ∧ (t.stream pub g.core).basket = [] ∧
          lookup (t.core g.core).subIn key = some { e with closed := true }) ∧
    (let off := Instr.suboff h d a;
      Alone off s k th → th.wait = .drained → ∀ key e, s.entryAt th.gid soff = some (key, e) →
        ∃ t, exec off s = .next t ∧ lookup t.threads k = some ((advance off th).wv d 0) ∧ OthersKept s t k ∧ Kept s t ∧
          (∀ x ∈ (t.core g.core).subIn, ¬(x.2.hood = g.hood ∧ x.2.smem = g.hpos ∧ x.2.soff = soff)) ∧
          ∀ x ∈ (t.core (s.pubCore e)).subOut, ¬(x.2.hood = g.hood ∧ x.2.smem = g.hpos ∧ x.2.soff = soff)) ∧
    (let sq := Instr.subq h d a;
      Alone sq s k th → ∃ t x, exec sq s = .next t ∧ OnlyThreads s t ∧ OthersKept s t k ∧
        lookup t.threads k = some ((advance sq th).ww d x) ∧ (s.entryAt th.gid soff = none → x = 0) ∧
        ∀ key e, s.entryAt th.gid soff = some (key, e) → x = BitVec.ofNat 64 (subWord e (s.subPending e))) ∧
    (Alone (.subfl h) s k th → th.wait = .drained ∨ (∀ e ∈ s.streams, e.1 / 1024 ≠ th.core) → Passes (.subfl h) s k th) ∧
    (Alone (.subfl h) s k th → th.wait ≠ .drained → ∀ key x u, lookup s.streams key = some x → key / 1024 = th.core →
      u ∈ x.basket ++ x.sent.flatten → u.seq < (s.core th.core).produced →
      ∃ t w, exec (.subfl h) s = .next t ∧ lookup t.threads k = some w ∧ OthersKept s t k ∧ Kept s t ∧
        SameRegs w { th with wait := .drain th.core none (s.core th.core).produced } ∧
        ∀ sub, sub < 1024 → (t.stream th.core sub).basket = [])

/-- R72, R73, R76, R80, R81: on the publisher's core a request is granted an outbound entry or answered 4, 3 or 1; the reply
makes the tentative entry final or frees it and lets the thread go on with the status; a priming read sends the next 128 bytes
of the source as an update; a basket whose time has come is sent, and applying the oldest sent basket writes its one update into the
subscriber's allocation. The priming pieces go in ascending order, which R80 leaves open: the model's choice (log 66). -/
def Obligations.SubscriptionEvents : Prop :=
  (∀ (s : State) (q : SubReq), s.memberOf (s.group q.gid).hood q.pmem = none →
    exec (.subonRequest q) s = .next { s with inbox := s.inbox ++ [.subonReply q 4] }) ∧
  (∀ (s : State) (q : SubReq) (p : Nat), s.memberOf (s.group q.gid).hood q.pmem = some p →
    let hood := (s.group q.gid).hood
    let pub := (s.group p).core
    let full : Prop := ∀ e, e < 16 → lookup (s.core pub).subOut e ≠ none
    let clash : Prop := ∃ e ∈ (s.core pub).subIn, e.2.hood = hood ∧ e.2.smem = q.pmem ∧ q.poff < e.2.soff + e.2.len ∧
      e.2.soff < q.poff + q.len
    (full → exec (.subonRequest q) s = .next { s with inbox := s.inbox ++ [.subonReply q 3] }) ∧
    (¬full → clash → exec (.subonRequest q) s = .next { s with inbox := s.inbox ++ [.subonReply q 1] }) ∧
    (¬full → ¬clash → ∃ t e, exec (.subonRequest q) s = .next t ∧ e < 16 ∧ lookup (s.core pub).subOut e = none ∧
      lookup (t.core pub).subOut e = some ⟨hood, (s.group q.gid).hpos, q.soff, q.pmem, q.poff, q.len, true,
        if q.prime then some (q.len / 128) else none, false⟩ ∧ t.inbox = s.inbox ++ [.subonReply q 0] ∧ t.threads = s.threads ∧
      Kept s t)) ∧
  (∀ (s : State) (q : SubReq) (status : Nat) (th : Thread) (e : SubEntry), lookup s.threads q.th = some th →
    lookup s.groups q.gid ≠ none → lookup (s.core (s.group q.gid).core).subIn q.entry = some e → e.final = false →
    (e.hood, e.smem, e.soff) = ((s.group q.gid).hood, (s.group q.gid).hpos, q.soff) →
    ∃ t, exec (.subonReply q status) s = .next t ∧ OthersKept s t q.th ∧ Kept s t ∧
      lookup t.threads q.th = some { th.wv q.d (BitVec.ofNat 32 status) with wait := .none } ∧
      lookup (t.core (s.group q.gid).core).subIn q.entry = if status = 0 then some { e with final := true } else none) ∧
  (∀ (s : State) (core entry n p g : Nat) (e : SubEntry), lookup (s.core core).subOut entry = some e → e.prime = some (n + 1) →
    s.memberOf e.hood e.pmem = some p → s.memberOf e.hood e.smem = some g →
    ∃ t u, exec (.primingRead core entry) s = .next t ∧ Kept s t ∧ t.threads = s.threads ∧ t.groups = s.groups ∧
      lookup (t.core core).subOut entry = some { e with prime := if n = 0 then none else some n } ∧
      (u ∈ (t.stream core (s.group g).core).basket ∨ ∃ x ∈ (t.stream core (s.group g).core).sent, u ∈ x) ∧
      u.off = e.soff + (e.len - 128 * (n + 1)) ∧ u.data.length = 128 ∧
      ∀ j, j < 128 → u.data.getD j 0 = (s.group p).alloc.byte (e.poff + (e.len - 128 * (n + 1)) + j)) ∧
  (∀ (s : State) (pub sub : Nat), (s.stream pub sub).basket ≠ [] →
    ∃ t, exec (.basketFlushTimer pub sub) s = .next t ∧ t.threads = s.threads ∧ Kept s t ∧ (t.stream pub sub).basket = [] ∧
      (t.stream pub sub).sent = (s.stream pub sub).sent ++ [(s.stream pub sub).basket]) ∧
  (∀ (s : State) (pub sub g : Nat) (u : Update) (rest : List (List Update)), (s.stream pub sub).sent = [u] :: rest →
    s.memberOf u.hood u.smem = some g → lookup s.groups g ≠ none →
    s.heldNow (s.cpKey (s.hood u.hood).ctx pub) = false →
    s.mustWait (s.group g).core (.alloc g) u.off (u.off + u.data.length) true = false →
    ∃ t, exec (.basketApply pub sub) s = .next t ∧ Kept s t ∧ (t.stream pub sub).sent = rest ∧
      ∀ o, (t.group g).alloc.byte o = if u.off ≤ o ∧ o < u.off + u.data.length then u.data.getD (o - u.off) 0
        else (s.group g).alloc.byte o)

/-- R207 to R210: TLR reads `issued` or `completed`; TLADV takes the next number, which completes at once when every earlier one
has, and returns it; TLW goes on once `completed` has reached its threshold and waits otherwise; TLW.CTR goes on once the
counter it loads has reached wD and waits at the instruction otherwise. -/
def Obligations.Timelines : Prop :=
  ∀ (h : Head) (iss : Bool) (sc : Scope) (d a : Reg) (am : Am) (off : Off) (imm : BitVec 32) (kk : BitVec 2) (s : State) (k : Nat)
    (th : Thread),
    let tl := s.timelineOf th.gid kk.toNat
    let Gate (i : Instr) (n : Nat) : Prop := ∃ t, exec i s = .next t ∧ OnlyThreads s t ∧ OthersKept s t k ∧
      lookup t.threads k = some (if n ≤ tl.completed then advance i th
        else { advance i th with wait := .timeline kk.toNat n })
    (Alone (.tlwS h a kk) s k th → Gate (.tlwS h a kk) (th.rw a).toNat) ∧
    (Alone (.tlwW h imm kk) s k th → Gate (.tlwW h imm kk) imm.toNat) ∧
    (Alone (.tlr h iss d kk) s k th → ∃ t, exec (.tlr h iss d kk) s = .next t ∧ OnlyThreads s t ∧ OthersKept s t k ∧
      lookup t.threads k =
        some ((advance (.tlr h iss d kk) th).ww d (BitVec.ofNat 64 (if iss then tl.issued else tl.completed)))) ∧
    (Alone (.tladv h d kk) s k th → lookup s.groups th.gid ≠ none →
      ∃ t, exec (.tladv h d kk) s = .next t ∧ Kept s t ∧
        lookup t.threads k = some ((advance (.tladv h d kk) th).ww d (BitVec.ofNat 64 (tl.issued + 1))) ∧
        (t.timelineOf th.gid kk.toNat).issued = tl.issued + 1 ∧
        (tl.completed = tl.issued → tl.out = [] → (t.timelineOf th.gid kk.toNat).completed = tl.issued + 1) ∧
        (tl.completed + 1 ≠ tl.issued + 1 → tl.completed + 1 ∉ tl.out →
          (t.timelineOf th.gid kk.toNat).completed = tl.completed)) ∧
    (∀ l, Alone (.tlwCtr h sc d a am off) s k th → s.access th k (address th am a (offset off)) 8 8 false false = .ok l → onChip l →
      s.locWaits l 8 false = false → (s.readLoc l 8).2 = false →
      ∃ t u, exec (.tlwCtr h sc d a am off) s = .next t ∧ lookup t.threads k = some u ∧ Kept s t ∧ OthersKept s t k ∧
        SameRegs u (if (th.rw d).toNat ≤ numberAt s l 8 then advance (.tlwCtr h sc d a am off) th
          else { th with wait := .counter })) ∧
    (∀ l va, Alone (.tlwCtr h sc d a am off) s k th → s.access th k (address th am a (offset off)) 8 8 false false = .ok l →
      remoteVa (address th am a (offset off)) l = some va → (∀ v, l = .global v → s.l1Hit th.core th.ctx v = none) →
      Asks (.tlwCtr h sc d a am off) s k th .load va 8 (.counter d))

/-! ### Matrix work and accumulators (R41, R114 to R126, R215 to R227) -/

/-- R216 to R223: a fragment of one whole quarter whose threads agree on vA and vB and whose rows pass their checks hands the
engine one pass over its eight rows, when no write is pending in core scratchpad, two pins are free, the MX server is not held
and no other quarter waits for the engine; every thread goes on with one result outstanding. A thread without its quarter takes QMASK with the mask of the
positions that are there. -/
def Obligations.MatrixIssue : Prop :=
  ∀ (h : Head) (z : Bool) (d a b c : Reg) (m : MxDesc) (i : Instr) (idx : Option Reg),
    (i = .rmac h z d a b m ∧ idx = none) ∨ (i = .rmag h z d a b c m ∧ idx = some c) →
    let kb := m.kbm1.toNat + 1
    (∀ (s : State) (k0 : Nat) (ks : List Nat), s.cur = k0 :: ks → ks.length = 7 → Ready i s →
      let th := s.thread k0
      let size := (s.groupPkt th.gid).scratch
      let off (k : Nat) : Nat := rowOffset (s.thread k) a idx (stride m.sa m.fa kb)
      (∀ k ∈ k0 :: ks, (s.thread k).active h = true ∧ (s.thread k).lane / 8 = th.lane / 8 ∧ (s.thread k).gid = th.gid ∧
        (s.thread k).rv a = th.rv a ∧ (s.thread k).rv b = th.rv b ∧ rowFits size (off k) (rowLen m.fa kb)) →
      (∀ j, j < 16 → rowFits size ((th.rv b).toNat + j * stride m.sb m.fb kb) (rowLen m.fb kb)) →
      (∀ e ∈ (s.core th.core).score, e.kind ≠ .write) → (s.core th.core).score.length ≤ 62 →
      s.heldNow (s.mxKey th.ctx th.core) = false → (∀ e ∈ s.passes, e.2.rows.map Prod.fst ≠ s.cur) →
      (∀ e ∈ s.threads, e.2.core = th.core → e.1 ∉ s.cur → e.2.wait ≠ .quarter) →
      ∃ t p, exec i s = .next t ∧ lookup t.passes s.fresh = some p ∧ p.core = th.core ∧ p.gid = th.gid ∧ p.d = d.toNat ∧
        p.z = z ∧ p.fa = m.fa ∧ p.fb = m.fb ∧ p.kb = kb ∧ p.rows = s.cur.map (fun k => (k, off k)) ∧
        p.bOff = (th.rv b).toNat ∧ p.sb = stride m.sb m.fb kb ∧ p.prot = (s.pktOf th).prot ∧ Kept s t ∧
        ∀ k ∈ s.cur, ∃ tag, lookup t.threads k =
          some (tagged { advance i (s.thread k) with pend := (s.thread k).pend + 1 } tag)) ∧
    ∀ (s : State) (k : Nat) (th : Thread), Alone i s k th → canTrap s th →
      TakesTrap i s k th causeQmask (BitVec.ofNat 64 (2 ^ (th.lane % 8))) 0

/-- R122 to R126, R220, R221: when a pass completes, its instruction completes in every quarter that it holds at once: every
element of their rows' accumulators is written by R125 from the operands as they stand in core scratchpad, their pins are released
and every other register is left; while one of them still waits for the engine nothing happens. In a protected launch a check
residue that does not agree kills the gang with cause 3 and leaves every accumulator unwritten. -/
def Obligations.MatrixPassResults : Prop :=
  ∀ (s : State) (id : Nat) (p : Pass), lookup s.passes id = some p →
    let all := s.instPasses p.inst
    let mem (q : Pass) : Store := (s.group q.gid).alloc
    let a (q : Pass) (off : Nat) : Bytes := (mem q).read off (rowLen q.fa q.kb)
    let b (q : Pass) (e : Nat) : Bytes := (mem q).read (q.bOff + e * q.sb) (rowLen q.fb q.kb)
    let agree (q : Pass) : Prop := ∀ r ∈ q.rows, ∀ e, e < 16 → ∀ k, k < q.kb → ∀ o ∈ passOffsets q.fa q.fb k,
      (plane (a q r.2) o.1 (b q e) o.2 3 : Int) = passValue (a q r.2) o.1 (b q e) o.2 % 121
    ((∃ e ∈ all, e.2.due = none) → exec (.matrixPassComplete id) s = .next s) ∧
    ((∀ e ∈ all, e.2.due ≠ none) → ((all.flatMap fun e => e.2.rows).map Prod.fst).Nodup → (∀ e ∈ all, (mem e.2).bad = []) →
    ((∀ e ∈ all, e.2.prot = true → agree e.2) → ∃ t, exec (.matrixPassComplete id) s = .next t ∧ Kept s t ∧ t.groups = s.groups ∧
      (∀ e ∈ t.passes, e.2.inst ≠ p.inst) ∧ (∀ e ∈ all, ∀ c ∈ t.cores, ∀ x ∈ c.2.score, x.owner ≠ .pass e.1) ∧
      ∀ q ∈ all, ∀ r ∈ q.2.rows, ∀ th, lookup s.threads r.1 = some th → ∃ u, lookup t.threads r.1 = some u ∧
        u.pend = th.pend - 1 ∧ u.v = th.v ∧ u.p = th.p ∧ u.fp = th.fp ∧ u.pc = th.pc ∧ ∀ (d : Reg) (e : Nat), e < 16 →
          (d ≠ BitVec.ofNat 8 q.2.d → u.ra d e = th.ra d e) ∧
          (d = BitVec.ofNat 8 q.2.d → Accumulates q.2.fa q.2.fb q.2.kb (a q.2 r.2) (b q.2 e) (if q.2.z then 0 else (th.ra d e).toNat)
            (u.ra d e).toNat)) ∧
    ((∃ e ∈ all, e.2.prot = true ∧ ¬agree e.2) → ∃ t hood pos, exec (.matrixPassComplete id) s = .next t ∧
      t.inbox = s.inbox ++ [.gangKill hood ⟨3, 0, 0, pos⟩] ∧
      ∀ q ∈ all, ∀ r ∈ q.2.rows, ∀ th, lookup s.threads r.1 = some th → ∃ u, lookup t.threads r.1 = some u ∧
        u.a = th.a ∧ u.v = th.v))

/-- R41, R225, R226, R47: ACZ, ACRD, ACWR and ACMUL, and the accumulator file they act on: an element reads back what was
written and no write reaches another element. ACMUL rounds each product once and adds the flags of all sixteen. -/
def Obligations.AccumulatorResults : Prop :=
  ∀ (h : Head) (md : Rm) (d a b : Reg) (e : BitVec 4),
    (∀ (th : Thread) (x : Word) (r : Reg) (n m : Nat), n < 16 → m < 16 →
      (th.wa d n x).ra r m = if r = d ∧ m = n then x else th.ra r m) ∧
    (∀ (th : Thread) (l : List Word) (r : Reg) (m : Nat), l.length = 16 → m < 16 →
      (th.warow d 0 l).ra r m = if r = d then l.getD m 0 else th.ra r m) ∧
    Rewrites (.acz h d) (fun _ _ th => th.warow d 0 (List.replicate 16 0)) ∧
    Rewrites (.acrd h d a e) (fun _ _ th => th.wv d (th.ra a e.toNat)) ∧
    Rewrites (.acwr h d a e) (fun _ _ th => th.wa d e.toNat (th.rv a)) ∧
    Rewrites (.acmul h md d a b) (fun _ _ th =>
      let r (n : Nat) : Nat × BitVec 5 := fMul .f32 md (th.ra a n).toNat (th.rv b).toNat
      flagged (th.warow d 0 ((List.range 16).map fun n => BitVec.ofNat 32 (r n).1))
        ((List.range 16).foldl (fun f n => f ||| (r n).2) 0))

/-- R227: ACLD and ACST move the 64 bytes of an accumulator's row from and to on-chip storage at once, lowest element first, and
ACST.Z then zeroes it; in global memory they ask for four pieces of 16 bytes, a store with its bytes; a failing check traps. -/
def Obligations.AccumulatorMemory : Prop :=
  ∀ (h : Head) (z : Bool) (d a : Reg) (am : Am) (off : Off) (s : State) (k : Nat) (th : Thread),
    let x := address th am a (offset off)
    let r := s.access th k x 64 64 false true
    let ld := acLoad h d a am off
    let st := acStore h z d a am off
    let Pieces (i : Instr) (f : Nat → ReqOp) (g : Nat → Dest) (va : Nat) : Prop :=
      ∃ t u, exec i s = .next t ∧ lookup t.threads k = some u ∧ SameRegs u (advance i th) ∧ u.pend = th.pend + 4 ∧ Kept s t ∧
        ∀ n, n < 4 → ∃ q, lookup t.reqs (s.fresh + n) = some q ∧ q.th = k ∧ q.op = f n ∧ q.dest = g n ∧ q.size = 16 ∧
          q.va = BitVec.ofNat 64 (va + 16 * n)
    (∀ l, r = .ok l → onChip l → there s l →
      (Alone ld s k th → s.locWaits l 64 false = false → (s.readLoc l 64).2 = false →
        ∃ t u, exec ld s = .next t ∧ lookup t.threads k = some u ∧ u.v = th.v ∧ u.p = th.p ∧ Kept s t ∧ OthersKept s t k ∧
          ∀ (q : Reg) (e : Nat), e < 16 → u.ra q e =
            if q = d then BitVec.ofNat 32 (((List.range 4).map fun j => (byteOf s l (4 * e + j)).toNat * 256 ^ j).sum)
            else th.ra q e) ∧
      (Alone st s k th → s.locWaits l 64 true = false →
        ∃ t u, exec st s = .next t ∧ lookup t.threads k = some u ∧ u.v = th.v ∧ u.p = th.p ∧ Kept s t ∧
          (∀ j, j < 64 → byteOf t l j = accByte th d j) ∧
          (∀ l', ¬within l 64 l' → (∀ j n, l' ≠ .regs j n) → byteOf t l' 0 = byteOf s l' 0) ∧
          ∀ (q : Reg) (e : Nat), e < 16 → u.ra q e = if z = true ∧ q = d then 0 else th.ra q e)) ∧
    (∀ va key line, r = .ok (.global va) → Alone ld s k th → s.l1Hit th.core th.ctx va = some (key, line) →
      ∃ t u, exec ld s = .next t ∧ lookup t.threads k = some u ∧ u.v = th.v ∧ u.p = th.p ∧ Kept s t ∧ OthersKept s t k ∧
        t.reqs = s.reqs ∧ ∀ (q : Reg) (e : Nat), e < 16 → u.ra q e =
          if q = d then BitVec.ofNat 32 (lineNumber line (va % 128 + 4 * e) 4) else th.ra q e) ∧
    (∀ va, r = .ok (.global va) →
      (Alone ld s k th → s.l1Hit th.core th.ctx va = none → Pieces ld (fun _ => .load) (fun n => .acc d n) va) ∧
      (Alone st s k th → Pieces st (fun n => .store ((List.range 16).map fun j => accByte th d (16 * n + j)))
        (fun _ => if z then .zero d else .none) va)) ∧
    ∀ e, r = .error e → canTrap s th → (Alone ld s k th → TakesTrap ld s k th e x 0) ∧
      (Alone st s k th → TakesTrap st s k th e x 0)

/-! ### Copies (R66 to R69, R228 to R240) -/

/-- R228 to R233, R66, R69: a copy whose every row passes its checks takes the next number of its timeline, enters the copy
engine of the core with its scoreboard entries, and writes the number; a row that fails traps with its address. -/
def Obligations.CopyIssue : Prop :=
  ∀ (h : Head) (kind : CpKind) (d a b c : Reg) (m : CpDesc) (s : State) (k : Nat) (th : Thread),
    let i := copyInstr h kind d a b c m
    let src := copySrc th kind a
    let dst := th.rw b
    let scl := copyScale th m c
    let rows := m.nrm1.toNat + 1
    let tl := s.timelineOf th.gid m.tl.toNat
    Alone i s k th →
    ((∀ n, n < rows → s.copyRowCheck th k kind m src dst scl n = none) → lookup s.groups th.gid ≠ none →
      (s.flushFirst th true false m.sc).2 = none → (s.copies.filter fun e => e.2.core == th.core).length < 64 →
      s.copyRoom (s.copyEntries th k kind m src dst) = true →
      ∃ t r, exec i s = .next t ∧ lookup t.threads k = some ((advance i th).ww d (BitVec.ofNat 64 (tl.issued + 1))) ∧
        OthersKept s t k ∧ Kept s t ∧ (t.timelineOf th.gid m.tl.toNat).issued = tl.issued + 1 ∧
        (t.timelineOf th.gid m.tl.toNat).completed = tl.completed ∧ lookup t.copies s.fresh = some r ∧ r.core = th.core ∧
        r.gid = th.gid ∧ r.kind = kind ∧ r.desc = m ∧ r.src = src ∧ r.dst = dst ∧ r.scl = scl ∧ r.num = tl.issued + 1 ∧
        r.next = 0 ∧ r.state = .queued ∧ (kind = .cpf → r.fill = th.rv c) ∧
        ∀ e ∈ s.copyEntries th k kind m src dst, ∃ x ∈ (t.core e.2.1).score, x.owner = .copy s.fresh ∧ x.kind = e.1 ∧
          x.place = e.2.2.1) ∧
    (∀ n e, n < rows → (∀ j, j < n → s.copyRowCheck th k kind m src dst scl j = none) →
      s.copyRowCheck th k kind m src dst scl n = some e → canTrap s th → TakesTrap i s k th e.1 e.2 0)

/-- R239, R240: CPQ reports a copy of the thread's group by its number: bit 59 for a number that names none, 0 for a completed
one, else its progress and units left. CPK writes 3 for a number that names no copy, 2 for a completed one, and stops any other,
waiting until it has stopped. -/
def Obligations.CopyQueries : Prop :=
  ∀ (h : Head) (d a : Reg) (kk : BitVec 2) (s : State) (k : Nat) (th : Thread),
    let n := (th.rw a).toNat
    let tl := s.timelineOf th.gid kk.toNat
    let named : Prop := n ≠ 0 ∧ n ≤ tl.issued ∧ n ∉ tl.adv
    let q := Instr.cpq h d a kk
    let x := Instr.cpk h d a kk
    let Says (r : Nat) : Prop := ∃ t, exec q s = .next t ∧ OnlyThreads s t ∧ OthersKept s t k ∧
      lookup t.threads k = some ((advance q th).ww d (BitVec.ofNat 64 r))
    let Ends (r : Word) : Prop := ∃ t, exec x s = .next t ∧ OnlyThreads s t ∧ OthersKept s t k ∧
      lookup t.threads k = some ((advance x th).wv d r)
    (Alone q s k th → (¬named → Says (2 ^ 59)) ∧ (named → s.copyOf th.gid kk.toNat n = none → Says 0) ∧
      ∀ id c, named → s.copyOf th.gid kk.toNat n = some (id, c) →
        let left := min (c.total - (c.next - c.units.length)) (2 ^ 32 - 1)
        Says (match c.state with
          | .queued => 2 ^ 62 + left
          | .moving => 2 * 2 ^ 62 + left
          | .paused w => 3 * 2 ^ 62 + w % 4 * 2 ^ 60 + left)) ∧
    (Alone x s k th → (¬named → Ends 3) ∧ (named → s.copyOf th.gid kk.toNat n = none → Ends 2) ∧
      ∀ id c, named → s.copyOf th.gid kk.toNat n = some (id, c) → ∃ t, exec x s = .next t ∧ OthersKept s t k ∧ Kept s t ∧
        lookup t.threads k = some { advance x th with wait := .stop id d } ∧
        ∀ r, lookup s.copies id = some r → lookup t.copies id = some { r with stop := true })

/-- R234, R235, R237, R240, R68: a unit of a fill to core scratchpad writes its 128-byte block of the row with the fill word and
nothing else and moves the copy on; a unit of a CPL writes its block from the source as it stood before the first unit. R120, R121: a
unit of a CPI writes one record of residues, its last the scale tail. R127, R128: a unit of a CPO glazes or narrows one block of 32
words of core scratchpad to its place in global memory. R62, R234: a unit of a CPR asks a peer for its block and writes it when it has
come. A copy with every unit written, or stopped, completes: its record and its scoreboard entries
go, its number completes, and a CPK that waits for it receives 0 when nothing was written and 1 otherwise. -/
def Obligations.CopyEngine : Prop :=
  (∀ (s : State) (id : Nat) (c : CopyRec) (th : Thread) (o : Nat), lookup s.copies id = some c → lookup s.threads c.th = some th →
    th.gid = c.gid → lookup s.groups c.gid ≠ none → c.kind = .cpf → c.desc.fmt = .raw → c.desc.nrm1 = 0 →
    c.dst.toNat = 0xD000000000000000 + o → o % 16 = 0 → o + 16 * (c.desc.lnm1.toNat + 1) ≤ (s.pktOf th).scratch →
    o + 16 * (c.desc.lnm1.toNat + 1) ≤ 2 ^ 20 → c.stop = false → c.units = [] → c.next < c.total → c.state ≠ .paused 2 →
    s.copyWaits id = false → s.heldNow (s.cpKey (s.copyCtx c) c.core) = false →
    let lo := blockLo o c.next
    let hi := blockHi o (16 * (c.desc.lnm1.toNat + 1)) c.next
    lo < hi →
    ∃ t, exec (.copyUnit id) s = .next t ∧ Kept s t ∧ (c.next + 1 < c.total → t.threads = s.threads) ∧
      (∀ k x, lookup s.threads k = some x → ∃ y, lookup t.threads k = some y ∧ y.v = x.v ∧ y.p = x.p ∧ y.pc = x.pc) ∧
      MovesOn t id c ∧ ∀ n, (t.group c.gid).alloc.byte n =
        if o + lo ≤ n ∧ n < o + hi then c.fill.extractLsb' (8 * ((n - (o + lo)) % 4)) 8 else (s.group c.gid).alloc.byte n) ∧
  (∀ (s : State) (id : Nat) (c : CopyRec) (o p : Nat), CanStart s id c → c.kind = .cpl → c.desc.fmt = .raw →
    let len := 16 * (c.desc.lnm1.toNat + 1)
    let old (j : Nat) : Byte := match c.snap with
      | some b => b.getD j 0
      | none => (s.group c.gid).alloc.byte (p + j)
    inScratch s c c.dst o len → inScratch s c c.src p len → (∀ b, c.snap = some b → b.length = len) → c.snapBad = [] →
    (s.group c.gid).alloc.bad = [] → c.next = 0 ∨ c.snap ≠ none → blockLo o c.next < blockHi o len c.next →
    ∃ t, exec (.copyUnit id) s = .next t ∧ Kept s t ∧ MovesOn t id { c with snap := some ((List.range len).map old) } ∧
      ∀ n, (t.group c.gid).alloc.byte n = if o + blockLo o c.next ≤ n ∧ n < o + blockHi o len c.next then old (n - o)
        else (s.group c.gid).alloc.byte n) ∧
  (∀ (s s1 : State) (id : Nat) (c : CopyRec) (o : Nat) (b : Bytes), CanStart s id c → c.kind = .cpi →
    let l := c.desc.lnm1.toNat + 1
    let j := c.next
    let Fires (n : Nat) (x : Bytes) : Prop := inScratch s c c.dst o (n + x.length) →
      ∃ t, exec (.copyUnit id) s = .next t ∧ MovesOn t id c ∧ BytesAt s t c.gid (o + n) x ∧ t.drawer = s1.drawer
    (∀ eight : Bool, c.desc.fmt = (if eight then .bq8 else .bq4) →
      let n := if eight then 32 else 16
      (j < l → s.copyConsume c (c.src + BitVec.ofNat 64 (n * j)) n = .ok (s1, b) →
        Fires (128 * j) (residues (quantized eight b))) ∧
      (j = l → l ≤ 8 → s.copyConsume c c.scl (2 * l) = .ok (s1, b) →
        Fires (128 * l) (scaleTail l fun k => halfWord b k % 512))) ∧
    (c.desc.fmt = .bx16 →
      (j < 2 * l → s.copyConsume c (c.src + BitVec.ofNat 64 (64 * (j / 2))) 64 = .ok (s1, b) →
        Fires (128 * j) (residues (if j % 2 = 0 then bxHigh (halfWord b) else bxLow (halfWord b)))) ∧
      (j = 2 * l → l ≤ 8 → s.copyConsume c c.src (64 * l) = .ok (s1, b) →
        Fires (256 * l) (scaleTail l fun k => bxCode (halfWord (b.drop (64 * k))))))) ∧
  (∀ (s s1 s2 : State) (id : Nat) (c : CopyRec) (p : Nat), CanStart s id c → c.kind = .cpo →
    let l := c.desc.lnm1.toNat + 1
    let j := c.next
    let v := fullWord ((List.range 128).map fun n => (s.group c.gid).alloc.byte (p + 128 * j + n))
    let write (u : State) (a : DWord) (x : Bytes) : Except Served State :=
      u.writeGlobal ⟨s.copyCtx c, a.toNat, false, true, 5⟩ x
    let fits (a : DWord) (n : Nat) : Prop := a.toNat % 128 + n ≤ 128 ∧ a.toNat < 2 ^ 57
    let Goes (u : State) : Prop := ∃ t, exec (.copyUnit id) s = .next t ∧ MovesOn t id c ∧ t.l2 = u.l2 ∧ t.drawer = u.drawer
    j < l → inScratch s c c.src p (128 * l) → (s.group c.gid).alloc.bad = [] →
    (∀ wide : Bool, c.desc.fmt = (if wide then .bf16 else .fp16) →
      let a := c.dst + BitVec.ofNat 64 (64 * j)
      let x := (List.range 64).map fun n =>
        BitVec.ofNat 8 ((fConvert (if wide then .bf16 else .f16) .f32 .rn (v (n / 2))).1 / 256 ^ (n % 2))
      fits a 64 → write s a x = .ok s1 → Goes s1) ∧
    (∀ eight : Bool, c.desc.fmt = (if eight then .bq8 else .bq4) →
      let n := if eight then 32 else 16
      let a := c.scl + BitVec.ofNat 64 (2 * j)
      let d := c.dst + BitVec.ofNat 64 (n * j)
      ∃ sc q, (if eight then Glazed 6 (-128) 127 v sc q else Glazed 2 (-8) 7 v sc q) ∧
        (fits a 2 → fits d n → write s a [BitVec.ofNat 8 sc, BitVec.ofNat 8 (sc / 256)] = .ok s1 →
          write s1 d (glazedBytes eight q) = .ok s2 → Goes s2))) ∧
  (∀ (s : State) (id : Nat) (c : CopyRec) (o pkg va : Nat) (r : Route), CanStart s id c → c.kind = .cpr → c.desc.fmt = .raw →
    let len := 16 * (c.desc.lnm1.toNat + 1)
    let lo := blockLo o c.next
    let n := blockHi o len c.next - lo
    let src := c.src + BitVec.ofNat 64 lo
    inScratch s c c.dst o len → 0 < n → src.toNat % 128 + n ≤ 128 →
    s.access (s.thread c.th) c.th src n 1 false false = .ok (.peer pkg va) → lookup s.routes (s.sgrpOf (s.copyCtx c) * 128 + pkg) = some r →
    ∃ t q, exec (.copyUnit id) s = .next t ∧ Kept s t ∧ lookup t.reqs s.fresh = some q ∧ q.op = .load ∧ q.size = n ∧ q.va = src ∧
      q.dest = .copy id c.next (some (c.dst.toNat + lo)) ∧ q.link = some r.link ∧ t.groups = s.groups ∧
      MovesOn t id { c with units := [⟨c.next, 1, []⟩] }) ∧
  (∀ (s : State) (tag id n a o : Nat) (q : MemReq) (c : CopyRec) (th : Thread) (data : Bytes), lookup s.reqs tag = some q →
    q.dest = .copy id n (some a) → lookup s.copies id = some c → c.units = [⟨n, 1, []⟩] → lookup s.threads c.th = some th →
    th.gid = c.gid → lookup s.groups c.gid ≠ none → data ≠ [] → inScratch s c (BitVec.ofNat 64 a) o data.length → a < 2 ^ 64 →
    ∃ t, exec (.memoryResponse tag data false) s = .next t ∧ Kept s t ∧ lookup t.reqs tag = none ∧
      lookup t.copies id = some { c with units := [] } ∧ BytesAt s t c.gid o data) ∧
  (∀ (s : State) (id : Nat) (c : CopyRec), lookup s.copies id = some c → (∀ u ∈ c.units, u.unacked = 0) →
    (c.next = c.total ∧ c.units = []) ∨ c.stop = true →
    lookup s.groups c.gid ≠ none →
    let tl := s.timelineOf c.gid c.desc.tl.toNat
    ∃ t, exec (.copyComplete id) s = .next t ∧ Kept s t ∧ lookup t.copies id = none ∧
      (∀ e ∈ t.cores, ∀ x ∈ e.2.score, x.owner ≠ .copy id) ∧
      (tl.completed + 1 = c.num → c.num ≤ (t.timelineOf c.gid c.desc.tl.toNat).completed) ∧
      (∀ k th d, lookup s.threads k = some th → th.wait = .stop id d → lookup t.threads k =
        some { th.wv d (if c.next - c.units.length = 0 then 0 else 1) with wait := .none })) ∧
  ∀ (s : State) (id : Nat) (c : CopyRec), lookup s.copies id = some c →
    (∃ u ∈ c.units, u.unacked ≠ 0) ∨ (¬(c.next = c.total ∧ c.units = []) ∧ c.stop = false) → exec (.copyComplete id) s = .next s

/-! ### Helpers, launches and traps (R241 to R260, R286 to R299) -/

/-- R241 to R245: HIRE with one open grants nothing and writes 0; else it grants g of at most min(vA, 31) helpers on lanes that
hold no live thread, none in a protected launch, writes g, keeps a snapshot of the window, and starts each helper i at the
target with v0 = i and nothing else set. -/
def Obligations.Hire : Prop :=
  ∀ (h : Head) (win : Win) (comb : Comb) (d a c : Reg) (imm : BitVec 32) (s : State) (k : Nat) (th : Thread),
    let i := Instr.hire h win comb d a c imm
    Alone i s k th →
    (th.hire ≠ none → ∃ t, exec i s = .next t ∧ OnlyThreads s t ∧ OthersKept s t k ∧
      lookup t.threads k = some ((advance i th).wv d 0)) ∧
    (th.hire = none → ∃ t u g x, exec i s = .next t ∧ lookup t.threads k = some u ∧ Kept s t ∧ t.groups = s.groups ∧
      g ≤ min (th.rv a).toNat 31 ∧ ((s.pktOf th).prot = true → g = 0) ∧ u.v = (th.wv d (BitVec.ofNat 32 g)).v ∧ u.p = th.p ∧
      u.a = th.a ∧ u.pc = (advance i th).pc ∧ u.hire = some x ∧ x.g = g ∧ x.win = winSize win ∧ x.comb = comb ∧ x.c = c ∧
      x.live = (List.range g).map (· + 1) ∧ x.done = [] ∧ x.contrib = [] ∧ x.trapped = none ∧
      (∀ n, n < winSize win → lookupD 0 x.snap n = th.rvn n) ∧
      ∀ j, 1 ≤ j → j ≤ g → ∃ y, lookup t.threads (k + j) = some y ∧ y.hidx = j ∧ y.tid = th.tid ∧ y.gid = th.gid ∧
        y.core = th.core ∧ y.pc = th.pc + imm.signExtend 64 ∧ y.v = [(0, BitVec.ofNat 32 j)] ∧ y.p = 0 ∧ y.a = [] ∧ y.fp = 0 ∧
        y.hire = none ∧ y.lane < 32 ∧
        ∀ e ∈ s.threads, ¬(e.2.core = th.core ∧ e.2.slot = y.slot ∧ e.2.lane = y.lane ∧ e.2.status = .live))

/-- R43, R112, R250, R251: HJOIN with no HIRE open writes 0 and false; with helpers live it waits; after a trap in a helper it
takes HELPER_F with the helper's index and cause; else it writes the done mask and whether all are done, adds the helpers' flags,
and unless the combination is none writes the tree's result over the recruiter's vB and the contributions. -/
def Obligations.Hjoin : Prop :=
  ∀ (h : Head) (d a b : Reg) (s : State) (k : Nat) (th : Thread),
    let i := Instr.hjoin h d a b
    Alone i s k th →
    (th.hire = none → ∃ t, exec i s = .next t ∧ OnlyThreads s t ∧ OthersKept s t k ∧
      lookup t.threads k = some (((advance i th).wv d 0).wp a false)) ∧
    ∀ x, th.hire = some x →
      (x.live ≠ [] → ∃ t u, exec i s = .next t ∧ lookup t.threads k = some u ∧ OnlyThreads s t ∧ OthersKept s t k ∧
        SameRegs u { th with wait := .hjoin } ∧ u.hire = some x) ∧
      (∀ n e, x.live = [] → x.trapped = some (n, e) → canTrap s th →
        TakesTrap i s k th causeHelperF (BitVec.ofNat 64 n) (e.zeroExtend 32)) ∧
      (x.live = [] → x.trapped = none →
        let mask := (x.done.map fun j => 2 ^ j).sum
        let y (j : Nat) : Option (Word × BitVec 5) :=
          if j = 0 then some (th.rv b, 0) else if j < 32 then (lookup x.contrib j).map fun w => (w, 0) else none
        let r := (tree (combine (combOf x.comb).1 (combOf x.comb).2 false .rn) 5 y 0).getD (th.rv b, 0)
        let w := ((flagged { advance i th with hire := none } x.flags).wv d (BitVec.ofNat 32 mask)).wp a
          (decide (mask = 2 ^ (x.g + 1) - 2))
        ∃ t, exec i s = .next t ∧ OnlyThreads s t ∧ OthersKept s t k ∧
          lookup t.threads k = some (if x.comb = .none then w else flagged (w.wv x.c r.1) r.2))

/-- R242, R247 to R249, R253: HRD reads the snapshot in a helper and the register in a recruiter; HRET and HREL take the helper
away, count it as done, HRET with its contribution and flags; outside a helper, or with no HIRE, they are ILLEGAL_ENC with TAUX
= 10. HSYNC waits until the recruiter and every live helper have arrived, and passes outside a HIRE. A helper that has issued
65,536 instructions is released without being done: it stops, and goes once no access of it is outstanding (R102). R360: HRD of a
register that holds an uncorrectable error kills the gang. -/
def Obligations.HelperInstructions : Prop :=
  ∀ (h : Head) (d a : Reg) (n : BitVec 8) (s : State) (k : Nat) (th : Thread),
    let hrd := Instr.hrd h d n
    let hret := Instr.hret h a
    let hrel := Instr.hrel h
    let hsync := Instr.hsync h
    let rk := k - th.hidx
    (Alone hrd s k th → ∀ r x, lookup s.threads rk = some r → r.hire = some x →
      ((⟨.vec, n.toNat⟩ : RegRef) ∉ r.bad → ∃ t, exec hrd s = .next t ∧ OnlyThreads s t ∧
        OthersKept s t k ∧ lookup t.threads k =
          some ((advance hrd th).wv d (if th.hidx = 0 then th.rv n else lookupD 0 x.snap n.toNat))) ∧
      ((⟨.vec, n.toNat⟩ : RegRef) ∈ r.bad → ∃ t u, exec hrd s = .next t ∧ OthersKept s t k ∧ Kept s t ∧
        t.inbox = s.inbox ++ [.gangKill (s.group th.gid).hood ⟨1, 0, th.pc, (s.group th.gid).hpos⟩] ∧
        lookup t.threads k = some u ∧ SameRegs u { th with wait := .resp })) ∧
    (Alone hrd s k th → canTrap s th → th.hire = none → TakesTrap hrd s k th causeIllegal (Instr.tval hrd) 10) ∧
    (th.hidx = 0 → canTrap s th → (Alone hret s k th → TakesTrap hret s k th causeIllegal (Instr.tval hret) 10) ∧
      (Alone hrel s k th → TakesTrap hrel s k th causeIllegal (Instr.tval hrel) 10)) ∧
    (∀ i r x, i = hret ∨ i = hrel → Alone i s k th → th.hidx ≠ 0 → th.hidx ≤ k → lookup s.threads rk = some r → r.hire = some x →
      ∃ t u y, exec i s = .next t ∧ lookup t.threads k = none ∧ lookup t.threads rk = some u ∧ u.hire = some y ∧ Kept s t ∧
        u.v = r.v ∧ u.p = r.p ∧ y.done = x.done ++ [th.hidx] ∧ y.live = x.live.filter (· ≠ th.hidx) ∧
        (i = hret → lookup y.contrib th.hidx = some (th.rv a) ∧ y.flags = x.flags ||| th.fp) ∧
        (i = hrel → y.contrib = x.contrib ∧ y.flags = x.flags)) ∧
    (Alone hsync s k th → (∀ r, lookup s.threads rk = some r → r.hire = none) → ∃ t, exec hsync s = .next t ∧ OnlyThreads s t ∧
      OthersKept s t k ∧ lookup t.threads k = some (advance hsync th)) ∧
    (∀ r x, Alone hsync s k th → th.hidx ≤ k → lookup s.threads rk = some r → r.hire = some x →
      (∃ j ∈ 0 :: x.live, j ≠ th.hidx ∧ j ∉ x.arrived ∧ (j = 0 ∨ (s.thread (rk + j)).status ≠ .exited)) →
      ∃ t u w y, exec hsync s = .next t ∧ Kept s t ∧ lookup t.threads k = some u ∧ u.wait = .hsync x.phase ∧
        lookup t.threads rk = some w ∧ w.hire = some y ∧ y.arrived = x.arrived ++ [th.hidx] ∧ y.phase = x.phase) ∧
    (∀ r x, Alone hsync s k th → th.hidx ≤ k → lookup s.threads rk = some r → r.hire = some x → th.hidx ∈ 0 :: x.live →
      (∀ j ∈ 0 :: x.live, j = th.hidx ∨ j ∈ x.arrived) →
      ∃ t u w y, exec hsync s = .next t ∧ Kept s t ∧ lookup t.threads k = some u ∧ u.wait = .none ∧
        lookup t.threads rk = some w ∧ w.wait = .none ∧ w.hire = some y ∧ y.arrived = [] ∧ y.phase = x.phase + 1) ∧
    (lookup s.threads k = some th →
      (th.hidx = 0 ∨ th.issued < 65536 → exec (.helperIssueLimit k) s = .next s) ∧
      ∀ r x, th.hidx ≠ 0 → th.hidx ≤ k → 65536 ≤ th.issued → lookup s.threads rk = some r → r.hire = some x →
        ∃ t u y, exec (.helperIssueLimit k) s = .next t ∧ lookup t.threads rk = some u ∧
          u.hire = some y ∧ y.done = x.done ∧ y.contrib = x.contrib ∧
          (th.pend = 0 → lookup t.threads k = none ∧ y.live = x.live.filter (· ≠ th.hidx)) ∧
          (th.pend ≠ 0 → y.live = x.live ∧ ∃ z, lookup t.threads k = some z ∧ z.status = .exited))

/-- R254, R323: LNCH writes false when no enabled queue of the context has the number, or when it is full; else the 128 bytes at
wA are appended at TAIL, TAIL counts one more, and true is written. -/
def Obligations.Lnch : Prop :=
  ∀ (h : Head) (d a : Reg) (q : BitVec 3) (s : State) (k : Nat) (th : Thread) (l : Loc),
    let i := Instr.lnch h d a q
    let No : Prop := ∃ t, exec i s = .next t ∧ OnlyThreads s t ∧ OthersKept s t k ∧
      lookup t.threads k = some ((advance i th).wp d false)
    Alone i s k th → s.access th k (th.rw a) 128 128 false true = .ok l →
    (s.localQueue th.ctx q.toNat 1 = none → No) ∧
    ∀ hq, s.localQueue th.ctx q.toNat 1 = some hq →
      let tail := (s.reg 0x5103 hq).toNat % 2 ^ 32
      (2 ^ ((s.reg 0x5100 hq).toNat / 2 ^ 24 % 32) ≤ (tail + 2 ^ 32 - (s.reg 0x5102 hq).toNat % 2 ^ 32) % 2 ^ 32 → No) ∧
      (∀ t1, (tail + 2 ^ 32 - (s.reg 0x5102 hq).toNat % 2 ^ 32) % 2 ^ 32 < 2 ^ ((s.reg 0x5100 hq).toNat / 2 ^ 24 % 32) →
        s.flushFirst th true false .p = (s, none) → onChip l → s.locWaits l 128 false = false → (s.readLoc l 128).2 = false →
        (s.modThread k (advance i)).writeGlobal
          ⟨(s.reg 0x5100 hq).toNat / 2 ^ 32 % 2 ^ 16, s.lqSlot hq tail, false, true, 1⟩ ((List.range 128).map (byteOf s l)) = .ok t1 →
        t1.reg 0x5103 hq = s.reg 0x5103 hq → t1.threads = (s.modThread k (advance i)).threads →
        ∃ t, exec i s = .next t ∧ lookup t.threads k = some ((advance i th).wp d true) ∧ OthersKept s t k ∧
          (t.reg 0x5103 hq).toNat % 2 ^ 32 = (tail + 1) % 2 ^ 32 ∧ t.drawer = t1.drawer ∧ t.l2 = t1.l2)

/-- R255 to R259, R287, R289, R260: TRAP and BKPT take their trap; TRET outside handler state is ILLEGAL_ENC with TAUX = 10 and in
it leaves the handler for TPC, for wA, or for the instruction behind TPC; TMFR reads the trap registers, a supervisor's at
level 1 or 2, zero in a helper. -/
def Obligations.TrapInstructions : Prop :=
  ∀ (h : Head) (n : BitVec 8) (d a : Reg) (mode : TretMode) (code : BitVec 8) (s : State) (k : Nat) (th : Thread),
    (canTrap s th → Alone (.trap h n) s k th → TakesTrap (.trap h n) s k th causeUserTrap (n.zeroExtend 64) 0) ∧
    (canTrap s th → Alone (.bkpt h) s k th → TakesTrap (.bkpt h) s k th causeBkpt 0 0) ∧
    (canTrap s th → Alone (.tret h mode a) s k th → th.hand = false →
      TakesTrap (.tret h mode a) s k th causeIllegal (Instr.tval (.tret h mode a)) 10) ∧
    (let Leaves (m : TretMode) (pc : DWord) : Prop := ∃ t, exec (.tret h m a) s = .next t ∧ OnlyThreads s t ∧
        OthersKept s t k ∧ lookup t.threads k = some { advance (.tret h m a) th with hand := false, pc := pc };
      th.hand = true →
      (Alone (.tret h .retry a) s k th → Leaves .retry th.trap.tpc) ∧
      (Alone (.tret h .to a) s k th → Leaves .to (th.rw a)) ∧
      (Alone (.tret h .next a) s k th → th.trap.tpc.toNat % 4 ≠ 0 ∨ 2 ^ 57 ≤ th.trap.tpc.toNat →
        Leaves .next (th.trap.tpc + 4)) ∧
      (∀ s1 b, Alone (.tret h .next a) s k th → th.trap.tpc.toNat % 4 = 0 → th.trap.tpc.toNat < 2 ^ 57 →
        (s.modThread k (advance (.tret h .next a))).fetchBlock th th.trap.tpc = .ok s1 b →
        s1.threads = (s.modThread k (advance (.tret h .next a))).threads →
        ∃ t u, exec (.tret h .next a) s = .next t ∧ lookup t.threads k = some u ∧ u.hand = false ∧ u.v = th.v ∧
          let len := (b.getD (th.trap.tpc.toNat % 32) 0).toNat % 4
          u.pc = th.trap.tpc + BitVec.ofNat 64 (if len = 3 then 4 else 8 + 4 * len))) ∧
    (Alone (.tmfr h d code) s k th →
      let x : Trap := if th.hidx ≠ 0 then ⟨0, 0, 0, 0⟩ else if s.priv th.ctx = 0 then th.trap else th.sup.trap
      ∃ t, exec (.tmfr h d code) s = .next t ∧ OnlyThreads s t ∧ OthersKept s t k ∧
        lookup t.threads k = some (
          let w := advance (.tmfr h d code) th
          if code = 0 then w.wv d (x.cause.zeroExtend 32) else if code = 1 then w.ww d x.tpc
          else if code = 2 then w.ww d x.val else w.wv d x.aux))

/-! ### System registers and system instructions (R277 to R299) -/

/-- R281, R283, R286, R287, R295, R315, R404: the checks of an access in their order, each with its cause and SVAL; SYSR returns the
register and clears its RC fields, SYSW leaves each bit as its field's type says and every other register alone, SYSX performs its
command or waits for the event that brings its result; MREXT and RBIND first read their bytes as a load does (R315, R404). That SYSR of
a command's index reads zero, and that SYSW of one is SYS_IDX before its instance is looked at, is the model's choice (log 55). -/
def Obligations.SystemRegisterAccess : Prop :=
  ∀ (h : Head) (d a : Reg) (idx : BitVec 16) (s : State) (k : Nat) (th : Thread) (i : Instr) (op : SysOp),
    sysForm h d a idx th i op → Alone i s k th →
    let n := (th.rv a).toNat
    let x := idx.toNat
    let w : Who := ⟨s.priv th.ctx, s.partOf th.ctx, some k⟩
    let s1 := s.modThread k (advance i)
    let Fails (c : BitVec 8) (sub : Word) : Prop := canTrap s th → TakesTrap i s k th c (BitVec.ofNat 64 (n * 2 ^ 32 + x)) sub
    s1.flushFirst th true true .s = (s1, none) →
    (State.indexOk w x op = false → Fails 14 0) ∧
    (State.indexOk w x op = true → instOk x n = false → Fails 16 0) ∧
    (State.indexOk w x op = true → instOk x n = true → s1.inReach w x n op = false → Fails 15 0) ∧
    (∀ c, State.indexOk w x op = true → instOk x n = true → s1.inReach w x n op = true → s1.valueCheck w x n op = some c →
      Fails 17 (BitVec.ofNat 32 c)) ∧
    (State.indexOk w x op = true → instOk x n = true → s1.inReach w x n op = true → s1.valueCheck w x n op = none →
      let s2 := s1.clockRelease th.ctx
      (op = .read → ∃ t, exec i s = .next t ∧ OthersKept s t k ∧ t.drawer = s.drawer ∧
        (x < 0x1000 → OnlyThreads s2 t ∧ lookup t.threads k = some ((advance i th).ww d (regionZero th x))) ∧
        ∀ r, 0x1000 ≤ x → regInfo x = some r →
          lookup t.threads k = some ((advance i th).ww d (if r.cmd then 0 else s2.sysValue w x n)) ∧
          (r.rc = 0 → t.sys = s.sys) ∧ ((t.reg x n).toNat &&& r.rc = 0 ∨ r.cmd = true)) ∧
      (op = .write (th.rw d) → ∃ t u, exec i s = .next t ∧
        (x < 0x1000 → OnlyThreads s2 t ∧ OthersKept s t k ∧ lookup t.threads k = some u ∧ u.v = th.v ∧
          u.pc = (advance i th).pc ∧
          (regionZero u 0, regionZero u 2, regionZero u 3, regionZero u 4) =
            (regionZero th 0, regionZero th 2, regionZero th 3, regionZero th 4) ∧
          ∀ y ∈ [1, 5, 6], regionZero u y = if y = x then th.rw d else regionZero th y) ∧
        ∀ r, 0x1000 ≤ x → regInfo x = some r → ¬writesMore x →
          (∀ j, j < 64 → (x = 0x3002 → n % 4 = 0) → (t.reg x n).getLsbD j = bitAfter r (s.reg x n) (th.rw d) j) ∧
          (∀ y m, m < 2 ^ 32 → (y ≠ x ∨ m ≠ n) → t.reg y m = s.reg y m) ∧ t.drawer = s.drawer) ∧
      (op = .exec (th.rw d) →
        (∀ s3 r y, x ≠ 0x4200 → x ≠ 0xA011 → s2.sysExec w (.thread k d) x n (th.rw d) = .done s3 r →
          lookup s3.threads k = some y → ∃ t, exec i s = .next t ∧ lookup t.threads k = some (y.ww d r) ∧ t.sys = s3.sys ∧
            t.drawer = s3.drawer) ∧
        (∀ s3 y, x ≠ 0x4200 → x ≠ 0xA011 → s2.sysExec w (.thread k d) x n (th.rw d) = .later s3 →
          lookup s3.threads k = some y → ∃ t, exec i s = .next t ∧ lookup t.threads k = some { y with wait := .sys d } ∧
            t.sys = s3.sys) ∧
        ∀ l len, s.access th k (th.rw d) len len false true = .ok l → onChip l → s.locWaits l len false = false →
          (s.readLoc l len).2 = false →
          let b := (List.range len).map (byteOf s l)
          (x = 0xA011 → len = 32 → ∃ t, exec i s = .next t ∧ lookup t.threads k = some ((advance i th).ww d 0) ∧
            OthersKept s t k ∧ t.drawer = s.drawer ∧ t.sys = (s.extendMr n b).sys) ∧
          ∀ y, x = 0x4200 → len = 64 →
            let s3 := (s2.modThread k fun u => { u with wait := .sys d }).bindRecord n b (.thread k d)
            lookup s3.threads k = some y → ∃ t, exec i s = .next t ∧ lookup t.threads k = some y ∧ t.sys = s3.sys ∧
              t.routes = s3.routes ∧ t.builds = s3.builds))

/-- R296 to R299: ERET leaves supervisor trap state for SEPC, and outside it is ILLEGAL_ENC with TAUX = 10. TINV drops exactly
the entries its form names and, where requests that may use one are out, waits for them. CINVR, once every earlier access is performed, writes back, invalidates or discards the lines of its
range and no others. WAITI returns the events of its mask, at once for a mask of zero, or waits. A context out of reach is SYS_OWN
with SVAL naming it, a range past 2^57 SYS_VAL with subcode 1; of the two SYS_OWN comes first, which is the model's choice (log 94). -/
def Obligations.SystemInstructions : Prop :=
  ∀ (h : Head) (kind : TinvKind) (op : CinvOp) (d a b c : Reg) (s : State) (k : Nat) (th : Thread),
    let ctx := (th.rv a).toNat
    let w : Who := ⟨s.priv th.ctx, s.partOf th.ctx, some k⟩
    let sval : DWord := BitVec.ofNat 64 (ctx * 2 ^ 32)
    (let i := Instr.eret h;
      Alone i s k th →
      (th.sup.inTrap = true → ∃ t, exec i s = .next t ∧ OnlyThreads s t ∧ OthersKept s t k ∧
        lookup t.threads k = some { advance i th with pc := th.sup.trap.tpc, sup := { th.sup with inTrap := false } }) ∧
      (th.sup.inTrap = false → canTrap s th → TakesTrap i s k th causeIllegal (Instr.tval i) 10)) ∧
    (let i := Instr.tinv h kind a b c;
      Alone i s k th →
      (kind ≠ .all → s.mayCtx w ctx = false → canTrap s th → TakesTrap i s k th causeSysOwn sval 0) ∧
      (kind = .all ∨ s.mayCtx w ctx = true → ∃ t, exec i s = .next t ∧ Kept s t ∧ OthersKept s t k ∧ t.l1 = s.l1 ∧ t.l2 = s.l2 ∧
        (∃ out : List Nat, (∀ tag, tag ∈ out ↔ ∃ r, (tag, r) ∈ s.reqs ∧ r.link = none ∧ r.served = false ∧
            tinvAwaits s th kind ctx (th.rv c).toNat r.ctx) ∧
          lookup t.threads k = some (if out = [] then advance i th else { advance i th with wait := .quiet out })) ∧
        ∀ e, e ∈ t.tc ↔ e ∈ s.tc ∧ ¬tinvHits s th kind ctx (th.rw b).toNat (th.rv c).toNat e)) ∧
    (let i := Instr.cinvr h op a b c
      let s1 := s.modThread k (advance i)
      let base := (th.rw b).toNat
      let n := (th.rv c).toNat
      let lo := base / 128 * 128
      let hi := (base + n + 127) / 128 * 128;
      Alone i s k th → s1.flushFirst th true true .s = (s1, none) →
      (s.mayCtx w ctx = false → canTrap s th → TakesTrap i s k th causeSysOwn sval 0) ∧
      (s.mayCtx w ctx = true → n ≠ 0 → 2 ^ 57 < base + n → canTrap s th → TakesTrap i s k th causeSysVal sval 1) ∧
      (s.mayCtx w ctx = true → n = 0 → ∃ t, exec i s = .next t ∧ OnlyThreads (s.clockRelease th.ctx) t ∧ OthersKept s t k ∧
        lookup t.threads k = some (advance i th)) ∧
      (s.mayCtx w ctx = true → n ≠ 0 → base + n ≤ 2 ^ 57 → (keysOf s.l2).Nodup → ∃ t, exec i s = .next t ∧ OthersKept s t k ∧
        t.sys = s.sys ∧ lookup t.threads k = some (advance i th) ∧
        (∀ key l, lookup s.l2 key = some l → ¬sharedLine s ctx lo hi l → ¬privateLine s ctx lo hi l →
          lookup t.l2 key = some l) ∧
        (∀ key l, lookup s.l2 key = some l → sharedLine s ctx lo hi l ∨ privateLine s ctx lo hi l →
          (op = .cln → lookup t.l2 key = some { l with dirty := false }) ∧ (op ≠ .cln → lookup t.l2 key = none)) ∧
        (op = .cln → t.l1 = s.l1 ∧ t.icache = s.icache) ∧
        (op ≠ .cln → (∀ e ∈ t.l1, e ∈ s.l1 ∧ ¬sharedLine s ctx lo hi e.2 ∧ ¬privateLine s ctx lo hi e.2) ∧
          ∀ x, x ∈ t.icache ↔ x ∈ s.icache ∧ ¬(x.ctx = ctx ∧ lo < 32 * x.block + 32 ∧ 32 * x.block < hi)) ∧
        ((∀ e ∈ s.l2, e.2.dirty = false) ∨ (op = .disc ∧ ∀ e ∈ s.l2, ¬sharedLine s ctx lo hi e.2) → t.drawer = s.drawer))) ∧
    (let i := Instr.waiti h d a
      let m : BitVec 5 := (th.rv a).setWidth 5
      let e := s.events th.ctx &&& m;
      Alone i s k th →
      (m = 0 ∨ e ≠ 0 → ∃ t, exec i s = .next t ∧ OnlyThreads s t ∧ OthersKept s t k ∧
        lookup t.threads k = some ((advance i th).wv d (e.zeroExtend 32))) ∧
      (m ≠ 0 → e = 0 → ∃ t u, exec i s = .next t ∧ OnlyThreads s t ∧ OthersKept s t k ∧ lookup t.threads k = some u ∧
        SameRegs u { th with wait := .event m }))

/-- R33, R135, R139, R251, R257, R258, R287, R288: the entry events put a thread in its handler once no access of it is outstanding,
or fault its context when there is none or it is there already; the first trap in a helper is kept for HJOIN and stops the HIRE's
helpers, of which those with an access outstanding go later; the checks of R139 made
before an instruction executes trap with their cause: PRIV at user level, TAUX = 9 for an opcode forbidden to helpers (R169), TAUX = 8
for an operand out of range, LA_VIOL for a register of an open window (R142) and SNAP_WR for a write below an open HIRE's window
(R246; that it holds in every chapter is the model's choice, log 71); and a thread whose guard is false passes any
instruction without a trap or effect. -/
def Obligations.TrapEntry : Prop :=
  (∀ (s : State) (k : Nat) (th : Thread) (x : Trap), lookup s.threads k = some th →
    (th.hidx ≠ 0 → exec (.userTrapEntry k x) s = .next (s.takeHelperTrap k x) ∧
      exec (.supervisorTrapEntry k x) s = .next (s.takeHelperTrap k x)) ∧
    (th.hidx = 0 → th.pend ≠ 0 →
      exec (.userTrapEntry k x) s = .next (s.setThread k { th with wait := .entry false x }) ∧
      exec (.supervisorTrapEntry k x) s = .next (s.setThread k { th with wait := .entry true x }))) ∧
  (∀ (s : State) (k : Nat) (th : Thread) (x : Trap), lookup s.threads k = some th → th.hidx = 0 → th.pend = 0 →
    let fragment := (s.setThread k { th with tag := s.fresh }).bump
    (s.priv th.ctx = 0 →
      ((s.pktOf th).handler ≠ 0 → th.hand = false → ∃ t, exec (.userTrapEntry k x) s = .next t ∧ Enters s t k th x) ∧
      ((s.pktOf th).handler = 0 ∨ th.hand = true →
        exec (.userTrapEntry k x) s = .next (fragment.contextFault th.ctx 1))) ∧
    (s.priv th.ctx ≠ 0 →
      (s.reg 0x1002 th.ctx ≠ 0 → th.sup.inTrap = false →
        ∃ t, exec (.supervisorTrapEntry k x) s = .next t ∧ Enters s t k th x) ∧
      (s.reg 0x1002 th.ctx = 0 ∨ th.sup.inTrap = true →
        exec (.supervisorTrapEntry k x) s = .next (fragment.contextFault th.ctx 1)))) ∧
  (∀ (s : State) (c n : Nat), c < 65536 → 0 < n → n < 256 → s.ctxState c ≠ 0 → s.ctxState c ≠ 6 →
    (s.contextFault c n).ctxState c = 6 ∧ ((s.contextFault c n).reg 0x1003 c).toNat / 2 ^ 48 % 256 = n ∧
    ∀ k g, lookup s.groups (k / 32768) = some g → g.ctx = c → lookup (s.contextFault c n).threads k = none) ∧
  (∀ (s : State) (k : Nat) (th r : Thread) (x : Trap) (hs : HireState), lookup s.threads k = some th → th.hidx ≠ 0 →
    th.hidx ≤ k → lookup s.threads (k - th.hidx) = some r → r.hire = some hs → 0 ∉ hs.live → hs.trapped = none →
    ∃ u y, lookup (s.takeTrap k x).threads (k - th.hidx) = some u ∧ u.hire = some y ∧ y.trapped = some (th.hidx, x.cause) ∧
      y.live = hs.live.filter (fun j => (s.thread (k - th.hidx + j)).pend ≠ 0) ∧ y.contrib = [] ∧ y.flags = 0 ∧ u.v = r.v ∧ u.p = r.p ∧ u.trap = r.trap) ∧
  (∀ (i : Instr) (s : State) (k : Nat) (th : Thread) (c : BitVec 8) (v : DWord) (x : Word), i.raw.len ≠ 3 → s.cur = [k] →
    lookup s.threads k = some th → th.active i.head = true → canTrap s th → preTrap s i k th = some (c, v, x) →
    TakesTrap i s k th c v x) ∧
  (∀ (i : Instr) (s : State) (k : Nat) (th : Thread), i.raw.len ≠ 3 → 0xF0 ≤ i.raw.op → th.hidx = 0 → s.priv th.ctx = 0 →
    preTrap s i k th = some (causePriv, Instr.tval i, 0)) ∧
  (∀ (i : Instr) (s : State) (k : Nat) (th : Thread), i.raw.len ≠ 3 →
    (th.hidx ≠ 0 → notForHelpers i.raw.op.toNat → preTrap s i k th = some (causeIllegal, Instr.tval i, 9)) ∧
    ((th.hidx ≠ 0 → ¬notForHelpers i.raw.op.toNat) → (0xF0 ≤ i.raw.op → s.priv th.ctx ≠ 0) →
      (∃ o ∈ i.reads ++ i.writes ++ i.names, BadOperand s th o) → preTrap s i k th = some (causeIllegal, Instr.tval i, 8)) ∧
    (preTrap s i k { th with las := [], hire := none } = none →
      (∀ w r, th.las = [w] → ¬noLaViol i.raw.op.toNat → breaks i w r → (∀ q, breaks i w q → q = r) →
        preTrap s i k th = some (3, w.pc, BitVec.ofNat 32 (auxOf r))) ∧
      (∀ w, th.las = [w] → th.hire = none → noLaViol i.raw.op.toNat ∨ (∀ q, ¬breaks i w q) → preTrap s i k th = none) ∧
      ∀ hs n, th.las = [] → th.hire = some hs → th.hidx = 0 → i.raw.op ≠ 0xE1 → n < hs.win → (⟨.vec, n⟩ : RegRef) ∈ Instr.writeRefs i →
        (∀ m, (⟨.vec, m⟩ : RegRef) ∈ Instr.writeRefs i → n ≤ m) → preTrap s i k th = some (6, BitVec.ofNat 64 n, 0))) ∧
  (∀ (i : Instr) (s : State) (k : Nat) (th : Thread), i.raw.len ≠ 3 → s.cur = [k] → lookup s.threads k = some th →
    th.active i.head = false → ∃ t, exec i s = .next t ∧ OnlyThreads s t ∧ OthersKept s t k ∧
      lookup t.threads k = some (advance i th))

/-! ### Steps, encodings, the canonical form of memory, reset (R8, R12, R129 to R140) -/

/-- R31, R129 to R131, R135, R139, R140, R357: with power on, a fragment at hand fetches the block at its pc; if the bytes there decode
within the block, the step is exec of that instruction, with the errors that ERRINJ armed striking what it wrote. A misaligned pc, one outside the global aperture, LEN 0b11, a block
crossing, an undefined guard and an undecodable instruction trap as R139 orders. With no fragment at hand the first event waiting
is taken; without power only POWER_ON is. That the fragment at hand goes before events (log 16), that an event without power is taken away
(log 53), and which writes an armed error strikes (logs 32 and 76) are the model's choice. -/
def Obligations.StepRunsDecoded : Prop :=
  (∀ (s s1 : State) (k : Nat) (ks : List Nat) (th : Thread) (b : Bytes) (i : Instr), s.power.on = true → s.cur = k :: ks →
    lookup s.threads k = some th → th.pc.toNat % 4 = 0 → th.pc.toNat < 2 ^ 57 → s.fetchBlock th th.pc = .ok s1 b →
    let x := fieldsAt b th.pc
    x.len ≠ 3 → th.pc.toNat % 32 + 8 + 4 * x.len.toNat ≤ 32 → x.g.toNat < 96 ∨ x.g = 127 → x.decode = .ok i →
    step s = struckBy s (exec i s1) ∧ (s.inject = [] → step s = exec i s1)) ∧
  (∀ (s : State) (k : Nat) (th : Thread), s.power.on = true → s.inject = [] → s.cur = [k] → lookup s.threads k = some th → canTrap s th →
    (th.pc.toNat % 4 ≠ 0 → ∃ t, step s = .next t ∧ Enters s t k th ⟨causeMisalign, th.pc, th.pc, 0⟩) ∧
    (th.pc.toNat % 4 = 0 → 2 ^ 57 ≤ th.pc.toNat → ∃ t, step s = .next t ∧ Enters s t k th ⟨causeAddr, th.pc, th.pc, 0⟩) ∧
    ∀ s1 b, th.pc.toNat % 4 = 0 → th.pc.toNat < 2 ^ 57 → s.fetchBlock th th.pc = .ok s1 b → s1.threads = s.threads →
      s1.cur = s.cur → canTrap s1 th →
      let x := fieldsAt b th.pc
      let v : DWord := BitVec.ofNat 64 (leNat ((b.drop (th.pc.toNat % 32)).take 8))
      let cross : Prop := 32 < th.pc.toNat % 32 + 8 + 4 * x.len.toNat
      let named : Prop := x.g.toNat < 96 ∨ x.g = 127
      (x.len = 3 → ∃ t, step s = .next t ∧ Enters s1 t k th ⟨causeIllegal, th.pc, v, 1⟩) ∧
      (x.len ≠ 3 → cross → ∃ t, step s = .next t ∧ Enters s1 t k th ⟨causeFetchXb, th.pc, th.pc, 0⟩) ∧
      (x.len ≠ 3 → ¬cross → ¬named → ∃ t, step s = .next t ∧ Enters s1 t k th ⟨causeIllegal, th.pc, v, 2⟩) ∧
      ∀ n, x.len ≠ 3 → ¬cross → named → x.decode = .error n →
        (th.active x.head = true → n = 3 ∨ n = 4 ∨ x.op.toNat < 0xF0 ∨ s1.priv th.ctx ≠ 0 →
          ∃ t, step s = .next t ∧ Enters s1 t k th ⟨causeIllegal, th.pc, v, BitVec.ofNat 32 n⟩) ∧
        (th.active x.head = false → ∃ t u, step s = .next t ∧ lookup t.threads k = some u ∧
          SameRegs u { th with pc := th.pc + BitVec.ofNat 64 (8 + 4 * x.len.toNat) })) ∧
  (∀ (s : State) (i : Instr) (rest : List Instr), s.inbox = i :: rest → s.inject = [] →
    (s.power.on = true → s.cur = [] → step s = exec i { s with inbox := rest }) ∧
    (∀ b, s.power.on = false → i = .powerOn b → step s = exec i { s with inbox := rest }) ∧
    ((∀ b, i ≠ .powerOn b) → s.power.on = false → step s = .next { s with inbox := rest }))

/-- Words written out from the spec's encodings (R132, R133, R155) decode to the instructions they stand for, and IADD with a
SUB code its row does not list is refused with TAUX 6 (R138). -/
def Obligations.DecodesSpecWords : Prop :=
  decodeWord (words 0x0009FCD1 0 0x100 0) = .ok (.movi ⟨127, false, 0⟩ 2 0x100) ∧
  decodeWord (words 0x080DFC01 0x01000000 0x40 0) = .ok (.iaddW ⟨127, false, 0⟩ .s32 false .none 3 2 0x40 0) ∧
  decodeWord (words 0x0001FD20 0 0 0) = .ok (.nopS ⟨127, false, 0⟩) ∧
  decodeWord (words 0x0C11FE84 0x01001008 0 0) = .ok (.stS ⟨127, false, 0⟩ .rlx .none .b32 4 3 .core 4) ∧
  decodeWord (words 0x0001FD1C 0 0 0) = .ok (.exit ⟨127, false, 0⟩) ∧
  decodeWord (words 0x0011FC00 0x21401408 0 0) = .ok (.iaddS ⟨127, false, 0⟩ .z32 false .co 4 0 2 5) ∧
  decodeWord (words 0x0401FD01 0 0x2C 0) = .ok (.br ⟨127, false, 0⟩ false 1 0x2C) ∧
  decodeWord (words 0x1031FE2D 0x00C01814 0x14 0) = .ok (.vacsel ⟨127, false, 0⟩ false 12 4 5 6 0x14) ∧
  decodeWord (words 0x0C19FE80 0x2D410008 0 0) = .ok (.ldS ⟨127, false, 0⟩ .acq .h .b64 6 3 .core 64) ∧
  decodeWord (words 0x2005FF02 0x00400024 1 0) = .ok (.rmac ⟨127, false, 0⟩ true 1 8 9 ⟨0, 0, .bq, .bq, 1⟩) ∧
  decodeWord (words 0x0C11FF81 0x01001400 0x60 0) = .ok (.hire ⟨127, false, 0⟩ .w8 .addS32 4 3 5 0x60) ∧
  decodeWord (words 0x0819FFC0 0x0000400C 0 0) = .ok (.sysr ⟨127, false, 0⟩ 6 2 0x1003) ∧
  decodeWord (words 0x0011FC00 0xC1400008 0 0) = .error 6

/-- R129, R132 to R138: decode of encode: an encoded instruction that is well formed, with every operand at every value its
encoding admits, comes back from its bits, and from its bytes. -/
def Obligations.EncodeDecodeRoundTrip : Prop :=
  ∀ i : Instr, i.wellFormed = true → i.raw.len ≠ 3 → decodeWord i.bits = .ok i ∧ decodeBytes (encode i) = .ok i

/-- Every step, of whatever instruction, event or own work of the package, keeps main memory in its canonical form. -/
def Obligations.DrawerOkStays : Prop := ∀ s t : State, DrawerOk s → step s = .next t → DrawerOk t

/-- R8, R290, R292, R333, R393, R401: what reset leaves. Every byte of main memory is zero, nothing is resident, every context is
FREE with CTXEVT all ones, fault queues have no owner, DRAINLIM and SAVELIM have their defaults, partition 0 owns the clusters, and
the wipe is in progress. Values the spec gives none for, and the fuses, are the model's (logs 1, 2, 14). -/
def Obligations.ResetState : Prop :=
  let s := State.reset
  DrawerOk s ∧ (∀ a, s.drawer.byte a = 0) ∧ s.drawer.bad = [] ∧ s.dsp = [] ∧ s.threads = [] ∧ s.groups = [] ∧ s.launches = [] ∧
  s.l1 = [] ∧ s.l2 = [] ∧ s.tc = [] ∧ s.icache = [] ∧ s.cur = [] ∧ s.clk = 0 ∧ s.tick = 0 ∧
  (∀ c, s.reg 0x1000 c = 0 ∧ s.reg 0x1002 c = 0 ∧ s.reg 0x1003 c = 0 ∧ s.ctxState c = 0 ∧ s.reg 0x1005 c = 0 ∧
    s.reg 0x1006 c = 0xFFFFFFFFFFFFFFFF ∧ s.reg 0x5000 c = 0x800007D000000064 ∧ s.reg 0x5004 c = 0) ∧
  (∀ q, s.reg 0x2000 q = 0xFFFF ∧ s.reg 0x2002 q = 0 ∧ s.reg 0x2003 q = 0 ∧ s.reg 0x5100 q = 0) ∧
  s.reg 0x3001 0 = 0xFFFFFFFFFFFFFFFF ∧ (∀ p, p ≠ 0 → s.reg 0x3000 p = 0 ∧ s.reg 0x3001 p = 0) ∧
  (s.reg 0x3030 0).getLsbD 63 = true ∧ (s.reg 0x3030 0).toNat / 2 ^ 60 % 8 = 1

/-! ### Events of waves, hampers and servers (R25 to R32, R171, R290, R299, R304) -/

/-- R27, R28, R32, R171, R290, R299, R304: a hamper whose oldest thread has waited 256 cycles becomes aged; a draw takes the
first thread of each home lane into a vacant slot at the hamper's target and leaves the others; the oldest ready pending wave
enters an active set of fewer than 8, or takes the place of one all of whose fragments are held by long-latency events and may
issue from the next cycle on (of several, that of the lowest slot, as log 60 chooses); a NAP ends at its cycle; a server whose deadline is
reached takes its budget and its next deadline; threads waiting for an event that has come go on. -/
def Obligations.ScheduleEvents : Prop :=
  (∀ (s : State) (core e : Nat) (h : Hamper), lookup (s.core core).hampers e = some h →
    (h.aged = false → (∃ x ∈ h.ths, x.2 + 256 ≤ s.clk) → ∃ t g, exec (.hamperAged core e) s = .next t ∧ Kept s t ∧
      t.threads = s.threads ∧ lookup (t.core core).hampers e = some g ∧ g.aged = true ∧ g.ths = h.ths ∧ g.target = h.target ∧
      g.gid = h.gid ∧ g.forced = h.forced) ∧
    ((∀ x ∈ h.ths, s.clk < x.2 + 256) → exec (.hamperAged core e) s = .next s)) ∧
  (∀ (s : State) (core : Nat), (s.core core).lastDraw = some s.clk ∨ (∀ e ∈ (s.core core).hampers, ¬mayDraw s e.2) →
    exec (.hamperDraw core) s = .next s) ∧
  (∀ (s : State) (core e sl : Nat) (rest : List Nat) (h : Hamper), (keysOf (s.core core).hampers).Nodup →
    lookup (s.core core).hampers e = some h → mayDraw s h → (s.core core).lastDraw ≠ some s.clk → (s.core core).reformQ = [] →
    (∀ x ∈ (s.core core).hampers, x.1 ≠ e → ¬mayDraw s x.2) → (s.group h.gid).slots = sl :: rest → (∀ x ∈ rest, sl ≤ x) → (h.ths.map Prod.fst).Nodup →
    (∀ x ∈ s.threads, x.2.core = core → x.2.slot = sl → x.2.hidx = 0 ∧ x.2.status ≠ .live) →
    (∀ x ∈ h.ths, ∃ th, lookup s.threads x.1 = some th ∧ th.hidx = 0) →
    ∃ t w, exec (.hamperDraw core) s = .next t ∧ Kept s t ∧ (t.core core).lastDraw = some s.clk ∧
      lookup t.waves (State.waveKey core sl) = some w ∧ w.gid = h.gid ∧
      (∀ x ∈ h.ths, ∀ th, lookup s.threads x.1 = some th →
        (firstOfLane s h x → lookup t.threads x.1 = some { th with
          status := .live, slot := sl, lane := homeOfThread s x.1, tag := s.fresh, pc := h.target }) ∧
        (¬firstOfLane s h x → lookup t.threads x.1 = some th)) ∧
      ((∀ x ∈ h.ths, firstOfLane s h x) → lookup (t.core core).hampers e = none) ∧
      ((∃ x ∈ h.ths, ¬firstOfLane s h x) → ∃ g, lookup (t.core core).hampers e = some g ∧ g.target = h.target ∧ g.gid = h.gid ∧
        ∀ x, x ∈ g.ths ↔ x ∈ h.ths ∧ ¬firstOfLane s h x)) ∧
  (∀ (s : State) (core ig : Nat), (∀ slot w, ¬pendingReady s core ig slot w) → exec (.waveExchange core ig) s = .next s) ∧
  (∀ (s : State) (core ig slot : Nat) (w : Wave), pendingReady s core ig slot w →
    (∀ sl v, pendingReady s core ig sl v → w.age < v.age ∨ (w.age = v.age ∧ slot ≤ sl)) →
    (activeCount s core ig < 8 → ∃ t, exec (.waveExchange core ig) s = .next t ∧ t.threads = s.threads ∧
      lookup t.waves (State.waveKey core slot) = some { w with active := true, since := s.clk } ∧
      ∀ j, j ≠ State.waveKey core slot → lookup t.waves j = lookup s.waves j) ∧
    (∀ sl v, 8 ≤ activeCount s core ig → activeAt s core ig sl v → allHeld s core sl →
      (∀ j u, activeAt s core ig j u → allHeld s core j → sl ≤ j) → ∃ t,
      exec (.waveExchange core ig) s = .next t ∧ t.threads = s.threads ∧
      lookup t.waves (State.waveKey core slot) = some { w with active := true, since := s.clk + 1 } ∧
      lookup t.waves (State.waveKey core sl) = some { v with active := false, since := s.clk } ∧
      ∀ j, j ≠ State.waveKey core slot → j ≠ State.waveKey core sl → lookup t.waves j = lookup s.waves j) ∧
    (8 ≤ activeCount s core ig → (∀ sl v, activeAt s core ig sl v → ¬allHeld s core sl) → s.overdue core ig = none →
      exec (.waveExchange core ig) s = .next s)) ∧
  (∀ (s : State) (core slot tag : Nat), ∃ t, exec (.napExpire core slot tag) s = .next t ∧ Kept s t ∧
    ∀ k th, lookup s.threads k = some th →
      (∀ c, th.core = core → th.slot = slot → th.tag = tag → th.status = .live → th.lane < 32 → th.wait = .nap c → c ≤ s.clk →
        lookup t.threads k = some { th with wait := .none }) ∧
      (∀ c, th.wait = .nap c → s.clk < c → lookup t.threads k = some th)) ∧
  (∀ (s : State) (k : SrvKey),
    let x := s.srv k
    (s.srvInstalled k = true → x.held = true → x.d ≤ s.tick → ∃ t, exec (.serverReplenish k) s = .next t ∧ Kept s t ∧
      t.srv k = { x with
        q := x.q + ((s.srvReg k).toNat % 2 ^ 24 : Nat), d := (x.d + (s.srvReg k).toNat / 2 ^ 24 % 2 ^ 24) % 2 ^ 48
        held := decide (x.q + ((s.srvReg k).toNat % 2 ^ 24 : Nat) ≤ 0) } ∧
      (∀ j, j ≠ srvNat k → lookup t.servers j = lookup s.servers j) ∧
      ∀ j th, lookup s.threads j = some th → lookup t.threads j =
        some (if th.wait = .retry then { th with wait := .none } else th)) ∧
    (x.held = false ∨ s.tick < x.d → ∃ t, exec (.serverReplenish k) s = .next t ∧ t.servers = s.servers ∧ Kept s t)) ∧
  ∀ (s : State) (c : Nat), ((s.reg 0x1006 c).toNat ≤ s.tick → (s.events c).getLsbD 2 = true) ∧
    ∃ t, exec (.ctxevtTime c) s = .next t ∧ Kept s t ∧ ∀ k th, lookup s.threads k = some th →
      (∀ m, th.wait = .event m → th.ctx = c → s.events c &&& m ≠ 0 → lookup t.threads k = some { th with wait := .none }) ∧
      ((∀ m, th.wait ≠ .event m) ∨ th.ctx ≠ c ∨ (∀ m, th.wait = .event m → s.events c &&& m = 0) → lookup t.threads k = some th)

/-! ### Commands and stages of a context (R253, R290, R291, R333 to R340, R399) -/

/-- R253, R291, R333, R334, R336 to R340, R342, R399: each command of CTXCMD, given by a device supervisor outside: its result
for every state it is not given in, for every check, and the state, stage, image and identity registers it leaves. A context of a
time-sliced partition's table takes no command from 4 up. What a ticket holds is a free value (logs 1 and 4); that TEARDOWN drops remap
entries (log 25), the order of EXPORT's and IMPORT's checks (log 27), that commands are given by an agent outside (log 29) and how an image
moves between packages (log 63) are the model's choice. -/
def Obligations.ContextCommands : Prop :=
  ∀ (s : State) (c : Nat), c < 65536 →
    (s.ctxState c ≠ 0 → Answers (.enable c) s 1 (OnlyResult s)) ∧
    (s.ctxState c = 0 → ¬enableOk s c → Answers (.enable c) s 3 (OnlyResult s)) ∧
    (s.ctxState c = 0 → enableOk s c → Answers (.enable c) s 0 fun t => t.ctxState c = 1 ∧ t.threads = s.threads ∧
      part (t.reg 0x6000 (part (s.reg 0x1000 c) 55 40)) 45 12 = part (s.reg 0x1001 c) 45 12) ∧
    (s.ctxState c = 0 → Answers (.teardown c) s 1 (OnlyResult s)) ∧
    (s.ctxState c ≠ 0 → Answers (.teardown c) s 0 fun t => t.ctxState c = 0 ∧ workGone s t c ∧ lookup t.saggars c = none ∧
      imgv t c = 0 ∧ stage t c = 0 ∧ lookup t.remap c = none ∧ lookup t.tickets c = none ∧
      fclass t c = if s.ctxState c = 3 ∨ s.ctxState c = 4 then 4 else if fclass s c = 0 then 5 else fclass s c) ∧
    Answers (.signal c) s 0 (fun t => t.threads = s.threads ∧
      ∀ j, j < 64 → (t.reg 0x1005 c).getLsbD j = (decide (j = 1) || (s.reg 0x1005 c).getLsbD j)) ∧
    (s.sliced c = true → ∀ i ∈ [Instr.start c, .drain c, .save c, .restore c, .exportImage c, .importImage c],
      Answers i s 1 (OnlyResult s)) ∧
    (s.sliced c = false →
      (s.ctxState c ≠ 1 → Answers (.start c) s 1 (OnlyResult s)) ∧
      (s.ctxState c = 1 → Answers (.start c) s 0 fun t => t.ctxState c = 2 ∧ t.threads = s.threads) ∧
      (s.ctxState c ≠ 2 → Answers (.drain c) s 1 (OnlyResult s)) ∧
      (s.ctxState c = 2 → Answers (.drain c) s 0 fun t => t.ctxState c = 3 ∧ stage t c = 1 ∧
        ((∀ e ∈ s.threads, e.2.hidx ≤ e.1) → ∀ k th, lookup s.threads k = some th → th.ctx = c → th.hidx ≠ 0 →
          (th.pend = 0 → lookup t.threads k = none) ∧
          (th.pend ≠ 0 → ∃ u, lookup t.threads k = some u ∧ u.status = .exited))) ∧
      (s.ctxState c ≠ 2 → s.ctxState c ≠ 3 → Answers (.save c) s 1 (OnlyResult s)) ∧
      (s.ctxState c = 2 ∨ s.ctxState c = 3 → Answers (.save c) s 0 fun t => t.ctxState c = 4 ∧ stage t c = 2) ∧
      (s.ctxState c ≠ 5 → Answers (.restore c) s 1 (OnlyResult s) ∧ Answers (.exportImage c) s 1 (OnlyResult s)) ∧
      (s.ctxState c = 5 → lookup s.saggars c = none → Answers (.restore c) s 3 fun t => imgv t c = 0 ∧ t.ctxState c = 5) ∧
      (∀ g, s.ctxState c = 5 → lookup s.saggars c = some g → s.imageOk c g = false →
        Answers (.restore c) s 3 fun t => imgv t c = 0 ∧ t.ctxState c = 5 ∧ lookup t.saggars c = none) ∧
      (∀ g, s.ctxState c = 5 → lookup s.saggars c = some g → s.imageOk c g = true → (∀ e ∈ g.launches, e.2.adding = false) →
        (keysOf g.launches).Nodup → Answers (.restore c) s 0 fun t => t.ctxState c = 2 ∧
          ∀ id l, lookup g.launches id = some l → lookup t.launches id = some l) ∧
      (s.ctxState c = 5 → imgv s c = 0 → Answers (.exportImage c) s 3 (OnlyResult s)) ∧
      (let route := lookup s.routes (State.routeKey (s.sgrpOf c) (part (s.reg 0x5300 c) 6 0));
        s.ctxState c = 5 → imgv s c = 1 →
        (route = none → Answers (.exportImage c) s 2 (OnlyResult s)) ∧
        (route ≠ none → Answers (.exportImage c) s 0 fun t => t.reg 0x5301 c = Config.free s.freeCtr ∧
          t.reg 0x5302 c = Config.free (s.freeCtr + 1) ∧ t.ctxState c = 5 ∧
          lookup t.ticketTo c = some (part (s.reg 0x5300 c) 6 0) ∧
          lookup t.tickets c = some (t.reg 0x5302 c ++ t.reg 0x5301 c : BitVec 128))) ∧
      (s.ctxState c ≠ 1 → Answers (.importImage c) s 1 (OnlyResult s)) ∧
      (s.ctxState c = 1 →
        (∀ o ∈ s.offers, o.ticket ≠ (s.reg 0x5302 c ++ s.reg 0x5301 c : BitVec 128)) → Answers (.importImage c) s 4 (OnlyResult s)) ∧
      ∀ o before after, s.ctxState c = 1 → s.offers = before ++ o :: after → o.ticket = (s.reg 0x5302 c ++ s.reg 0x5301 c : BitVec 128) →
        (∀ x ∈ before, x.ticket ≠ o.ticket) →
        let need := State.imageLength o.image
        let room := 4096 * part (s.reg 0x5002 c) 31 0
        let mapped : Prop := ∀ p ∈ o.pages, s.pageMapped c p.1 p.2.1 = true
        (room < need → Answers (.importImage c) s 6 (OnlyResult s)) ∧
        (need ≤ room → ¬mapped → Answers (.importImage c) s 5 (OnlyResult s)) ∧
        (need ≤ room → mapped → Answers (.importImage c) s 0 fun t => t.ctxState c = 5 ∧ imgv t c = 1 ∧ lookup t.saggars c ≠ none ∧
          ∀ x ∈ t.offers, x.ticket ≠ o.ticket))

/-- R290, R291, R334 to R336, R399, R400: a drain with no hood left, of a context with no earlier image in
use, holds an image of the launch records and is SAVED; one past its
limit, or a save asked for, becomes a save, which holds every thread once its requests are done, and faults with FCLASS 4 when it
cannot or a thread's state holds an uncorrectable error (R357); a watchdog at its limit is a context fault with FCLASS 3; a partition's rotation starts its next ready context, drains
the one whose slice is over, and does nothing in a partition that is not time-sliced. -/
def Obligations.ContextEvents : Prop :=
  ∀ (s : State) (c : Nat), c < 65536 →
    (s.ctxState c = 3 → (∀ e ∈ s.hoods, e.2.ctx ≠ c) → s.carried c = none → ∃ t g, exec (.drainComplete c) s = .next t ∧ t.ctxState c = 5 ∧ imgv t c = 1 ∧
      stage t c = 0 ∧ lookup t.saggars c = some g ∧ g.threads = [] ∧
      g.launches = (s.launches.filter fun e => e.2.ctx = c).map fun e => (e.1, { e.2 with waitFrom := none, reserved := false })) ∧
    (s.ctxState c ≠ 3 → exec (.drainComplete c) s = .next s ∧ exec (.drainLimitExpire c) s = .next s) ∧
    (let limit := if part (s.reg 0x5000 c) 19 0 = 0 then 100 else part (s.reg 0x5000 c) 19 0;
      s.ctxState c = 3 → (∃ e ∈ s.hoods, e.2.ctx = c) →
      ((s.reg 0x5000 c).getLsbD 63 = true → 125 * limit ≤ 16 * (s.tick - part (s.reg 0x5004 c) 47 0) →
        ∃ t, exec (.drainLimitExpire c) s = .next t ∧ t.ctxState c = 4 ∧ stage t c = 2) ∧
      exec (.drainComplete c) s = .next s ∧
      ((s.reg 0x5000 c).getLsbD 63 = false ∨ 16 * (s.tick - part (s.reg 0x5004 c) 47 0) < 125 * limit →
        exec (.drainLimitExpire c) s = .next s)) ∧
    (s.saveQuiet c = true → s.saveExpired c = false → (∀ e ∈ s.threads, e.2.ctx = c → e.2.bad = []) → s.carried c = none → ∃ t g, exec (.saveComplete c) s = .next t ∧ t.ctxState c = 5 ∧ imgv t c = 1 ∧
      stage t c = 0 ∧ workGone s t c ∧ lookup t.saggars c = some g ∧ g.savedAt = s.clk ∧
      ∀ k th x, lookup s.groups (k / 32768) = some x → x.ctx = c → lookup s.threads k = some th →
        ∃ u, lookup g.threads k = some u ∧ u.v = th.v ∧ u.p = th.p ∧ u.a = th.a ∧ u.fp = th.fp ∧ u.pc = th.pc ∧ u.trap = th.trap ∧
          u.hand = th.hand ∧ u.sup = th.sup) ∧
    (s.saveQuiet c = true → s.saveExpired c = false → (∃ e ∈ s.threads, e.2.ctx = c ∧ e.2.bad ≠ []) → s.ctxState c = 4 →
      ∃ t, exec (.saveComplete c) s = .next t ∧ t.ctxState c = 6 ∧ fclass t c = 4 ∧ imgv t c = 0 ∧ workGone s t c) ∧
    (s.saveQuiet c = false ∨ s.saveExpired c = true → exec (.saveComplete c) s = .next s) ∧
    (s.ctxState c = 4 → ∃ t, exec (.saveIncomplete c) s = .next t ∧ t.ctxState c = 6 ∧ fclass t c = 4 ∧ stage t c = 3 ∧ imgv t c = 0 ∧
      workGone s t c) ∧
    (s.ctxState c ≠ 4 → exec (.saveIncomplete c) s = .next s) ∧
    (let lim := if part (s.reg 0x1000 c) 19 0 = 0 then 1048576 else part (s.reg 0x1000 c) 19 0;
      (lookup s.watch c = none → exec (.watchdogExpire c) s = .next s) ∧
      ∀ t0, lookup s.watch c = some t0 →
        (s.clk < t0 + 3000000 * lim → exec (.watchdogExpire c) s = .next s) ∧
        (t0 + 3000000 * lim ≤ s.clk → s.ctxState c ≠ 0 → s.ctxState c ≠ 6 → ∃ t, exec (.watchdogExpire c) s = .next t ∧
          t.ctxState c = 6 ∧ fclass t c = (if s.ctxState c = 4 then 4 else 3) ∧ workGone s t c)) ∧
    ∀ p e, p < 17 →
      ((s.reg 0x3000 p).getLsbD 63 = false ∨ (s.reg 0x3000 p).getLsbD 62 = false → exec (.sliceExpire p) s = .next s) ∧
      (s.rotates p = true → s.nextEntry p = some e → lookup s.sliceNext p = none → e < 8 → part (s.reg 0x3020 (8 * p + e)) 47 32 = c →
        (s.reg 0x3021 p).getLsbD 63 = false → s.ctxState c = 1 → ∃ t, exec (.sliceExpire p) s = .next t ∧ t.ctxState c = 2 ∧
          part (t.reg 0x3021 p) 63 63 = 1 ∧ part (t.reg 0x3021 p) 58 56 = e ∧ part (t.reg 0x3021 p) 47 0 = s.tick % 2 ^ 48) ∧
      (let cur := part (s.reg 0x3021 p) 58 56;
        s.rotates p = true → s.nextEntry p = some e → lookup s.sliceNext p = none → e ≠ cur → part (s.reg 0x3020 (8 * p + cur)) 47 32 = c →
        (s.reg 0x3021 p).getLsbD 63 = true → s.ctxState c = 2 → s.sliceOver p = true ∨ s.ctxWork c = false →
        ∃ t, exec (.sliceExpire p) s = .next t ∧ t.ctxState c = 3 ∧ stage t c = 1 ∧ lookup t.sliceNext p = some e)

/-! ### Launches, groups and Ethernet (R18 to R20, R39, R253, R325 to R332, R356, R363, R364, R391, R392) -/

/-- R18 to R20, R39, R253, R326 to R329, R356, R363, R364: taking a packet records its launch, waits, or faults its context; a
hood is placed with every thread at the entry and v0, v1 holding the argument; a launch waits, then reserves; a group leaves when
its hood is done; a killed gang goes and is relaunched or faults its context. R330 to R332, R391, R392: a remote launch request
passes its checks or is counted as dropped; a frame goes to its ring, to R331, or is counted; priority-based flow control pauses
priorities of a port. What cannot be read or appended, the layout and times of flow control, and that a frame of a length outside R391's
limits is dropped without a count are the model's choice (logs 12 and 92), as are when a head packet is read (log 22) and the bytes a frame
is given as (log 47). -/
def Obligations.LaunchEvents : Prop :=
  (∀ (s : State) (hq : Nat), s.queueLive hq = false → exec (.packetTake hq) s = .next s) ∧
  (∀ (s s1 : State) (hq : Nat) (b : Bytes), s.queueLive hq = true → s.headPacket hq = .ok (s1, b) → b.length = 128 →
    let c := part (s.reg 0x5100 hq) 47 32
    let n := (s1.launches.filter fun e => e.2.ctx = c).length
    (s1.packetOk c b = false → exec (.packetTake hq) s = .next (s1.contextFault c 2)) ∧
    (s1.packetOk c b = true → s1.ctxState c ≠ 2 ∨ 64 ≤ n → exec (.packetTake hq) s = .next s1) ∧
    (s1.packetOk c b = true → s1.ctxState c = 2 → n < 64 → leAt b 0x40 8 = 0 → leAt b 0x50 8 = 0 → ∃ t l, exec (.packetTake hq) s = .next t ∧
      lookup t.launches s1.fresh = some l ∧ PacketIs l.pkt b ∧ l.ctx = c ∧ l.hq = hq ∧ l.next = 0 ∧ l.left = 0 ∧
      lookup t.heads hq = none ∧ part (t.reg 0x5102 hq) 31 0 = (part (s1.reg 0x5102 hq) 31 0 + 1) % 2 ^ 32 ∧ t.threads = s1.threads)) ∧
  (∀ (s : State) (p id i : Nat) (l : Launch) (rest : List (Nat × Launch)) (die x0 y0 : Nat), s.mayPlace p = (id, l) :: rest →
    lookup s.launches id = some l → s.nextHood id l = some (.fresh i) → s.hoodRect p id l = some (die, x0, y0) →
    l.pkt.threads ≤ 1024 → (∀ e ∈ s.groups, e.1 < s.fresh ∧ e.2.hood < s.fresh) → ∃ t hd, exec (.hoodPlace p) s = .next t ∧ Kept s t ∧
      lookup t.hoods s.fresh = some hd ∧ hd.ctx = l.ctx ∧ hd.launch = id ∧ hd.index = i ∧ (hd.die, hd.x0, hd.y0) = (die, x0, y0) ∧
      hd.groups.length = l.pkt.hw * l.pkt.hh * l.pkt.hg ∧
      ∀ g ∈ hd.groups, (∃ x, lookup t.groups g = some x ∧ x.ctx = l.ctx ∧ x.launch = id ∧ x.hood = s.fresh ∧ x.core / 144 = die) ∧
        ∀ tid, tid < l.pkt.threads → ∃ th, lookup t.threads (threadKey g tid 0) = some th ∧ th.pc = l.pkt.entry ∧ th.tid = tid ∧
          th.rw 0 = l.pkt.arg ∧ (∀ r : Reg, 2 ≤ r.toNat → th.rv r = 0) ∧ th.p = 0 ∧ th.a = [] ∧ th.fp = 0 ∧ th.hidx = 0 ∧
          th.hand = false ∧ th.status = .live ∧ th.lane = if l.pkt.prot then tid % 16 else tid % 32) ∧
  (∀ (s : State) (p id : Nat) (l : Launch), s.mayPlace p = [(id, l)] → s.hoodRect p id l = none → ∃ t, exec (.hoodPlace p) s = .next t ∧
    t.threads = s.threads ∧ lookup t.launches id = some { l with waitFrom := some (l.waitFrom.getD s.clk) }) ∧
  (∀ (s : State) (id t0 : Nat) (l : Launch), lookup s.launches id = some l → l.waitFrom = some t0 → l.reserved = false →
    let order := s.placeOrder (s.partOf l.ctx)
    let listed : Prop := ∃ e ∈ order, e.1 = id
    ∃ t, exec (.placementReserve id) s = .next t ∧ t.threads = s.threads ∧
      (t0 + 3000000 ≤ s.clk → listed → (∀ e ∈ order, e.2.reserved = false) → lookup t.launches id = some { l with reserved := true }) ∧
      (s.clk < t0 + 3000000 ∨ ¬listed ∨ (∃ e ∈ order, e.2.reserved = true) → lookup t.launches id = some l)) ∧
  (∀ (s : State) (g : Nat), (s.mayLeave g = false → exec (.groupLeave g) s = .next s) ∧
    (s.mayLeave g = true → ∃ t, exec (.groupLeave g) s = .next t ∧ lookup t.groups g = none ∧
      ∀ k, k / 32768 = g → lookup t.threads k = none)) ∧
  (∀ (s : State) (hood : Nat) (cause : KillCause), (lookup s.hoods hood = none → exec (.gangKill hood cause) s = .next s) ∧
    ∀ hd, lookup s.hoods hood = some hd →
      let gone (k : Nat) : Prop := (s.group (k / 32768)).hood = hood
      let started (c : CopyRec) : Prop := (s.group c.gid).hood = hood ∧ State.copyOut c = true
      (hd.dying ≠ none → exec (.gangKill hood cause) s = .next s) ∧
      (hd.dying = none → (∃ e ∈ s.copies, started e.2) → ∃ t x, exec (.gangKill hood cause) s = .next t ∧ Kept s t ∧
        lookup t.hoods hood = some { hd with dying := some x } ∧ x.hpos ≤ cause.hpos ∧
        (∀ k th, lookup s.threads k = some th → gone k → th.hidx = 0 → lookup t.threads k = some { th with wait := .resp }) ∧
        ((keysOf s.threads).Nodup → ∀ k th, lookup s.threads k = some th → gone k → th.hidx ≠ 0 → lookup t.threads k = none) ∧
        (∀ k, ¬gone k → lookup t.threads k = lookup s.threads k) ∧
        ∀ e ∈ s.copies, (e ∈ t.copies ↔ (s.group e.2.gid).hood ≠ hood ∨ State.copyOut e.2 = true)) ∧
      (hd.dying = none → (∀ e ∈ s.copies, ¬started e.2) → ∃ t, exec (.gangKill hood cause) s = .next t ∧ lookup t.hoods hood = none ∧
        (∀ k, gone k → lookup t.threads k = none) ∧
        let n := lookupD 0 (s.launch hd.launch).kills hd.index
        let again : Prop := (s.launch hd.launch).pkt.replay = true ∧ n < 2
        (¬again → s.ctxState hd.ctx ≠ 0 → t.ctxState hd.ctx = 6) ∧
        (∀ l, again → lookup s.launches hd.launch = some l → (s.reg 0x2000 (s.fqOf hd.ctx)).getLsbD 63 = true →
          s.fqWait.any (fun w => w.fq == s.fqOf hd.ctx) = true → lookup t.launches hd.launch =
            some { l with kills := put l.kills hd.index (n + 1), relaunch := l.relaunch ++ [hd.index] }))) ∧
  (∀ (s : State) (port : Nat) (p : Bytes), port < 4 →
    let i := Instr.remoteLaunchRequest port p
    ((s.reg 0x5200 port).getLsbD 63 = false → exec i s = .next s) ∧
    ((s.reg 0x5200 port).getLsbD 63 = true →
      (s.rlEntry (leAt p 0 4) = none → Drops i s 1) ∧
      ∀ e, s.rlEntry (leAt p 0 4) = some e →
        let mac : Prop := hmacSm3 (s.rlKey e) (p.take 0x90) = (p.drop 0x90).take 32
        let new : Prop := (s.reg 0x5204 e).toNat < leAt p 8 8
        let inside : Prop := (s.reg 0x5202 (2 * e)).toNat ≤ leAt p 0x10 8 ∧ leAt p 0x10 8 < (s.reg 0x5202 (2 * e + 1)).toNat
        (¬mac → Drops i s 2) ∧ (mac → ¬new → Drops i s 3) ∧
        (mac → new → s.rlQueue e (leAt p 4 1) = none → Drops i s 4) ∧
        ∀ q, mac → new → s.rlQueue e (leAt p 4 1) = some q →
          (¬inside → Drops i s 5) ∧ (inside → s.lqSize q ≤ s.lqCount q → Drops i s 6) ∧
          ∀ s1, inside → s.lqCount q < s.lqSize q → s.appendPacket q ((p.drop 0x10).take 128) = .ok s1 →
            ∃ t, exec i s = .next t ∧ (t.reg 0x5204 e).toNat = leAt p 8 8 ∧ t.reg 0x5103 q = s1.reg 0x5103 q ∧ t.drawer = s1.drawer)) ∧
  (∀ (s : State) (port : Nat) (f : EthFrame), port < 4 →
    let i := Instr.ethRxFrame port f
    let launch : Prop := (s.reg 0x5200 port).getLsbD 63 = true ∧ part (s.reg 0x5200 port) 15 0 = f.etype
    (f.fcsOk = false → ∃ t, exec i s = .next t ∧ t.drawer = s.drawer ∧
      part (t.reg 0x9203 port) 63 32 = (part (s.reg 0x9203 port) 63 32 + 1) % 2 ^ 32) ∧
    let long : Prop := 60 ≤ f.bytes.length ∧ f.bytes.length ≤ 9212
    let pay := framePayload f.bytes
    let pair (n : Nat) : Nat := 256 * leAt pay n 1 + leAt pay (n + 1) 1
    let pause : Prop := f.etype = 0x8808 ∧ pair 0 = 0x0101
    (f.fcsOk = true → ¬long → exec i s = .next s) ∧
    (f.fcsOk = true → long → launch → exec i s = exec (.remoteLaunchRequest port pay) s) ∧
    (f.fcsOk = true → long → ¬launch → pause → ∃ t, exec i s = .next t ∧ Kept s t ∧ t.outbox = s.outbox ∧ t.threads = s.threads ∧
      ∀ j, j < 8 → lookup t.pfc (8 * port + j) =
        if (pair 2).testBit j then some (s.unitNow + (112 * pair (4 + 2 * j) + 24) / 25) else lookup s.pfc (8 * port + j)) ∧
    (f.fcsOk = true → long → ¬launch → ¬pause → (∀ r, s.rxRing port f.vid f.pcp = some r → s.storeFrame r f.bytes = none) →
      ∃ t, exec i s = .next t ∧ t.drawer = s.drawer ∧ part (t.reg 0x9203 port) 31 0 = (part (s.reg 0x9203 port) 31 0 + 1) % 2 ^ 32) ∧
    ∀ r s1, f.fcsOk = true → long → ¬launch → ¬pause → s.rxRing port f.vid f.pcp = some r → s.storeFrame r f.bytes = some s1 → exec i s = .next s1) ∧
  ∀ (s : State) (r : Nat),
    let s0 : State := { s with ethTurn := put s.ethTurn (r / 64) (r % 64 + 1) }
    (s.txReady r = false ∨ s.txPaused r = true → exec (.ethTxFrame r) s = .next s) ∧
    (s.txReady r = true → s.txPaused r = false → s0.txFrame r = none → ∃ t, exec (.ethTxFrame r) s = .next t ∧ t.outbox = s.outbox ∧ HeadMoves s t r) ∧
    ∀ s1 b, s.txReady r = true → s.txPaused r = false → s0.txFrame r = some (s1, b) → ∃ t, exec (.ethTxFrame r) s = .next t ∧
      HeadMoves s1 t r ∧ t.outbox = s1.outbox ++ if 60 ≤ b.length ∧ b.length ≤ 9212 then [.ethernet (r / 64) b] else []

/-! ### Commands of servers, routes, translation and reliability (R308 to R316, R349, R352, R353, R361, R366 to R369, R404, R434) -/

/-- R308 to R311, R313, R315, R316: SGIG, SGMX, SGCP and LSRV complete with one of the turnstile's five answers; RBIND refuses a bad
record and a bound package, reserves hop 0 here, and binds the route of one hop or asks the next hop's package; a later hop's
package reserves for the job's group and answers; a hop that has not answered for 1,024 frames fails with NOREPLY, and the route's
reservations go; RUNBIND removes the route and answers 0 when no answer of it is out. R349, R352, R353, R361, R366, R367, R369:
RMSYNC, TRREPLAY, FRZERO, RETIRE, ERRINJ, refresh frames, scrub returns and repairs. R404, R405, R434: LCADV, RBADV, MREXT and
TBSET. The layout of a control flit, the job's group at another package and the number of a hop are the model's choice (logs 11 and
75), as are the die of a frame (log 8), the BOUND answer while another binding is under way and its failing-hop byte (log 95), when the
number of a refresh round and its completed rounds count (logs 34 and 84), the rows of a refresh flit (log 11), a remap entry that cannot be
read (log 85), which frames retire by themselves and how often (log 33), when LCADV and RBADV show (log 45), and that commands are given by
an agent outside (log 29). -/
def Obligations.CommandEvents : Prop :=
  (∀ (s : State) (sg : Nat) (op : DWord), sg < 256 →
    let v := op &&& 0xC000FFFFFFFFFFFF
    let p := s.sgPart sg
    (∃ t, exec (.sgig sg op) s = .next t ∧ TurnRule s t 0x4002 sg v 384 (s.templateSum .ig p sg) (s.sgOn sg)
      (fun u => 1032192 < s.templateSum .ig p sg + u) (fun _ => False)) ∧
    (∃ t, exec (.sgmx sg op) s = .next t ∧ TurnRule s t 0x4003 sg v 384 (s.templateSum .mx p sg) (s.sgOn sg)
      (fun u => 2 ^ 20 < s.templateSum .mx p sg + u) (fun _ => False)) ∧
    (∃ t, exec (.sgcp sg op) s = .next t ∧ TurnRule s t 0x4004 sg v 192 (s.templateSum .cp p sg) (s.sgOn sg)
      (fun u => 2 ^ 20 < s.templateSum .cp p sg + u) (fun _ => False))) ∧
  (∀ (s : State) (fab : Bool) (link e : Nat) (op : DWord), link < (if fab then 16 else 96) → e < 32 →
    let v := op &&& 0xFFC0FFFFFFFFFFFF
    let sg := part v 61 54
    let inst := (if fab then 2 ^ 31 else 0) + link * 256 + e
    let rest := s.linkSum fab link fun x _ => x != e
    let own := s.linkSum fab link fun x w => x != e && s.sgPart (part w 61 54) == s.sgPart sg
    ∃ t, exec (.lsrv inst op) s = .next t ∧ TurnRule s t 0x4100 inst v 256 rest (s.sgOn sg)
      (fun u => (if fab then 1032192 else 1015808) < rest + u)
      (fun u => (if fab then part (s.reg 0x3009 (s.sgPart sg)) 20 0 else part (s.reg 0x3009 (s.sgPart sg)) 52 32) < own + u)) ∧
  (∀ (s : State) (sg : Nat) (rec : Bytes), sg < 256 →
    let key := State.routeKey sg (leAt rec 0 1)
    let n := leAt rec 1 1
    let h0 := State.hopAt rec 0
    let r := s.reserveHop h0.2.1 sg h0.2.2.1 h0.2.2.2.1 h0.2.2.2.2
    let bound : Prop := lookup s.routes key ≠ none ∨
      ∃ b ∈ s.builds, b.sg = sg ∧ b.pkg = leAt rec 0 1 ∧ b.fails = none ∧ b.left = []
    ∃ t, exec (.rbind sg rec) s = .next t ∧
      (∀ h, s.badRoute rec = some h → Result t (h * 256 + 5) ∧ OnlyResult s t) ∧
      (s.badRoute rec = none → bound → Result t 6 ∧ OnlyResult s t) ∧
      (s.badRoute rec = none → ¬bound → r.2.1 ≠ 0 → Result t (sumAnd r.2.2.1 r.2.1) ∧ OnlyResult s t) ∧
      (s.badRoute rec = none → ¬bound → r.2.1 = 0 → n = 1 → Result t 0 ∧ t.builds = s.builds ∧
        ∃ x, lookup t.routes key = some x ∧ x.link = h0.2.1 ∧ x.entry = r.2.2.2 ∧ x.peer = leAt rec 2 2) ∧
      (s.badRoute rec = none → ¬bound → r.2.1 = 0 → 1 < n → t.routes = s.routes ∧ t.cmdResult = s.cmdResult ∧
        (∃ b, t.builds = s.builds ++ [b] ∧ b.sg = sg ∧ b.pkg = leAt rec 0 1 ∧ b.hop = 1 ∧ b.since = s.tick ∧ b.fails = none) ∧
        ∃ bytes, EndsWithControl s t ⟨true, h0.2.1⟩ 4 (BitVec.ofNat 8 (State.hopAt rec 1).1 :: bytes))) ∧
  (∀ (s : State) (q : HopReq),
    let reply (t : State) (status sum : Nat) : Prop := EndsWithControl s t ⟨true, q.via⟩ 1
      ([q.sgrp, q.src, status].map (BitVec.ofNat 8) ++ toBytes 4 sum ++ toBytes 4 q.tag ++ [BitVec.ofNat 8 s.pkgId])
    ∃ t, exec (.rbindHopRequest q) s = .next t ∧
      (s.jobGroup q.fg = none → t.sys = s.sys ∧ t.hops = s.hops ∧ reply t 4 (s.linkSum true q.link fun _ _ => true)) ∧
      ∀ g, s.jobGroup q.fg = some g → let r := s.reserveHop q.link g q.hard q.q q.t
        t.sys = r.1.sys ∧ reply t r.2.1 r.2.2.1 ∧ (r.2.1 ≠ 0 → t.hops = s.hops) ∧
        (r.2.1 = 0 → lookup t.hops (State.hopKey q.src q.sgrp q.tag) = some (q.link, r.2.2.2, q.via))) ∧
  (∀ (s : State) (sg : Nat), ((∀ b ∈ s.builds, b.sg = sg → s.tick < b.since + 1024) → exec (.rbindHopTimeout sg) s = .next s) ∧
    ∀ b, s.builds = [b] → b.sg = sg → b.since + 1024 ≤ s.tick → b.who = some .outside → ∃ t,
      exec (.rbindHopTimeout sg) s = .next t ∧ t.routes = s.routes ∧
      (b.left = [] → b.first.1 < 16 → b.first.2 < 32 → t.reg 0x4100 (2 ^ 31 + b.first.1 * 256 + b.first.2) = 0) ∧
      (b.left = [] → b.hop = 1 → Result t (1 * 256 + 8) ∧ t.builds = []) ∧
      (b.left = [] → 1 < b.hop → t.cmdResult = s.cmdResult ∧ (∃ x, t.builds = [x] ∧ x.fails = some (0, 8) ∧
        x.left = ((List.range b.hop).drop 1).reverse) ∧ ∃ bytes, EndsWithControl s t ⟨true, b.first.1⟩ 5 bytes) ∧
      (∀ h x, b.left = [h] → b.fails = some x → Result t (min x.1 (2 ^ 21 - 1) * 2 ^ 32 + b.hop * 256 + x.2) ∧ t.builds = []) ∧
      ∀ h g rest, b.left = h :: g :: rest → t.cmdResult = s.cmdResult ∧ t.builds = [{ b with left := g :: rest, since := s.tick }]) ∧
  (∀ (s : State) (sg pkg : Nat), sg < 256 → ∃ t, exec (.runbind sg pkg) s = .next t ∧
    (lookup s.routes (State.routeKey sg pkg) = none ∨ 128 ≤ pkg → Result t 1 ∧ OnlyResult s t) ∧
    ∀ x, pkg < 128 → lookup s.routes (State.routeKey sg pkg) = some x → x.link < 16 → x.entry < 32 →
      lookup t.routes (State.routeKey sg pkg) = none ∧ t.reg 0x4100 (2 ^ 31 + x.link * 256 + x.entry) = 0 ∧
      (s.routeTags sg pkg = [] → Result t 0 ∧ t.unbinds = s.unbinds) ∧
      (s.routeTags sg pkg ≠ [] → t.unbinds = s.unbinds ++ [(.outside, s.routeTags sg pkg)])) ∧
  (∀ (s : State) (c : Nat), c < 65536 →
    let bad (e : RemapEntry) : Prop := remapBad (s.remapBytes c e.index) e = true ∨
      ∃ x ∈ s.remapTable c, x.index < e.index ∧ remapMeets x e = true
    ∃ t, exec (.rmsync c) s = .next t ∧
      ((∀ e ∈ s.remapTable c, ¬bad e) → s.remapLost c = none → Result t 0 ∧ lookupD [] t.remap c = s.remapTable c ∧ t.l2 = s.l2 ∧ Kept s t) ∧
      (∀ j, (∀ e ∈ s.remapTable c, ¬bad e) → s.remapLost c = some j → j < 1024 →
        Result t (j * 2 ^ 16 + 3) ∧ Kept s t ∧ t.remap = s.remap ∧ t.l1 = s.l1) ∧
      ∀ e before after, s.remapTable c = before ++ e :: after → (∀ x ∈ before, ¬bad x) → bad e → e.index < 1024 → s.remapLost c = none →
        Result t (e.index * 2 ^ 16 + 3) ∧ Kept s t ∧ t.remap = s.remap ∧ t.l1 = s.l1 ∧ (s.struck = [] → OnlyResult s t)) ∧
  (∀ (s : State) (q : Nat) (op : DWord), q < 64 →
    let here (e : Nat × FaultRec) : Prop := e.1 = part op 31 0 ∧ e.2.fq = q
    ∃ t, exec (.trreplay q op) s = .next t ∧
      ((∀ e ∈ s.faults, ¬here e) → Result t 1 ∧ OnlyResult s t) ∧
      ∀ before e after, s.faults = before ++ e :: after → (∀ x ∈ before, ¬here x) → here e →
        (op.getLsbD 32 = true → s.ctxState e.2.ctx ≠ 0 → t.ctxState e.2.ctx = 6) ∧
        ∀ k th f, op.getLsbD 32 = false → e.2.joined = [.thread k] → lookup s.threads k = some th → th.wait = .fault f →
          Result t 0 ∧ lookup t.faults e.1 = none ∧ lookup t.threads k = some { th with wait := .none } ∧ Kept s t ∧
            ∀ c ∈ t.tc, c ∈ s.tc ∧ ¬(c.asid = e.2.asid ∧ c.base / 4096 ≤ e.2.page ∧ 4096 * e.2.page < c.base + c.size)) ∧
  (∀ (s : State) (op : DWord),
    let f0 := part op 45 12
    let n := part op 11 0 + 1
    ∃ t, exec (.frzero op) s = .next t ∧
      ((∃ j, j < n ∧ s.frameReach 0 true (f0 + j) = false) → Result t (2 ^ 64 - 1) ∧ OnlyResult s t) ∧
      ((∀ j, j < n → s.frameReach 0 true (f0 + j) = true) → Result t 0 ∧ t.threads = s.threads ∧
        ∀ j a, j < n → (∀ i m, i < n → m < 8 → a ≠ s.tagAddr (f0 + i) + m) → 4096 * (f0 + j) ≤ a → a < 4096 * (f0 + j) + 4096 →
          t.drawer.byte a = 0)) ∧
  (∀ (s : State) (op : DWord), let f := part op 45 12
    ∃ t, exec (.retire op) s = .next t ∧
      (s.retireSlot (s.frameDie f) = none → Result t 1 ∧ OnlyResult s t) ∧
      ∀ i, s.retireSlot (s.frameDie f) = some i → Result t 0 ∧
        (t.frameTag f).getLsbD 46 = true ∧ (t.reg 0x7002 i).getLsbD 63 = true ∧ part (t.reg 0x7002 i) 45 12 = f) ∧
  (∀ (s : State) (op : DWord), ∃ t, exec (.errinj op) s = .next t ∧
    (s.lifeCycle ≠ 1 → Result t (2 ^ 64 - 1) ∧ OnlyResult s t) ∧
    (s.lifeCycle = 1 → Result t 0 ∧ t.inject = s.inject ++ [⟨part op 63 60, decide (part op 59 58 = 2), part op 45 0⟩] ∧ Kept s t)) ∧
  (∀ (s : State) (l : Nat),
    let f := s.tick % 250000
    let waiting (t : State) : List Flit := (t.link ⟨false, l⟩).maint
    ∃ t, exec (.refreshFrame l) s = .next t ∧ t.drawer = s.drawer ∧ t.threads = s.threads ∧
      (131072 ≤ f ∨ l ∉ s.drawers → waiting t = waiting s ∧ t.sys = s.sys) ∧
      (f < 131072 → l ∈ s.drawers → ∃ fs : List Flit, fs.length = 8 ∧ waiting t = waiting s ++ fs ∧ (∀ x ∈ fs, cmdBits x 127 124 = 5) ∧
        (∀ j i x, fs[j]? = some x → i < 4 → leAt x.data (4 * i) 4 = 32 * f + 4 * j + i) ∧
        part (t.reg 0x7005 l) 63 60 = s.tick / 250000 % 16 ∧
        (f = 131071 → part (t.reg 0x7005 l) 31 0 = (part (s.reg 0x7005 l) 31 0 + 1) % 2 ^ 32))) ∧
  (∀ (s : State) (l line : Nat),
    let pa := s.channelPa l (128 * line)
    let own := pa / 128 * 128
    exec (.scrubReturn l line .clean) s = .next s ∧
    (l ∉ s.drawers → ∀ st, exec (.scrubReturn l line st) s = .next s) ∧
    (l ∈ s.drawers →
      (let i := 16 * State.linkDie (s.channelOf pa) + 13
        ∃ t, exec (.scrubReturn l line .corrected) s = .next t ∧ t.scrubFix = s.scrubFix.filter (· != (l, line)) ++ [(l, line)] ∧
          (l, line, false) ∈ t.struck ∧
          part (t.reg 0x7000 i) 31 0 = (part (s.reg 0x7000 i) 31 0 + 1) % 2 ^ 32) ∧
      (let i := 16 * State.linkDie (s.channelOf own) + 13
        ∃ t, exec (.scrubReturn l line .uncorrectable) s = .next t ∧ (s.drawer.poisoned own 128 = true → t = s) ∧
          (s.drawer.poisoned own 128 = false → (∀ e ∈ s.l2, e.2.pa = own → e.2.poison = true) → (s.frameTag (own / 4096)).getLsbD 63 = false →
            t.drawer.poisoned own 128 = true ∧
            part (t.reg 0x7000 i) 63 32 = (part (s.reg 0x7000 i) 63 32 + 1) % 2 ^ 32)))) ∧
  (∀ (s : State) (l : Nat), ∃ t, exec (.scrubRepair l) s = .next t ∧ (∀ a, t.drawer.byte a = s.drawer.byte a) ∧
    ((∀ e ∈ s.scrubFix, e.1 ≠ l) → t = s) ∧
    ∀ line rest, s.scrubFix = (l, line) :: rest → t.scrubFix = rest ∧
      ∀ e ∈ t.struck, e ∈ s.struck ∧ s.channelPa e.1 (128 * e.2.1) ≠ s.channelPa l (128 * line) ∨ s.inject ≠ []) ∧
  (∀ (s : State) (op : DWord), ∃ t, exec (.lcadv op) s = .next t ∧
    (part op 1 0 ≤ s.lifeCycle → Result t 1 ∧ OnlyResult s t) ∧
    (s.lifeCycle < part op 1 0 → s.lcNext = none → Result t 0 ∧ t.lcNext = some (part op 1 0) ∧ Kept s t)) ∧
  (∀ (s : State) (op : DWord), ∃ t, exec (.rbadv op) s = .next t ∧
    (part op 5 0 ≤ part (s.reg 0xA003 0) 5 0 → Result t 1 ∧ OnlyResult s t) ∧
    (part (s.reg 0xA003 0) 5 0 < part op 5 0 → Result t 0 ∧ part (t.reg 0xA003 0) 5 0 = part op 5 0 ∧ t.drawer = s.drawer)) ∧
  (∀ (s : State) (op : DWord), ∃ t, exec (.tbset op) s = .next t ∧
    (s.liveContexts = [] → (∀ n, n < 16 → s.linkUp ⟨true, n⟩ = false) →
      Result t 0 ∧ t.tickSet = some (part op 47 0) ∧ t.tick = s.tick ∧ Kept s t) ∧
    ((∃ n, n < 16 ∧ s.linkUp ⟨true, n⟩ = true) → Result t (2 ^ 64 - 1) ∧ OnlyResult s t)) ∧
  ∀ (s : State) (i : Nat) (d : Bytes), ∃ t, exec (.mrext i d) s = .next t ∧
    (i < 6 ∨ 16 ≤ i → Result t (2 ^ 64 - 1) ∧ OnlyResult s t) ∧
    (6 ≤ i → i < 16 → Result t 0 ∧ t.measured i = sm3 (s.measured i ++ d) ∧ t.drawer = s.drawer ∧
      ∀ j, j < 16 → j ≠ i → t.measured j = s.measured j)

/-! ### Links and rings (R303, R306, R366, R371 to R390, R420, R427) -/

/-- R303, R306, R371 to R373, R376 to R379, R382 to R384: TTCOMMIT and the far end's part of it, a table taking effect, slots,
commands at the drawer, flits, hand-back and rejoining, windows, links that go down and come up. R388, R389, R420: writes and
steps of HEAT, rotation, settling and the monitor. The order of TTCOMMIT's checks and of requests that cross, and the eight frames of a
fabric commit and of a rejoin, are the model's choice (log 10), and so are the codes and bytes of the control flits and of the rows and
statuses of a maintenance position (log 11), that a link's commands are given by an agent outside (log 29), the response to a line with
poison (log 74), the first maintenance slot of a transmit ROTATE and its code 9 (log 90), settling with a HEAT change on its way (log 89)
and the readings training leaves (log 88). -/
def Obligations.LinkEvents : Prop :=
  (∀ (s : State) (l : LinkId),
    let kinds (k : Nat) : Nat := ((List.range 256).filter fun p => part (shadowAt s l p) 63 61 = k).length
    let maint : Prop := kinds 2 = if l.fab then 4 else 8
    let far : Prop := l.fab = false ∧ kinds 4 ≠ 0
    let own := (List.range 256).map (shadowAt s l)
    let idle : Prop := (s.link l).shadowAsk = none ∧ (s.link l).commit = none
    (¬idle → ∃ t, exec (.ttcommit l) s = .next t ∧ Kept s t ∧ (t.link l).nextCommit = (s.link l).nextCommit ++ [.outside] ∧
      (t.link l).commit = (s.link l).commit ∧ (t.link l).shadowAsk = (s.link l).shadowAsk) ∧
    (idle → ¬maint → Answers (.ttcommit l) s 1 (OnlyResult s)) ∧
    (idle → maint → far → Answers (.ttcommit l) s 2 (OnlyResult s)) ∧
    (idle → maint → ¬far → s.linkUp l = false → Answers (.ttcommit l) s 4 (OnlyResult s)) ∧
    (idle → maint → ¬far → s.linkUp l = true → l.fab = false → Answers (.ttcommit l) s 0 fun t => Kept s t ∧ t.threads = s.threads ∧
      (t.link l).commit = some (s.tick + 1) ∧ (t.link l).adopt = own) ∧
    (idle → maint → s.linkUp l = true → l.fab = true → ∃ t, exec (.ttcommit l) s = .next t ∧ Kept s t ∧
      EndsWithControl s t l 3 (toBytes 31 0 ++ State.shadowBytes own) ∧ (t.link l).shadowAsk = some s.tick ∧ (t.link l).asked = own)) ∧
  (∀ (s : State) (l : LinkId) (far : List DWord),
    let clash := Clash (fun p => part (shadowAt s l p) 63 61) fun p => part (far.getD p 0) 63 61
    let own := (List.range 256).map (shadowAt s l)
    let waits : Prop := (s.link l).commit ≠ none ∨ ((s.link l).shadowAsk ≠ none ∧ s.pkgId < part (linkReg s l 0 0) 30 24)
    ∃ t, exec (.ttcommitShadowRequest l far) s = .next t ∧ Kept s t ∧ t.threads = s.threads ∧
      (waits → (t.link l).heldAsk = some far ∧ (t.link l).commit = (s.link l).commit ∧ (t.link l).maint = (s.link l).maint) ∧
      (¬waits → EndsWithControl s t l 2 (toBytes 7 0 ++ toBytes 24 (s.tick + 8) ++ State.shadowBytes own) ∧
        (clash ∨ l.fab = false ∨ s.linkUp l = false → (t.link l).commit = none) ∧
        (¬clash → l.fab = true → s.linkUp l = true → (t.link l).commit = some (s.tick + 8) ∧ (t.link l).adopt = own))) ∧
  (∀ (s : State) (l : LinkId), (∀ t0, (s.link l).shadowAsk = some t0 → s.tick < t0 + 1024) → exec (.ttcommitTimeout l) s = .next s) ∧
  (∀ (s : State) (l : LinkId) (t0 : Nat), (s.link l).shadowAsk = some t0 → t0 + 1024 ≤ s.tick → (s.link l).commitWho = .outside →
    (s.link l).nextCommit = [] → Answers (.ttcommitTimeout l) s 3 fun t => Kept s t ∧ (t.link l).shadowAsk = none ∧
      ((s.link l).heldAsk = none → (t.link l).commit = (s.link l).commit) ∧
      (∀ far, (s.link l).heldAsk = some far → (s.link l).commit = none →
        EndsWithControl s t l 2 (toBytes 7 0 ++ toBytes 24 (s.tick + 8) ++ State.shadowBytes ((List.range 256).map (shadowAt s l))))) ∧
  (∀ (s : State) (l : LinkId), (∀ f, (s.link l).commit = some f → s.tick < f) → exec (.timetableTakeEffect l) s = .next s) ∧
  (∀ (s : State) (l : LinkId) (f : Nat), l.n < 128 → (s.link l).commit = some f → f ≤ s.tick →
    let x := (s.link l).adopt
    ∃ t, exec (.timetableTakeEffect l) s = .next t ∧ t.drawer = s.drawer ∧
      ((s.link l).heldAsk = none → (s.link l).nextCommit = [] → (t.link l).commit = none) ∧
      (∀ p, p < 256 → forceAt t l p = x.getD p 0 ∧ shadowAt t l p = shadowAt s l p) ∧
      ∀ j, j < 4 → linkReg t l 0x12 j = BitVec.ofNat 64
        (((mapOf fun p => part (x.getD p 0) 63 61).filter fun p => p / 64 = j).map fun p => 2 ^ (p % 64)).sum) ∧
  (∀ (s : State) (r : RingId) (op : DWord), r.ring < 16 →
    let sum : Int := heatOf s r + (op.setWidth 13).toInt
    let v := (max 0 (min 4095 sum)).toNat
    (8192 ≤ op.toNat → Refused (.ringstep r op) s) ∧
    (op.toNat < 8192 → Answers (.ringstep r op) s (v + (if sum < 0 then 8192 else 0) + (if 4095 < sum then 16384 else 0)) fun t =>
      Changes s t r v ∧ (sum < 0 → part (ringReg t r) 62 62 = 1) ∧ (4095 < sum → part (ringReg t r) 63 63 = 1))) ∧
  (∀ (s : State) (r : RingId) (v : DWord), r.ring < 16 → ∃ t, exec (.heatWrite r v) s = .next t ∧ Changes s t r (part v 11 0) ∧
    part (ringReg t r) 63 63 = (if v.getLsbD 63 then 0 else part (ringReg s r) 63 63) ∧
    part (ringReg t r) 62 62 = (if v.getLsbD 62 then 0 else part (ringReg s r) 62 62)) ∧
  (∀ (s : State) (r : RingId), ((∀ f, (s.ring r).effect = some f → s.clk < f) → exec (.heatTakeEffect r) s = .next s) ∧
    ∀ f, (s.ring r).effect = some f → f ≤ s.clk → ∃ t, exec (.heatTakeEffect r) s = .next t ∧ Kept s t ∧ (t.ring r).effect = none ∧
      (t.ring r).settleEnd = (s.ring r).settleEnd ∧ (t.ring r).level < 1024) ∧
  (∀ (s : State) (r : RingId), r.ring < 16 → ((∀ n, (s.ring r).settleEnd = some n → s.clk < n) → exec (.settleEnd r) s = .next s) ∧
    ∀ n, (s.ring r).settleEnd = some n → n ≤ s.clk → ∃ t, exec (.settleEnd r) s = .next t ∧ part (ringReg t r) 61 61 = 0 ∧
      heatOf t r = heatOf s r ∧ (t.ring r).settleEnd = none ∧ t.drawer = s.drawer) ∧
  (∀ (s : State) (r : RingId) (x : Nat), r.ring < 16 → x < 1024 → ∃ t, exec (.monUpdate r x) s = .next t ∧ Kept s t ∧
    (t.ring r).level = x ∧ (t.ring r).readings = (s.ring r).readings ∧ (t.ring r).effect = (s.ring r).effect ∧
    (t.ring r).settleEnd = (s.ring r).settleEnd) ∧
  (∀ (s : State) (r : RingId) (x : RingState), r.ring < 16 → r.link.n < 96 → s.rings = [(ringKey r, x)] → x.level < 1024 →
    (∀ y ∈ x.readings, y < 1024) → (∀ c ∈ s.cores, c.2.kept = []) →
    ((s.clk + 1 + s.frameOff) % 384 ≠ 0 ∨ part (ringReg s r) 61 61 = 1 → s.nextCycle.ring r = x ∧ ringReg s.nextCycle r = ringReg s r) ∧
    ((s.clk + 1 + s.frameOff) % 384 = 0 → part (ringReg s r) 61 61 = 0 →
      (x.readings.length < 15 → (s.nextCycle.ring r).readings = x.readings ++ [x.level] ∧ ringReg s.nextCycle r = ringReg s r) ∧
      ∀ y rest, x.readings = y :: rest → x.readings.length = 16 → (s.nextCycle.ring r).readings = rest ++ [x.level] ∧
        heatOf s.nextCycle r = heatOf s r ∧ part (ringReg s.nextCycle r) 25 16 = (rest.sum + x.level) / 16)) ∧
  (∀ (s : State) (l : LinkId) (op : DWord),
    let busy : Prop := s.linkUp l = false ∨ (s.link l).outDir.wlOut ≠ none ∨ (s.link l).inDir.wlOut ≠ none
    let d : Dir := if op.getLsbD 0 then .inbound else .outbound
    let least := s.slotNow + if op.getLsbD 0 then 1 else 256
    (2 ≤ op.toNat → Refused (.rotate l op) s) ∧
    (op.toNat < 2 → busy → Answers (.rotate l op) s 1 (OnlyResult s)) ∧
    (op.toNat < 2 → ¬busy → (∃ p, p < 256 ∧ part (forceAt s l p) 63 61 = 2) → ∃ t n, exec (.rotate l op) s = .next t ∧ Kept s t ∧
      (t.link l).rotate = (s.link l).rotate ++ [(d, n, .outside)] ∧ least ≤ n ∧ part (forceAt s l (n % 256)) 63 61 = 2 ∧
      (∀ m, least ≤ m → m < n → part (forceAt s l (m % 256)) 63 61 ≠ 2) ∧
      (d = .inbound → (t.link l).maint = (s.link l).maint) ∧
      (d = .outbound → EndsWithControl s t l 9 (toBytes 7 0 ++ toBytes 8 n)))) ∧
  (∀ (s : State) (l : LinkId) (d : Dir),
    ((∀ e ∈ (s.link l).rotate, e.1 = d → s.slotNow < e.2.1) → exec (.rotateTakeEffect l d) s = .next s) ∧
    ∀ n, (s.link l).rotate = [(d, n, .outside)] → n ≤ s.slotNow →
      let ring (i : Nat) : RingId := ⟨l, if d = .outbound then i else 8 + i⟩
      let passes : Prop := ∃ i, i < 8 ∧ 4095 < codeInForce s (ring i) + 1200
      (passes → Answers (.rotateTakeEffect l d) s 1 fun t => Kept s t ∧ (t.link l).rotate = []) ∧
      (¬passes → Answers (.rotateTakeEffect l d) s 0 fun t => (t.link l).rotate = [] ∧ t.drawer = s.drawer ∧
        (t.link l).lanes = (if d = .inbound then (s.link l).lanes.map fun w => (w + 1) % 8 else (s.link l).lanes) ∧ ∀ i, i < 8 →
        heatOf t (ring i) = min 4095 (heatOf s (ring i) + 1200) ∧
        part (ringReg t (ring i)) 58 56 = (part (ringReg s (ring i)) 58 56 + 1) % 8 ∧ part (ringReg t (ring i)) 61 61 = 1 ∧
        (t.ring (ring i)).settleEnd = some (max ((s.ring (ring i)).settleEnd.getD 0) (s.clk + 32 * 384)))) ∧
  (∀ (s : State) (l : LinkId) (p : Nat), p < 256 →
    let i := Instr.linkSlot l p
    let kind := part (forceAt s l p) 63 61
    let free : Prop := s.linkUp l = true ∧ s.slotFits l p = true
    let carries (k : Nat) : Prop := free ∧ ((k = 1 ∧ (kind = 1 ∨ kind = 3) ∧ s.posUsable l p = true) ∨ (k = 2 ∧ kind = 2) ∨ (k = 4 ∧ kind = 4))
    let fresh : Prop := (∀ x ∈ (s.link l).queue, x.pos = none) ∧ State.unacked (s.link l) < 1024
    let numbered (t : State) (x : Txn) : Prop := (t.link l).seqOut = ((s.link l).seqOut + 1) % 65536 ∧
      ∃ y, (t.link l).flight = (s.link l).flight ++ [y] ∧ y.tag = x.tag ∧ y.pos = some p ∧ y.tick = s.tick
    (¬free ∨ kind = 0 ∨ ((kind = 1 ∨ kind = 3) ∧ s.posUsable l p = false) → ∃ t, exec i s = .next t ∧ Kept s t ∧
      (t.link l).queue = (s.link l).queue ∧ (t.link l).maint = (s.link l).maint ∧ (t.link l).replies = (s.link l).replies ∧
      t.outbox = s.outbox ∧ t.servers = s.servers ∧ (t.link l).last = some (256 * s.tick + p)) ∧
    (∀ x rest, carries (State.flitClass x) → (s.link l).queue = x :: rest → x.pos ≠ none → ∃ t, exec i s = .next t ∧ Kept s t ∧
      Leaves s t l x.tag (part x.flit.hdr 63 48) x.flit ∧ (t.link l).queue = rest ∧ (t.link l).seqOut = (s.link l).seqOut ∧
      t.servers = s.servers) ∧
    (∀ x, carries 1 → fresh → (s.link l).queue = [x] → (∀ e, e < 32 → s.srvInstalled (linkSrv l e) = false) →
      (l.fab = false ∨ s.ctxClock x.ctx = none → ∃ t, exec i s = .next t ∧ Kept s t ∧ Leaves s t l x.tag (s.link l).seqOut x.flit ∧
        (t.link l).queue = [] ∧ t.servers = s.servers ∧ numbered t x) ∧
      ∀ fg v, l.fab = true → s.ctxClock x.ctx = some (fg, v) → v ≠ lookupD (List.replicate 16 0) (s.link l).lastClock fg →
        flitKind x.flit = 1 → isRows x.flit = false → ∃ t, exec i s = .next t ∧ Kept s t ∧
          (t.link l).queue = [{ x with paid := min x.paid 1 }] ∧ lookup (t.link l).lastClock fg = some v ∧
          Leaves s t l x.tag (s.link l).seqOut ⟨4 * 2 ^ 28, 0, State.clockBytes fg v⟩) ∧
    (∀ x rest e, carries 1 → fresh → kind = 3 → (s.link l).queue = x :: rest → l.fab = false → e = part (forceAt s l p) 4 0 →
      s.srvInstalled (linkSrv l e) = true → s.entryGroup l e = x.sgrp → s.heldNow (linkSrv l e) = false ∨ x.paid ≠ 0 →
      ∃ t, exec i s = .next t ∧ Kept s t ∧ (t.link l).queue = rest ∧ Leaves s t l x.tag (s.link l).seqOut x.flit ∧
        (x.paid = 0 → t.srv (linkSrv l e) = (s.charge (linkSrv l e) 1).srv (linkSrv l e)) ∧
        (x.paid ≠ 0 → t.servers = s.servers)) ∧
    (∀ f rest, carries 2 → fresh → (s.link l).maint = f :: rest → flitKind f = 3 ∨ isRows f = true →
      Txn.new 0 0 (cmdBits f 84 64) f s.tick ∉ (s.link l).queue → ∃ t, exec i s = .next t ∧ Kept s t ∧ (t.link l).maint = rest ∧
      (t.link l).queue = (s.link l).queue ∧ t.servers = s.servers ∧ Leaves s t l (cmdBits f 84 64) (s.link l).seqOut f) ∧
    (∀ line rest, carries 2 → fresh → l.fab = false → (s.link l).maint = [] → s.scrubFix = (l.n, line) :: rest → ∃ t,
      exec i s = .next t ∧ t.scrubFix = rest ∧ t.outbox = s.outbox ∧ ∀ a, t.drawer.byte a = s.drawer.byte a) ∧
    (∀ x rest, carries 4 → fresh → (s.link l).replies = x :: rest → x.due ≤ s.unitNow → x.pos = none → s.ctxClock x.ctx = none →
      x ∉ (s.link l).queue → ∃ t, exec i s = .next t ∧ Kept s t ∧ (t.link l).replies = rest ∧ t.servers = s.servers ∧
        (t.link l).queue = (s.link l).queue ∧ Leaves s t l x.tag (s.link l).seqOut x.flit) ∧
    (carries 1 → (s.link l).queue = [] → (s.link l).nak = true ∨ (s.link l).ackOut ≠ ((s.link l).seqIn + 65535) % 65536 ∨
        (s.link l).inDir.handed ≠ 0 →
      ∃ t, exec i s = .next t ∧ Kept s t ∧ t.servers = s.servers ∧
        Leaves s t l 0 (s.link l).seqOut ⟨0, 0, List.replicate 128 0⟩ ∧ (t.link l).seqOut = (s.link l).seqOut)) ∧
  (∀ (s : State) (link : Nat) (f : Flit),
    let addr := cmdBits f 34 0
    let pa := s.channelPa link addr
    let line := pa / 128 * 128
    let n := min (cmdBits f 119 112 % 128 + 1) (128 - addr % 128)
    let i := Instr.drawerCommandExecute link f
    let crc : Prop := part f.hdr 15 0 = (flitCrc f).toNat
    (link ∉ s.drawers → exec i s = .next s) ∧
    (link ∈ s.drawers → ¬crc ∨ flitReserved f = true → ∃ t r, exec i s = .next t ∧ Kept s t ∧ t.outbox = s.outbox ++ [.drawer link r] ∧
      flitKind r = 0 ∧ part r.hdr 31 31 = 1 ∧ part r.hdr 47 32 = (part f.hdr 63 48 + 65535) % 65536) ∧
    (link ∈ s.drawers → crc → flitReserved f = false → flitKind f ≠ 1 → exec i s = .next s) ∧
    (link ∈ s.drawers → crc → flitReserved f = false → flitKind f = 1 → f.data.length = 128 →
      let own := f.cmd.getLsbD 85
      let broken := s.drawer.poisoned line 128 || s.errorAt line == some true
      let replies (t : State) (r : Flit) (bad : Bool) : Prop := t.outbox = s.outbox ++ [.drawer link r] ∧ flitKind r = 2 ∧
        part r.hdr 15 0 = (flitCrc r).toNat ∧ part r.hdr 47 32 = part f.hdr 63 48 ∧ part r.hdr 31 31 = 0 ∧ cmdBits r 84 64 = cmdBits f 84 64 ∧ r.cmd.getLsbD 85 = (own || bad)
      (cmdBits f 127 124 = 1 → ∃ t r, exec i s = .next t ∧ Kept s t ∧ replies t r broken ∧ r.data = s.drawer.read line 128) ∧
      (cmdBits f 127 124 = 2 → ∃ t r, exec i s = .next t ∧ replies t r false ∧
        (∀ j, j < 128 → t.drawer.byte (line + j) = f.data.getD j 0) ∧
        (∀ a, a < line ∨ line + 128 ≤ a → t.drawer.byte a = s.drawer.byte a) ∧ t.drawer.poisoned line 128 = own) ∧
      (cmdBits f 127 124 = 3 → ∃ t r, exec i s = .next t ∧ replies t r false ∧
        (∀ j, j < n → t.drawer.byte (pa + j) = f.data.getD (addr % 128 + j) 0) ∧
        (∀ a, a < pa ∨ pa + n ≤ a → t.drawer.byte a = s.drawer.byte a) ∧ (own = true → t.drawer.poisoned line 128 = true)) ∧
      (cmdBits f 127 124 = 4 → ∃ t r, exec i s = .next t ∧ replies t r broken ∧
        (∀ j, j < n → r.data.getD (addr % 128 + j) 0 = s.drawer.byte (pa + j)) ∧
        (broken = true → t.drawer = s.drawer) ∧
        (broken = false → (∀ j, j < n → t.drawer.byte (pa + j) = (State.atomicBytes f n (s.drawer.read pa n)).getD j 0) ∧
          ∀ a, a < pa ∨ pa + n ≤ a → t.drawer.byte a = s.drawer.byte a)) ∧
      (cmdBits f 127 124 = 5 → ∃ t r, exec i s = .next t ∧ Kept s t ∧ replies t r false ∧
        ∀ j, j < 16 → (r.data.getD j 0).toNat = s.scrubCode link ((s.scrubLines link f).getD j 0)))) ∧
  (∀ (s : State) (l : LinkId) (f : Flit), (s.linkUp l = false → exec (.flitReceive l f) s = .next s) ∧
    (s.linkUp l = true → l.n < 128 →
      let i := Instr.flitReceive l f
      let crc : Prop := part f.hdr 15 0 = (flitCrc f).toNat
      let seq := part f.hdr 63 48
      (¬crc → ∃ t, exec i s = .next t ∧ (t.link l).nak = true ∧ (t.link l).seqIn = (s.link l).seqIn ∧ t.inbox = s.inbox) ∧
      (crc → flitReserved f = true → ∃ t, exec i s = .next t ∧ (t.link l).nak = true ∧ (t.link l).seqIn = (s.link l).seqIn ∧
        t.inbox = s.inbox ∧ part (linkReg t l 0 0) 23 16 = min 255 (part (linkReg s l 0 0) 23 16 + 1)) ∧
      (crc → flitReserved f = false → Plain f → flitKind f ≠ 0 → seq ≠ (s.link l).seqIn → (s.link l).seqIn < 65536 → ∃ t,
        exec i s = .next t ∧ (t.link l).seqIn = (s.link l).seqIn ∧ t.inbox = s.inbox ∧ (t.link l).ackIn = part f.hdr 47 32 ∧
        ((seq + 65536 - (s.link l).seqIn) % 65536 < 32768 → (t.link l).nak = true)) ∧
      (crc → flitReserved f = false → Plain f → flitKind f = 1 → l.fab = true → cmdBits f 127 124 ≠ 0 → seq = (s.link l).seqIn →
        ∃ t q, exec i s = .next t ∧ (t.link l).seqIn = (seq + 1) % 65536 ∧ t.inbox = s.inbox ++ [.domainRequest q] ∧ q.link = l.n ∧
          q.tag = cmdBits f 84 64 ∧ q.ctx = cmdBits f 111 96 ∧ q.src = cmdBits f 95 89 ∧ q.poison = f.cmd.getLsbD 85) ∧
      (crc → flitReserved f = false → Plain f → flitKind f = 0 → ∃ t, exec i s = .next t ∧ (t.link l).seqIn = (s.link l).seqIn ∧
        (t.link l).ackIn = part f.hdr 47 32 ∧ t.inbox = s.inbox) ∧
      (crc → flitReserved f = false → Plain f → flitKind f = 3 → leAt f.data 0 1 = 9 → seq = (s.link l).seqIn → ∃ t,
        exec i s = .next t ∧ (t.link l).farTurns = (s.link l).farTurns ++ [leAt f.data 8 8] ∧ t.inbox = s.inbox) ∧
      ∀ x r, crc → flitReserved f = false → Plain f → flitKind f = 2 → l.fab = false → seq = (s.link l).seqIn →
        (s.link l).flight = [x] → flitKind x.flit = 1 → isRows x.flit = false → x.tag % 2 ^ 21 = cmdBits f 84 64 → lookup s.reqs x.tag = some r →
        r.fill = some false → ∃ t, exec i s = .next t ∧ (t.link l).flight = [] ∧ (t.link l).seqIn = (seq + 1) % 65536 ∧
          lookup t.reqs x.tag = some { r with fill := some true })) ∧
  (∀ (s : State) (l : LinkId) (d : Dir) (wl n : Nat), l.n < 128 →
    let skip : Prop := s.linkUp l = false ∨ (dirAt s l d).wlOut ≠ none ∨ 8 ≤ wl
    let before := part (linkReg s l 0x20 wl) 47 32
    (skip → exec (.handBack l d wl n) s = .next s) ∧
    (¬skip → ∃ t, exec (.handBack l d wl n) s = .next t ∧ (dirAt t l d).wlOut = some wl ∧ isDegraded t l d = true ∧
      (dirAt t l d).since = s.tick ∧ (dirAt t l d).slot = n ∧
      (d = .inbound → (t.link l).queue = (if l.fab then [] else (s.link l).flight.map sentAgain) ++ (s.link l).queue) ∧
      (d = .inbound → part (linkReg t l 0x20 wl) 63 62 = 3 ∧ part (linkReg t l 0x20 wl) 47 32 = (before + 1) % 65536) ∧
      (d = .outbound → (s.link l).ackIn < 65536 → (t.link l).queue =
        ((s.link l).flight.filter (notAcked (s.link l).ackIn)).map sentAgain ++ (s.link l).queue) ∧
      t.outbox = s.outbox ∧ t.drawer = s.drawer ∧ t.threads = s.threads)) ∧
  (∀ (s : State) (l : LinkId) (d : Dir) (wl : Nat),
    ((dirAt s l d).wlOut ≠ some wl ∨ (dirAt s l d).trained = true → exec (.wavelengthTrained l d wl) s = .next s) ∧
    ((dirAt s l d).wlOut = some wl → (dirAt s l d).trained = false → ∃ t, exec (.wavelengthTrained l d wl) s = .next t ∧
      (dirAt t l d).trained = true ∧ (dirAt t l d).rejoin = some (max (s.tick + 8) ((dirAt s l d).rejoin.getD 0)) ∧
      (dirAt t l d).wlOut = some wl ∧ isDegraded t l d = isDegraded s l d ∧
      EndsWithControl s t l 8 ([BitVec.ofNat 8 wl, if d = .outbound then 1 else 0] ++ toBytes 5 0 ++ toBytes 8 (s.tick + 8))) ∧
    ((∀ f, (dirAt s l d).wlOut = some wl → (dirAt s l d).rejoin = some f → s.tick < f) →
      exec (.wavelengthRejoin l d wl) s = .next s) ∧
    ∀ f, (dirAt s l d).wlOut = some wl → (dirAt s l d).rejoin = some f → f ≤ s.tick → (s.link l).stalled = [] → wl < 8 →
      ∃ t, exec (.wavelengthRejoin l d wl) s = .next t ∧ (dirAt t l d).wlOut = none ∧ isDegraded t l d = false ∧
        t.drawer = s.drawer ∧ t.threads = s.threads ∧
        (d = .inbound → part (linkReg t l 0x20 wl) 63 62 = 0 ∧ part (linkReg t l 0x20 wl) 31 0 = 0)) ∧
  (∀ (s : State) (l : LinkId) (wl : Nat),
    let ended : Prop := s.linkUp l = true ∧ part (linkReg s l 0x20 wl) 63 63 = 0 ∧
      lookupD 0 (s.link l).windows wl + 2 ^ (part (linkReg s l 0x21 0) 63 60 + 10) ≤ s.tick
    (¬ended ∨ 8 ≤ wl → exec (.wlthrWindowEnd l wl) s = .next s) ∧
    (ended → wl < 8 → ∃ t, exec (.wlthrWindowEnd l wl) s = .next t ∧ part (linkReg t l 0x20 wl) 31 0 = 0 ∧
      part (linkReg t l 0x20 wl) 63 32 = part (linkReg s l 0x20 wl) 63 32 ∧ lookup (t.link l).windows wl = some s.tick)) ∧
  (∀ (s : State) (l : LinkId), (s.linkUp l = false → exec (.linkDown l) s = .next s) ∧
    (s.linkUp l = true → ∃ t, exec (.linkDown l) s = .next t ∧ part (linkReg t l 0 0) 63 60 = 12 ∧ (t.link l).downAt = some s.tick ∧
      (t.link l).flight = [] ∧ (t.link l).outDir.wlOut = none ∧ (t.link l).inDir.wlOut = none ∧
      (∀ w, w < 8 → part (linkReg t l 0x20 w) 63 62 = 0) ∧
      ((s.link l).stalled = [] → (t.link l).queue = (s.link l).flight.map sentAgain ++ (s.link l).queue ∧ t.reqs = s.reqs ∧
        t.drawer = s.drawer))) ∧
  (∀ (s : State) (l : LinkId),
    ((∀ f, (s.link l).downAt = some f → part (linkReg s l 0 0) 63 62 = 3 → s.tick < f + 78125) →
      exec (.linkDownTimeout l) s = .next s) ∧
    ∀ f tag r, (s.link l).downAt = some f → part (linkReg s l 0 0) 63 62 = 3 → f + 78125 ≤ s.tick → l.fab = true →
      s.reqs = [(tag, r)] → s.copies = [] → r.served = false → r.link = some l.n →
      (r.op = .load → ∃ t, exec (.linkDownTimeout l) s = .next t ∧ Kept s t ∧
        t.inbox = s.inbox ++ [.memoryResponse tag (List.replicate r.size 0) true]) ∧
      (r.op ≠ .load → s.ctxState r.ctx ≠ 0 → s.ctxState r.ctx ≠ 6 → ∃ t, exec (.linkDownTimeout l) s = .next t ∧ t.reqs = [] ∧
        t.ctxState r.ctx = 6 ∧ fclass t r.ctx = 2)) ∧
  ∀ (s : State) (l : LinkId) (fout fin eoff peer : Nat), l.n < (if l.fab then 16 else 96) →
    let i := Instr.linkTrainDone l fout fin eoff peer
    let trains : Prop := part (linkReg s l 0 0) 63 62 = 1 ∨ part (linkReg s l 0 0) 63 62 = 3
    (¬trains → exec i s = .next s) ∧
    (trains → fout = 0 → ∃ t, exec i s = .next t ∧ linkReg t l 0 0 = 0 ∧ t.links = s.links) ∧
    (trains → fout ≠ 0 → delayD l.fab fout fin eoff < 1024 → peer < 128 → ∃ t, exec i s = .next t ∧ t.drawer = s.drawer ∧
      part (linkReg t l 0 0) 63 62 = 2 ∧ part (linkReg t l 0 0) 61 60 = 0 ∧
      part (linkReg t l 0 0) 41 32 = delayD l.fab fout fin eoff ∧ (l.fab = true → part (linkReg t l 0 0) 30 24 = peer) ∧
      (∀ p, p < 256 → part (forceAt t l p) 63 61 = trainedKind l.fab s.pkgId peer p ∧
        part (shadowAt t l p) 63 61 = trainedKind l.fab s.pkgId peer p) ∧
      (∀ w, w < 8 → part (linkReg t l 0x20 w) 63 62 = 0) ∧ (∀ j, j < 16 → part (linkReg t l 0x30 j) 61 61 = 0) ∧
      (t.link l).outDir.wlOut = none ∧ (t.link l).inDir.wlOut = none ∧ (t.link l).downAt = none ∧ (t.link l).nak = false ∧
      (t.link l).queue = (s.link l).queue ∧ (t.link l).flight = (s.link l).flight)

/-! ### What reaches the package from outside (R13, R281, R285, R324, R397, R401, R403 to R406, R433 to R437) -/

/-- R13, R281, R285, R324, R392: writes by a device supervisor outside and through the queue windows of functions, whose numbering the row leaves open (log 77). R285, R397, R403, R436: SEL, DATA
and EXEC of the windows of PCIe functions. R401, R403 to R405, R433 to R437: power-on and the boot ROM, the wipe, enumeration, reset,
temperature and loss of power; R397: function level reset; R406: SPDM answers. The bytes of an SPDM message and the answer to another version (log 46), the places of the
selected algorithms (log 91), the bytes MR0 is extended with (log 13), the width of DSSIZE (log 28), that these writes come from an agent
outside (log 29), what DONE and a new life cycle show during a wipe (log 45), and a command index read or written (log 55) are the model's
choice. -/
def Obligations.OutsideEvents : Prop :=
  (∀ (s : State) (i : Instr) (x n : Nat) (v : DWord), outsideWrites i x n v → n < 2 ^ 32 →
    let ok : Prop := Checks s ⟨2, 0, none⟩ x n (.write v)
    (¬ok → Refused i s) ∧
    (ok → ∃ t, exec i s = .next t ∧ ∀ r, regInfo x = some r →
      let written : Prop := ∀ j, j < 64 → (x = 0x3002 → n % 4 = 0) → (t.reg x n).getLsbD j = bitAfter r (s.reg x n) v j
      (¬writesMore x → written ∧ (∀ y m, m < 2 ^ 32 → (y ≠ x ∨ m ≠ n) → t.reg y m = s.reg y m) ∧ t.drawer = s.drawer) ∧
      (x = 0x2000 → s.fqWait = [] → written ∧ part (t.reg 0x2004 n) 2 2 = 0 ∧ t.drawer = s.drawer) ∧
      (x = 0x2002 → s.fqWait = [] → written ∧ t.drawer = s.drawer) ∧
      (x = 0x5100 → written ∧ (part (t.reg x n) 63 63 = 0 → lookup t.heads n = none)) ∧
      (x = 0x5103 → TailRule s t n (part v 31 0)))) ∧
  (∀ (s : State) (fn m : Nat) (v : DWord), m < 64 →
    let i := Instr.queueTailWrite (64 * fn + m) v true
    ((∀ p, ¬winPart s fn p) ∨ (∀ w, ¬WinWho s fn w) → exec i s = .next s) ∧
    ∀ p w, WinWho s fn w → winPart s fn p →
      let own := (List.range 64).filter fun q => (s.reg 0x3000 p).getLsbD 63 && (s.reg 0x3003 p).getLsbD q
      (own.length ≤ m → exec i s = .next s) ∧
      ∀ q, own[m]? = some q → (part (s.reg 0x5100 q) 62 61 ≠ 0 → exec i s = .next s) ∧
        (part (s.reg 0x5100 q) 62 61 = 0 → ∃ t, exec i s = .next t ∧ TailRule s t q (part v 31 0))) ∧
  (∀ (s : State) (fn : Nat) (v : DWord), (∀ w, ¬WinWho s fn w) →
    exec (.hostSelWrite fn v) s = .next s ∧ exec (.hostDataWrite fn v) s = .next s ∧ exec (.hostExecWrite fn v) s = .next s ∧
    (Answers (.hostDataRead fn) s (2 ^ 64 - 1) fun t => Kept s t ∧ t.threads = s.threads) ∧
    ∀ off, s.hostLoc fn off = BitVec.ofNat 64 (2 ^ 64 - 1) ∧ s.windowRead fn off = BitVec.ofNat 64 (2 ^ 64 - 1)) ∧
  (∀ (s : State) (fn : Nat) (v : DWord) (w : Who), WinWho s fn w →
    let x := part (s.hostWin fn).sel 47 32
    let n := part (s.hostWin fn).sel 31 0
    (∃ t, exec (.hostSelWrite fn v) s = .next t ∧ Kept s t ∧ part (t.hostWin fn).sel 47 0 = part v 47 0 ∧ winErr t fn = false ∧
      ∀ f, f ≠ fn → t.hostWin f = s.hostWin f) ∧
    (¬Served s w x n .read → Answers (.hostDataRead fn) s (2 ^ 64 - 1) fun t => Kept s t ∧ winErr t fn = true) ∧
    (Served s w x n .read → ∀ r, regInfo x = some r → 0x1000 ≤ x →
      Answers (.hostDataRead fn) s (if r.cmd then 0 else (s.sysValue w x n).toNat) fun t => t.drawer = s.drawer ∧ t.threads = s.threads ∧
        winErr t fn = winErr s fn ∧ (r.rc = 0 → t.sys = s.sys)) ∧
    (¬Served s w x n (.write v) → ∃ t, exec (.hostDataWrite fn v) s = .next t ∧ Kept s t ∧ t.threads = s.threads ∧ winErr t fn = true) ∧
    (Served s w x n (.write v) → ∀ r, regInfo x = some r → ∃ t, exec (.hostDataWrite fn v) s = .next t ∧ winErr t fn = winErr s fn ∧
      (¬writesMore x → t.drawer = s.drawer ∧
        (∀ j, j < 64 → (x = 0x3002 → n % 4 = 0) → (t.reg x n).getLsbD j = bitAfter r (s.reg x n) v j) ∧
        ∀ y m, m < 2 ^ 32 → (y ≠ x ∨ m ≠ n) → t.reg y m = s.reg y m)) ∧
    (¬Served s w x n (.exec v) → Answers (.hostExecWrite fn v) s (2 ^ 64 - 1) fun t => Kept s t ∧ t.threads = s.threads ∧
      winErr t fn = true) ∧
    (Served s w x n (.exec v) → (∀ s1 r, s.sysExec w (.window fn) x n v = .done s1 r → Answers (.hostExecWrite fn v) s r.toNat fun t =>
        t.sys = s1.sys ∧ t.drawer = s1.drawer ∧ t.threads = s1.threads ∧ (t.hostWin fn).exec = r) ∧
      ∀ s1, s.sysExec w (.window fn) x n v = .later s1 → exec (.hostExecWrite fn v) s = .next s1)) ∧
  (∀ (s : State) (b : Bundle),
    let i := Instr.powerOn b
    let root : Prop := sm3 b.rootKey = Config.rootHash ∨ (s.lifeCycle < 2 ∧ sm3 b.rootKey = Config.devHash)
    let cert : Prop := Config.sm2Verify b.rootKey b.cert [] = true
    let rb := part (s.reg 0xA003 0) 5 0
    let version := Config.certVersion b.cert
    let s0 : State := { s with flash := some b }
    (¬root → ∃ t, exec i s = .next t ∧ Restarted s0 t ∧ t.power.on = true ∧ t.power.booted = false ∧ bootIs t 1 1) ∧
    (root → ¬cert → ∃ t, exec i s = .next t ∧ Restarted s0 t ∧ t.power.on = true ∧ t.power.booted = false ∧ bootIs t 2 2) ∧
    (root → cert → version < rb → ∃ t, exec i s = .next t ∧ Restarted s0 t ∧ t.power.booted = false ∧ bootIs t 2 3) ∧
    (root → cert → rb ≤ version → (∀ j, imageOk b j) → ∃ t, exec i s = .next t ∧ Restarted s0 t ∧
      t.power.on = true ∧ t.power.lock = true ∧ t.power.booted = true ∧ bootIs t 4 0 ∧
      t.measured 0 = sm3 (List.replicate 32 0 ++ sm3 ([BitVec.ofNat 8 s.lifeCycle, BitVec.ofNat 8 rb] ++ b.cert))) ∧
    ∀ j, root → cert → rb ≤ version → j < 256 → ¬imageOk b j → (∀ m, m < j → imageOk b m) → ∃ t, exec i s = .next t ∧
      Restarted s0 t ∧ t.power.booted = false ∧ bootIs t 3 4 ∧ part (t.reg 0xA000 0) 55 48 = j) ∧
  (∀ (s : State), let booted : Prop := part (s.reg 0xA000 0) 63 60 = 4 ∨ part (s.reg 0xA000 0) 59 56 ≠ 0
    (part (s.reg 0x3030 0) 63 63 = 0 ∨ ¬booted → exec .wipeDone s = .next s) ∧
    (part (s.reg 0x3030 0) 63 63 = 1 → booted → ∃ t, exec .wipeDone s = .next t ∧ part (t.reg 0x3030 0) 63 63 = 0 ∧
      part (t.reg 0x3030 0) 11 0 = 32 * s.drawers.length % 4096 ∧ (∀ a, t.drawer.byte a = 0) ∧ t.dsp = [] ∧ t.threads = s.threads ∧
      (s.lcDue = none → t.lifeCycle = s.lifeCycle) ∧ t.lcNext = s.lcNext ∧
      (∀ n, n < 4 → s.lcDue = some n → t.lifeCycle = max n s.lifeCycle ∧ t.lcDue = none) ∧
      (s.power.booted = true → s.power.trained = false → (∀ n, n < 96 → t.linkState ⟨false, n⟩ = 1) ∧
        ∀ n, n < 16 → t.linkState ⟨true, n⟩ = s.linkState ⟨true, n⟩))) ∧
  (∀ (s : State), let done : Prop := part (s.reg 0xA000 0) 63 60 = 4 ∨ part (s.reg 0xA000 0) 59 56 ≠ 0
    (done → ∃ t, exec .pcieEnumeration s = .next t ∧ t.power = { s.power with pcie := true } ∧ Kept s t ∧ t.threads = s.threads) ∧
    (¬done → exec .pcieEnumeration s = .next s)) ∧
  (∀ (s : State), (∃ t, exec .resetRequest s = .next t ∧ Restarted s t ∧ t.power.on = s.power.on) ∧
    (∀ b, s.power.on = true → s.flash = some b → exec .resetRequest s = exec (.powerOn b) s) ∧
    (∃ t, exec .powerLoss s = .next t ∧ Restarted s t ∧ t.power.on = false) ∧
    ∀ die, (die < 4 → exec (.thermalTrip die) s = exec .powerLoss s) ∧ (4 ≤ die → exec (.thermalTrip die) s = .next s)) ∧
  (∀ (s : State) (die : Nat) (tj : BitVec 12), die < 4 →
    let trip := part (s.reg 0xB006 0) 27 16
    let warn := part (s.reg 0xB006 0) 11 0
    (trip ≤ tj.toNat → exec (.temperatureSample die tj) s = exec .powerLoss s) ∧
    (tj.toNat < trip → ∃ t, exec (.temperatureSample die tj) s = .next t ∧ part (t.reg 0xB004 die) 11 0 = tj.toNat ∧
      part (t.reg 0xB004 die) 63 63 = (if warn ≤ tj.toNat then 1 else part (s.reg 0xB004 die) 63 63) ∧ t.drawer = s.drawer ∧
      t.threads = s.threads ∧ t.power = s.power)) ∧
  (∀ (s : State) (vf : Nat), ((∀ p, ¬vfNames s vf p) → exec (.functionLevelReset vf) s = .next s) ∧
    ∀ p, vfNames s vf p → (∀ q, vfNames s vf q → p ≤ q) → ∃ t, exec (.functionLevelReset vf) s = .next t ∧
      (∀ c, c < 65536 → part (s.reg 0x1000 c) 60 56 = p → c ∈ s.liveContexts → t.ctxState c = 0) ∧
      (∀ c, c < 65536 → part (s.reg 0x1000 c) 60 56 ≠ p → t.ctxState c = s.ctxState c) ∧
      let base := 65536 * part (s.reg 0x3008 p) 9 0
      ∀ d a, base ≤ a → a < base + 65536 * part (s.reg 0x3008 p) 42 32 → (lookupD Store.zero t.dsp d).byte a = 0) ∧
  ∀ (s : State) (m : Bytes),
    let log := s.spdmLog ++ m
    let signs : Prop := s.lifeCycle ≠ 3
    let known : Prop := m.getD 0 0x12 = 0x12 ∨ m.getD 0 0x12 = 0x13
    (∀ fn, fn ≠ 0 → ∀ i ∈ [Instr.getVersion fn m, .getCapabilities fn m, .negotiateAlgorithms fn m, .getDigests fn m,
      .getCertificate fn m, .spdmUnsupportedRequest fn m], exec i s = .next s) ∧
    (∃ a, Says (.getVersion 0 m) s m a ∧ (a.getD 1 0).toNat = 0x04) ∧
    (¬known → ∀ i ∈ [Instr.getCapabilities 0 m, .negotiateAlgorithms 0 m, .getDigests 0 m, .getCertificate 0 m, .challenge 0 m,
      .getMeasurements 0 m], ∃ a, Says i s log a ∧ (a.getD 1 0).toNat = 0x7F ∧ (a.getD 2 0).toNat = 0x41) ∧
    (∃ a, Says (.spdmUnsupportedRequest 0 m) s log a ∧ (a.getD 1 0).toNat = 0x7F ∧ (a.getD 2 0).toNat = 7) ∧ (known →
    (∃ a, Says (.getCapabilities 0 m) s log a ∧ Message a m 0x61) ∧
    (∃ a, Says (.negotiateAlgorithms 0 m) s log a ∧ Message a m 0x63 ∧ leAt a 12 4 = (if (leAt m 8 4).testBit 9 then 512 else 0) ∧
      leAt a 16 4 = (if (leAt m 12 4).testBit 6 then 64 else 0)) ∧
    (∃ a, Says (.getDigests 0 m) s log a ∧ Message a m 0x01 ∧ Holds a (sm3 Config.certChain)) ∧
    ((m.getD 2 0).toNat % 16 = 0 → ∃ a, Says (.getCertificate 0 m) s log a ∧ Message a m 0x02 ∧
      Holds a ((Config.certChain.drop (leAt m 4 2)).take (leAt m 6 2))) ∧
    (¬signs → ∃ a, Says (.challenge 0 m) s log a ∧ Message a m 0x7F ∧ (a.getD 2 0).toNat = 5) ∧
    (signs → ∃ a, Says (.challenge 0 m) s log (a ++ Config.identitySign (log ++ a)) ∧ Message a m 0x03 ∧
      Holds a (sm3 Config.certChain)) ∧
    (¬signs → (m.getD 2 0).toNat % 2 = 1 → ∃ a, Says (.getMeasurements 0 m) s log a ∧ Message a m 0x7F ∧ (a.getD 2 0).toNat = 5) ∧
    (let n := (m.getD 3 0).toNat
     ((m.getD 2 0).toNat % 2 = 0 ∨ signs) → (n ≤ 16 ∨ n = 255) → ∃ a,
      Says (.getMeasurements 0 m) s log (if (m.getD 2 0).toNat % 2 = 1 then a ++ Config.identitySign (log ++ a) else a) ∧
      Message a m 0x60 ∧ ∀ j, j < 16 → (n = 255 ∨ n = j + 1) → Holds a (s.measured j)))

end
end

