-- ==== Sys2Proof/Laws/Cells.lean ====
section
/-!
SUPPORT. Laws of sparse tables: what a read gives behind a write, and that writes keep the keys rising.
-/
namespace Sys2Proof.Machine

@[simp] theorem lookup_nil {α : Type} (k : Nat) : lookup ([] : Cells α) k = none := rfl

@[simp] theorem lookup_put_same {α : Type} (c : Cells α) (k : Nat) (x : α) : lookup (put c k x) k = some x := by
  induction c with
  | nil => simp [put, lookup]
  | cons e l ih =>
    obtain ⟨j, y⟩ := e
    simp only [put]
    split
    · simp [lookup]
    · split
      · simp [lookup]
      · next h => simp [lookup, h, ih]

theorem lookup_put_other {α : Type} (c : Cells α) {k j : Nat} (x : α) (h : j ≠ k) : lookup (put c k x) j = lookup c j := by
  induction c with
  | nil => simp [put, lookup, h.symm]
  | cons e l ih =>
    obtain ⟨i, y⟩ := e
    simp only [put]
    split
    · simp [lookup, h.symm]
    · split
      · next h' => subst h'; simp [lookup, h.symm]
      · simp [lookup, ih]

theorem lookup_put {α : Type} (c : Cells α) (k j : Nat) (x : α) :
    lookup (put c k x) j = if j = k then some x else lookup c j := by
  by_cases h : j = k
  · subst h; simp
  · simp [lookup_put_other c x h, h]

@[simp] theorem lookup_del_same {α : Type} (c : Cells α) (k : Nat) : lookup (del c k) k = none := by
  induction c with
  | nil => rfl
  | cons e t ih =>
    obtain ⟨i, y⟩ := e
    simp only [del]
    split
    · next h' => subst h'; exact ih
    · next h' => simp [lookup, h', ih]

theorem lookup_del_other {α : Type} (c : Cells α) {k j : Nat} (h : j ≠ k) : lookup (del c k) j = lookup c j := by
  induction c with
  | nil => rfl
  | cons e l ih =>
    obtain ⟨i, y⟩ := e
    simp only [del]
    split
    · next h' => subst h'; simp [lookup, h.symm, ih]
    · simp [lookup, ih]

theorem risingFrom_le {α : Type} {c : Cells α} {m n : Nat} (h : risingFrom n c = true) (l : m ≤ n) :
    risingFrom m c = true := by
  cases c with
  | nil => rfl
  | cons e t => simp [risingFrom] at h ⊢; exact ⟨by omega, h.2⟩

theorem risingFrom_put {α : Type} {c : Cells α} {n : Nat} (h : risingFrom n c = true) (k : Nat) (x : α) :
    risingFrom (min n k) (put c k x) = true := by
  induction c generalizing n with
  | nil => simp [put, risingFrom]
  | cons e t ih =>
    obtain ⟨i, y⟩ := e
    simp [risingFrom] at h
    simp only [put]
    split
    · next hlt => simp [risingFrom, h.2]; omega
    · split
      · next he => subst he; simp [risingFrom, h.2]
      · next h1 h2 =>
        have := ih h.2
        simp only [risingFrom, Bool.and_eq_true, decide_eq_true_eq]
        refine ⟨by omega, risingFrom_le this (by omega)⟩

theorem rising_put {α : Type} {c : Cells α} (h : rising c = true) (k : Nat) (x : α) : rising (put c k x) = true := by
  have := risingFrom_put h k x
  exact risingFrom_le this (by omega)

theorem risingFrom_del {α : Type} {c : Cells α} {n : Nat} (h : risingFrom n c = true) (k : Nat) :
    risingFrom n (del c k) = true := by
  induction c generalizing n with
  | nil => rfl
  | cons e t ih =>
    obtain ⟨i, y⟩ := e
    simp [risingFrom] at h
    simp only [del]
    split
    · exact risingFrom_le (ih h.2) (by omega)
    · simp [risingFrom]; exact ⟨by omega, ih h.2⟩

theorem rising_del {α : Type} {c : Cells α} (h : rising c = true) (k : Nat) : rising (del c k) = true := risingFrom_del h k

theorem lookupD_putD {α : Type} [DecidableEq α] (d : α) (c : Cells α) (k j : Nat) (x : α) :
    lookupD d (putD d c k x) j = if j = k then x else lookupD d c j := by
  unfold lookupD putD
  split
  · next hx =>
    split
    · next hj => subst hj; simp [hx]
    · next hj => rw [lookup_del_other c hj]
  · rw [lookup_put]; split <;> simp

@[simp] theorem rising_putD {α : Type} [DecidableEq α] (d : α) {c : Cells α} (h : rising c = true) (k : Nat) (x : α) :
    rising (putD d c k x) = true := by
  unfold putD; split
  · exact rising_del h k
  · exact rising_put h k x

theorem risingFrom_filter {α : Type} (f : Nat × α → Bool) {c : Cells α} {n : Nat} (h : risingFrom n c = true) :
    risingFrom n (c.filter f) = true := by
  induction c generalizing n with
  | nil => rfl
  | cons e t ih =>
    obtain ⟨i, y⟩ := e
    simp [risingFrom] at h
    by_cases hf : f (i, y) = true
    · simp [hf, risingFrom, h.1, ih h.2]
    · simp [hf]; exact risingFrom_le (ih h.2) (by omega)

theorem rising_keep {α : Type} (f : Nat → α → Bool) {c : Cells α} (h : rising c = true) : rising (keep f c) = true :=
  risingFrom_filter _ h

theorem mem_put {α : Type} {c : Cells α} {k : Nat} {x : α} {e : Nat × α} (h : e ∈ put c k x) : e = (k, x) ∨ e ∈ c := by
  induction c with
  | nil => simp [put] at h; exact .inl h
  | cons a t ih =>
    obtain ⟨i, y⟩ := a
    simp only [put] at h
    split at h
    · simpa using h
    · split at h
      · simp at h; rcases h with h | h
        · exact .inl h
        · simp [h]
      · simp at h; rcases h with h | h
        · simp [h]
        · rcases ih h with q | q
          · exact .inl q
          · simp [q]

theorem mem_del {α : Type} {c : Cells α} {k : Nat} {e : Nat × α} (h : e ∈ del c k) : e ∈ c := by
  induction c with
  | nil => simp [del] at h
  | cons a t ih =>
    obtain ⟨i, y⟩ := a
    simp only [del] at h
    split at h
    · simp [ih h]
    · simp at h; rcases h with h | h
      · simp [h]
      · simp [ih h]

end Sys2Proof.Machine
end

