-- ==== Sys2Proof/Laws/IntAlu.lean ====
section
/-!
SUPPORT. The integer readings and narrowings of IntAlu.lean in the library's terms: a signed type reads a balanced remainder,
an unsigned one a remainder (R156).
-/
namespace Sys2Proof.Machine

theorem extTy_signed (ty : Ty) (x : Nat) (h : ty.signed = true) : extTy ty x = Int.bmod x (2 ^ tyBits ty) := by
  cases ty <;> simp only [Ty.signed, Bool.false_eq_true] at h <;>
    simp only [extTy, tyBits, Ty.signed, Int.bmod, Bool.true_and] <;> norm_num <;> split <;> split <;> omega

theorem extTy_plain (ty : Ty) (x : Nat) (h : ty.signed = false) : extTy ty x = x % 2 ^ tyBits ty := by
  simp [extTy, h]

theorem ofInt_of_emod {a b : Int} (h : a % 4294967296 = b % 4294967296) : BitVec.ofInt 32 a = BitVec.ofInt 32 b := by
  apply BitVec.eq_of_toNat_eq; simp; omega

theorem zeroExtend_ofInt (n : Nat) (y : Int) : (BitVec.ofInt n y).zeroExtend 32 = BitVec.ofInt 32 (y % 2 ^ n) := by
  apply BitVec.eq_of_toNat_eq
  have h : (0:Int) < 2 ^ n := by positivity
  have h1 := Int.emod_nonneg y h.ne'
  simp
  omega

theorem signExtend_ofInt (n : Nat) (y : Int) : (BitVec.ofInt n y).signExtend 32 = BitVec.ofInt 32 (y.bmod (2 ^ n)) := by
  simp [BitVec.signExtend, BitVec.toInt_ofInt]

theorem narrowTy_signed (ty : Ty) (y : Int) (h : ty.signed = true) : narrowTy ty y = BitVec.ofInt 32 (y.bmod (2 ^ tyBits ty)) := by
  rw [narrowTy, extTy_signed ty _ h]
  congr 1
  have p : (0:Int) < 2 ^ tyBits ty := by positivity
  have q := Int.emod_nonneg y p.ne'
  rw [Int.toNat_of_nonneg q]
  have := Int.emod_bmod y (2 ^ tyBits ty)
  push_cast at this
  exact this

theorem narrowTy_plain (ty : Ty) (y : Int) (h : ty.signed = false) : narrowTy ty y = BitVec.ofInt 32 (y % 2 ^ tyBits ty) := by
  rw [narrowTy, extTy_plain ty _ h]
  congr 1
  have p : (0:Int) < 2 ^ tyBits ty := by positivity
  have q := Int.emod_nonneg y p.ne'
  rw [Int.toNat_of_nonneg q, Int.emod_emod]

end Sys2Proof.Machine
end

