-- ==== Sys2Proof/Laws/State.lean ====
section
/-!
SUPPORT. What each update of the state leaves of every field, one rule per update, true by unfolding; and what reading gives behind it.
-/
namespace Sys2Proof.Machine
namespace State

section
variable (s : State) (idx inst : Nat) (v : DWord)
@[simp] theorem setReg_clk : (s.setReg idx inst v).clk = s.clk := rfl
@[simp] theorem setReg_tick : (s.setReg idx inst v).tick = s.tick := rfl
@[simp] theorem setReg_tickSet : (s.setReg idx inst v).tickSet = s.tickSet := rfl
@[simp] theorem setReg_power : (s.setReg idx inst v).power = s.power := rfl
@[simp] theorem setReg_drawer : (s.setReg idx inst v).drawer = s.drawer := rfl
@[simp] theorem setReg_drawers : (s.setReg idx inst v).drawers = s.drawers := rfl
@[simp] theorem setReg_dsp : (s.setReg idx inst v).dsp = s.dsp := rfl
@[simp] theorem setReg_threads : (s.setReg idx inst v).threads = s.threads := rfl
@[simp] theorem setReg_groups : (s.setReg idx inst v).groups = s.groups := rfl
@[simp] theorem setReg_hoods : (s.setReg idx inst v).hoods = s.hoods := rfl
@[simp] theorem setReg_launches : (s.setReg idx inst v).launches = s.launches := rfl
@[simp] theorem setReg_heads : (s.setReg idx inst v).heads = s.heads := rfl
@[simp] theorem setReg_waves : (s.setReg idx inst v).waves = s.waves := rfl
@[simp] theorem setReg_cores : (s.setReg idx inst v).cores = s.cores := rfl
@[simp] theorem setReg_streams : (s.setReg idx inst v).streams = s.streams := rfl
@[simp] theorem setReg_copies : (s.setReg idx inst v).copies = s.copies := rfl
@[simp] theorem setReg_passes : (s.setReg idx inst v).passes = s.passes := rfl
@[simp] theorem setReg_reqs : (s.setReg idx inst v).reqs = s.reqs := rfl
@[simp] theorem setReg_l1 : (s.setReg idx inst v).l1 = s.l1 := rfl
@[simp] theorem setReg_l2 : (s.setReg idx inst v).l2 = s.l2 := rfl
@[simp] theorem setReg_icache : (s.setReg idx inst v).icache = s.icache := rfl
@[simp] theorem setReg_tc : (s.setReg idx inst v).tc = s.tc := rfl
@[simp] theorem setReg_remap : (s.setReg idx inst v).remap = s.remap := rfl
@[simp] theorem setReg_faults : (s.setReg idx inst v).faults = s.faults := rfl
@[simp] theorem setReg_fqWait : (s.setReg idx inst v).fqWait = s.fqWait := rfl
@[simp] theorem setReg_stuckQ : (s.setReg idx inst v).stuckQ = s.stuckQ := rfl
@[simp] theorem setReg_servers : (s.setReg idx inst v).servers = s.servers := rfl
@[simp] theorem setReg_routes : (s.setReg idx inst v).routes = s.routes := rfl
@[simp] theorem setReg_builds : (s.setReg idx inst v).builds = s.builds := rfl
@[simp] theorem setReg_unbinds : (s.setReg idx inst v).unbinds = s.unbinds := rfl
@[simp] theorem setReg_hops : (s.setReg idx inst v).hops = s.hops := rfl
@[simp] theorem setReg_routers : (s.setReg idx inst v).routers = s.routers := rfl
@[simp] theorem setReg_tickets : (s.setReg idx inst v).tickets = s.tickets := rfl
@[simp] theorem setReg_turns : (s.setReg idx inst v).turns = s.turns := rfl
@[simp] theorem setReg_found : (s.setReg idx inst v).found = s.found := rfl
@[simp] theorem setReg_clocks : (s.setReg idx inst v).clocks = s.clocks := rfl
@[simp] theorem setReg_links : (s.setReg idx inst v).links = s.links := rfl
@[simp] theorem setReg_rings : (s.setReg idx inst v).rings = s.rings := rfl
@[simp] theorem setReg_saggars : (s.setReg idx inst v).saggars = s.saggars := rfl
@[simp] theorem setReg_offers : (s.setReg idx inst v).offers = s.offers := rfl
@[simp] theorem setReg_wins : (s.setReg idx inst v).wins = s.wins := rfl
@[simp] theorem setReg_watch : (s.setReg idx inst v).watch = s.watch := rfl
@[simp] theorem setReg_deficits : (s.setReg idx inst v).deficits = s.deficits := rfl
@[simp] theorem setReg_ethTurn : (s.setReg idx inst v).ethTurn = s.ethTurn := rfl
@[simp] theorem setReg_rivals : (s.setReg idx inst v).rivals = s.rivals := rfl
@[simp] theorem setReg_ticketTo : (s.setReg idx inst v).ticketTo = s.ticketTo := rfl
@[simp] theorem setReg_sliceNext : (s.setReg idx inst v).sliceNext = s.sliceNext := rfl
@[simp] theorem setReg_domWait : (s.setReg idx inst v).domWait = s.domWait := rfl
@[simp] theorem setReg_frameOff : (s.setReg idx inst v).frameOff = s.frameOff := rfl
@[simp] theorem setReg_pfc : (s.setReg idx inst v).pfc = s.pfc := rfl
@[simp] theorem setReg_flash : (s.setReg idx inst v).flash = s.flash := rfl
@[simp] theorem setReg_lcDue : (s.setReg idx inst v).lcDue = s.lcDue := rfl
@[simp] theorem setReg_lcNext : (s.setReg idx inst v).lcNext = s.lcNext := rfl
@[simp] theorem setReg_spdmLog : (s.setReg idx inst v).spdmLog = s.spdmLog := rfl
@[simp] theorem setReg_inject : (s.setReg idx inst v).inject = s.inject := rfl
@[simp] theorem setReg_struck : (s.setReg idx inst v).struck = s.struck := rfl
@[simp] theorem setReg_scrubFix : (s.setReg idx inst v).scrubFix = s.scrubFix := rfl
@[simp] theorem setReg_ceSeen : (s.setReg idx inst v).ceSeen = s.ceSeen := rfl
@[simp] theorem setReg_outbox : (s.setReg idx inst v).outbox = s.outbox := rfl
@[simp] theorem setReg_inbox : (s.setReg idx inst v).inbox = s.inbox := rfl
@[simp] theorem setReg_cur : (s.setReg idx inst v).cur = s.cur := rfl
@[simp] theorem setReg_cursor : (s.setReg idx inst v).cursor = s.cursor := rfl
@[simp] theorem setReg_fresh : (s.setReg idx inst v).fresh = s.fresh := rfl
@[simp] theorem setReg_stamp : (s.setReg idx inst v).stamp = s.stamp := rfl
@[simp] theorem setReg_freeCtr : (s.setReg idx inst v).freeCtr = s.freeCtr := rfl
@[simp] theorem setReg_cmdResult : (s.setReg idx inst v).cmdResult = s.cmdResult := rfl
end

section
variable (s : State) (idx inst hi lo v : Nat)
@[simp] theorem setFld_clk : (s.setFld idx inst hi lo v).clk = s.clk := rfl
@[simp] theorem setFld_tick : (s.setFld idx inst hi lo v).tick = s.tick := rfl
@[simp] theorem setFld_tickSet : (s.setFld idx inst hi lo v).tickSet = s.tickSet := rfl
@[simp] theorem setFld_power : (s.setFld idx inst hi lo v).power = s.power := rfl
@[simp] theorem setFld_drawer : (s.setFld idx inst hi lo v).drawer = s.drawer := rfl
@[simp] theorem setFld_drawers : (s.setFld idx inst hi lo v).drawers = s.drawers := rfl
@[simp] theorem setFld_dsp : (s.setFld idx inst hi lo v).dsp = s.dsp := rfl
@[simp] theorem setFld_threads : (s.setFld idx inst hi lo v).threads = s.threads := rfl
@[simp] theorem setFld_groups : (s.setFld idx inst hi lo v).groups = s.groups := rfl
@[simp] theorem setFld_hoods : (s.setFld idx inst hi lo v).hoods = s.hoods := rfl
@[simp] theorem setFld_launches : (s.setFld idx inst hi lo v).launches = s.launches := rfl
@[simp] theorem setFld_heads : (s.setFld idx inst hi lo v).heads = s.heads := rfl
@[simp] theorem setFld_waves : (s.setFld idx inst hi lo v).waves = s.waves := rfl
@[simp] theorem setFld_cores : (s.setFld idx inst hi lo v).cores = s.cores := rfl
@[simp] theorem setFld_streams : (s.setFld idx inst hi lo v).streams = s.streams := rfl
@[simp] theorem setFld_copies : (s.setFld idx inst hi lo v).copies = s.copies := rfl
@[simp] theorem setFld_passes : (s.setFld idx inst hi lo v).passes = s.passes := rfl
@[simp] theorem setFld_reqs : (s.setFld idx inst hi lo v).reqs = s.reqs := rfl
@[simp] theorem setFld_l1 : (s.setFld idx inst hi lo v).l1 = s.l1 := rfl
@[simp] theorem setFld_l2 : (s.setFld idx inst hi lo v).l2 = s.l2 := rfl
@[simp] theorem setFld_icache : (s.setFld idx inst hi lo v).icache = s.icache := rfl
@[simp] theorem setFld_tc : (s.setFld idx inst hi lo v).tc = s.tc := rfl
@[simp] theorem setFld_remap : (s.setFld idx inst hi lo v).remap = s.remap := rfl
@[simp] theorem setFld_faults : (s.setFld idx inst hi lo v).faults = s.faults := rfl
@[simp] theorem setFld_fqWait : (s.setFld idx inst hi lo v).fqWait = s.fqWait := rfl
@[simp] theorem setFld_stuckQ : (s.setFld idx inst hi lo v).stuckQ = s.stuckQ := rfl
@[simp] theorem setFld_servers : (s.setFld idx inst hi lo v).servers = s.servers := rfl
@[simp] theorem setFld_routes : (s.setFld idx inst hi lo v).routes = s.routes := rfl
@[simp] theorem setFld_builds : (s.setFld idx inst hi lo v).builds = s.builds := rfl
@[simp] theorem setFld_unbinds : (s.setFld idx inst hi lo v).unbinds = s.unbinds := rfl
@[simp] theorem setFld_hops : (s.setFld idx inst hi lo v).hops = s.hops := rfl
@[simp] theorem setFld_routers : (s.setFld idx inst hi lo v).routers = s.routers := rfl
@[simp] theorem setFld_tickets : (s.setFld idx inst hi lo v).tickets = s.tickets := rfl
@[simp] theorem setFld_turns : (s.setFld idx inst hi lo v).turns = s.turns := rfl
@[simp] theorem setFld_found : (s.setFld idx inst hi lo v).found = s.found := rfl
@[simp] theorem setFld_clocks : (s.setFld idx inst hi lo v).clocks = s.clocks := rfl
@[simp] theorem setFld_links : (s.setFld idx inst hi lo v).links = s.links := rfl
@[simp] theorem setFld_rings : (s.setFld idx inst hi lo v).rings = s.rings := rfl
@[simp] theorem setFld_saggars : (s.setFld idx inst hi lo v).saggars = s.saggars := rfl
@[simp] theorem setFld_offers : (s.setFld idx inst hi lo v).offers = s.offers := rfl
@[simp] theorem setFld_wins : (s.setFld idx inst hi lo v).wins = s.wins := rfl
@[simp] theorem setFld_watch : (s.setFld idx inst hi lo v).watch = s.watch := rfl
@[simp] theorem setFld_deficits : (s.setFld idx inst hi lo v).deficits = s.deficits := rfl
@[simp] theorem setFld_ethTurn : (s.setFld idx inst hi lo v).ethTurn = s.ethTurn := rfl
@[simp] theorem setFld_rivals : (s.setFld idx inst hi lo v).rivals = s.rivals := rfl
@[simp] theorem setFld_ticketTo : (s.setFld idx inst hi lo v).ticketTo = s.ticketTo := rfl
@[simp] theorem setFld_sliceNext : (s.setFld idx inst hi lo v).sliceNext = s.sliceNext := rfl
@[simp] theorem setFld_domWait : (s.setFld idx inst hi lo v).domWait = s.domWait := rfl
@[simp] theorem setFld_frameOff : (s.setFld idx inst hi lo v).frameOff = s.frameOff := rfl
@[simp] theorem setFld_pfc : (s.setFld idx inst hi lo v).pfc = s.pfc := rfl
@[simp] theorem setFld_flash : (s.setFld idx inst hi lo v).flash = s.flash := rfl
@[simp] theorem setFld_lcDue : (s.setFld idx inst hi lo v).lcDue = s.lcDue := rfl
@[simp] theorem setFld_lcNext : (s.setFld idx inst hi lo v).lcNext = s.lcNext := rfl
@[simp] theorem setFld_spdmLog : (s.setFld idx inst hi lo v).spdmLog = s.spdmLog := rfl
@[simp] theorem setFld_inject : (s.setFld idx inst hi lo v).inject = s.inject := rfl
@[simp] theorem setFld_struck : (s.setFld idx inst hi lo v).struck = s.struck := rfl
@[simp] theorem setFld_scrubFix : (s.setFld idx inst hi lo v).scrubFix = s.scrubFix := rfl
@[simp] theorem setFld_ceSeen : (s.setFld idx inst hi lo v).ceSeen = s.ceSeen := rfl
@[simp] theorem setFld_outbox : (s.setFld idx inst hi lo v).outbox = s.outbox := rfl
@[simp] theorem setFld_inbox : (s.setFld idx inst hi lo v).inbox = s.inbox := rfl
@[simp] theorem setFld_cur : (s.setFld idx inst hi lo v).cur = s.cur := rfl
@[simp] theorem setFld_cursor : (s.setFld idx inst hi lo v).cursor = s.cursor := rfl
@[simp] theorem setFld_fresh : (s.setFld idx inst hi lo v).fresh = s.fresh := rfl
@[simp] theorem setFld_stamp : (s.setFld idx inst hi lo v).stamp = s.stamp := rfl
@[simp] theorem setFld_freeCtr : (s.setFld idx inst hi lo v).freeCtr = s.freeCtr := rfl
@[simp] theorem setFld_cmdResult : (s.setFld idx inst hi lo v).cmdResult = s.cmdResult := rfl
end

section
variable (s : State) (k : Nat) (th : Thread)
@[simp] theorem setThread_clk : (s.setThread k th).clk = s.clk := rfl
@[simp] theorem setThread_tick : (s.setThread k th).tick = s.tick := rfl
@[simp] theorem setThread_tickSet : (s.setThread k th).tickSet = s.tickSet := rfl
@[simp] theorem setThread_power : (s.setThread k th).power = s.power := rfl
@[simp] theorem setThread_sys : (s.setThread k th).sys = s.sys := rfl
@[simp] theorem setThread_drawer : (s.setThread k th).drawer = s.drawer := rfl
@[simp] theorem setThread_drawers : (s.setThread k th).drawers = s.drawers := rfl
@[simp] theorem setThread_dsp : (s.setThread k th).dsp = s.dsp := rfl
@[simp] theorem setThread_groups : (s.setThread k th).groups = s.groups := rfl
@[simp] theorem setThread_hoods : (s.setThread k th).hoods = s.hoods := rfl
@[simp] theorem setThread_launches : (s.setThread k th).launches = s.launches := rfl
@[simp] theorem setThread_heads : (s.setThread k th).heads = s.heads := rfl
@[simp] theorem setThread_waves : (s.setThread k th).waves = s.waves := rfl
@[simp] theorem setThread_cores : (s.setThread k th).cores = s.cores := rfl
@[simp] theorem setThread_streams : (s.setThread k th).streams = s.streams := rfl
@[simp] theorem setThread_copies : (s.setThread k th).copies = s.copies := rfl
@[simp] theorem setThread_passes : (s.setThread k th).passes = s.passes := rfl
@[simp] theorem setThread_reqs : (s.setThread k th).reqs = s.reqs := rfl
@[simp] theorem setThread_l1 : (s.setThread k th).l1 = s.l1 := rfl
@[simp] theorem setThread_l2 : (s.setThread k th).l2 = s.l2 := rfl
@[simp] theorem setThread_icache : (s.setThread k th).icache = s.icache := rfl
@[simp] theorem setThread_tc : (s.setThread k th).tc = s.tc := rfl
@[simp] theorem setThread_remap : (s.setThread k th).remap = s.remap := rfl
@[simp] theorem setThread_faults : (s.setThread k th).faults = s.faults := rfl
@[simp] theorem setThread_fqWait : (s.setThread k th).fqWait = s.fqWait := rfl
@[simp] theorem setThread_stuckQ : (s.setThread k th).stuckQ = s.stuckQ := rfl
@[simp] theorem setThread_servers : (s.setThread k th).servers = s.servers := rfl
@[simp] theorem setThread_routes : (s.setThread k th).routes = s.routes := rfl
@[simp] theorem setThread_builds : (s.setThread k th).builds = s.builds := rfl
@[simp] theorem setThread_unbinds : (s.setThread k th).unbinds = s.unbinds := rfl
@[simp] theorem setThread_hops : (s.setThread k th).hops = s.hops := rfl
@[simp] theorem setThread_routers : (s.setThread k th).routers = s.routers := rfl
@[simp] theorem setThread_tickets : (s.setThread k th).tickets = s.tickets := rfl
@[simp] theorem setThread_turns : (s.setThread k th).turns = s.turns := rfl
@[simp] theorem setThread_found : (s.setThread k th).found = s.found := rfl
@[simp] theorem setThread_clocks : (s.setThread k th).clocks = s.clocks := rfl
@[simp] theorem setThread_links : (s.setThread k th).links = s.links := rfl
@[simp] theorem setThread_rings : (s.setThread k th).rings = s.rings := rfl
@[simp] theorem setThread_saggars : (s.setThread k th).saggars = s.saggars := rfl
@[simp] theorem setThread_offers : (s.setThread k th).offers = s.offers := rfl
@[simp] theorem setThread_wins : (s.setThread k th).wins = s.wins := rfl
@[simp] theorem setThread_watch : (s.setThread k th).watch = s.watch := rfl
@[simp] theorem setThread_deficits : (s.setThread k th).deficits = s.deficits := rfl
@[simp] theorem setThread_ethTurn : (s.setThread k th).ethTurn = s.ethTurn := rfl
@[simp] theorem setThread_rivals : (s.setThread k th).rivals = s.rivals := rfl
@[simp] theorem setThread_ticketTo : (s.setThread k th).ticketTo = s.ticketTo := rfl
@[simp] theorem setThread_sliceNext : (s.setThread k th).sliceNext = s.sliceNext := rfl
@[simp] theorem setThread_domWait : (s.setThread k th).domWait = s.domWait := rfl
@[simp] theorem setThread_frameOff : (s.setThread k th).frameOff = s.frameOff := rfl
@[simp] theorem setThread_pfc : (s.setThread k th).pfc = s.pfc := rfl
@[simp] theorem setThread_flash : (s.setThread k th).flash = s.flash := rfl
@[simp] theorem setThread_lcDue : (s.setThread k th).lcDue = s.lcDue := rfl
@[simp] theorem setThread_lcNext : (s.setThread k th).lcNext = s.lcNext := rfl
@[simp] theorem setThread_spdmLog : (s.setThread k th).spdmLog = s.spdmLog := rfl
@[simp] theorem setThread_inject : (s.setThread k th).inject = s.inject := rfl
@[simp] theorem setThread_struck : (s.setThread k th).struck = s.struck := rfl
@[simp] theorem setThread_scrubFix : (s.setThread k th).scrubFix = s.scrubFix := rfl
@[simp] theorem setThread_ceSeen : (s.setThread k th).ceSeen = s.ceSeen := rfl
@[simp] theorem setThread_outbox : (s.setThread k th).outbox = s.outbox := rfl
@[simp] theorem setThread_inbox : (s.setThread k th).inbox = s.inbox := rfl
@[simp] theorem setThread_cur : (s.setThread k th).cur = s.cur := rfl
@[simp] theorem setThread_cursor : (s.setThread k th).cursor = s.cursor := rfl
@[simp] theorem setThread_fresh : (s.setThread k th).fresh = s.fresh := rfl
@[simp] theorem setThread_stamp : (s.setThread k th).stamp = s.stamp := rfl
@[simp] theorem setThread_freeCtr : (s.setThread k th).freeCtr = s.freeCtr := rfl
@[simp] theorem setThread_cmdResult : (s.setThread k th).cmdResult = s.cmdResult := rfl
end

section
variable (s : State) (k : Nat) (f : Thread → Thread)
@[simp] theorem modThread_clk : (s.modThread k f).clk = s.clk := rfl
@[simp] theorem modThread_tick : (s.modThread k f).tick = s.tick := rfl
@[simp] theorem modThread_tickSet : (s.modThread k f).tickSet = s.tickSet := rfl
@[simp] theorem modThread_power : (s.modThread k f).power = s.power := rfl
@[simp] theorem modThread_sys : (s.modThread k f).sys = s.sys := rfl
@[simp] theorem modThread_drawer : (s.modThread k f).drawer = s.drawer := rfl
@[simp] theorem modThread_drawers : (s.modThread k f).drawers = s.drawers := rfl
@[simp] theorem modThread_dsp : (s.modThread k f).dsp = s.dsp := rfl
@[simp] theorem modThread_groups : (s.modThread k f).groups = s.groups := rfl
@[simp] theorem modThread_hoods : (s.modThread k f).hoods = s.hoods := rfl
@[simp] theorem modThread_launches : (s.modThread k f).launches = s.launches := rfl
@[simp] theorem modThread_heads : (s.modThread k f).heads = s.heads := rfl
@[simp] theorem modThread_waves : (s.modThread k f).waves = s.waves := rfl
@[simp] theorem modThread_cores : (s.modThread k f).cores = s.cores := rfl
@[simp] theorem modThread_streams : (s.modThread k f).streams = s.streams := rfl
@[simp] theorem modThread_copies : (s.modThread k f).copies = s.copies := rfl
@[simp] theorem modThread_passes : (s.modThread k f).passes = s.passes := rfl
@[simp] theorem modThread_reqs : (s.modThread k f).reqs = s.reqs := rfl
@[simp] theorem modThread_l1 : (s.modThread k f).l1 = s.l1 := rfl
@[simp] theorem modThread_l2 : (s.modThread k f).l2 = s.l2 := rfl
@[simp] theorem modThread_icache : (s.modThread k f).icache = s.icache := rfl
@[simp] theorem modThread_tc : (s.modThread k f).tc = s.tc := rfl
@[simp] theorem modThread_remap : (s.modThread k f).remap = s.remap := rfl
@[simp] theorem modThread_faults : (s.modThread k f).faults = s.faults := rfl
@[simp] theorem modThread_fqWait : (s.modThread k f).fqWait = s.fqWait := rfl
@[simp] theorem modThread_stuckQ : (s.modThread k f).stuckQ = s.stuckQ := rfl
@[simp] theorem modThread_servers : (s.modThread k f).servers = s.servers := rfl
@[simp] theorem modThread_routes : (s.modThread k f).routes = s.routes := rfl
@[simp] theorem modThread_builds : (s.modThread k f).builds = s.builds := rfl
@[simp] theorem modThread_unbinds : (s.modThread k f).unbinds = s.unbinds := rfl
@[simp] theorem modThread_hops : (s.modThread k f).hops = s.hops := rfl
@[simp] theorem modThread_routers : (s.modThread k f).routers = s.routers := rfl
@[simp] theorem modThread_tickets : (s.modThread k f).tickets = s.tickets := rfl
@[simp] theorem modThread_turns : (s.modThread k f).turns = s.turns := rfl
@[simp] theorem modThread_found : (s.modThread k f).found = s.found := rfl
@[simp] theorem modThread_clocks : (s.modThread k f).clocks = s.clocks := rfl
@[simp] theorem modThread_links : (s.modThread k f).links = s.links := rfl
@[simp] theorem modThread_rings : (s.modThread k f).rings = s.rings := rfl
@[simp] theorem modThread_saggars : (s.modThread k f).saggars = s.saggars := rfl
@[simp] theorem modThread_offers : (s.modThread k f).offers = s.offers := rfl
@[simp] theorem modThread_wins : (s.modThread k f).wins = s.wins := rfl
@[simp] theorem modThread_watch : (s.modThread k f).watch = s.watch := rfl
@[simp] theorem modThread_deficits : (s.modThread k f).deficits = s.deficits := rfl
@[simp] theorem modThread_ethTurn : (s.modThread k f).ethTurn = s.ethTurn := rfl
@[simp] theorem modThread_rivals : (s.modThread k f).rivals = s.rivals := rfl
@[simp] theorem modThread_ticketTo : (s.modThread k f).ticketTo = s.ticketTo := rfl
@[simp] theorem modThread_sliceNext : (s.modThread k f).sliceNext = s.sliceNext := rfl
@[simp] theorem modThread_domWait : (s.modThread k f).domWait = s.domWait := rfl
@[simp] theorem modThread_frameOff : (s.modThread k f).frameOff = s.frameOff := rfl
@[simp] theorem modThread_pfc : (s.modThread k f).pfc = s.pfc := rfl
@[simp] theorem modThread_flash : (s.modThread k f).flash = s.flash := rfl
@[simp] theorem modThread_lcDue : (s.modThread k f).lcDue = s.lcDue := rfl
@[simp] theorem modThread_lcNext : (s.modThread k f).lcNext = s.lcNext := rfl
@[simp] theorem modThread_spdmLog : (s.modThread k f).spdmLog = s.spdmLog := rfl
@[simp] theorem modThread_inject : (s.modThread k f).inject = s.inject := rfl
@[simp] theorem modThread_struck : (s.modThread k f).struck = s.struck := rfl
@[simp] theorem modThread_scrubFix : (s.modThread k f).scrubFix = s.scrubFix := rfl
@[simp] theorem modThread_ceSeen : (s.modThread k f).ceSeen = s.ceSeen := rfl
@[simp] theorem modThread_outbox : (s.modThread k f).outbox = s.outbox := rfl
@[simp] theorem modThread_inbox : (s.modThread k f).inbox = s.inbox := rfl
@[simp] theorem modThread_cur : (s.modThread k f).cur = s.cur := rfl
@[simp] theorem modThread_cursor : (s.modThread k f).cursor = s.cursor := rfl
@[simp] theorem modThread_fresh : (s.modThread k f).fresh = s.fresh := rfl
@[simp] theorem modThread_stamp : (s.modThread k f).stamp = s.stamp := rfl
@[simp] theorem modThread_freeCtr : (s.modThread k f).freeCtr = s.freeCtr := rfl
@[simp] theorem modThread_cmdResult : (s.modThread k f).cmdResult = s.cmdResult := rfl
end

section
variable (s : State) (g : Nat) (f : Group → Group)
@[simp] theorem modGroup_clk : (s.modGroup g f).clk = s.clk := rfl
@[simp] theorem modGroup_tick : (s.modGroup g f).tick = s.tick := rfl
@[simp] theorem modGroup_tickSet : (s.modGroup g f).tickSet = s.tickSet := rfl
@[simp] theorem modGroup_power : (s.modGroup g f).power = s.power := rfl
@[simp] theorem modGroup_sys : (s.modGroup g f).sys = s.sys := rfl
@[simp] theorem modGroup_drawer : (s.modGroup g f).drawer = s.drawer := rfl
@[simp] theorem modGroup_drawers : (s.modGroup g f).drawers = s.drawers := rfl
@[simp] theorem modGroup_dsp : (s.modGroup g f).dsp = s.dsp := rfl
@[simp] theorem modGroup_threads : (s.modGroup g f).threads = s.threads := rfl
@[simp] theorem modGroup_hoods : (s.modGroup g f).hoods = s.hoods := rfl
@[simp] theorem modGroup_launches : (s.modGroup g f).launches = s.launches := rfl
@[simp] theorem modGroup_heads : (s.modGroup g f).heads = s.heads := rfl
@[simp] theorem modGroup_waves : (s.modGroup g f).waves = s.waves := rfl
@[simp] theorem modGroup_cores : (s.modGroup g f).cores = s.cores := rfl
@[simp] theorem modGroup_streams : (s.modGroup g f).streams = s.streams := rfl
@[simp] theorem modGroup_copies : (s.modGroup g f).copies = s.copies := rfl
@[simp] theorem modGroup_passes : (s.modGroup g f).passes = s.passes := rfl
@[simp] theorem modGroup_reqs : (s.modGroup g f).reqs = s.reqs := rfl
@[simp] theorem modGroup_l1 : (s.modGroup g f).l1 = s.l1 := rfl
@[simp] theorem modGroup_l2 : (s.modGroup g f).l2 = s.l2 := rfl
@[simp] theorem modGroup_icache : (s.modGroup g f).icache = s.icache := rfl
@[simp] theorem modGroup_tc : (s.modGroup g f).tc = s.tc := rfl
@[simp] theorem modGroup_remap : (s.modGroup g f).remap = s.remap := rfl
@[simp] theorem modGroup_faults : (s.modGroup g f).faults = s.faults := rfl
@[simp] theorem modGroup_fqWait : (s.modGroup g f).fqWait = s.fqWait := rfl
@[simp] theorem modGroup_stuckQ : (s.modGroup g f).stuckQ = s.stuckQ := rfl
@[simp] theorem modGroup_servers : (s.modGroup g f).servers = s.servers := rfl
@[simp] theorem modGroup_routes : (s.modGroup g f).routes = s.routes := rfl
@[simp] theorem modGroup_builds : (s.modGroup g f).builds = s.builds := rfl
@[simp] theorem modGroup_unbinds : (s.modGroup g f).unbinds = s.unbinds := rfl
@[simp] theorem modGroup_hops : (s.modGroup g f).hops = s.hops := rfl
@[simp] theorem modGroup_routers : (s.modGroup g f).routers = s.routers := rfl
@[simp] theorem modGroup_tickets : (s.modGroup g f).tickets = s.tickets := rfl
@[simp] theorem modGroup_turns : (s.modGroup g f).turns = s.turns := rfl
@[simp] theorem modGroup_found : (s.modGroup g f).found = s.found := rfl
@[simp] theorem modGroup_clocks : (s.modGroup g f).clocks = s.clocks := rfl
@[simp] theorem modGroup_links : (s.modGroup g f).links = s.links := rfl
@[simp] theorem modGroup_rings : (s.modGroup g f).rings = s.rings := rfl
@[simp] theorem modGroup_saggars : (s.modGroup g f).saggars = s.saggars := rfl
@[simp] theorem modGroup_offers : (s.modGroup g f).offers = s.offers := rfl
@[simp] theorem modGroup_wins : (s.modGroup g f).wins = s.wins := rfl
@[simp] theorem modGroup_watch : (s.modGroup g f).watch = s.watch := rfl
@[simp] theorem modGroup_deficits : (s.modGroup g f).deficits = s.deficits := rfl
@[simp] theorem modGroup_ethTurn : (s.modGroup g f).ethTurn = s.ethTurn := rfl
@[simp] theorem modGroup_rivals : (s.modGroup g f).rivals = s.rivals := rfl
@[simp] theorem modGroup_ticketTo : (s.modGroup g f).ticketTo = s.ticketTo := rfl
@[simp] theorem modGroup_sliceNext : (s.modGroup g f).sliceNext = s.sliceNext := rfl
@[simp] theorem modGroup_domWait : (s.modGroup g f).domWait = s.domWait := rfl
@[simp] theorem modGroup_frameOff : (s.modGroup g f).frameOff = s.frameOff := rfl
@[simp] theorem modGroup_pfc : (s.modGroup g f).pfc = s.pfc := rfl
@[simp] theorem modGroup_flash : (s.modGroup g f).flash = s.flash := rfl
@[simp] theorem modGroup_lcDue : (s.modGroup g f).lcDue = s.lcDue := rfl
@[simp] theorem modGroup_lcNext : (s.modGroup g f).lcNext = s.lcNext := rfl
@[simp] theorem modGroup_spdmLog : (s.modGroup g f).spdmLog = s.spdmLog := rfl
@[simp] theorem modGroup_inject : (s.modGroup g f).inject = s.inject := rfl
@[simp] theorem modGroup_struck : (s.modGroup g f).struck = s.struck := rfl
@[simp] theorem modGroup_scrubFix : (s.modGroup g f).scrubFix = s.scrubFix := rfl
@[simp] theorem modGroup_ceSeen : (s.modGroup g f).ceSeen = s.ceSeen := rfl
@[simp] theorem modGroup_outbox : (s.modGroup g f).outbox = s.outbox := rfl
@[simp] theorem modGroup_inbox : (s.modGroup g f).inbox = s.inbox := rfl
@[simp] theorem modGroup_cur : (s.modGroup g f).cur = s.cur := rfl
@[simp] theorem modGroup_cursor : (s.modGroup g f).cursor = s.cursor := rfl
@[simp] theorem modGroup_fresh : (s.modGroup g f).fresh = s.fresh := rfl
@[simp] theorem modGroup_stamp : (s.modGroup g f).stamp = s.stamp := rfl
@[simp] theorem modGroup_freeCtr : (s.modGroup g f).freeCtr = s.freeCtr := rfl
@[simp] theorem modGroup_cmdResult : (s.modGroup g f).cmdResult = s.cmdResult := rfl
end

section
variable (s : State) (h : Nat) (f : Hood → Hood)
@[simp] theorem modHood_clk : (s.modHood h f).clk = s.clk := rfl
@[simp] theorem modHood_tick : (s.modHood h f).tick = s.tick := rfl
@[simp] theorem modHood_tickSet : (s.modHood h f).tickSet = s.tickSet := rfl
@[simp] theorem modHood_power : (s.modHood h f).power = s.power := rfl
@[simp] theorem modHood_sys : (s.modHood h f).sys = s.sys := rfl
@[simp] theorem modHood_drawer : (s.modHood h f).drawer = s.drawer := rfl
@[simp] theorem modHood_drawers : (s.modHood h f).drawers = s.drawers := rfl
@[simp] theorem modHood_dsp : (s.modHood h f).dsp = s.dsp := rfl
@[simp] theorem modHood_threads : (s.modHood h f).threads = s.threads := rfl
@[simp] theorem modHood_groups : (s.modHood h f).groups = s.groups := rfl
@[simp] theorem modHood_launches : (s.modHood h f).launches = s.launches := rfl
@[simp] theorem modHood_heads : (s.modHood h f).heads = s.heads := rfl
@[simp] theorem modHood_waves : (s.modHood h f).waves = s.waves := rfl
@[simp] theorem modHood_cores : (s.modHood h f).cores = s.cores := rfl
@[simp] theorem modHood_streams : (s.modHood h f).streams = s.streams := rfl
@[simp] theorem modHood_copies : (s.modHood h f).copies = s.copies := rfl
@[simp] theorem modHood_passes : (s.modHood h f).passes = s.passes := rfl
@[simp] theorem modHood_reqs : (s.modHood h f).reqs = s.reqs := rfl
@[simp] theorem modHood_l1 : (s.modHood h f).l1 = s.l1 := rfl
@[simp] theorem modHood_l2 : (s.modHood h f).l2 = s.l2 := rfl
@[simp] theorem modHood_icache : (s.modHood h f).icache = s.icache := rfl
@[simp] theorem modHood_tc : (s.modHood h f).tc = s.tc := rfl
@[simp] theorem modHood_remap : (s.modHood h f).remap = s.remap := rfl
@[simp] theorem modHood_faults : (s.modHood h f).faults = s.faults := rfl
@[simp] theorem modHood_fqWait : (s.modHood h f).fqWait = s.fqWait := rfl
@[simp] theorem modHood_stuckQ : (s.modHood h f).stuckQ = s.stuckQ := rfl
@[simp] theorem modHood_servers : (s.modHood h f).servers = s.servers := rfl
@[simp] theorem modHood_routes : (s.modHood h f).routes = s.routes := rfl
@[simp] theorem modHood_builds : (s.modHood h f).builds = s.builds := rfl
@[simp] theorem modHood_unbinds : (s.modHood h f).unbinds = s.unbinds := rfl
@[simp] theorem modHood_hops : (s.modHood h f).hops = s.hops := rfl
@[simp] theorem modHood_routers : (s.modHood h f).routers = s.routers := rfl
@[simp] theorem modHood_tickets : (s.modHood h f).tickets = s.tickets := rfl
@[simp] theorem modHood_turns : (s.modHood h f).turns = s.turns := rfl
@[simp] theorem modHood_found : (s.modHood h f).found = s.found := rfl
@[simp] theorem modHood_clocks : (s.modHood h f).clocks = s.clocks := rfl
@[simp] theorem modHood_links : (s.modHood h f).links = s.links := rfl
@[simp] theorem modHood_rings : (s.modHood h f).rings = s.rings := rfl
@[simp] theorem modHood_saggars : (s.modHood h f).saggars = s.saggars := rfl
@[simp] theorem modHood_offers : (s.modHood h f).offers = s.offers := rfl
@[simp] theorem modHood_wins : (s.modHood h f).wins = s.wins := rfl
@[simp] theorem modHood_watch : (s.modHood h f).watch = s.watch := rfl
@[simp] theorem modHood_deficits : (s.modHood h f).deficits = s.deficits := rfl
@[simp] theorem modHood_ethTurn : (s.modHood h f).ethTurn = s.ethTurn := rfl
@[simp] theorem modHood_rivals : (s.modHood h f).rivals = s.rivals := rfl
@[simp] theorem modHood_ticketTo : (s.modHood h f).ticketTo = s.ticketTo := rfl
@[simp] theorem modHood_sliceNext : (s.modHood h f).sliceNext = s.sliceNext := rfl
@[simp] theorem modHood_domWait : (s.modHood h f).domWait = s.domWait := rfl
@[simp] theorem modHood_frameOff : (s.modHood h f).frameOff = s.frameOff := rfl
@[simp] theorem modHood_pfc : (s.modHood h f).pfc = s.pfc := rfl
@[simp] theorem modHood_flash : (s.modHood h f).flash = s.flash := rfl
@[simp] theorem modHood_lcDue : (s.modHood h f).lcDue = s.lcDue := rfl
@[simp] theorem modHood_lcNext : (s.modHood h f).lcNext = s.lcNext := rfl
@[simp] theorem modHood_spdmLog : (s.modHood h f).spdmLog = s.spdmLog := rfl
@[simp] theorem modHood_inject : (s.modHood h f).inject = s.inject := rfl
@[simp] theorem modHood_struck : (s.modHood h f).struck = s.struck := rfl
@[simp] theorem modHood_scrubFix : (s.modHood h f).scrubFix = s.scrubFix := rfl
@[simp] theorem modHood_ceSeen : (s.modHood h f).ceSeen = s.ceSeen := rfl
@[simp] theorem modHood_outbox : (s.modHood h f).outbox = s.outbox := rfl
@[simp] theorem modHood_inbox : (s.modHood h f).inbox = s.inbox := rfl
@[simp] theorem modHood_cur : (s.modHood h f).cur = s.cur := rfl
@[simp] theorem modHood_cursor : (s.modHood h f).cursor = s.cursor := rfl
@[simp] theorem modHood_fresh : (s.modHood h f).fresh = s.fresh := rfl
@[simp] theorem modHood_stamp : (s.modHood h f).stamp = s.stamp := rfl
@[simp] theorem modHood_freeCtr : (s.modHood h f).freeCtr = s.freeCtr := rfl
@[simp] theorem modHood_cmdResult : (s.modHood h f).cmdResult = s.cmdResult := rfl
end

section
variable (s : State) (c : Nat) (f : CoreState → CoreState)
@[simp] theorem modCore_clk : (s.modCore c f).clk = s.clk := rfl
@[simp] theorem modCore_tick : (s.modCore c f).tick = s.tick := rfl
@[simp] theorem modCore_tickSet : (s.modCore c f).tickSet = s.tickSet := rfl
@[simp] theorem modCore_power : (s.modCore c f).power = s.power := rfl
@[simp] theorem modCore_sys : (s.modCore c f).sys = s.sys := rfl
@[simp] theorem modCore_drawer : (s.modCore c f).drawer = s.drawer := rfl
@[simp] theorem modCore_drawers : (s.modCore c f).drawers = s.drawers := rfl
@[simp] theorem modCore_dsp : (s.modCore c f).dsp = s.dsp := rfl
@[simp] theorem modCore_threads : (s.modCore c f).threads = s.threads := rfl
@[simp] theorem modCore_groups : (s.modCore c f).groups = s.groups := rfl
@[simp] theorem modCore_hoods : (s.modCore c f).hoods = s.hoods := rfl
@[simp] theorem modCore_launches : (s.modCore c f).launches = s.launches := rfl
@[simp] theorem modCore_heads : (s.modCore c f).heads = s.heads := rfl
@[simp] theorem modCore_waves : (s.modCore c f).waves = s.waves := rfl
@[simp] theorem modCore_streams : (s.modCore c f).streams = s.streams := rfl
@[simp] theorem modCore_copies : (s.modCore c f).copies = s.copies := rfl
@[simp] theorem modCore_passes : (s.modCore c f).passes = s.passes := rfl
@[simp] theorem modCore_reqs : (s.modCore c f).reqs = s.reqs := rfl
@[simp] theorem modCore_l1 : (s.modCore c f).l1 = s.l1 := rfl
@[simp] theorem modCore_l2 : (s.modCore c f).l2 = s.l2 := rfl
@[simp] theorem modCore_icache : (s.modCore c f).icache = s.icache := rfl
@[simp] theorem modCore_tc : (s.modCore c f).tc = s.tc := rfl
@[simp] theorem modCore_remap : (s.modCore c f).remap = s.remap := rfl
@[simp] theorem modCore_faults : (s.modCore c f).faults = s.faults := rfl
@[simp] theorem modCore_fqWait : (s.modCore c f).fqWait = s.fqWait := rfl
@[simp] theorem modCore_stuckQ : (s.modCore c f).stuckQ = s.stuckQ := rfl
@[simp] theorem modCore_servers : (s.modCore c f).servers = s.servers := rfl
@[simp] theorem modCore_routes : (s.modCore c f).routes = s.routes := rfl
@[simp] theorem modCore_builds : (s.modCore c f).builds = s.builds := rfl
@[simp] theorem modCore_unbinds : (s.modCore c f).unbinds = s.unbinds := rfl
@[simp] theorem modCore_hops : (s.modCore c f).hops = s.hops := rfl
@[simp] theorem modCore_routers : (s.modCore c f).routers = s.routers := rfl
@[simp] theorem modCore_tickets : (s.modCore c f).tickets = s.tickets := rfl
@[simp] theorem modCore_turns : (s.modCore c f).turns = s.turns := rfl
@[simp] theorem modCore_found : (s.modCore c f).found = s.found := rfl
@[simp] theorem modCore_clocks : (s.modCore c f).clocks = s.clocks := rfl
@[simp] theorem modCore_links : (s.modCore c f).links = s.links := rfl
@[simp] theorem modCore_rings : (s.modCore c f).rings = s.rings := rfl
@[simp] theorem modCore_saggars : (s.modCore c f).saggars = s.saggars := rfl
@[simp] theorem modCore_offers : (s.modCore c f).offers = s.offers := rfl
@[simp] theorem modCore_wins : (s.modCore c f).wins = s.wins := rfl
@[simp] theorem modCore_watch : (s.modCore c f).watch = s.watch := rfl
@[simp] theorem modCore_deficits : (s.modCore c f).deficits = s.deficits := rfl
@[simp] theorem modCore_ethTurn : (s.modCore c f).ethTurn = s.ethTurn := rfl
@[simp] theorem modCore_rivals : (s.modCore c f).rivals = s.rivals := rfl
@[simp] theorem modCore_ticketTo : (s.modCore c f).ticketTo = s.ticketTo := rfl
@[simp] theorem modCore_sliceNext : (s.modCore c f).sliceNext = s.sliceNext := rfl
@[simp] theorem modCore_domWait : (s.modCore c f).domWait = s.domWait := rfl
@[simp] theorem modCore_frameOff : (s.modCore c f).frameOff = s.frameOff := rfl
@[simp] theorem modCore_pfc : (s.modCore c f).pfc = s.pfc := rfl
@[simp] theorem modCore_flash : (s.modCore c f).flash = s.flash := rfl
@[simp] theorem modCore_lcDue : (s.modCore c f).lcDue = s.lcDue := rfl
@[simp] theorem modCore_lcNext : (s.modCore c f).lcNext = s.lcNext := rfl
@[simp] theorem modCore_spdmLog : (s.modCore c f).spdmLog = s.spdmLog := rfl
@[simp] theorem modCore_inject : (s.modCore c f).inject = s.inject := rfl
@[simp] theorem modCore_struck : (s.modCore c f).struck = s.struck := rfl
@[simp] theorem modCore_scrubFix : (s.modCore c f).scrubFix = s.scrubFix := rfl
@[simp] theorem modCore_ceSeen : (s.modCore c f).ceSeen = s.ceSeen := rfl
@[simp] theorem modCore_outbox : (s.modCore c f).outbox = s.outbox := rfl
@[simp] theorem modCore_inbox : (s.modCore c f).inbox = s.inbox := rfl
@[simp] theorem modCore_cur : (s.modCore c f).cur = s.cur := rfl
@[simp] theorem modCore_cursor : (s.modCore c f).cursor = s.cursor := rfl
@[simp] theorem modCore_fresh : (s.modCore c f).fresh = s.fresh := rfl
@[simp] theorem modCore_stamp : (s.modCore c f).stamp = s.stamp := rfl
@[simp] theorem modCore_freeCtr : (s.modCore c f).freeCtr = s.freeCtr := rfl
@[simp] theorem modCore_cmdResult : (s.modCore c f).cmdResult = s.cmdResult := rfl
end

section
variable (s : State) (l : LinkId) (f : LinkState → LinkState)
@[simp] theorem modLink_clk : (s.modLink l f).clk = s.clk := rfl
@[simp] theorem modLink_tick : (s.modLink l f).tick = s.tick := rfl
@[simp] theorem modLink_tickSet : (s.modLink l f).tickSet = s.tickSet := rfl
@[simp] theorem modLink_power : (s.modLink l f).power = s.power := rfl
@[simp] theorem modLink_sys : (s.modLink l f).sys = s.sys := rfl
@[simp] theorem modLink_drawer : (s.modLink l f).drawer = s.drawer := rfl
@[simp] theorem modLink_drawers : (s.modLink l f).drawers = s.drawers := rfl
@[simp] theorem modLink_dsp : (s.modLink l f).dsp = s.dsp := rfl
@[simp] theorem modLink_threads : (s.modLink l f).threads = s.threads := rfl
@[simp] theorem modLink_groups : (s.modLink l f).groups = s.groups := rfl
@[simp] theorem modLink_hoods : (s.modLink l f).hoods = s.hoods := rfl
@[simp] theorem modLink_launches : (s.modLink l f).launches = s.launches := rfl
@[simp] theorem modLink_heads : (s.modLink l f).heads = s.heads := rfl
@[simp] theorem modLink_waves : (s.modLink l f).waves = s.waves := rfl
@[simp] theorem modLink_cores : (s.modLink l f).cores = s.cores := rfl
@[simp] theorem modLink_streams : (s.modLink l f).streams = s.streams := rfl
@[simp] theorem modLink_copies : (s.modLink l f).copies = s.copies := rfl
@[simp] theorem modLink_passes : (s.modLink l f).passes = s.passes := rfl
@[simp] theorem modLink_reqs : (s.modLink l f).reqs = s.reqs := rfl
@[simp] theorem modLink_l1 : (s.modLink l f).l1 = s.l1 := rfl
@[simp] theorem modLink_l2 : (s.modLink l f).l2 = s.l2 := rfl
@[simp] theorem modLink_icache : (s.modLink l f).icache = s.icache := rfl
@[simp] theorem modLink_tc : (s.modLink l f).tc = s.tc := rfl
@[simp] theorem modLink_remap : (s.modLink l f).remap = s.remap := rfl
@[simp] theorem modLink_faults : (s.modLink l f).faults = s.faults := rfl
@[simp] theorem modLink_fqWait : (s.modLink l f).fqWait = s.fqWait := rfl
@[simp] theorem modLink_stuckQ : (s.modLink l f).stuckQ = s.stuckQ := rfl
@[simp] theorem modLink_servers : (s.modLink l f).servers = s.servers := rfl
@[simp] theorem modLink_routes : (s.modLink l f).routes = s.routes := rfl
@[simp] theorem modLink_builds : (s.modLink l f).builds = s.builds := rfl
@[simp] theorem modLink_unbinds : (s.modLink l f).unbinds = s.unbinds := rfl
@[simp] theorem modLink_hops : (s.modLink l f).hops = s.hops := rfl
@[simp] theorem modLink_routers : (s.modLink l f).routers = s.routers := rfl
@[simp] theorem modLink_tickets : (s.modLink l f).tickets = s.tickets := rfl
@[simp] theorem modLink_turns : (s.modLink l f).turns = s.turns := rfl
@[simp] theorem modLink_found : (s.modLink l f).found = s.found := rfl
@[simp] theorem modLink_clocks : (s.modLink l f).clocks = s.clocks := rfl
@[simp] theorem modLink_rings : (s.modLink l f).rings = s.rings := rfl
@[simp] theorem modLink_saggars : (s.modLink l f).saggars = s.saggars := rfl
@[simp] theorem modLink_offers : (s.modLink l f).offers = s.offers := rfl
@[simp] theorem modLink_wins : (s.modLink l f).wins = s.wins := rfl
@[simp] theorem modLink_watch : (s.modLink l f).watch = s.watch := rfl
@[simp] theorem modLink_deficits : (s.modLink l f).deficits = s.deficits := rfl
@[simp] theorem modLink_ethTurn : (s.modLink l f).ethTurn = s.ethTurn := rfl
@[simp] theorem modLink_rivals : (s.modLink l f).rivals = s.rivals := rfl
@[simp] theorem modLink_ticketTo : (s.modLink l f).ticketTo = s.ticketTo := rfl
@[simp] theorem modLink_sliceNext : (s.modLink l f).sliceNext = s.sliceNext := rfl
@[simp] theorem modLink_domWait : (s.modLink l f).domWait = s.domWait := rfl
@[simp] theorem modLink_frameOff : (s.modLink l f).frameOff = s.frameOff := rfl
@[simp] theorem modLink_pfc : (s.modLink l f).pfc = s.pfc := rfl
@[simp] theorem modLink_flash : (s.modLink l f).flash = s.flash := rfl
@[simp] theorem modLink_lcDue : (s.modLink l f).lcDue = s.lcDue := rfl
@[simp] theorem modLink_lcNext : (s.modLink l f).lcNext = s.lcNext := rfl
@[simp] theorem modLink_spdmLog : (s.modLink l f).spdmLog = s.spdmLog := rfl
@[simp] theorem modLink_inject : (s.modLink l f).inject = s.inject := rfl
@[simp] theorem modLink_struck : (s.modLink l f).struck = s.struck := rfl
@[simp] theorem modLink_scrubFix : (s.modLink l f).scrubFix = s.scrubFix := rfl
@[simp] theorem modLink_ceSeen : (s.modLink l f).ceSeen = s.ceSeen := rfl
@[simp] theorem modLink_outbox : (s.modLink l f).outbox = s.outbox := rfl
@[simp] theorem modLink_inbox : (s.modLink l f).inbox = s.inbox := rfl
@[simp] theorem modLink_cur : (s.modLink l f).cur = s.cur := rfl
@[simp] theorem modLink_cursor : (s.modLink l f).cursor = s.cursor := rfl
@[simp] theorem modLink_fresh : (s.modLink l f).fresh = s.fresh := rfl
@[simp] theorem modLink_stamp : (s.modLink l f).stamp = s.stamp := rfl
@[simp] theorem modLink_freeCtr : (s.modLink l f).freeCtr = s.freeCtr := rfl
@[simp] theorem modLink_cmdResult : (s.modLink l f).cmdResult = s.cmdResult := rfl
end

section
variable (s : State)
@[simp] theorem bump_clk : (s.bump).clk = s.clk := rfl
@[simp] theorem bump_tick : (s.bump).tick = s.tick := rfl
@[simp] theorem bump_tickSet : (s.bump).tickSet = s.tickSet := rfl
@[simp] theorem bump_power : (s.bump).power = s.power := rfl
@[simp] theorem bump_sys : (s.bump).sys = s.sys := rfl
@[simp] theorem bump_drawer : (s.bump).drawer = s.drawer := rfl
@[simp] theorem bump_drawers : (s.bump).drawers = s.drawers := rfl
@[simp] theorem bump_dsp : (s.bump).dsp = s.dsp := rfl
@[simp] theorem bump_threads : (s.bump).threads = s.threads := rfl
@[simp] theorem bump_groups : (s.bump).groups = s.groups := rfl
@[simp] theorem bump_hoods : (s.bump).hoods = s.hoods := rfl
@[simp] theorem bump_launches : (s.bump).launches = s.launches := rfl
@[simp] theorem bump_heads : (s.bump).heads = s.heads := rfl
@[simp] theorem bump_waves : (s.bump).waves = s.waves := rfl
@[simp] theorem bump_cores : (s.bump).cores = s.cores := rfl
@[simp] theorem bump_streams : (s.bump).streams = s.streams := rfl
@[simp] theorem bump_copies : (s.bump).copies = s.copies := rfl
@[simp] theorem bump_passes : (s.bump).passes = s.passes := rfl
@[simp] theorem bump_reqs : (s.bump).reqs = s.reqs := rfl
@[simp] theorem bump_l1 : (s.bump).l1 = s.l1 := rfl
@[simp] theorem bump_l2 : (s.bump).l2 = s.l2 := rfl
@[simp] theorem bump_icache : (s.bump).icache = s.icache := rfl
@[simp] theorem bump_tc : (s.bump).tc = s.tc := rfl
@[simp] theorem bump_remap : (s.bump).remap = s.remap := rfl
@[simp] theorem bump_faults : (s.bump).faults = s.faults := rfl
@[simp] theorem bump_fqWait : (s.bump).fqWait = s.fqWait := rfl
@[simp] theorem bump_stuckQ : (s.bump).stuckQ = s.stuckQ := rfl
@[simp] theorem bump_servers : (s.bump).servers = s.servers := rfl
@[simp] theorem bump_routes : (s.bump).routes = s.routes := rfl
@[simp] theorem bump_builds : (s.bump).builds = s.builds := rfl
@[simp] theorem bump_unbinds : (s.bump).unbinds = s.unbinds := rfl
@[simp] theorem bump_hops : (s.bump).hops = s.hops := rfl
@[simp] theorem bump_routers : (s.bump).routers = s.routers := rfl
@[simp] theorem bump_tickets : (s.bump).tickets = s.tickets := rfl
@[simp] theorem bump_turns : (s.bump).turns = s.turns := rfl
@[simp] theorem bump_found : (s.bump).found = s.found := rfl
@[simp] theorem bump_clocks : (s.bump).clocks = s.clocks := rfl
@[simp] theorem bump_links : (s.bump).links = s.links := rfl
@[simp] theorem bump_rings : (s.bump).rings = s.rings := rfl
@[simp] theorem bump_saggars : (s.bump).saggars = s.saggars := rfl
@[simp] theorem bump_offers : (s.bump).offers = s.offers := rfl
@[simp] theorem bump_wins : (s.bump).wins = s.wins := rfl
@[simp] theorem bump_watch : (s.bump).watch = s.watch := rfl
@[simp] theorem bump_deficits : (s.bump).deficits = s.deficits := rfl
@[simp] theorem bump_ethTurn : (s.bump).ethTurn = s.ethTurn := rfl
@[simp] theorem bump_rivals : (s.bump).rivals = s.rivals := rfl
@[simp] theorem bump_ticketTo : (s.bump).ticketTo = s.ticketTo := rfl
@[simp] theorem bump_sliceNext : (s.bump).sliceNext = s.sliceNext := rfl
@[simp] theorem bump_domWait : (s.bump).domWait = s.domWait := rfl
@[simp] theorem bump_frameOff : (s.bump).frameOff = s.frameOff := rfl
@[simp] theorem bump_pfc : (s.bump).pfc = s.pfc := rfl
@[simp] theorem bump_flash : (s.bump).flash = s.flash := rfl
@[simp] theorem bump_lcDue : (s.bump).lcDue = s.lcDue := rfl
@[simp] theorem bump_lcNext : (s.bump).lcNext = s.lcNext := rfl
@[simp] theorem bump_spdmLog : (s.bump).spdmLog = s.spdmLog := rfl
@[simp] theorem bump_inject : (s.bump).inject = s.inject := rfl
@[simp] theorem bump_struck : (s.bump).struck = s.struck := rfl
@[simp] theorem bump_scrubFix : (s.bump).scrubFix = s.scrubFix := rfl
@[simp] theorem bump_ceSeen : (s.bump).ceSeen = s.ceSeen := rfl
@[simp] theorem bump_outbox : (s.bump).outbox = s.outbox := rfl
@[simp] theorem bump_inbox : (s.bump).inbox = s.inbox := rfl
@[simp] theorem bump_cur : (s.bump).cur = s.cur := rfl
@[simp] theorem bump_cursor : (s.bump).cursor = s.cursor := rfl
@[simp] theorem bump_stamp : (s.bump).stamp = s.stamp := rfl
@[simp] theorem bump_freeCtr : (s.bump).freeCtr = s.freeCtr := rfl
@[simp] theorem bump_cmdResult : (s.bump).cmdResult = s.cmdResult := rfl
end

section
variable (s : State) (m : OutMsg)
@[simp] theorem emit_clk : (s.emit m).clk = s.clk := rfl
@[simp] theorem emit_tick : (s.emit m).tick = s.tick := rfl
@[simp] theorem emit_tickSet : (s.emit m).tickSet = s.tickSet := rfl
@[simp] theorem emit_power : (s.emit m).power = s.power := rfl
@[simp] theorem emit_sys : (s.emit m).sys = s.sys := rfl
@[simp] theorem emit_drawer : (s.emit m).drawer = s.drawer := rfl
@[simp] theorem emit_drawers : (s.emit m).drawers = s.drawers := rfl
@[simp] theorem emit_dsp : (s.emit m).dsp = s.dsp := rfl
@[simp] theorem emit_threads : (s.emit m).threads = s.threads := rfl
@[simp] theorem emit_groups : (s.emit m).groups = s.groups := rfl
@[simp] theorem emit_hoods : (s.emit m).hoods = s.hoods := rfl
@[simp] theorem emit_launches : (s.emit m).launches = s.launches := rfl
@[simp] theorem emit_heads : (s.emit m).heads = s.heads := rfl
@[simp] theorem emit_waves : (s.emit m).waves = s.waves := rfl
@[simp] theorem emit_cores : (s.emit m).cores = s.cores := rfl
@[simp] theorem emit_streams : (s.emit m).streams = s.streams := rfl
@[simp] theorem emit_copies : (s.emit m).copies = s.copies := rfl
@[simp] theorem emit_passes : (s.emit m).passes = s.passes := rfl
@[simp] theorem emit_reqs : (s.emit m).reqs = s.reqs := rfl
@[simp] theorem emit_l1 : (s.emit m).l1 = s.l1 := rfl
@[simp] theorem emit_l2 : (s.emit m).l2 = s.l2 := rfl
@[simp] theorem emit_icache : (s.emit m).icache = s.icache := rfl
@[simp] theorem emit_tc : (s.emit m).tc = s.tc := rfl
@[simp] theorem emit_remap : (s.emit m).remap = s.remap := rfl
@[simp] theorem emit_faults : (s.emit m).faults = s.faults := rfl
@[simp] theorem emit_fqWait : (s.emit m).fqWait = s.fqWait := rfl
@[simp] theorem emit_stuckQ : (s.emit m).stuckQ = s.stuckQ := rfl
@[simp] theorem emit_servers : (s.emit m).servers = s.servers := rfl
@[simp] theorem emit_routes : (s.emit m).routes = s.routes := rfl
@[simp] theorem emit_builds : (s.emit m).builds = s.builds := rfl
@[simp] theorem emit_unbinds : (s.emit m).unbinds = s.unbinds := rfl
@[simp] theorem emit_hops : (s.emit m).hops = s.hops := rfl
@[simp] theorem emit_routers : (s.emit m).routers = s.routers := rfl
@[simp] theorem emit_tickets : (s.emit m).tickets = s.tickets := rfl
@[simp] theorem emit_turns : (s.emit m).turns = s.turns := rfl
@[simp] theorem emit_found : (s.emit m).found = s.found := rfl
@[simp] theorem emit_clocks : (s.emit m).clocks = s.clocks := rfl
@[simp] theorem emit_links : (s.emit m).links = s.links := rfl
@[simp] theorem emit_rings : (s.emit m).rings = s.rings := rfl
@[simp] theorem emit_saggars : (s.emit m).saggars = s.saggars := rfl
@[simp] theorem emit_offers : (s.emit m).offers = s.offers := rfl
@[simp] theorem emit_wins : (s.emit m).wins = s.wins := rfl
@[simp] theorem emit_watch : (s.emit m).watch = s.watch := rfl
@[simp] theorem emit_deficits : (s.emit m).deficits = s.deficits := rfl
@[simp] theorem emit_ethTurn : (s.emit m).ethTurn = s.ethTurn := rfl
@[simp] theorem emit_rivals : (s.emit m).rivals = s.rivals := rfl
@[simp] theorem emit_ticketTo : (s.emit m).ticketTo = s.ticketTo := rfl
@[simp] theorem emit_sliceNext : (s.emit m).sliceNext = s.sliceNext := rfl
@[simp] theorem emit_domWait : (s.emit m).domWait = s.domWait := rfl
@[simp] theorem emit_frameOff : (s.emit m).frameOff = s.frameOff := rfl
@[simp] theorem emit_pfc : (s.emit m).pfc = s.pfc := rfl
@[simp] theorem emit_flash : (s.emit m).flash = s.flash := rfl
@[simp] theorem emit_lcDue : (s.emit m).lcDue = s.lcDue := rfl
@[simp] theorem emit_lcNext : (s.emit m).lcNext = s.lcNext := rfl
@[simp] theorem emit_spdmLog : (s.emit m).spdmLog = s.spdmLog := rfl
@[simp] theorem emit_inject : (s.emit m).inject = s.inject := rfl
@[simp] theorem emit_struck : (s.emit m).struck = s.struck := rfl
@[simp] theorem emit_scrubFix : (s.emit m).scrubFix = s.scrubFix := rfl
@[simp] theorem emit_ceSeen : (s.emit m).ceSeen = s.ceSeen := rfl
@[simp] theorem emit_inbox : (s.emit m).inbox = s.inbox := rfl
@[simp] theorem emit_cur : (s.emit m).cur = s.cur := rfl
@[simp] theorem emit_cursor : (s.emit m).cursor = s.cursor := rfl
@[simp] theorem emit_fresh : (s.emit m).fresh = s.fresh := rfl
@[simp] theorem emit_stamp : (s.emit m).stamp = s.stamp := rfl
@[simp] theorem emit_freeCtr : (s.emit m).freeCtr = s.freeCtr := rfl
@[simp] theorem emit_cmdResult : (s.emit m).cmdResult = s.cmdResult := rfl
end

section
variable (s : State) (i : Instr)
@[simp] theorem post_clk : (s.post i).clk = s.clk := rfl
@[simp] theorem post_tick : (s.post i).tick = s.tick := rfl
@[simp] theorem post_tickSet : (s.post i).tickSet = s.tickSet := rfl
@[simp] theorem post_power : (s.post i).power = s.power := rfl
@[simp] theorem post_sys : (s.post i).sys = s.sys := rfl
@[simp] theorem post_drawer : (s.post i).drawer = s.drawer := rfl
@[simp] theorem post_drawers : (s.post i).drawers = s.drawers := rfl
@[simp] theorem post_dsp : (s.post i).dsp = s.dsp := rfl
@[simp] theorem post_threads : (s.post i).threads = s.threads := rfl
@[simp] theorem post_groups : (s.post i).groups = s.groups := rfl
@[simp] theorem post_hoods : (s.post i).hoods = s.hoods := rfl
@[simp] theorem post_launches : (s.post i).launches = s.launches := rfl
@[simp] theorem post_heads : (s.post i).heads = s.heads := rfl
@[simp] theorem post_waves : (s.post i).waves = s.waves := rfl
@[simp] theorem post_cores : (s.post i).cores = s.cores := rfl
@[simp] theorem post_streams : (s.post i).streams = s.streams := rfl
@[simp] theorem post_copies : (s.post i).copies = s.copies := rfl
@[simp] theorem post_passes : (s.post i).passes = s.passes := rfl
@[simp] theorem post_reqs : (s.post i).reqs = s.reqs := rfl
@[simp] theorem post_l1 : (s.post i).l1 = s.l1 := rfl
@[simp] theorem post_l2 : (s.post i).l2 = s.l2 := rfl
@[simp] theorem post_icache : (s.post i).icache = s.icache := rfl
@[simp] theorem post_tc : (s.post i).tc = s.tc := rfl
@[simp] theorem post_remap : (s.post i).remap = s.remap := rfl
@[simp] theorem post_faults : (s.post i).faults = s.faults := rfl
@[simp] theorem post_fqWait : (s.post i).fqWait = s.fqWait := rfl
@[simp] theorem post_stuckQ : (s.post i).stuckQ = s.stuckQ := rfl
@[simp] theorem post_servers : (s.post i).servers = s.servers := rfl
@[simp] theorem post_routes : (s.post i).routes = s.routes := rfl
@[simp] theorem post_builds : (s.post i).builds = s.builds := rfl
@[simp] theorem post_unbinds : (s.post i).unbinds = s.unbinds := rfl
@[simp] theorem post_hops : (s.post i).hops = s.hops := rfl
@[simp] theorem post_routers : (s.post i).routers = s.routers := rfl
@[simp] theorem post_tickets : (s.post i).tickets = s.tickets := rfl
@[simp] theorem post_turns : (s.post i).turns = s.turns := rfl
@[simp] theorem post_found : (s.post i).found = s.found := rfl
@[simp] theorem post_clocks : (s.post i).clocks = s.clocks := rfl
@[simp] theorem post_links : (s.post i).links = s.links := rfl
@[simp] theorem post_rings : (s.post i).rings = s.rings := rfl
@[simp] theorem post_saggars : (s.post i).saggars = s.saggars := rfl
@[simp] theorem post_offers : (s.post i).offers = s.offers := rfl
@[simp] theorem post_wins : (s.post i).wins = s.wins := rfl
@[simp] theorem post_watch : (s.post i).watch = s.watch := rfl
@[simp] theorem post_deficits : (s.post i).deficits = s.deficits := rfl
@[simp] theorem post_ethTurn : (s.post i).ethTurn = s.ethTurn := rfl
@[simp] theorem post_rivals : (s.post i).rivals = s.rivals := rfl
@[simp] theorem post_ticketTo : (s.post i).ticketTo = s.ticketTo := rfl
@[simp] theorem post_sliceNext : (s.post i).sliceNext = s.sliceNext := rfl
@[simp] theorem post_domWait : (s.post i).domWait = s.domWait := rfl
@[simp] theorem post_frameOff : (s.post i).frameOff = s.frameOff := rfl
@[simp] theorem post_pfc : (s.post i).pfc = s.pfc := rfl
@[simp] theorem post_flash : (s.post i).flash = s.flash := rfl
@[simp] theorem post_lcDue : (s.post i).lcDue = s.lcDue := rfl
@[simp] theorem post_lcNext : (s.post i).lcNext = s.lcNext := rfl
@[simp] theorem post_spdmLog : (s.post i).spdmLog = s.spdmLog := rfl
@[simp] theorem post_inject : (s.post i).inject = s.inject := rfl
@[simp] theorem post_struck : (s.post i).struck = s.struck := rfl
@[simp] theorem post_scrubFix : (s.post i).scrubFix = s.scrubFix := rfl
@[simp] theorem post_ceSeen : (s.post i).ceSeen = s.ceSeen := rfl
@[simp] theorem post_outbox : (s.post i).outbox = s.outbox := rfl
@[simp] theorem post_cur : (s.post i).cur = s.cur := rfl
@[simp] theorem post_cursor : (s.post i).cursor = s.cursor := rfl
@[simp] theorem post_fresh : (s.post i).fresh = s.fresh := rfl
@[simp] theorem post_stamp : (s.post i).stamp = s.stamp := rfl
@[simp] theorem post_freeCtr : (s.post i).freeCtr = s.freeCtr := rfl
@[simp] theorem post_cmdResult : (s.post i).cmdResult = s.cmdResult := rfl
end

section
variable (s : State)
@[simp] theorem drawFree_clk : (s.drawFree).clk = s.clk := rfl
@[simp] theorem drawFree_tick : (s.drawFree).tick = s.tick := rfl
@[simp] theorem drawFree_tickSet : (s.drawFree).tickSet = s.tickSet := rfl
@[simp] theorem drawFree_power : (s.drawFree).power = s.power := rfl
@[simp] theorem drawFree_sys : (s.drawFree).sys = s.sys := rfl
@[simp] theorem drawFree_drawer : (s.drawFree).drawer = s.drawer := rfl
@[simp] theorem drawFree_drawers : (s.drawFree).drawers = s.drawers := rfl
@[simp] theorem drawFree_dsp : (s.drawFree).dsp = s.dsp := rfl
@[simp] theorem drawFree_threads : (s.drawFree).threads = s.threads := rfl
@[simp] theorem drawFree_groups : (s.drawFree).groups = s.groups := rfl
@[simp] theorem drawFree_hoods : (s.drawFree).hoods = s.hoods := rfl
@[simp] theorem drawFree_launches : (s.drawFree).launches = s.launches := rfl
@[simp] theorem drawFree_heads : (s.drawFree).heads = s.heads := rfl
@[simp] theorem drawFree_waves : (s.drawFree).waves = s.waves := rfl
@[simp] theorem drawFree_cores : (s.drawFree).cores = s.cores := rfl
@[simp] theorem drawFree_streams : (s.drawFree).streams = s.streams := rfl
@[simp] theorem drawFree_copies : (s.drawFree).copies = s.copies := rfl
@[simp] theorem drawFree_passes : (s.drawFree).passes = s.passes := rfl
@[simp] theorem drawFree_reqs : (s.drawFree).reqs = s.reqs := rfl
@[simp] theorem drawFree_l1 : (s.drawFree).l1 = s.l1 := rfl
@[simp] theorem drawFree_l2 : (s.drawFree).l2 = s.l2 := rfl
@[simp] theorem drawFree_icache : (s.drawFree).icache = s.icache := rfl
@[simp] theorem drawFree_tc : (s.drawFree).tc = s.tc := rfl
@[simp] theorem drawFree_remap : (s.drawFree).remap = s.remap := rfl
@[simp] theorem drawFree_faults : (s.drawFree).faults = s.faults := rfl
@[simp] theorem drawFree_fqWait : (s.drawFree).fqWait = s.fqWait := rfl
@[simp] theorem drawFree_stuckQ : (s.drawFree).stuckQ = s.stuckQ := rfl
@[simp] theorem drawFree_servers : (s.drawFree).servers = s.servers := rfl
@[simp] theorem drawFree_routes : (s.drawFree).routes = s.routes := rfl
@[simp] theorem drawFree_builds : (s.drawFree).builds = s.builds := rfl
@[simp] theorem drawFree_unbinds : (s.drawFree).unbinds = s.unbinds := rfl
@[simp] theorem drawFree_hops : (s.drawFree).hops = s.hops := rfl
@[simp] theorem drawFree_routers : (s.drawFree).routers = s.routers := rfl
@[simp] theorem drawFree_tickets : (s.drawFree).tickets = s.tickets := rfl
@[simp] theorem drawFree_turns : (s.drawFree).turns = s.turns := rfl
@[simp] theorem drawFree_found : (s.drawFree).found = s.found := rfl
@[simp] theorem drawFree_clocks : (s.drawFree).clocks = s.clocks := rfl
@[simp] theorem drawFree_links : (s.drawFree).links = s.links := rfl
@[simp] theorem drawFree_rings : (s.drawFree).rings = s.rings := rfl
@[simp] theorem drawFree_saggars : (s.drawFree).saggars = s.saggars := rfl
@[simp] theorem drawFree_offers : (s.drawFree).offers = s.offers := rfl
@[simp] theorem drawFree_wins : (s.drawFree).wins = s.wins := rfl
@[simp] theorem drawFree_watch : (s.drawFree).watch = s.watch := rfl
@[simp] theorem drawFree_deficits : (s.drawFree).deficits = s.deficits := rfl
@[simp] theorem drawFree_ethTurn : (s.drawFree).ethTurn = s.ethTurn := rfl
@[simp] theorem drawFree_rivals : (s.drawFree).rivals = s.rivals := rfl
@[simp] theorem drawFree_ticketTo : (s.drawFree).ticketTo = s.ticketTo := rfl
@[simp] theorem drawFree_sliceNext : (s.drawFree).sliceNext = s.sliceNext := rfl
@[simp] theorem drawFree_domWait : (s.drawFree).domWait = s.domWait := rfl
@[simp] theorem drawFree_frameOff : (s.drawFree).frameOff = s.frameOff := rfl
@[simp] theorem drawFree_pfc : (s.drawFree).pfc = s.pfc := rfl
@[simp] theorem drawFree_flash : (s.drawFree).flash = s.flash := rfl
@[simp] theorem drawFree_lcDue : (s.drawFree).lcDue = s.lcDue := rfl
@[simp] theorem drawFree_lcNext : (s.drawFree).lcNext = s.lcNext := rfl
@[simp] theorem drawFree_spdmLog : (s.drawFree).spdmLog = s.spdmLog := rfl
@[simp] theorem drawFree_inject : (s.drawFree).inject = s.inject := rfl
@[simp] theorem drawFree_struck : (s.drawFree).struck = s.struck := rfl
@[simp] theorem drawFree_scrubFix : (s.drawFree).scrubFix = s.scrubFix := rfl
@[simp] theorem drawFree_ceSeen : (s.drawFree).ceSeen = s.ceSeen := rfl
@[simp] theorem drawFree_outbox : (s.drawFree).outbox = s.outbox := rfl
@[simp] theorem drawFree_inbox : (s.drawFree).inbox = s.inbox := rfl
@[simp] theorem drawFree_cur : (s.drawFree).cur = s.cur := rfl
@[simp] theorem drawFree_cursor : (s.drawFree).cursor = s.cursor := rfl
@[simp] theorem drawFree_fresh : (s.drawFree).fresh = s.fresh := rfl
@[simp] theorem drawFree_stamp : (s.drawFree).stamp = s.stamp := rfl
@[simp] theorem drawFree_cmdResult : (s.drawFree).cmdResult = s.cmdResult := rfl
end

section
variable (s : State)
@[simp] theorem wakeRetry_clk : (s.wakeRetry).clk = s.clk := rfl
@[simp] theorem wakeRetry_tick : (s.wakeRetry).tick = s.tick := rfl
@[simp] theorem wakeRetry_tickSet : (s.wakeRetry).tickSet = s.tickSet := rfl
@[simp] theorem wakeRetry_power : (s.wakeRetry).power = s.power := rfl
@[simp] theorem wakeRetry_sys : (s.wakeRetry).sys = s.sys := rfl
@[simp] theorem wakeRetry_drawer : (s.wakeRetry).drawer = s.drawer := rfl
@[simp] theorem wakeRetry_drawers : (s.wakeRetry).drawers = s.drawers := rfl
@[simp] theorem wakeRetry_dsp : (s.wakeRetry).dsp = s.dsp := rfl
@[simp] theorem wakeRetry_groups : (s.wakeRetry).groups = s.groups := rfl
@[simp] theorem wakeRetry_hoods : (s.wakeRetry).hoods = s.hoods := rfl
@[simp] theorem wakeRetry_launches : (s.wakeRetry).launches = s.launches := rfl
@[simp] theorem wakeRetry_heads : (s.wakeRetry).heads = s.heads := rfl
@[simp] theorem wakeRetry_waves : (s.wakeRetry).waves = s.waves := rfl
@[simp] theorem wakeRetry_cores : (s.wakeRetry).cores = s.cores := rfl
@[simp] theorem wakeRetry_streams : (s.wakeRetry).streams = s.streams := rfl
@[simp] theorem wakeRetry_copies : (s.wakeRetry).copies = s.copies := rfl
@[simp] theorem wakeRetry_passes : (s.wakeRetry).passes = s.passes := rfl
@[simp] theorem wakeRetry_reqs : (s.wakeRetry).reqs = s.reqs := rfl
@[simp] theorem wakeRetry_l1 : (s.wakeRetry).l1 = s.l1 := rfl
@[simp] theorem wakeRetry_l2 : (s.wakeRetry).l2 = s.l2 := rfl
@[simp] theorem wakeRetry_icache : (s.wakeRetry).icache = s.icache := rfl
@[simp] theorem wakeRetry_tc : (s.wakeRetry).tc = s.tc := rfl
@[simp] theorem wakeRetry_remap : (s.wakeRetry).remap = s.remap := rfl
@[simp] theorem wakeRetry_faults : (s.wakeRetry).faults = s.faults := rfl
@[simp] theorem wakeRetry_fqWait : (s.wakeRetry).fqWait = s.fqWait := rfl
@[simp] theorem wakeRetry_stuckQ : (s.wakeRetry).stuckQ = s.stuckQ := rfl
@[simp] theorem wakeRetry_servers : (s.wakeRetry).servers = s.servers := rfl
@[simp] theorem wakeRetry_routes : (s.wakeRetry).routes = s.routes := rfl
@[simp] theorem wakeRetry_builds : (s.wakeRetry).builds = s.builds := rfl
@[simp] theorem wakeRetry_unbinds : (s.wakeRetry).unbinds = s.unbinds := rfl
@[simp] theorem wakeRetry_hops : (s.wakeRetry).hops = s.hops := rfl
@[simp] theorem wakeRetry_routers : (s.wakeRetry).routers = s.routers := rfl
@[simp] theorem wakeRetry_tickets : (s.wakeRetry).tickets = s.tickets := rfl
@[simp] theorem wakeRetry_turns : (s.wakeRetry).turns = s.turns := rfl
@[simp] theorem wakeRetry_found : (s.wakeRetry).found = s.found := rfl
@[simp] theorem wakeRetry_clocks : (s.wakeRetry).clocks = s.clocks := rfl
@[simp] theorem wakeRetry_links : (s.wakeRetry).links = s.links := rfl
@[simp] theorem wakeRetry_rings : (s.wakeRetry).rings = s.rings := rfl
@[simp] theorem wakeRetry_saggars : (s.wakeRetry).saggars = s.saggars := rfl
@[simp] theorem wakeRetry_offers : (s.wakeRetry).offers = s.offers := rfl
@[simp] theorem wakeRetry_wins : (s.wakeRetry).wins = s.wins := rfl
@[simp] theorem wakeRetry_watch : (s.wakeRetry).watch = s.watch := rfl
@[simp] theorem wakeRetry_deficits : (s.wakeRetry).deficits = s.deficits := rfl
@[simp] theorem wakeRetry_ethTurn : (s.wakeRetry).ethTurn = s.ethTurn := rfl
@[simp] theorem wakeRetry_rivals : (s.wakeRetry).rivals = s.rivals := rfl
@[simp] theorem wakeRetry_ticketTo : (s.wakeRetry).ticketTo = s.ticketTo := rfl
@[simp] theorem wakeRetry_sliceNext : (s.wakeRetry).sliceNext = s.sliceNext := rfl
@[simp] theorem wakeRetry_domWait : (s.wakeRetry).domWait = s.domWait := rfl
@[simp] theorem wakeRetry_frameOff : (s.wakeRetry).frameOff = s.frameOff := rfl
@[simp] theorem wakeRetry_pfc : (s.wakeRetry).pfc = s.pfc := rfl
@[simp] theorem wakeRetry_flash : (s.wakeRetry).flash = s.flash := rfl
@[simp] theorem wakeRetry_lcDue : (s.wakeRetry).lcDue = s.lcDue := rfl
@[simp] theorem wakeRetry_lcNext : (s.wakeRetry).lcNext = s.lcNext := rfl
@[simp] theorem wakeRetry_spdmLog : (s.wakeRetry).spdmLog = s.spdmLog := rfl
@[simp] theorem wakeRetry_inject : (s.wakeRetry).inject = s.inject := rfl
@[simp] theorem wakeRetry_struck : (s.wakeRetry).struck = s.struck := rfl
@[simp] theorem wakeRetry_scrubFix : (s.wakeRetry).scrubFix = s.scrubFix := rfl
@[simp] theorem wakeRetry_ceSeen : (s.wakeRetry).ceSeen = s.ceSeen := rfl
@[simp] theorem wakeRetry_outbox : (s.wakeRetry).outbox = s.outbox := rfl
@[simp] theorem wakeRetry_inbox : (s.wakeRetry).inbox = s.inbox := rfl
@[simp] theorem wakeRetry_cur : (s.wakeRetry).cur = s.cur := rfl
@[simp] theorem wakeRetry_cursor : (s.wakeRetry).cursor = s.cursor := rfl
@[simp] theorem wakeRetry_fresh : (s.wakeRetry).fresh = s.fresh := rfl
@[simp] theorem wakeRetry_stamp : (s.wakeRetry).stamp = s.stamp := rfl
@[simp] theorem wakeRetry_freeCtr : (s.wakeRetry).freeCtr = s.freeCtr := rfl
@[simp] theorem wakeRetry_cmdResult : (s.wakeRetry).cmdResult = s.cmdResult := rfl
end

section
variable (s : State) (k : SrvKey) (x : Server)
@[simp] theorem setSrv_clk : (s.setSrv k x).clk = s.clk := rfl
@[simp] theorem setSrv_tick : (s.setSrv k x).tick = s.tick := rfl
@[simp] theorem setSrv_tickSet : (s.setSrv k x).tickSet = s.tickSet := rfl
@[simp] theorem setSrv_power : (s.setSrv k x).power = s.power := rfl
@[simp] theorem setSrv_sys : (s.setSrv k x).sys = s.sys := rfl
@[simp] theorem setSrv_drawer : (s.setSrv k x).drawer = s.drawer := rfl
@[simp] theorem setSrv_drawers : (s.setSrv k x).drawers = s.drawers := rfl
@[simp] theorem setSrv_dsp : (s.setSrv k x).dsp = s.dsp := rfl
@[simp] theorem setSrv_threads : (s.setSrv k x).threads = s.threads := rfl
@[simp] theorem setSrv_groups : (s.setSrv k x).groups = s.groups := rfl
@[simp] theorem setSrv_hoods : (s.setSrv k x).hoods = s.hoods := rfl
@[simp] theorem setSrv_launches : (s.setSrv k x).launches = s.launches := rfl
@[simp] theorem setSrv_heads : (s.setSrv k x).heads = s.heads := rfl
@[simp] theorem setSrv_waves : (s.setSrv k x).waves = s.waves := rfl
@[simp] theorem setSrv_cores : (s.setSrv k x).cores = s.cores := rfl
@[simp] theorem setSrv_streams : (s.setSrv k x).streams = s.streams := rfl
@[simp] theorem setSrv_copies : (s.setSrv k x).copies = s.copies := rfl
@[simp] theorem setSrv_passes : (s.setSrv k x).passes = s.passes := rfl
@[simp] theorem setSrv_reqs : (s.setSrv k x).reqs = s.reqs := rfl
@[simp] theorem setSrv_l1 : (s.setSrv k x).l1 = s.l1 := rfl
@[simp] theorem setSrv_l2 : (s.setSrv k x).l2 = s.l2 := rfl
@[simp] theorem setSrv_icache : (s.setSrv k x).icache = s.icache := rfl
@[simp] theorem setSrv_tc : (s.setSrv k x).tc = s.tc := rfl
@[simp] theorem setSrv_remap : (s.setSrv k x).remap = s.remap := rfl
@[simp] theorem setSrv_faults : (s.setSrv k x).faults = s.faults := rfl
@[simp] theorem setSrv_fqWait : (s.setSrv k x).fqWait = s.fqWait := rfl
@[simp] theorem setSrv_stuckQ : (s.setSrv k x).stuckQ = s.stuckQ := rfl
@[simp] theorem setSrv_routes : (s.setSrv k x).routes = s.routes := rfl
@[simp] theorem setSrv_builds : (s.setSrv k x).builds = s.builds := rfl
@[simp] theorem setSrv_unbinds : (s.setSrv k x).unbinds = s.unbinds := rfl
@[simp] theorem setSrv_hops : (s.setSrv k x).hops = s.hops := rfl
@[simp] theorem setSrv_routers : (s.setSrv k x).routers = s.routers := rfl
@[simp] theorem setSrv_tickets : (s.setSrv k x).tickets = s.tickets := rfl
@[simp] theorem setSrv_turns : (s.setSrv k x).turns = s.turns := rfl
@[simp] theorem setSrv_found : (s.setSrv k x).found = s.found := rfl
@[simp] theorem setSrv_clocks : (s.setSrv k x).clocks = s.clocks := rfl
@[simp] theorem setSrv_links : (s.setSrv k x).links = s.links := rfl
@[simp] theorem setSrv_rings : (s.setSrv k x).rings = s.rings := rfl
@[simp] theorem setSrv_saggars : (s.setSrv k x).saggars = s.saggars := rfl
@[simp] theorem setSrv_offers : (s.setSrv k x).offers = s.offers := rfl
@[simp] theorem setSrv_wins : (s.setSrv k x).wins = s.wins := rfl
@[simp] theorem setSrv_watch : (s.setSrv k x).watch = s.watch := rfl
@[simp] theorem setSrv_deficits : (s.setSrv k x).deficits = s.deficits := rfl
@[simp] theorem setSrv_ethTurn : (s.setSrv k x).ethTurn = s.ethTurn := rfl
@[simp] theorem setSrv_rivals : (s.setSrv k x).rivals = s.rivals := rfl
@[simp] theorem setSrv_ticketTo : (s.setSrv k x).ticketTo = s.ticketTo := rfl
@[simp] theorem setSrv_sliceNext : (s.setSrv k x).sliceNext = s.sliceNext := rfl
@[simp] theorem setSrv_domWait : (s.setSrv k x).domWait = s.domWait := rfl
@[simp] theorem setSrv_frameOff : (s.setSrv k x).frameOff = s.frameOff := rfl
@[simp] theorem setSrv_pfc : (s.setSrv k x).pfc = s.pfc := rfl
@[simp] theorem setSrv_flash : (s.setSrv k x).flash = s.flash := rfl
@[simp] theorem setSrv_lcDue : (s.setSrv k x).lcDue = s.lcDue := rfl
@[simp] theorem setSrv_lcNext : (s.setSrv k x).lcNext = s.lcNext := rfl
@[simp] theorem setSrv_spdmLog : (s.setSrv k x).spdmLog = s.spdmLog := rfl
@[simp] theorem setSrv_inject : (s.setSrv k x).inject = s.inject := rfl
@[simp] theorem setSrv_struck : (s.setSrv k x).struck = s.struck := rfl
@[simp] theorem setSrv_scrubFix : (s.setSrv k x).scrubFix = s.scrubFix := rfl
@[simp] theorem setSrv_ceSeen : (s.setSrv k x).ceSeen = s.ceSeen := rfl
@[simp] theorem setSrv_outbox : (s.setSrv k x).outbox = s.outbox := rfl
@[simp] theorem setSrv_inbox : (s.setSrv k x).inbox = s.inbox := rfl
@[simp] theorem setSrv_cur : (s.setSrv k x).cur = s.cur := rfl
@[simp] theorem setSrv_cursor : (s.setSrv k x).cursor = s.cursor := rfl
@[simp] theorem setSrv_fresh : (s.setSrv k x).fresh = s.fresh := rfl
@[simp] theorem setSrv_stamp : (s.setSrv k x).stamp = s.stamp := rfl
@[simp] theorem setSrv_freeCtr : (s.setSrv k x).freeCtr = s.freeCtr := rfl
@[simp] theorem setSrv_cmdResult : (s.setSrv k x).cmdResult = s.cmdResult := rfl
end

/-! ### Reads behind updates -/

theorem reg_setReg (s : State) (idx inst i j : Nat) (v : DWord)
    (hk : sysKey i j = sysKey idx inst → i = idx ∧ j = inst) :
    (s.setReg idx inst v).reg i j = if i = idx ∧ j = inst then v else s.reg i j := by
  unfold reg setReg
  by_cases he : i = idx ∧ j = inst
  · obtain ⟨rfl, rfl⟩ := he
    simp [lookupD_putD]
  · have hn : sysKey i j ≠ sysKey idx inst := fun q => he (hk q)
    rw [if_neg he]
    unfold lookupD putD
    dsimp only
    split
    · rw [lookup_del_other _ hn]
    · rw [lookup_put_other _ _ hn]

/-- Register keys of 32-bit instances are distinct. -/
theorem sysKey_inj {i j idx inst : Nat} (hj : j < 4294967296) (hn : inst < 4294967296)
    (h : sysKey i j = sysKey idx inst) : i = idx ∧ j = inst := by
  unfold sysKey at h; omega

theorem thread_of_lookup {s : State} {k : Nat} {th : Thread} (h : lookup s.threads k = some th) : s.thread k = th := by
  simp [thread, lookupD, h]

theorem threads_modThread {s : State} {k : Nat} {th : Thread} (h : lookup s.threads k = some th) (f : Thread → Thread) :
    (s.modThread k f).threads = put s.threads k (f th) := by
  simp [modThread, adjust, h]

theorem lookup_modThread (s : State) (k j : Nat) (f : Thread → Thread) :
    lookup (s.modThread k f).threads j = if j = k then (lookup s.threads j).map f else lookup s.threads j := by
  unfold modThread adjust
  dsimp only
  cases h : lookup s.threads k with
  | none => by_cases hj : j = k <;> simp [hj, h]
  | some th => by_cases hj : j = k <;> simp [hj, h, lookup_put]

theorem lookup_setThread (s : State) (k j : Nat) (th : Thread) :
    lookup (s.setThread k th).threads j = if j = k then some th else lookup s.threads j := lookup_put _ _ _ _

theorem modThread_eq (s : State) (k : Nat) (f : Thread → Thread) :
    s.modThread k f = { s with threads := (s.modThread k f).threads } := rfl

end State
end Sys2Proof.Machine
end

