-- ==== Sys2Proof/Laws/Issue.lean ====
section
/-!
SUPPORT. What an issue does (Ops.lean): the splitting of a fragment changes only tags, the end of an issue only counts it, and
an instruction that rewrites its own thread does so in every active thread of the fragment and nowhere else.
-/
namespace Sys2Proof.Machine
open Sys2Proof.Safety

/-- Two records that differ in the tag alone. -/
def SameButTag (a b : Thread) : Prop := ∃ tag, b = tagged a tag

theorem SameButTag.refl (a : Thread) : SameButTag a a := ⟨a.tag, rfl⟩
theorem SameButTag.trans {a b c : Thread} (h : SameButTag a b) (g : SameButTag b c) : SameButTag a c := by
  obtain ⟨x, rfl⟩ := h; obtain ⟨y, rfl⟩ := g; exact ⟨y, rfl⟩

/-- Changing threads one after another changes each thread of the list once and nothing else. -/
theorem foldl_modThread (g : Nat → Thread → Thread) (ks : List Nat) (s : State) (h : ks.Nodup) :
    ks.foldl (fun t k => t.modThread k (g k)) s =
      { s with threads := (ks.foldl (fun t k => t.modThread k (g k)) s).threads } ∧
    ∀ j, lookup (ks.foldl (fun t k => t.modThread k (g k)) s).threads j =
      if j ∈ ks then (lookup s.threads j).map (g j) else lookup s.threads j := by
  induction ks generalizing s with
  | nil => exact ⟨rfl, fun j => by simp⟩
  | cons k ks ih =>
    simp only [List.nodup_cons] at h
    obtain ⟨h1, h2⟩ := ih (s.modThread k (g k)) h.2
    refine ⟨?_, fun j => ?_⟩
    · simp only [List.foldl_cons]; rw [h1]; rfl
    · simp only [List.foldl_cons]
      rw [h2, State.lookup_modThread]
      by_cases hj : j = k
      · subst hj; simp [h.1]
      · simp [hj]

/-- retag changes nothing but tags and the next fresh tag, and only for the listed threads. -/
theorem retag_spec (s0 : State) (key : Nat → Thread → DWord × Wait) (base : Nat → Nat) (ks : List Nat) (s : State)
    (seen : List (Nat × (DWord × Wait) × Nat)) :
    retag s0 s key base ks seen =
      { s with threads := (retag s0 s key base ks seen).threads, fresh := (retag s0 s key base ks seen).fresh } ∧
    (∀ j, j ∉ ks → lookup (retag s0 s key base ks seen).threads j = lookup s.threads j) ∧
    ∀ j th, lookup s.threads j = some th →
      ∃ th', lookup (retag s0 s key base ks seen).threads j = some th' ∧ SameButTag th th' := by
  induction ks generalizing s seen with
  | nil => exact ⟨rfl, fun _ _ => rfl, fun j th h => ⟨th, h, .refl th⟩⟩
  | cons k ks ih =>
    have skip := ih s seen
    simp only [retag]
    split
    · exact ⟨skip.1, fun j hj => skip.2.1 j (fun q => hj (List.mem_cons_of_mem _ q)), skip.2.2⟩
    · next th hth =>
      split
      · exact ⟨skip.1, fun j hj => skip.2.1 j (fun q => hj (List.mem_cons_of_mem _ q)), skip.2.2⟩
      · generalize splitPart (base th.tag) s.fresh (key k th) seen = part
        generalize seen ++ [(base th.tag, key k th, part.1)] = seen'
        have l : ∀ j, lookup (if part.1 = th.tag then s else s.setThread k { th with tag := part.1 }).threads j =
            if j = k then some (tagged th part.1) else lookup s.threads j := by
          intro j
          split
          · next e =>
            by_cases hj : j = k
            · subst hj; simp [hth, tagged, e]
            · simp [hj]
          · rw [State.lookup_setThread]; rfl
        generalize hs1 : (if part.1 = th.tag then s else s.setThread k { th with tag := part.1 }) = s1 at l
        have e1 : s1 = { s with threads := s1.threads } := by rw [← hs1]; split <;> rfl
        obtain ⟨a, b, c⟩ := ih (if part.2 then s1.bump else s1) seen'
        have th2 : (if part.2 then s1.bump else s1).threads = s1.threads := by split <;> rfl
        have e2 : (if part.2 then s1.bump else s1) =
            { s with threads := s1.threads, fresh := (if part.2 then s1.bump else s1).fresh } := by
          have f1 : s1.fresh = s.fresh := by rw [e1]
          split
          · rw [e1]; rfl
          · rw [f1]; exact e1
        refine ⟨?_, fun j hj => ?_, fun j x hx => ?_⟩
        · rw [a, e2]
        · simp only [List.mem_cons, not_or] at hj
          rw [b j hj.2, th2, l j, if_neg hj.1]
        · by_cases hj : j = k
          · subst hj
            obtain rfl : th = x := by rw [hth] at hx; exact Option.some.inj hx
            obtain ⟨y, hy, hs⟩ := c j (tagged th part.1) (by rw [th2, l j, if_pos rfl])
            exact ⟨y, hy, .trans ⟨part.1, rfl⟩ hs⟩
          · exact c j x (by rw [th2, l j, if_neg hj, hx])

/-- A charge changes servers alone. -/
theorem charge_eq (s : State) (k : SrvKey) (n : Nat) : s.charge k n = { s with servers := (s.charge k n).servers } := by
  have ha : s.arrive k = { s with servers := (s.arrive k).servers } := by
    unfold State.arrive; split <;> rfl
  unfold State.charge
  split
  · rfl
  · simp only [State.setSrv]; rw [ha]

/-- The end of an issue: no fragment is at hand, and waves, servers and turns have counted it. -/
theorem settle_eq (s0 s : State) (ran : Bool) : settle s0 s ran = { s with
    cur := [], waves := (settle s0 s ran).waves, servers := (settle s0 s ran).servers
    turns := (settle s0 s ran).turns, cursor := (settle s0 s ran).cursor } := by
  unfold settle
  dsimp only
  split
  · rfl
  · split
    · rfl
    · split
      · rw [charge_eq]
      · rfl

@[simp] theorem settle_threads (s0 s : State) (ran : Bool) : (settle s0 s ran).threads = s.threads := by
  rw [settle_eq]
@[simp] theorem settle_cur (s0 s : State) (ran : Bool) : (settle s0 s ran).cur = [] := by
  rw [settle_eq]

/-- The end of an issue changes threads' tags alone, beside what it counts. -/
theorem endIssue_spec (s0 s : State) (size : Nat) (left trapped : List Nat) (ran : Bool) :
    OnlyThreads s (endIssue s0 s size left trapped ran) ∧ (endIssue s0 s size left trapped ran).cur = [] ∧
    (∀ k, k ∉ s0.cur → lookup (endIssue s0 s size left trapped ran).threads k = lookup s.threads k) ∧
    ∀ k th, lookup s.threads k = some th → ∃ tag,
      lookup (endIssue s0 s size left trapped ran).threads k = some (tagged th tag) := by
  unfold endIssue
  dsimp only
  obtain ⟨a, b, c⟩ := retag_spec s0
    (splitKey ((s0.thread (s0.cur.headD 0)).pc + BitVec.ofNat 64 size) left trapped)
    (fun t => if ran then (s0.begunTag (s0.thread (s0.cur.headD 0)) s0.cur).getD (s0.thread (s0.cur.headD 0)).tag else t)
    s0.cur s ((s0.begunTag (s0.thread (s0.cur.headD 0)) s0.cur).toList.map fun t =>
      (if ran then (s0.begunTag (s0.thread (s0.cur.headD 0)) s0.cur).getD (s0.thread (s0.cur.headD 0)).tag else t,
        ((s0.thread (s0.cur.headD 0)).pc + BitVec.ofNat 64 size, Wait.none), t))
  refine ⟨?_, settle_cur .., fun k hk => ?_, fun k th hk => ?_⟩
  · unfold OnlyThreads; rw [settle_eq, a]
  · rw [settle_threads, b k hk]
  · obtain ⟨th', l1, tag, rfl⟩ := c k th hk
    exact ⟨tag, by rw [settle_threads, l1]⟩

/-- An issue answers a next state, whatever the instruction does. -/
theorem issue_next (i : Instr) (body : Body) (s : State) : ∃ t, issue i body s = .next t := by
  unfold issue
  split
  · exact ⟨_, rfl⟩
  · dsimp only
    split
    · exact ⟨_, rfl⟩
    · split <;> exact ⟨_, rfl⟩

/-- The fragment as an issue hands it to the bodies. -/
def envOf (i : Instr) (s : State) : Env := ⟨s, s.cur.filter fun k => (s.thread k).active i.head, ordersLanes i.raw.op⟩

/-- The state in which every thread of the fragment stands behind i. -/
def advanced (i : Instr) (s : State) : State := s.cur.foldl (fun t k => t.modThread k (advance i)) s

/-- What Ready says of a thread that takes part. -/
theorem ready_present {i : Instr} {s : State} (h : Ready i s) {k : Nat} (hk : k ∈ (envOf i s).present) :
    preTrap s i k (s.thread k) = none ∧ (compares i.raw.op = true → (s.thread k).skew = false) ∧
      ∀ r ∈ Instr.readRefs i, r ∉ (s.thread k).bad := by
  obtain ⟨hc, ha⟩ := List.mem_filter.1 hk
  obtain ⟨th, h1, h2⟩ := h.clear k hc
  rw [State.thread_of_lookup h1] at ha ⊢
  exact h2 ha

theorem guarded_of_clear {i : Instr} {e : Env} {k : Nat} (h : preTrap e.before i k (e.before.thread k) = none)
    (body : Body) (s : State) : guarded i body e k s = body e k s := by
  simp only [guarded, h]

theorem foldl_guarded {i : Instr} {e : Env} (body : Body) (ks : List Nat) (r : Issued)
    (h : ∀ k ∈ ks, preTrap e.before i k (e.before.thread k) = none) :
    ks.foldl (runLane e (guarded i body)) r = ks.foldl (runLane e body) r := by
  induction ks generalizing r with
  | nil => rfl
  | cons k ks ih =>
    simp only [List.foldl_cons]
    rw [show runLane e (guarded i body) r k = runLane e body r k by
      simp only [runLane, guarded_of_clear (h k (List.mem_cons_self ..))]]
    exact ih _ fun j hj => h j (List.mem_cons_of_mem _ hj)

/-- A ready issue runs its body in every active thread, and ends with the traps the bodies ask for. Where no thread has executed the
instruction, those the guard leaves out have not passed it either. -/
theorem issue_ready {i : Instr} {s : State} (h : Ready i s) (body : Body) :
    issue i body s =
      let e := envOf i s
      let r := e.present.foldl (runLane e body) ⟨advanced i s, [], e.present.isEmpty, [], false⟩
      .next (endIssue s ((if r.ran then r.s
        else (s.cur.filter fun k => !e.present.contains k).foldl (fun t k => t.modThread k (unadvance (s.thread k))) r.s).takeTraps
          r.traps) i.size r.left (r.traps.map Prod.fst) r.ran) := by
  have hp : ((s.cur.filter fun k => (s.thread k).active i.head).filter fun k => (preTrap s i k (s.thread k)).isNone) =
      (envOf i s).present := by
    rw [List.filter_eq_self.2]
    · rfl
    · intro k hk; rw [(ready_present h hk).1]; rfl
  have hs : (compares i.raw.op && (envOf i s).present.any fun k => (s.thread k).skew) = false := by
    cases hc : compares i.raw.op with
    | false => rfl
    | true =>
      simp only [Bool.true_and, List.any_eq_false]
      intro k hk; rw [(ready_present h hk).2.1 hc]; simp
  have hb : badReader s i (envOf i s).present = none := by
    unfold badReader
    rw [List.find?_eq_none]
    intro k hk
    simp only [List.any_eq_true, List.contains_iff_mem, not_exists, not_and]
    exact (ready_present h hk).2.2
  have hf := foldl_guarded (e := envOf i s) body (envOf i s).present
    ⟨advanced i s, [], (envOf i s).present.isEmpty, [], false⟩ fun k hk => (ready_present h hk).1
  unfold issue
  split
  · next hc => exact absurd hc h.cur
  · dsimp only
    rw [hp, hs, hb]
    dsimp only
    rw [if_neg (by simp)]
    have : ({ before := s, present := (envOf i s).present, inOrder := ordersLanes i.raw.op } : Env) = envOf i s := rfl
    rw [this]
    rw [show s.cur.filter (fun k => (s.thread k).active i.head) = (envOf i s).present from rfl]
    rw [show s.cur.foldl (fun t k => t.modThread k (advance i)) s = advanced i s from rfl, hf]

/-- A body that is done in thread k and has changed that thread alone, by g. -/
def Changes (g : Thread → Thread) (k : Nat) (t : State) (l : Lane) : Prop :=
  ∃ u, l = .done u ∧ u = { t with threads := u.threads, waves := u.waves } ∧
    ∀ j, lookup u.threads j = if j = k then (lookup t.threads j).map g else lookup t.threads j

theorem changes_modThread (g : Thread → Thread) (k : Nat) (t : State) : Changes g k t (.done (t.modThread k g)) :=
  ⟨_, rfl, rfl, fun j => State.lookup_modThread t k j g⟩

theorem changes_id (k : Nat) (t : State) : Changes id k t (.done t) :=
  ⟨_, rfl, rfl, fun j => by split <;> simp⟩

/-- A fold of runs of bodies that change their threads alone. -/
theorem foldl_runLane {e : Env} {body : Body} (f : Nat → Thread → Thread) (ks : List Nat) (r : Issued) (hn : ks.Nodup)
    (hs : r.stop = false) (hp : ∀ k ∈ ks, (lookup r.s.threads k).isSome) (hb : ∀ k ∈ ks, ∀ t, Changes (f k) k t (body e k t)) :
    let x := ks.foldl (runLane e body) r
    (x.traps = r.traps ∧ x.left = r.left ∧ x.ran = (r.ran || !ks.isEmpty)) ∧
    x.s = { r.s with threads := x.s.threads, waves := x.s.waves } ∧
    ∀ j, lookup x.s.threads j = if j ∈ ks then (lookup r.s.threads j).map (f j) else lookup r.s.threads j := by
  induction ks generalizing r with
  | nil => exact ⟨⟨rfl, rfl, by simp⟩, rfl, fun j => by simp⟩
  | cons k ks ih =>
    rw [List.nodup_cons] at hn
    obtain ⟨u, hu, h1, h2⟩ := hb k (List.mem_cons_self ..) r.s
    have hk : (lookup r.s.threads k).isNone = false := Option.isNone_eq_false_iff.2 (hp k (List.mem_cons_self ..))
    have e' : runLane e body r k = { r with s := u, ran := true } := by simp only [runLane, hu, hs, hk]; rfl
    have hp' : ∀ j ∈ ks, (lookup u.threads j).isSome := fun j hj => by
      rw [h2]; split
      · simpa using hp j (List.mem_cons_of_mem _ hj)
      · exact hp j (List.mem_cons_of_mem _ hj)
    obtain ⟨⟨a1, a2, a3⟩, b, c⟩ := ih { r with s := u, ran := true } hn.2 hs hp' fun j hj => hb j (List.mem_cons_of_mem _ hj)
    simp only [List.foldl_cons, e']
    refine ⟨⟨a1, a2, by rw [a3]; simp⟩, ?_, fun j => ?_⟩
    · rw [b, h1]
    · rw [c, h2]
      by_cases hj : j = k
      · subst hj; simp [hn.1]
      · simp [hj]

/-- An instruction that rewrites its own thread: Rewrites of Safety.lean holds of it. -/
theorem issue_rewrites {i : Instr} {s : State} (h : Ready i s) (body : Body) (f : Env → Nat → Thread → Thread)
    (hb : ∀ k t, k ∈ (envOf i s).present → Changes (f (envOf i s) k) k t (body (envOf i s) k t)) :
    ∃ t, issue i body s = .next t ∧ OnlyThreads s t ∧ t.cur = [] ∧
      (∀ k, k ∉ s.cur → lookup t.threads k = lookup s.threads k) ∧
      ∀ k ∈ s.cur, ∃ th tag, lookup s.threads k = some th ∧ lookup t.threads k =
        some (tagged (if th.active i.head then f (envOf i s) k (advance i th) else advance i th) tag) := by
  have hi := issue_ready h body
  have hp : ∀ k ∈ (envOf i s).present, (lookup (advanced i s).threads k).isSome := fun k hk => by
    have hc := (List.mem_filter.1 hk).1
    obtain ⟨th, h1, -⟩ := h.clear k hc
    rw [advanced, (foldl_modThread (fun _ => advance i) s.cur s h.nodup).2, if_pos hc, h1]; rfl
  obtain ⟨⟨r1, r2, r3⟩, b1, b2⟩ := foldl_runLane (f (envOf i s)) (envOf i s).present
    ⟨advanced i s, [], (envOf i s).present.isEmpty, [], false⟩ (h.nodup.filter _) rfl hp fun k hk t => hb k t hk
  dsimp only at hi b1 b2 r1 r2 r3
  rw [r1, r2, show _ = true from r3.trans (by cases (envOf i s).present <;> rfl), if_pos rfl] at hi
  generalize ((envOf i s).present.foldl (runLane (envOf i s) body) ⟨advanced i s, [], (envOf i s).present.isEmpty, [], false⟩).s = s4 at hi b1 b2
  obtain ⟨a1, a2⟩ := foldl_modThread (fun _ => advance i) s.cur s h.nodup
  have hs4 : s4 = { s with threads := s4.threads, waves := s4.waves } := b1.trans (by rw [advanced, a1])
  have hi' : issue i body s = .next (endIssue s s4 i.size [] [] true) := hi
  obtain ⟨e1, e2, e3, e4⟩ := endIssue_spec s s4 i.size [] [] true
  generalize endIssue s s4 i.size [] [] true = t' at hi' e1 e2 e3 e4
  refine ⟨t', hi', e1.trans (by rw [hs4]), e2, fun k hk => ?_, fun k hk => ?_⟩
  · have : k ∉ (envOf i s).present := fun q => hk (List.mem_filter.1 q).1
    rw [e3 k hk, b2, if_neg this, advanced, a2, if_neg hk]
  · obtain ⟨th, h1, -⟩ := h.clear k hk
    have ht := State.thread_of_lookup h1
    have h4 : lookup s4.threads k = some (if th.active i.head then f (envOf i s) k (advance i th) else advance i th) := by
      rw [b2, advanced, a2, if_pos hk, h1]
      by_cases ha : th.active i.head = true
      · have : k ∈ (envOf i s).present := List.mem_filter.2 ⟨hk, by rw [ht]; exact ha⟩
        rw [if_pos this, if_pos ha]; rfl
      · have : k ∉ (envOf i s).present := fun q => ha (by have := (List.mem_filter.1 q).2; rwa [ht] at this)
        rw [if_neg this, if_neg ha]; rfl
    obtain ⟨tag, h5⟩ := e4 k _ h4
    exact ⟨th, tag, h1, h5⟩

/-- An instruction whose body changes its thread by a function of the thread alone. -/
theorem issue_onThread {i : Instr} {s : State} (h : Ready i s) (f : Env → Nat → Thread → Thread) :
    ∃ t, issue i (onThread f) s = .next t ∧ OnlyThreads s t ∧ t.cur = [] ∧
      (∀ k, k ∉ s.cur → lookup t.threads k = lookup s.threads k) ∧
      ∀ k ∈ s.cur, ∃ th tag, lookup s.threads k = some th ∧ lookup t.threads k =
        some (tagged (if th.active i.head then f (envOf i s) k (advance i th) else advance i th) tag) :=
  issue_rewrites h _ f fun _ _ _ => changes_modThread ..

/-! ### One thread alone -/

theorem alone_ready {i : Instr} {s : State} {k : Nat} {th : Thread} (h : Alone i s k th) : Ready i s where
  cur := by rw [h.cur]; simp
  nodup := by rw [h.cur]; simp
  clear := by rw [h.cur]; simp only [List.mem_singleton, forall_eq]
              exact ⟨th, h.here, fun _ => ⟨h.clear, h.whole, h.sound⟩⟩

/-- retag leaves a fragment of one thread that no part has gone before as it is. -/
theorem retag_single (s0 s : State) (key : Nat → Thread → DWord × Wait) (k : Nat) :
    retag s0 s key (fun t => t) [k] [] = s := by
  simp only [retag]
  split
  · rfl
  · split
    · rfl
    · simp [splitPart]

/-- The end of an issue of one thread. -/
theorem endIssue_alone {i : Instr} {s : State} {k : Nat} {th : Thread} (h : Alone i s k th) (t : State) (size : Nat)
    (left trapped : List Nat) (ran : Bool) :
    endIssue s t size left trapped ran = settle s t ran := by
  have he := State.thread_of_lookup h.here
  unfold endIssue
  simp only [h.cur, List.headD_cons, he, h.entire, Option.getD_none, Option.toList_none, List.map_nil]
  congr 1
  simp only [retag]
  split
  · rfl
  · split
    · rfl
    · next hu =>
      have hu' := not_not.1 hu
      rw [he] at hu'
      cases ran <;> simp [splitPart, hu']

/-- The state in which the one thread stands behind i. -/
theorem advanced_alone {i : Instr} {s : State} {k : Nat} {th : Thread} (h : Alone i s k th) :
    advanced i s = s.modThread k (advance i) := by
  simp [advanced, h.cur]

theorem envOf_alone {i : Instr} {s : State} {k : Nat} {th : Thread} (h : Alone i s k th) :
    envOf i s = ⟨s, [k], ordersLanes i.raw.op⟩ := by
  have ht := State.thread_of_lookup h.here
  simp [envOf, h.cur, ht, h.active]

/-- The one thread is there when its body runs. -/
theorem here_alone {i : Instr} {s : State} {k : Nat} {th : Thread} (h : Alone i s k th) :
    (lookup (s.modThread k (advance i)).threads k).isNone = false := by
  simp [State.lookup_modThread, h.here]

/-- An instruction that is done in the one thread at hand. -/
theorem issue_done {i : Instr} {s s' : State} {k : Nat} {th : Thread} (h : Alone i s k th) (body : Body)
    (hb : body ⟨s, [k], ordersLanes i.raw.op⟩ k (s.modThread k (advance i)) = .done s') :
    issue i body s = .next (settle s s' true) := by
  rw [issue_ready (alone_ready h), envOf_alone h, advanced_alone h]
  simp only [List.foldl_cons, List.foldl_nil, runLane, here_alone h, hb, Bool.false_eq_true, if_false, if_true, List.map_nil]
  exact congrArg _ (endIssue_alone h _ _ _ _ _)

/-- The same of an instruction whose effect is under way. -/
theorem issue_last {i : Instr} {s s' : State} {k : Nat} {th : Thread} (h : Alone i s k th) (body : Body)
    (hb : body ⟨s, [k], ordersLanes i.raw.op⟩ k (s.modThread k (advance i)) = .last s') :
    issue i body s = .next (settle s s' true) := by
  rw [issue_ready (alone_ready h), envOf_alone h, advanced_alone h]
  simp only [List.foldl_cons, List.foldl_nil, runLane, here_alone h, hb, Bool.false_eq_true, if_false, if_true, List.map_nil]
  exact congrArg _ (endIssue_alone h _ _ _ _ _)

/-- An instruction that traps in the one thread at hand: the thread goes back to the instruction and takes the trap. -/
theorem issue_trap {i : Instr} {s : State} {k : Nat} {th : Thread} (h : Alone i s k th) (body : Body)
    {c : BitVec 8} {v : DWord} {x : Word}
    (hb : body ⟨s, [k], ordersLanes i.raw.op⟩ k (s.modThread k (advance i)) = .trap c v x) :
    issue i body s = .next
      (settle s (((s.modThread k (advance i)).modThread k (unadvance th)).takeTrap k ⟨c, th.pc, v, x⟩) true) := by
  have he := State.thread_of_lookup h.here
  rw [issue_ready (alone_ready h), envOf_alone h, advanced_alone h]
  simp only [List.foldl_cons, List.foldl_nil, runLane, here_alone h, hb, Bool.false_eq_true, if_false, if_true, he, List.nil_append]
  exact congrArg _ (endIssue_alone h _ _ _ _ _)

/-- An instruction that is held in the one thread at hand: the thread goes back to it and waits. -/
theorem issue_hold {i : Instr} {s s' : State} {k : Nat} {th : Thread} (h : Alone i s k th) (body : Body) {w : Wait}
    (hb : body ⟨s, [k], ordersLanes i.raw.op⟩ k (s.modThread k (advance i)) = .hold s' w) :
    issue i body s = .next
      (settle s (s'.modThread k fun u => { unadvance th u with wait := w, since := s.clk }) (th.wait.issued w)) := by
  have he := State.thread_of_lookup h.here
  have hf : s.cur.filter (fun j => !([k] : List Nat).contains j) = [] := by simp [h.cur]
  rw [issue_ready (alone_ready h), envOf_alone h, advanced_alone h]
  simp only [List.foldl_cons, List.foldl_nil, runLane, here_alone h, hb, Bool.false_eq_true, if_false, he, hf, ite_self,
    List.isEmpty_cons, Bool.false_or]
  split <;> exact congrArg _ (endIssue_alone h _ _ _ _ _)

end Sys2Proof.Machine
end

