-- ==== Sys2Proof/Laws/Memory.lean ====
section
/-!
SUPPORT. Laws of byte stores: a read behind a write, and that every operation keeps the canonical form (R8, R359).
-/
namespace Sys2Proof.Machine

theorem wf_iff (m : Store) : Memory.wf m = true ↔ rising m.cells = true ∧ ∀ e ∈ m.cells, e.2 ≠ 0 := by
  simp [Memory.wf]

theorem wf_zero : Memory.wf Store.zero = true := rfl

theorem byte_setByte (m : Store) (a c : Nat) (b : Byte) :
    (m.setByte a b).byte c = if c = a then b else m.byte c := by
  simp only [Store.byte, Store.setByte]
  exact lookupD_putD 0 m.cells a c b

theorem wf_setByte {m : Store} (h : Memory.wf m = true) (a : Nat) (b : Byte) : Memory.wf (m.setByte a b) = true := by
  rw [wf_iff] at h ⊢
  refine ⟨rising_putD 0 h.1 a b, fun e he => ?_⟩
  simp only [Store.setByte, putD] at he
  split at he
  · exact h.2 e (mem_del he)
  · next hb => rcases mem_put he with q | q
               · rw [q]; exact hb
               · exact h.2 e q

theorem wf_write {m : Store} (h : Memory.wf m = true) (a : Nat) (l : Bytes) : Memory.wf (m.write a l) = true := by
  induction l generalizing m a with
  | nil => exact h
  | cons b t ih => exact ih (wf_setByte h a b) (a + 1)

theorem wf_clearPoison {m : Store} (h : Memory.wf m = true) (unit a n : Nat) :
    Memory.wf (m.clearPoison unit a n) = true := h

theorem wf_addPoison {m : Store} (h : Memory.wf m = true) (unit a n : Nat) : Memory.wf (m.addPoison unit a n) = true := h

theorem wf_put {m : Store} (h : Memory.wf m = true) (a : Nat) (l : Bytes) : Memory.wf (m.put a l) = true :=
  wf_clearPoison (wf_write h a l) 8 a l.length

theorem byte_write (m : Store) (a c : Nat) (l : Bytes) :
    (m.write a l).byte c = if a ≤ c ∧ c < a + l.length then l.getD (c - a) 0 else m.byte c := by
  induction l generalizing m a with
  | nil => simp [Store.write]
  | cons b t ih =>
    simp only [Store.write]
    rw [ih, byte_setByte]
    by_cases hc : c = a
    · subst hc; simp
    · by_cases h1 : a + 1 ≤ c ∧ c < a + 1 + t.length
      · have : a ≤ c ∧ c < a + (b :: t).length := by simp; omega
        rw [if_pos h1, if_pos this]
        obtain ⟨d, hd⟩ : ∃ d, c - a = d + 1 := ⟨c - a - 1, by omega⟩
        rw [hd]; simp; congr 1; congr 1; omega
      · have : ¬(a ≤ c ∧ c < a + (b :: t).length) := by simp; omega
        rw [if_neg h1, if_neg this, if_neg hc]

theorem byte_put (m : Store) (a c : Nat) (l : Bytes) :
    (m.put a l).byte c = if a ≤ c ∧ c < a + l.length then l.getD (c - a) 0 else m.byte c := byte_write m a c l

theorem read_length (m : Store) (a n : Nat) : (m.read a n).length = n := by
  induction n generalizing a with
  | zero => rfl
  | succ n ih => simp [Store.read, ih]

end Sys2Proof.Machine
end

