-- ==== Sys2Proof/Laws/Network.lean ====
section
/-!
SUPPORT. What a router output may choose (R321), that the stripes of a flit hold all of it (R370), and that sealing a flit changes its
CRC field alone (R371).
-/
namespace Sys2Proof.Machine

namespace RouterOut

/-- VC3 goes first while its limit stands open (R321). -/
theorem channel_control {r : RouterOut} (h : r.has 3 = true) (open3 : 15 ≤ r.since3) : r.channel = some 3 := by
  simp [channel, h, open3]
/-- VC3 goes on past its limit where nothing else waits (R321). -/
theorem channel_control_alone {r : RouterOut} (h : r.has 3 = true) (h0 : r.has 0 = false) (h1 : r.has 1 = false)
    (h2 : r.has 2 = false) : r.channel = some 3 := by
  simp [channel, h, h0, h1, h2]
/-- VC1 goes next (R321). -/
theorem channel_response {r : RouterOut} (h : r.has 1 = true) (shut : r.has 3 = false ∨ r.since3 < 15) : r.channel = some 1 := by
  rcases shut with s | s <;> simp [channel, h, s, Nat.not_le.mpr]
/-- The packet that passes is one of the channel's that wait (R321). -/
theorem packet_waits {r : RouterOut} {vc now : Nat} {p : NetPacket} (h : r.packet vc now = some p) : p ∈ r.queue ∧ p.vc = vc := by
  have among {q : List NetPacket} {P : NetPacket → Bool} (e : q.find? P = some p) (sub : ∀ x ∈ q, x ∈ r.queue ∧ x.vc = vc) :
      p ∈ r.queue ∧ p.vc = vc := sub p (List.mem_of_find?_eq_some e)
  have own : ∀ x ∈ r.queue.filter (fun p => p.vc == vc), x ∈ r.queue ∧ x.vc = vc := fun x hx => by simpa using hx
  unfold packet at h
  simp only at h
  split at h
  · next e => cases h; exact among e own
  · next e => cases h; exact among e fun x hx => own x (List.mem_of_mem_filter hx)
  · exact among h own

end RouterOut

/-- The eight stripes of a flit, one behind the other, are its data (R370). -/
theorem stripes_join {f : Flit} (h : f.data.length = 128) : ((List.range 8).flatMap fun w => (stripe f w).1) = f.data := by
  have cut (n : Nat) : f.data.drop (16 * n) = (f.data.drop (16 * n)).take 16 ++ f.data.drop (16 * (n + 1)) := by
    have h := (List.take_append_drop 16 (f.data.drop (16 * n))).symm
    rwa [List.drop_drop] at h
  have done : f.data.drop (16 * 8) = [] := List.drop_eq_nil_of_le (by omega)
  conv => rhs; rw [← List.drop_zero (l := f.data), show (0 : Nat) = 16 * 0 from rfl, cut 0, cut 1, cut 2, cut 3, cut 4, cut 5, cut 6, cut 7, done]
  simp [stripe, List.range_succ]

/-- A header with its CRC field set. -/
theorem setCrc_toNat (x : DWord) (v : Nat) : (setBits x 15 0 v).toNat = x.toNat / 65536 * 65536 + v % 65536 := by
  have := x.isLt
  simp only [setBits, BitVec.toNat_ofNat, Nat.reducePow, Nat.reduceAdd, Nat.reduceSub, Nat.div_one, Nat.mul_one] at *
  omega
/-- The other fields of a header with its CRC field set (R371). -/
theorem setCrc_bits {hi lo : Nat} (x : DWord) (v : Nat) (h : 16 ≤ lo) : bits (setBits x 15 0 v) hi lo = bits x hi lo := by
  obtain ⟨n, rfl⟩ := Nat.exists_eq_add_of_le h
  simp only [bits, setCrc_toNat, Nat.pow_add, ← Nat.div_div_eq_div_mul]
  congr 2
  omega
/-- The CRC field of a header in which it has been set (R371). -/
theorem setCrc_low (x : DWord) (v : Nat) : bits (setBits x 15 0 v) 15 0 = v % 65536 := by
  simp only [bits, setCrc_toNat, Nat.reducePow, Nat.reduceAdd, Nat.reduceSub, Nat.div_one]
  omega
/-- The CRC does not cover its own field (R371). -/
theorem flitCrc_setCrc (f : Flit) (v : Nat) : flitCrc { f with hdr := setBits f.hdr 15 0 v } = flitCrc f := by
  simp only [flitCrc, setCrc_toNat]
  congr 3
  omega
/-- A sealed flit holds its CRC (R371). -/
theorem sealFlit_crc (f : Flit) : bits (sealFlit f).hdr 15 0 = (flitCrc (sealFlit f)).toNat := by
  simp only [sealFlit, flitCrc_setCrc, setCrc_low]
  exact Nat.mod_eq_of_lt (flitCrc f).isLt
/-- A sealed flit has the other fields it had (R371). -/
theorem sealFlit_bits {hi lo : Nat} (f : Flit) (h : 16 ≤ lo) : bits (sealFlit f).hdr hi lo = bits f.hdr hi lo := setCrc_bits _ _ h
/-- Sealing makes no code reserved (R371). -/
theorem sealFlit_reserved (f : Flit) : flitReserved (sealFlit f) = flitReserved f := by
  unfold flitReserved flitKind cmdBits
  congr 3
  · rw [sealFlit_bits f (by decide)]
  · congr 1 <;> rw [sealFlit_bits f (by decide)]

end Sys2Proof.Machine
end

