-- ==== Sys2Proof/Laws/PerInstr.lean ====
section
/-!
SUPPORT. A statement for every instruction, one lemma each: an encoded instruction's words keep its guard and LA field (R132,
R134), and an event row has no words, which the reserved length code says (R129).
-/
namespace Sys2Proof.Laws.HeadKept

/-- The words of i keep its head, or i is an event and has no words. -/
def Statement (i : Instr) : Prop := ((i.raw.len == 3#2) = false ∧ i.raw.head = i.head) ∨ i.raw.len = 3#2

theorem iaddS (h : Head) (ty : Ty) (sat : Bool) (sub : Carry) (d : Reg) (a : Reg) (b : Reg) (c : Reg) : Statement (.iaddS h ty sat sub d a b c) :=
  .inl ⟨rfl, rfl⟩
theorem iaddW (h : Head) (ty : Ty) (sat : Bool) (sub : Carry) (d : Reg) (a : Reg) (imm : BitVec 32) (c : Reg) : Statement (.iaddW h ty sat sub d a imm c) :=
  .inl ⟨rfl, rfl⟩
theorem isubS (h : Head) (ty : Ty) (sat : Bool) (sub : Carry) (d : Reg) (a : Reg) (b : Reg) (c : Reg) : Statement (.isubS h ty sat sub d a b c) :=
  .inl ⟨rfl, rfl⟩
theorem isubW (h : Head) (ty : Ty) (sat : Bool) (sub : Carry) (d : Reg) (a : Reg) (imm : BitVec 32) (c : Reg) : Statement (.isubW h ty sat sub d a imm c) :=
  .inl ⟨rfl, rfl⟩
theorem imulS (h : Head) (ty : Ty) (sat : Bool) (d : Reg) (a : Reg) (b : Reg) : Statement (.imulS h ty sat d a b) :=
  .inl ⟨rfl, rfl⟩
theorem imulW (h : Head) (ty : Ty) (sat : Bool) (d : Reg) (a : Reg) (imm : BitVec 32) : Statement (.imulW h ty sat d a imm) :=
  .inl ⟨rfl, rfl⟩
theorem imulhS (h : Head) (ty : Ty) (d : Reg) (a : Reg) (b : Reg) : Statement (.imulhS h ty d a b) := .inl ⟨rfl, rfl⟩
theorem imulhW (h : Head) (ty : Ty) (d : Reg) (a : Reg) (imm : BitVec 32) : Statement (.imulhW h ty d a imm) := .inl ⟨rfl, rfl⟩
theorem imad (h : Head) (ty : Ty) (sat : Bool) (d : Reg) (a : Reg) (b : Reg) (c : Reg) : Statement (.imad h ty sat d a b c) :=
  .inl ⟨rfl, rfl⟩
theorem imadw (h : Head) (ty : Ty) (sat : Bool) (d : Reg) (a : Reg) (b : Reg) (c : Reg) : Statement (.imadw h ty sat d a b c) :=
  .inl ⟨rfl, rfl⟩
theorem idivS (h : Head) (ty : Ty) (d : Reg) (a : Reg) (b : Reg) : Statement (.idivS h ty d a b) := .inl ⟨rfl, rfl⟩
theorem idivW (h : Head) (ty : Ty) (d : Reg) (a : Reg) (imm : BitVec 32) : Statement (.idivW h ty d a imm) := .inl ⟨rfl, rfl⟩
theorem iremS (h : Head) (ty : Ty) (d : Reg) (a : Reg) (b : Reg) : Statement (.iremS h ty d a b) := .inl ⟨rfl, rfl⟩
theorem iremW (h : Head) (ty : Ty) (d : Reg) (a : Reg) (imm : BitVec 32) : Statement (.iremW h ty d a imm) := .inl ⟨rfl, rfl⟩
theorem iminS (h : Head) (ty : Ty) (d : Reg) (a : Reg) (b : Reg) : Statement (.iminS h ty d a b) := .inl ⟨rfl, rfl⟩
theorem iminW (h : Head) (ty : Ty) (d : Reg) (a : Reg) (imm : BitVec 32) : Statement (.iminW h ty d a imm) := .inl ⟨rfl, rfl⟩
theorem imaxS (h : Head) (ty : Ty) (d : Reg) (a : Reg) (b : Reg) : Statement (.imaxS h ty d a b) := .inl ⟨rfl, rfl⟩
theorem imaxW (h : Head) (ty : Ty) (d : Reg) (a : Reg) (imm : BitVec 32) : Statement (.imaxW h ty d a imm) := .inl ⟨rfl, rfl⟩
theorem iabs (h : Head) (ty : Ty) (sat : Bool) (d : Reg) (a : Reg) : Statement (.iabs h ty sat d a) := .inl ⟨rfl, rfl⟩
theorem ineg (h : Head) (ty : Ty) (sat : Bool) (d : Reg) (a : Reg) : Statement (.ineg h ty sat d a) := .inl ⟨rfl, rfl⟩
theorem isad (h : Head) (ty : Ty) (sat : Bool) (d : Reg) (a : Reg) (b : Reg) (c : Reg) : Statement (.isad h ty sat d a b c) :=
  .inl ⟨rfl, rfl⟩
theorem iadd64S (h : Head) (ty : Ty) (sat : Bool) (d : Reg) (a : Reg) (b : Reg) : Statement (.iadd64S h ty sat d a b) :=
  .inl ⟨rfl, rfl⟩
theorem iadd64W (h : Head) (ty : Ty) (sat : Bool) (d : Reg) (a : Reg) (imm : BitVec 32) : Statement (.iadd64W h ty sat d a imm) :=
  .inl ⟨rfl, rfl⟩
theorem isub64S (h : Head) (ty : Ty) (sat : Bool) (d : Reg) (a : Reg) (b : Reg) : Statement (.isub64S h ty sat d a b) :=
  .inl ⟨rfl, rfl⟩
theorem isub64W (h : Head) (ty : Ty) (sat : Bool) (d : Reg) (a : Reg) (imm : BitVec 32) : Statement (.isub64W h ty sat d a imm) :=
  .inl ⟨rfl, rfl⟩
theorem imul64 (h : Head) (ty : Ty) (sat : Bool) (d : Reg) (a : Reg) (b : Reg) : Statement (.imul64 h ty sat d a b) :=
  .inl ⟨rfl, rfl⟩
theorem andS (h : Head) (d : Reg) (a : Reg) (b : Reg) : Statement (.andS h d a b) := .inl ⟨rfl, rfl⟩
theorem andW (h : Head) (d : Reg) (a : Reg) (imm : BitVec 32) : Statement (.andW h d a imm) := .inl ⟨rfl, rfl⟩
theorem orS (h : Head) (d : Reg) (a : Reg) (b : Reg) : Statement (.orS h d a b) := .inl ⟨rfl, rfl⟩
theorem orW (h : Head) (d : Reg) (a : Reg) (imm : BitVec 32) : Statement (.orW h d a imm) := .inl ⟨rfl, rfl⟩
theorem xorS (h : Head) (d : Reg) (a : Reg) (b : Reg) : Statement (.xorS h d a b) := .inl ⟨rfl, rfl⟩
theorem xorW (h : Head) (d : Reg) (a : Reg) (imm : BitVec 32) : Statement (.xorW h d a imm) := .inl ⟨rfl, rfl⟩
theorem andnS (h : Head) (d : Reg) (a : Reg) (b : Reg) : Statement (.andnS h d a b) := .inl ⟨rfl, rfl⟩
theorem andnW (h : Head) (d : Reg) (a : Reg) (imm : BitVec 32) : Statement (.andnW h d a imm) := .inl ⟨rfl, rfl⟩
theorem ornS (h : Head) (d : Reg) (a : Reg) (b : Reg) : Statement (.ornS h d a b) := .inl ⟨rfl, rfl⟩
theorem ornW (h : Head) (d : Reg) (a : Reg) (imm : BitVec 32) : Statement (.ornW h d a imm) := .inl ⟨rfl, rfl⟩
theorem not (h : Head) (d : Reg) (a : Reg) : Statement (.not h d a) := .inl ⟨rfl, rfl⟩
theorem shlS (h : Head) (d : Reg) (a : Reg) (b : Reg) : Statement (.shlS h d a b) := .inl ⟨rfl, rfl⟩
theorem shlW (h : Head) (d : Reg) (a : Reg) (imm : BitVec 32) : Statement (.shlW h d a imm) := .inl ⟨rfl, rfl⟩
theorem shrS (h : Head) (d : Reg) (a : Reg) (b : Reg) : Statement (.shrS h d a b) := .inl ⟨rfl, rfl⟩
theorem shrW (h : Head) (d : Reg) (a : Reg) (imm : BitVec 32) : Statement (.shrW h d a imm) := .inl ⟨rfl, rfl⟩
theorem sarS (h : Head) (d : Reg) (a : Reg) (b : Reg) : Statement (.sarS h d a b) := .inl ⟨rfl, rfl⟩
theorem sarW (h : Head) (d : Reg) (a : Reg) (imm : BitVec 32) : Statement (.sarW h d a imm) := .inl ⟨rfl, rfl⟩
theorem rotS (h : Head) (d : Reg) (a : Reg) (b : Reg) : Statement (.rotS h d a b) := .inl ⟨rfl, rfl⟩
theorem rotW (h : Head) (d : Reg) (a : Reg) (imm : BitVec 32) : Statement (.rotW h d a imm) := .inl ⟨rfl, rfl⟩
theorem fsh (h : Head) (dir : FshDir) (d : Reg) (a : Reg) (b : Reg) (c : Reg) : Statement (.fsh h dir d a b c) :=
  .inl ⟨rfl, rfl⟩
theorem bfx (h : Head) (ty : Ty) (d : Reg) (a : Reg) (b : Reg) (c : Reg) : Statement (.bfx h ty d a b c) := .inl ⟨rfl, rfl⟩
theorem bfi (h : Head) (d : Reg) (a : Reg) (b : Reg) (c : Reg) : Statement (.bfi h d a b c) := .inl ⟨rfl, rfl⟩
theorem popc (h : Head) (wide : Bool) (d : Reg) (a : Reg) : Statement (.popc h wide d a) := .inl ⟨rfl, rfl⟩
theorem clz (h : Head) (wide : Bool) (d : Reg) (a : Reg) : Statement (.clz h wide d a) := .inl ⟨rfl, rfl⟩
theorem ctz (h : Head) (wide : Bool) (d : Reg) (a : Reg) : Statement (.ctz h wide d a) := .inl ⟨rfl, rfl⟩
theorem brev (h : Head) (wide : Bool) (d : Reg) (a : Reg) : Statement (.brev h wide d a) := .inl ⟨rfl, rfl⟩
theorem permS (h : Head) (d : Reg) (a : Reg) (b : Reg) : Statement (.permS h d a b) := .inl ⟨rfl, rfl⟩
theorem permW (h : Head) (d : Reg) (a : Reg) (imm : BitVec 32) : Statement (.permW h d a imm) := .inl ⟨rfl, rfl⟩
theorem isetS (h : Head) (ty : Ty) (cmp : ICmp) (d : Reg) (a : Reg) (b : Reg) : Statement (.isetS h ty cmp d a b) :=
  .inl ⟨rfl, rfl⟩
theorem isetW (h : Head) (ty : Ty) (cmp : ICmp) (d : Reg) (a : Reg) (imm : BitVec 32) : Statement (.isetW h ty cmp d a imm) :=
  .inl ⟨rfl, rfl⟩
theorem isetvS (h : Head) (ty : Ty) (cmp : ICmp) (d : Reg) (a : Reg) (b : Reg) : Statement (.isetvS h ty cmp d a b) :=
  .inl ⟨rfl, rfl⟩
theorem isetvW (h : Head) (ty : Ty) (cmp : ICmp) (d : Reg) (a : Reg) (imm : BitVec 32) : Statement (.isetvW h ty cmp d a imm) :=
  .inl ⟨rfl, rfl⟩
theorem sel (h : Head) (d : Reg) (a : Reg) (b : Reg) (c : Reg) : Statement (.sel h d a b c) := .inl ⟨rfl, rfl⟩
theorem mov (h : Head) (wide : Bool) (d : Reg) (a : Reg) : Statement (.mov h wide d a) := .inl ⟨rfl, rfl⟩
theorem movi (h : Head) (d : Reg) (imm : BitVec 32) : Statement (.movi h d imm) := .inl ⟨rfl, rfl⟩
theorem movw (h : Head) (d : Reg) (imm : BitVec 64) : Statement (.movw h d imm) := .inl ⟨rfl, rfl⟩
theorem plop (h : Head) (tt : BitVec 8) (d : Reg) (a : Reg) (b : Reg) (c : Reg) : Statement (.plop h tt d a b c) :=
  .inl ⟨rfl, rfl⟩
theorem p2v (h : Head) (bit : Bool) (d : Reg) (a : Reg) : Statement (.p2v h bit d a) := .inl ⟨rfl, rfl⟩
theorem v2p (h : Head) (bit : Bool) (d : Reg) (a : Reg) : Statement (.v2p h bit d a) := .inl ⟨rfl, rfl⟩
theorem getid (h : Head) (d : Reg) (code : BitVec 8) : Statement (.getid h d code) := .inl ⟨rfl, rfl⟩
theorem br (h : Head) (cn : Bool) (a : Reg) (imm : BitVec 32) : Statement (.br h cn a imm) := .inl ⟨rfl, rfl⟩
theorem bru (h : Head) (cn : Bool) (a : Reg) (tgt : BruTarget) : Statement (.bru h cn a tgt) := .inl ⟨rfl, rfl⟩
theorem jmp (h : Head) (imm : BitVec 32) : Statement (.jmp h imm) := .inl ⟨rfl, rfl⟩
theorem call (h : Head) (d : Reg) (imm : BitVec 32) : Statement (.call h d imm) := .inl ⟨rfl, rfl⟩
theorem callr (h : Head) (d : Reg) (a : Reg) : Statement (.callr h d a) := .inl ⟨rfl, rfl⟩
theorem ret (h : Head) (a : Reg) : Statement (.ret h a) := .inl ⟨rfl, rfl⟩
theorem reform (h : Head) (a : Reg) (imm : BitVec 32) : Statement (.reform h a imm) := .inl ⟨rfl, rfl⟩
theorem exit (h : Head) : Statement (.exit h) := .inl ⟨rfl, rfl⟩
theorem nopS (h : Head) : Statement (.nopS h) := .inl ⟨rfl, rfl⟩
theorem nopW (h : Head) : Statement (.nopW h) := .inl ⟨rfl, rfl⟩
theorem nopX (h : Head) : Statement (.nopX h) := .inl ⟨rfl, rfl⟩
theorem yield (h : Head) : Statement (.yield h) := .inl ⟨rfl, rfl⟩
theorem nap (h : Head) (a : Reg) : Statement (.nap h a) := .inl ⟨rfl, rfl⟩
theorem faddS (h : Head) (fmt : Fmt) (rnd : Rm) (d : Reg) (a : Reg) (b : Reg) : Statement (.faddS h fmt rnd d a b) :=
  .inl ⟨rfl, rfl⟩
theorem faddW (h : Head) (fmt : Fmt) (rnd : Rm) (d : Reg) (a : Reg) (imm : BitVec 32) : Statement (.faddW h fmt rnd d a imm) :=
  .inl ⟨rfl, rfl⟩
theorem fsubS (h : Head) (fmt : Fmt) (rnd : Rm) (d : Reg) (a : Reg) (b : Reg) : Statement (.fsubS h fmt rnd d a b) :=
  .inl ⟨rfl, rfl⟩
theorem fsubW (h : Head) (fmt : Fmt) (rnd : Rm) (d : Reg) (a : Reg) (imm : BitVec 32) : Statement (.fsubW h fmt rnd d a imm) :=
  .inl ⟨rfl, rfl⟩
theorem fmulS (h : Head) (fmt : Fmt) (rnd : Rm) (d : Reg) (a : Reg) (b : Reg) : Statement (.fmulS h fmt rnd d a b) :=
  .inl ⟨rfl, rfl⟩
theorem fmulW (h : Head) (fmt : Fmt) (rnd : Rm) (d : Reg) (a : Reg) (imm : BitVec 32) : Statement (.fmulW h fmt rnd d a imm) :=
  .inl ⟨rfl, rfl⟩
theorem ffma (h : Head) (fmt : Fmt) (rnd : Rm) (d : Reg) (a : Reg) (b : Reg) (c : Reg) : Statement (.ffma h fmt rnd d a b c) :=
  .inl ⟨rfl, rfl⟩
theorem fdiv (h : Head) (fmt : Fmt) (rnd : Rm) (d : Reg) (a : Reg) (b : Reg) : Statement (.fdiv h fmt rnd d a b) :=
  .inl ⟨rfl, rfl⟩
theorem fminS (h : Head) (fmt : Fmt) (d : Reg) (a : Reg) (b : Reg) : Statement (.fminS h fmt d a b) := .inl ⟨rfl, rfl⟩
theorem fminW (h : Head) (fmt : Fmt) (d : Reg) (a : Reg) (imm : BitVec 32) : Statement (.fminW h fmt d a imm) := .inl ⟨rfl, rfl⟩
theorem fmaxS (h : Head) (fmt : Fmt) (d : Reg) (a : Reg) (b : Reg) : Statement (.fmaxS h fmt d a b) := .inl ⟨rfl, rfl⟩
theorem fmaxW (h : Head) (fmt : Fmt) (d : Reg) (a : Reg) (imm : BitVec 32) : Statement (.fmaxW h fmt d a imm) := .inl ⟨rfl, rfl⟩
theorem fsetS (h : Head) (fmt : Fmt) (cmp : FCmp) (d : Reg) (a : Reg) (b : Reg) : Statement (.fsetS h fmt cmp d a b) :=
  .inl ⟨rfl, rfl⟩
theorem fsetW (h : Head) (fmt : Fmt) (cmp : FCmp) (d : Reg) (a : Reg) (imm : BitVec 32) : Statement (.fsetW h fmt cmp d a imm) :=
  .inl ⟨rfl, rfl⟩
theorem fsetvS (h : Head) (fmt : Fmt) (cmp : FCmp) (d : Reg) (a : Reg) (b : Reg) : Statement (.fsetvS h fmt cmp d a b) :=
  .inl ⟨rfl, rfl⟩
theorem fsetvW (h : Head) (fmt : Fmt) (cmp : FCmp) (d : Reg) (a : Reg) (imm : BitVec 32) : Statement (.fsetvW h fmt cmp d a imm) :=
  .inl ⟨rfl, rfl⟩
theorem fcls (h : Head) (fmt : Fmt) (d : Reg) (a : Reg) : Statement (.fcls h fmt d a) := .inl ⟨rfl, rfl⟩
theorem frnd (h : Head) (fmt : Fmt) (rnd : Rm) (d : Reg) (a : Reg) : Statement (.frnd h fmt rnd d a) := .inl ⟨rfl, rfl⟩
theorem f2i (h : Head) (ty : Ty) (fmt : Fmt) (rnd : Rm) (d : Reg) (a : Reg) : Statement (.f2i h ty fmt rnd d a) :=
  .inl ⟨rfl, rfl⟩
theorem i2f (h : Head) (ty : Ty) (fmt : Fmt) (rnd : Rm) (d : Reg) (a : Reg) : Statement (.i2f h ty fmt rnd d a) :=
  .inl ⟨rfl, rfl⟩
theorem fcvt (h : Head) (dst : Fmt) (src : Fmt) (rnd : Rm) (d : Reg) (a : Reg) : Statement (.fcvt h dst src rnd d a) :=
  .inl ⟨rfl, rfl⟩
theorem rcp (h : Head) (fmt : Fmt) (rnd : Rm) (d : Reg) (a : Reg) : Statement (.rcp h fmt rnd d a) := .inl ⟨rfl, rfl⟩
theorem rsq (h : Head) (fmt : Fmt) (rnd : Rm) (d : Reg) (a : Reg) : Statement (.rsq h fmt rnd d a) := .inl ⟨rfl, rfl⟩
theorem sqrt (h : Head) (fmt : Fmt) (rnd : Rm) (d : Reg) (a : Reg) : Statement (.sqrt h fmt rnd d a) := .inl ⟨rfl, rfl⟩
theorem exp2 (h : Head) (fmt : Fmt) (rnd : Rm) (d : Reg) (a : Reg) : Statement (.exp2 h fmt rnd d a) := .inl ⟨rfl, rfl⟩
theorem log2 (h : Head) (fmt : Fmt) (rnd : Rm) (d : Reg) (a : Reg) : Statement (.log2 h fmt rnd d a) := .inl ⟨rfl, rfl⟩
theorem fstat (h : Head) (d : Reg) : Statement (.fstat h d) := .inl ⟨rfl, rfl⟩
theorem hadd2 (h : Head) (fmt : Fmt) (rnd : Rm) (d : Reg) (a : Reg) (b : Reg) : Statement (.hadd2 h fmt rnd d a b) :=
  .inl ⟨rfl, rfl⟩
theorem hsub2 (h : Head) (fmt : Fmt) (rnd : Rm) (d : Reg) (a : Reg) (b : Reg) : Statement (.hsub2 h fmt rnd d a b) :=
  .inl ⟨rfl, rfl⟩
theorem hmul2 (h : Head) (fmt : Fmt) (rnd : Rm) (d : Reg) (a : Reg) (b : Reg) : Statement (.hmul2 h fmt rnd d a b) :=
  .inl ⟨rfl, rfl⟩
theorem hfma2 (h : Head) (fmt : Fmt) (rnd : Rm) (d : Reg) (a : Reg) (b : Reg) (c : Reg) : Statement (.hfma2 h fmt rnd d a b c) :=
  .inl ⟨rfl, rfl⟩
theorem hmin2 (h : Head) (fmt : Fmt) (d : Reg) (a : Reg) (b : Reg) : Statement (.hmin2 h fmt d a b) := .inl ⟨rfl, rfl⟩
theorem hmax2 (h : Head) (fmt : Fmt) (d : Reg) (a : Reg) (b : Reg) : Statement (.hmax2 h fmt d a b) := .inl ⟨rfl, rfl⟩
theorem hcvt2 (h : Head) (op : HcvtOp) (fmt : Fmt) (rnd : Rm) (d : Reg) (a : Reg) (b : Reg) : Statement (.hcvt2 h op fmt rnd d a b) :=
  .inl ⟨rfl, rfl⟩
theorem vadd2 (h : Head) (ty : Ty) (sat : Bool) (d : Reg) (a : Reg) (b : Reg) : Statement (.vadd2 h ty sat d a b) :=
  .inl ⟨rfl, rfl⟩
theorem vsub2 (h : Head) (ty : Ty) (sat : Bool) (d : Reg) (a : Reg) (b : Reg) : Statement (.vsub2 h ty sat d a b) :=
  .inl ⟨rfl, rfl⟩
theorem vmin2 (h : Head) (ty : Ty) (d : Reg) (a : Reg) (b : Reg) : Statement (.vmin2 h ty d a b) := .inl ⟨rfl, rfl⟩
theorem vmax2 (h : Head) (ty : Ty) (d : Reg) (a : Reg) (b : Reg) : Statement (.vmax2 h ty d a b) := .inl ⟨rfl, rfl⟩
theorem vacsel (h : Head) (sat : Bool) (d : Reg) (a : Reg) (b : Reg) (c : Reg) (sv : Reg) : Statement (.vacsel h sat d a b c sv) :=
  .inl ⟨rfl, rfl⟩
theorem vshf (h : Head) (op : ShfOp) (d : Reg) (c : Reg) (a : Reg) (b : Reg) : Statement (.vshf h op d c a b) := .inl ⟨rfl, rfl⟩
theorem vbfly (h : Head) (d : Reg) (c : Reg) (a : Reg) (mask : BitVec 5) : Statement (.vbfly h d c a mask) := .inl ⟨rfl, rfl⟩
theorem vred (h : Head) (op : RedOp) (ty : Ty) (sat : Bool) (rnd : Rm) (d : Reg) (a : Reg) : Statement (.vred h op ty sat rnd d a) :=
  .inl ⟨rfl, rfl⟩
theorem vscan (h : Head) (op : RedOp) (ty : Ty) (sat : Bool) (rnd : Rm) (d : Reg) (a : Reg) : Statement (.vscan h op ty sat rnd d a) :=
  .inl ⟨rfl, rfl⟩
theorem vote (h : Head) (op : VoteOp) (d : Reg) (a : Reg) : Statement (.vote h op d a) := .inl ⟨rfl, rfl⟩
theorem ldS (h : Head) (ord : Ord) (sc : Scope) (sz : LdSz) (d : Reg) (a : Reg) (am : Am) (off : BitVec 8) : Statement (.ldS h ord sc sz d a am off) :=
  .inl ⟨rfl, rfl⟩
theorem ldW (h : Head) (ord : Ord) (sc : Scope) (sz : LdSz) (d : Reg) (a : Reg) (am : Am) (off : BitVec 32) : Statement (.ldW h ord sc sz d a am off) :=
  .inl ⟨rfl, rfl⟩
theorem stS (h : Head) (ord : Ord) (sc : Scope) (sz : StSz) (d : Reg) (a : Reg) (am : Am) (off : BitVec 8) : Statement (.stS h ord sc sz d a am off) :=
  .inl ⟨rfl, rfl⟩
theorem stW (h : Head) (ord : Ord) (sc : Scope) (sz : StSz) (d : Reg) (a : Reg) (am : Am) (off : BitVec 32) : Statement (.stW h ord sc sz d a am off) :=
  .inl ⟨rfl, rfl⟩
theorem atom (h : Head) (ord : Ord) (sc : Scope) (aop : Aop) (ty : Ty) (d : Reg) (a : Reg) (am : Am) (c : Reg) (off : BitVec 32) : Statement (.atom h ord sc aop ty d a am c off) :=
  .inl ⟨rfl, rfl⟩
theorem acas (h : Head) (ord : Ord) (sc : Scope) (ty : Ty) (d : Reg) (ps : BitVec 7) (a : Reg) (am : Am) (c : Reg) (n : Reg) (off : BitVec 32) : Statement (.acas h ord sc ty d ps a am c n off) :=
  .inl ⟨rfl, rfl⟩
theorem red (h : Head) (ord : Ord) (sc : Scope) (aop : Aop) (ty : Ty) (a : Reg) (am : Am) (c : Reg) (off : BitVec 32) : Statement (.red h ord sc aop ty a am c off) :=
  .inl ⟨rfl, rfl⟩
theorem prefS (h : Head) (lv : PrefLv) (a : Reg) (am : Am) (off : BitVec 8) : Statement (.prefS h lv a am off) :=
  .inl ⟨rfl, rfl⟩
theorem prefW (h : Head) (lv : PrefLv) (a : Reg) (am : Am) (off : BitVec 32) : Statement (.prefW h lv a am off) :=
  .inl ⟨rfl, rfl⟩
theorem cflushS (h : Head) (op : CfOp) (a : Reg) (am : Am) (off : BitVec 8) : Statement (.cflushS h op a am off) :=
  .inl ⟨rfl, rfl⟩
theorem cflushW (h : Head) (op : CfOp) (a : Reg) (am : Am) (off : BitVec 32) : Statement (.cflushW h op a am off) :=
  .inl ⟨rfl, rfl⟩
theorem fence (h : Head) (ord : Ord) (sc : Scope) : Statement (.fence h ord sc) := .inl ⟨rfl, rfl⟩
theorem bar (h : Head) (hood : Bool) (k : BitVec 2) : Statement (.bar h hood k) := .inl ⟨rfl, rfl⟩
theorem bara (h : Head) (d : Reg) (k : BitVec 2) : Statement (.bara h d k) := .inl ⟨rfl, rfl⟩
theorem barw (h : Head) (a : Reg) (k : BitVec 2) : Statement (.barw h a k) := .inl ⟨rfl, rfl⟩
theorem subon (h : Head) (prime : Bool) (d : Reg) (a : Reg) (b : Reg) (c : Reg) (l : Reg) : Statement (.subon h prime d a b c l) :=
  .inl ⟨rfl, rfl⟩
theorem suboff (h : Head) (d : Reg) (a : Reg) : Statement (.suboff h d a) := .inl ⟨rfl, rfl⟩
theorem subq (h : Head) (d : Reg) (a : Reg) : Statement (.subq h d a) := .inl ⟨rfl, rfl⟩
theorem subfl (h : Head) : Statement (.subfl h) := .inl ⟨rfl, rfl⟩
theorem rmac (h : Head) (z : Bool) (d : Reg) (a : Reg) (b : Reg) (desc : MxDesc) : Statement (.rmac h z d a b desc) :=
  .inl ⟨rfl, rfl⟩
theorem rmag (h : Head) (z : Bool) (d : Reg) (a : Reg) (b : Reg) (c : Reg) (desc : MxDesc) : Statement (.rmag h z d a b c desc) :=
  .inl ⟨rfl, rfl⟩
theorem acz (h : Head) (d : Reg) : Statement (.acz h d) := .inl ⟨rfl, rfl⟩
theorem acldS (h : Head) (d : Reg) (a : Reg) (am : Am) (off : BitVec 8) : Statement (.acldS h d a am off) := .inl ⟨rfl, rfl⟩
theorem acldW (h : Head) (d : Reg) (a : Reg) (am : Am) (off : BitVec 32) : Statement (.acldW h d a am off) := .inl ⟨rfl, rfl⟩
theorem acstS (h : Head) (z : Bool) (d : Reg) (a : Reg) (am : Am) (off : BitVec 8) : Statement (.acstS h z d a am off) :=
  .inl ⟨rfl, rfl⟩
theorem acstW (h : Head) (z : Bool) (d : Reg) (a : Reg) (am : Am) (off : BitVec 32) : Statement (.acstW h z d a am off) :=
  .inl ⟨rfl, rfl⟩
theorem acrd (h : Head) (d : Reg) (a : Reg) (e : BitVec 4) : Statement (.acrd h d a e) := .inl ⟨rfl, rfl⟩
theorem acwr (h : Head) (d : Reg) (a : Reg) (e : BitVec 4) : Statement (.acwr h d a e) := .inl ⟨rfl, rfl⟩
theorem acmul (h : Head) (rnd : Rm) (d : Reg) (a : Reg) (b : Reg) : Statement (.acmul h rnd d a b) := .inl ⟨rfl, rfl⟩
theorem cpi (h : Head) (d : Reg) (a : Reg) (b : Reg) (c : Reg) (desc : CpDesc) : Statement (.cpi h d a b c desc) :=
  .inl ⟨rfl, rfl⟩
theorem cpo (h : Head) (d : Reg) (a : Reg) (b : Reg) (c : Reg) (desc : CpDesc) : Statement (.cpo h d a b c desc) :=
  .inl ⟨rfl, rfl⟩
theorem cpl (h : Head) (d : Reg) (a : Reg) (b : Reg) (c : Reg) (desc : CpDesc) : Statement (.cpl h d a b c desc) :=
  .inl ⟨rfl, rfl⟩
theorem cpr (h : Head) (d : Reg) (a : Reg) (b : Reg) (c : Reg) (desc : CpDesc) : Statement (.cpr h d a b c desc) :=
  .inl ⟨rfl, rfl⟩
theorem cpf (h : Head) (d : Reg) (b : Reg) (c : Reg) (desc : CpDesc) : Statement (.cpf h d b c desc) := .inl ⟨rfl, rfl⟩
theorem cpq (h : Head) (d : Reg) (a : Reg) (k : BitVec 2) : Statement (.cpq h d a k) := .inl ⟨rfl, rfl⟩
theorem cpk (h : Head) (d : Reg) (a : Reg) (k : BitVec 2) : Statement (.cpk h d a k) := .inl ⟨rfl, rfl⟩
theorem tlwS (h : Head) (a : Reg) (k : BitVec 2) : Statement (.tlwS h a k) := .inl ⟨rfl, rfl⟩
theorem tlwW (h : Head) (imm : BitVec 32) (k : BitVec 2) : Statement (.tlwW h imm k) := .inl ⟨rfl, rfl⟩
theorem tlwCtr (h : Head) (sc : Scope) (d : Reg) (a : Reg) (am : Am) (off : Off) : Statement (.tlwCtr h sc d a am off) :=
  by cases off <;> exact .inl ⟨rfl, rfl⟩
theorem tlr (h : Head) (iss : Bool) (d : Reg) (k : BitVec 2) : Statement (.tlr h iss d k) := .inl ⟨rfl, rfl⟩
theorem tladv (h : Head) (d : Reg) (k : BitVec 2) : Statement (.tladv h d k) := .inl ⟨rfl, rfl⟩
theorem hire (h : Head) (win : Win) (comb : Comb) (d : Reg) (a : Reg) (c : Reg) (imm : BitVec 32) : Statement (.hire h win comb d a c imm) :=
  .inl ⟨rfl, rfl⟩
theorem hjoin (h : Head) (d : Reg) (a : Reg) (b : Reg) : Statement (.hjoin h d a b) := .inl ⟨rfl, rfl⟩
theorem hsync (h : Head) : Statement (.hsync h) := .inl ⟨rfl, rfl⟩
theorem hrd (h : Head) (d : Reg) (k : BitVec 8) : Statement (.hrd h d k) := .inl ⟨rfl, rfl⟩
theorem hret (h : Head) (a : Reg) : Statement (.hret h a) := .inl ⟨rfl, rfl⟩
theorem hrel (h : Head) : Statement (.hrel h) := .inl ⟨rfl, rfl⟩
theorem lnch (h : Head) (d : Reg) (a : Reg) (q : BitVec 3) : Statement (.lnch h d a q) := .inl ⟨rfl, rfl⟩
theorem trap (h : Head) (n : BitVec 8) : Statement (.trap h n) := .inl ⟨rfl, rfl⟩
theorem bkpt (h : Head) : Statement (.bkpt h) := .inl ⟨rfl, rfl⟩
theorem tret (h : Head) (mode : TretMode) (a : Reg) : Statement (.tret h mode a) := .inl ⟨rfl, rfl⟩
theorem tmfr (h : Head) (d : Reg) (code : BitVec 8) : Statement (.tmfr h d code) := .inl ⟨rfl, rfl⟩
theorem sysr (h : Head) (d : Reg) (a : Reg) (idx : BitVec 16) : Statement (.sysr h d a idx) := .inl ⟨rfl, rfl⟩
theorem sysw (h : Head) (d : Reg) (a : Reg) (idx : BitVec 16) : Statement (.sysw h d a idx) := .inl ⟨rfl, rfl⟩
theorem sysx (h : Head) (d : Reg) (a : Reg) (idx : BitVec 16) : Statement (.sysx h d a idx) := .inl ⟨rfl, rfl⟩
theorem eret (h : Head) : Statement (.eret h) := .inl ⟨rfl, rfl⟩
theorem tinv (h : Head) (kind : TinvKind) (a : Reg) (b : Reg) (c : Reg) : Statement (.tinv h kind a b c) := .inl ⟨rfl, rfl⟩
theorem cinvr (h : Head) (op : CinvOp) (a : Reg) (b : Reg) (c : Reg) : Statement (.cinvr h op a b c) := .inl ⟨rfl, rfl⟩
theorem waiti (h : Head) (d : Reg) (a : Reg) : Statement (.waiti h d a) := .inl ⟨rfl, rfl⟩
theorem hamperAged (core : Nat) (entry : Nat) : Statement (.hamperAged core entry) := .inr rfl
theorem hamperDraw (core : Nat) : Statement (.hamperDraw core) := .inr rfl
theorem waveExchange (core : Nat) (ig : Nat) : Statement (.waveExchange core ig) := .inr rfl
theorem napExpire (core : Nat) (slot : Nat) (tag : Nat) : Statement (.napExpire core slot tag) := .inr rfl
theorem userTrapEntry (th : Nat) (trap : Trap) : Statement (.userTrapEntry th trap) := .inr rfl
theorem supervisorTrapEntry (th : Nat) (trap : Trap) : Statement (.supervisorTrapEntry th trap) := .inr rfl
theorem helperIssueLimit (th : Nat) : Statement (.helperIssueLimit th) := .inr rfl
theorem homeSliceRequest (tag : Nat) : Statement (.homeSliceRequest tag) := .inr rfl
theorem memoryResponse (tag : Nat) (data : Bytes) (poison : Bool) : Statement (.memoryResponse tag data poison) := .inr rfl
theorem domainRequest (req : DomainReq) : Statement (.domainRequest req) := .inr rfl
theorem domainRefused (tag : Nat) : Statement (.domainRefused tag) := .inr rfl
theorem subonRequest (req : SubReq) : Statement (.subonRequest req) := .inr rfl
theorem subonReply (req : SubReq) (status : Nat) : Statement (.subonReply req status) := .inr rfl
theorem primingRead (core : Nat) (entry : Nat) : Statement (.primingRead core entry) := .inr rfl
theorem basketFlushTimer (pub : Nat) (sub : Nat) : Statement (.basketFlushTimer pub sub) := .inr rfl
theorem basketApply (pub : Nat) (sub : Nat) : Statement (.basketApply pub sub) := .inr rfl
theorem matrixPassComplete (pass : Nat) : Statement (.matrixPassComplete pass) := .inr rfl
theorem copyUnit (copy : Nat) : Statement (.copyUnit copy) := .inr rfl
theorem copyComplete (copy : Nat) : Statement (.copyComplete copy) := .inr rfl
theorem serverReplenish (srv : SrvKey) : Statement (.serverReplenish srv) := .inr rfl
theorem packetTake (hq : Nat) : Statement (.packetTake hq) := .inr rfl
theorem hoodPlace (part : Nat) : Statement (.hoodPlace part) := .inr rfl
theorem placementReserve (launch : Nat) : Statement (.placementReserve launch) := .inr rfl
theorem groupLeave (gid : Nat) : Statement (.groupLeave gid) := .inr rfl
theorem gangKill (hood : Nat) (cause : KillCause) : Statement (.gangKill hood cause) := .inr rfl
theorem watchdogExpire (ctx : Nat) : Statement (.watchdogExpire ctx) := .inr rfl
theorem drainComplete (ctx : Nat) : Statement (.drainComplete ctx) := .inr rfl
theorem drainLimitExpire (ctx : Nat) : Statement (.drainLimitExpire ctx) := .inr rfl
theorem saveComplete (ctx : Nat) : Statement (.saveComplete ctx) := .inr rfl
theorem saveIncomplete (ctx : Nat) : Statement (.saveIncomplete ctx) := .inr rfl
theorem sliceExpire (part : Nat) : Statement (.sliceExpire part) := .inr rfl
theorem remoteLaunchRequest (port : Nat) (payload : Bytes) : Statement (.remoteLaunchRequest port payload) := .inr rfl
theorem ethRxFrame (port : Nat) (frame : EthFrame) : Statement (.ethRxFrame port frame) := .inr rfl
theorem ethTxFrame (ring : Nat) : Statement (.ethTxFrame ring) := .inr rfl
theorem enable (ctx : Nat) : Statement (.enable ctx) := .inr rfl
theorem teardown (ctx : Nat) : Statement (.teardown ctx) := .inr rfl
theorem signal (ctx : Nat) : Statement (.signal ctx) := .inr rfl
theorem start (ctx : Nat) : Statement (.start ctx) := .inr rfl
theorem drain (ctx : Nat) : Statement (.drain ctx) := .inr rfl
theorem save (ctx : Nat) : Statement (.save ctx) := .inr rfl
theorem restore (ctx : Nat) : Statement (.restore ctx) := .inr rfl
theorem exportImage (ctx : Nat) : Statement (.exportImage ctx) := .inr rfl
theorem importImage (ctx : Nat) : Statement (.importImage ctx) := .inr rfl
theorem sgig (sg : Nat) (op : BitVec 64) : Statement (.sgig sg op) := .inr rfl
theorem sgmx (sg : Nat) (op : BitVec 64) : Statement (.sgmx sg op) := .inr rfl
theorem sgcp (sg : Nat) (op : BitVec 64) : Statement (.sgcp sg op) := .inr rfl
theorem lsrv (inst : Nat) (op : BitVec 64) : Statement (.lsrv inst op) := .inr rfl
theorem rbind (sg : Nat) (record : Bytes) : Statement (.rbind sg record) := .inr rfl
theorem rbindHopRequest (req : HopReq) : Statement (.rbindHopRequest req) := .inr rfl
theorem rbindHopTimeout (sg : Nat) : Statement (.rbindHopTimeout sg) := .inr rfl
theorem runbind (sg : Nat) (pkg : Nat) : Statement (.runbind sg pkg) := .inr rfl
theorem rmsync (ctx : Nat) : Statement (.rmsync ctx) := .inr rfl
theorem trreplay (fq : Nat) (op : BitVec 64) : Statement (.trreplay fq op) := .inr rfl
theorem frzero (op : BitVec 64) : Statement (.frzero op) := .inr rfl
theorem retire (op : BitVec 64) : Statement (.retire op) := .inr rfl
theorem errinj (op : BitVec 64) : Statement (.errinj op) := .inr rfl
theorem ttcommit (link : LinkId) : Statement (.ttcommit link) := .inr rfl
theorem ttcommitShadowRequest (link : LinkId) (far : List (BitVec 64)) : Statement (.ttcommitShadowRequest link far) := .inr rfl
theorem ttcommitTimeout (link : LinkId) : Statement (.ttcommitTimeout link) := .inr rfl
theorem timetableTakeEffect (link : LinkId) : Statement (.timetableTakeEffect link) := .inr rfl
theorem ringstep (ring : RingId) (op : BitVec 64) : Statement (.ringstep ring op) := .inr rfl
theorem rotate (link : LinkId) (op : BitVec 64) : Statement (.rotate link op) := .inr rfl
theorem lcadv (op : BitVec 64) : Statement (.lcadv op) := .inr rfl
theorem rbadv (op : BitVec 64) : Statement (.rbadv op) := .inr rfl
theorem mrext (mr : Nat) (digest : Bytes) : Statement (.mrext mr digest) := .inr rfl
theorem tbset (op : BitVec 64) : Statement (.tbset op) := .inr rfl
theorem fqcfgWrite (fq : Nat) (v : BitVec 64) : Statement (.fqcfgWrite fq v) := .inr rfl
theorem fqheadWrite (fq : Nat) (v : BitVec 64) : Statement (.fqheadWrite fq v) := .inr rfl
theorem lqcfgWrite (lq : Nat) (v : BitVec 64) : Statement (.lqcfgWrite lq v) := .inr rfl
theorem queueTailWrite (lq : Nat) (v : BitVec 64) (win : Bool) : Statement (.queueTailWrite lq v win) := .inr rfl
theorem erptrTailWrite (ring : Nat) (v : BitVec 64) : Statement (.erptrTailWrite ring v) := .inr rfl
theorem heatWrite (ring : RingId) (v : BitVec 64) : Statement (.heatWrite ring v) := .inr rfl
theorem registerWrite (idx : Nat) (inst : Nat) (v : BitVec 64) : Statement (.registerWrite idx inst v) := .inr rfl
theorem hostSelWrite (fn : Nat) (v : BitVec 64) : Statement (.hostSelWrite fn v) := .inr rfl
theorem hostDataRead (fn : Nat) : Statement (.hostDataRead fn) := .inr rfl
theorem hostDataWrite (fn : Nat) (v : BitVec 64) : Statement (.hostDataWrite fn v) := .inr rfl
theorem hostExecWrite (fn : Nat) (v : BitVec 64) : Statement (.hostExecWrite fn v) := .inr rfl
theorem refreshFrame (link : Nat) : Statement (.refreshFrame link) := .inr rfl
theorem scrubReturn (link : Nat) (line : Nat) (status : ScrubStatus) : Statement (.scrubReturn link line status) := .inr rfl
theorem scrubRepair (link : Nat) : Statement (.scrubRepair link) := .inr rfl
theorem linkSlot (link : LinkId) (pos : Nat) : Statement (.linkSlot link pos) := .inr rfl
theorem drawerCommandExecute (link : Nat) (flit : Flit) : Statement (.drawerCommandExecute link flit) := .inr rfl
theorem flitReceive (link : LinkId) (flit : Flit) : Statement (.flitReceive link flit) := .inr rfl
theorem handBack (link : LinkId) (dir : Dir) (wl : Nat) (slot : Nat) : Statement (.handBack link dir wl slot) := .inr rfl
theorem wavelengthTrained (link : LinkId) (dir : Dir) (wl : Nat) : Statement (.wavelengthTrained link dir wl) := .inr rfl
theorem wavelengthRejoin (link : LinkId) (dir : Dir) (wl : Nat) : Statement (.wavelengthRejoin link dir wl) := .inr rfl
theorem wlthrWindowEnd (link : LinkId) (wl : Nat) : Statement (.wlthrWindowEnd link wl) := .inr rfl
theorem linkDown (link : LinkId) : Statement (.linkDown link) := .inr rfl
theorem linkDownTimeout (link : LinkId) : Statement (.linkDownTimeout link) := .inr rfl
theorem linkTrainDone (link : LinkId) (fout : Nat) (fin : Nat) (eoff : Nat) (peer : Nat) : Statement (.linkTrainDone link fout fin eoff peer) :=
  .inr rfl
theorem heatTakeEffect (ring : RingId) : Statement (.heatTakeEffect ring) := .inr rfl
theorem rotateTakeEffect (link : LinkId) (dir : Dir) : Statement (.rotateTakeEffect link dir) := .inr rfl
theorem settleEnd (ring : RingId) : Statement (.settleEnd ring) := .inr rfl
theorem monUpdate (ring : RingId) (reading : Nat) : Statement (.monUpdate ring reading) := .inr rfl
theorem powerOn (bundle : Bundle) : Statement (.powerOn bundle) := .inr rfl
theorem wipeDone : Statement (.wipeDone) := .inr rfl
theorem pcieEnumeration : Statement (.pcieEnumeration) := .inr rfl
theorem resetRequest : Statement (.resetRequest) := .inr rfl
theorem thermalTrip (die : Nat) : Statement (.thermalTrip die) := .inr rfl
theorem temperatureSample (die : Nat) (tj : BitVec 12) : Statement (.temperatureSample die tj) := .inr rfl
theorem functionLevelReset (vf : Nat) : Statement (.functionLevelReset vf) := .inr rfl
theorem getVersion (fn : Nat) (msg : Bytes) : Statement (.getVersion fn msg) := .inr rfl
theorem getCapabilities (fn : Nat) (msg : Bytes) : Statement (.getCapabilities fn msg) := .inr rfl
theorem negotiateAlgorithms (fn : Nat) (msg : Bytes) : Statement (.negotiateAlgorithms fn msg) := .inr rfl
theorem getDigests (fn : Nat) (msg : Bytes) : Statement (.getDigests fn msg) := .inr rfl
theorem getCertificate (fn : Nat) (msg : Bytes) : Statement (.getCertificate fn msg) := .inr rfl
theorem challenge (fn : Nat) (msg : Bytes) : Statement (.challenge fn msg) := .inr rfl
theorem getMeasurements (fn : Nat) (msg : Bytes) : Statement (.getMeasurements fn msg) := .inr rfl
theorem spdmUnsupportedRequest (fn : Nat) (msg : Bytes) : Statement (.spdmUnsupportedRequest fn msg) := .inr rfl
theorem ctxevtTime (ctx : Nat) : Statement (.ctxevtTime ctx) := .inr rfl
theorem powerLoss : Statement (.powerLoss) := .inr rfl

end Sys2Proof.Laws.HeadKept
end

