-- ==== Sys2Proof/Tests/Slice0.lean ====
section
/-!
SUPPORT. Tests of the model, and witnesses for the hypotheses of the statements. Expected results come from the spec's worked
examples and encodings or from a calculation by hand; each is a named theorem the kernel evaluates.
-/
namespace Sys2Proof.Tests
open Sys2Proof Sys2Proof.Machine Sys2Proof.Safety Sys2Proof.Terms
set_option Elab.async false

/-! ### Ill-formed terms: one for each check of WellFormed -/

def h0 : Head := ⟨127, false, 0⟩
theorem test_ill_guard : (Instr.nopS ⟨96, false, 0⟩).wellFormed = false := by decide
theorem test_ill_type : (Instr.iaddS h0 .f32 false .none 2 3 4 0).wellFormed = false := by decide
theorem test_ill_lookahead : (Instr.nopS ⟨127, false, 1⟩).wellFormed = false := by decide
theorem test_ill_pair : (Instr.movw h0 3 0).wellFormed = false := by decide
theorem test_ill_distance : (Instr.br h0 false 1 2).wellFormed = false := by decide
theorem test_ill_reserved : (Instr.iaddS h0 .s32 false .none 2 3 4 1).wellFormed = false := by decide
def word (fn : BitVec 10) (c b a d : BitVec 8) (op : BitVec 8) (len : BitVec 2) (ext : BitVec 64) : BitVec 128 :=
  ext ++ fn ++ 0#4 ++ c ++ b ++ a ++ d ++ 0#1 ++ 127#7 ++ op ++ len
/-- What the decoder answers on the words of those terms: TAUX 2, 6, 7, 8 and 5 of R140; an IADD with SUB 6 and an HCVT2.UPK with
a nonzero B are refused. -/
theorem test_rejects : decodeWord (words 0x00018120 0 0 0) = .error 2 ∧
    decodeWord (words 0x080DFC00 0x02000010 0 0) = .error 6 ∧ decodeWord (words 0x0001FD20 0x00040000 0 0) = .error 7 ∧
    decodeWord (words 0x000DFCD6 0 0 0) = .error 8 ∧ decodeWord (words 0x0801FC00 0x01000400 0 0) = .error 5 ∧
    decodeWord (words 0x0001FFFC 0 0 0) = .error 3 ∧ decodeWord (words 3 0 0 0) = .error 1 ∧
    decodeWord (words 0x0011FC00 0xC1400008 0 0) = .error 6 ∧ decodeWord (word 0b0010001001#10 0 4 3 2 0x86 0 0) = .error 5 := by
  decide +kernel

/-! ### Words written out field by field (R132, R133): FN, LA, C, B, A, D, GN, G, OP, LEN -/

/-- Float: FADD.F32.RZ; a comparison; FFMA. -/
theorem test_word_float : decodeWord (word 0b0000011000#10 0 4 3 2 0x60 0 0) = .ok (.faddS h0 .f32 .rz 2 3 4) := by decide +kernel
/-- Logic and compare: FSH.L, ISET.LT.S32. -/
theorem test_word_integer : decodeWord (word 0b0010000000#10 5 4 3 2 0x1A 0 0) = .ok (.fsh h0 .left 2 3 4 5) ∧
    decodeWord (word 0b0100000100#10 0 4 3 2 0x30 0 0) = .ok (.isetS h0 .s32 .lt 2 3 4) := by decide +kernel
/-- Cross-lane: VSHF.UP, VOTE.BAL. -/
theorem test_word_lanes : decodeWord (word 0b0010000000#10 7 4 3 2 0x90 0 0) = .ok (.vshf h0 .up 2 7 3 4) ∧
    decodeWord (word 0b0110000000#10 0 0 7 2 0x94 0 0) = .ok (.vote h0 .bal 2 7) := by decide +kernel
/-- Control: YIELD; memory: FENCE.SEQ.D; barriers: BARA; timelines: TLR.ISS; subscriptions: SUBQ. -/
theorem test_word_sync : decodeWord (word 0 0 0 0 0 0x49 0 0) = .ok (.yield h0) ∧
    decodeWord (word 0b1001000000#10 0 0 0 0 0xA7 0 0) = .ok (.fence h0 .seq .d) ∧
    decodeWord (word 0b0000100011#10 0 0 0 4 0xA9 0 0) = .ok (.bara h0 4 3) ∧
    decodeWord (word 0b0000001010#10 0 0 0 4 0xD9 0 0) = .ok (.tlr h0 true 4 2) ∧
    decodeWord (word 0 0 0 3 4 0xAD 0 0) = .ok (.subq h0 4 3) := by decide +kernel
/-- Accumulators: ACRD; copies: CPQ; helpers: HRD; traps: TRAP; system: SYSR, WAITI; the packed family: HADD2.BF16.RP. -/
theorem test_word_rest : decodeWord (word 0b0000001011#10 0 0 1 2 0xC5 0 0) = .ok (.acrd h0 2 1 11) ∧
    decodeWord (word 0b0000000001#10 0 0 6 4 0xD5 0 0) = .ok (.cpq h0 4 6 1) ∧
    decodeWord (word 0 0 0 9 4 0xE3 0 0) = .ok (.hrd h0 4 9) ∧ decodeWord (word 0 255 0 0 0 0xE7 0 0) = .ok (.trap h0 255) ∧
    decodeWord (word 0 0x10 0x03 2 6 0xF0 0 0) = .ok (.sysr h0 6 2 0x1003) ∧
    decodeWord (word 0 0 0 2 6 0xF6 0 0) = .ok (.waiti h0 6 2) ∧
    decodeWord (word 0b0000101010#10 0 4 3 2 0x80 0 0) = .ok (.hadd2 h0 .bf16 .rp 2 3 4) := by decide +kernel

/-! ### A small state: one thread of one group, at a privilege -/

def key : Nat := threadKey 3 0 0
def pkt0 : Packet :=
  { Packet.zero with
    entry := 0x1000, nx := 1, ny := 1, nz := 1, hw := 1, hh := 1, hg := 1, gx := 4, gy := 1, gz := 1
    regs := 256, acc := 64, slice := 256, scratch := 65536, handler := 0x2000 }
def th0 : Thread := { Thread.zero with gid := 3, tag := 1, pc := 0x1000 }
def group0 : Group := { Group.zero with launch := 1, hood := 2, n := 4, slots := [0, 1] }
def sysAs (priv : Nat) : Cells DWord :=
  [(sysKey 0x1000 0, setBits 0 62 61 priv), (sysKey 0x1002 0, 0x3000), (sysKey 0x1003 0, setBits 0 63 61 2)]
/-- The thread alone in the fragment at hand, its context at a privilege and RUNNING, CTXVEC = 0x3000. -/
def as (priv : Nat) (th : Thread) : State :=
  { State.reset with
    sys := sysAs priv, threads := [(key, th)], cur := [key], fresh := 10, groups := [(3, group0)]
    launches := [(1, { Launch.zero with pkt := pkt0 })], hoods := [(2, { Hood.zero with launch := 1, groups := [3] })] }
/-- The thread with registers set. -/
def regs (l : Cells Word) : Thread := { th0 with v := l }
/-- The thread behind one instruction. -/
def after (i : Instr) (s : State) : Option Thread :=
  match exec i s with
  | .next t => lookup t.threads key
  | _ => none
/-- A vector register of the thread behind one instruction. -/
def v_ (i : Instr) (l : Cells Word) (r : Reg) : Option Word := (after i (as 0 (regs l))).map (·.rv r)
/-- A vector register and the FP flags behind it. -/
def vf_ (i : Instr) (l : Cells Word) (r : Reg) : Option (Word × BitVec 5) := (after i (as 0 (regs l))).map fun t => (t.rv r, t.fp)

/-! ### Results of the spec's worked examples (R156 to R186) -/

theorem test_iabs : v_ (.iabs h0 .s32 false 2 3) [(3, 0x80000000)] 2 = some 0x80000000 ∧
    v_ (.iabs h0 .s32 true 2 3) [(3, 0x80000000)] 2 = some 0x7FFFFFFF := by decide +kernel
theorem test_ineg_sat : v_ (.ineg h0 .z16 true 2 3) [(3, 5)] 2 = some 0 := by decide +kernel
theorem test_iadd_sat : v_ (.iaddS h0 .s8 true .none 2 3 4 0) [(3, 0x70), (4, 0x30)] 2 = some 0x7F := by decide +kernel
theorem test_iadd_wraps : v_ (.iaddS h0 .s32 false .none 3 3 4 0) [(3, 0xFFFFFFFF), (4, 2)] 3 = some 1 := by decide +kernel
theorem test_iadd_carry : (after (.iaddS h0 .z32 false .co 2 3 4 5) (as 0 (regs [(3, 0xFFFFFFFF), (4, 1)]))).map
    (fun t => (t.rv 2, t.rp 5)) = some (0, true) := by decide +kernel
theorem test_isub_borrow : (after (.isubS h0 .z32 false .cio 2 3 4 5) (as 0 { regs [(3, 1), (4, 1)] with p := 32 })).map
    (fun t => (t.rv 2, t.rp 5)) = some (0xFFFFFFFF, true) := by decide +kernel
theorem test_imulh : v_ (.imulhS h0 .s32 2 3 4) [(3, 0xFFFFFFFF), (4, 5)] 2 = some 0xFFFFFFFF := by decide +kernel
theorem test_imadw : (after (.imadw h0 .z32 false 2 4 5 6) (as 0 (regs [(4, 0xFFFFFFFF), (5, 0xFFFFFFFF), (6, 1)]))).map
    (·.rw 2) = some 0xFFFFFFFE00000002 := by decide +kernel
theorem test_idiv_zero : v_ (.idivS h0 .s32 2 3 4) [(3, 7)] 2 = some 0xFFFFFFFF ∧
    v_ (.iremS h0 .s32 2 3 4) [(3, 7)] 2 = some 7 := by decide +kernel
theorem test_iadd64 : (after (.iadd64S h0 .s64 true 2 4 6) (as 0 (regs [(5, 0x7FFFFFFF), (4, 0xFFFFFFFF), (6, 1)]))).map
    (·.rw 2) = some 0x7FFFFFFFFFFFFFFF := by decide +kernel
theorem test_shl_full : v_ (.shlS h0 2 3 4) [(3, 1), (4, 32)] 2 = some 0 ∧
    v_ (.sarS h0 2 3 4) [(3, 0x80000000), (4, 40)] 2 = some 0xFFFFFFFF := by decide +kernel
theorem test_bfx : v_ (.bfx h0 .s32 2 3 4 5) [(3, 0x0F00), (4, 8), (5, 4)] 2 = some 0xFFFFFFFF := by decide +kernel
theorem test_perm : v_ (.permW h0 2 3 0xC0B3) [(3, 0x44332211)] 2 = some 0x00110044 ∧
    v_ (.permW h0 2 3 0xC0B3) [(3, 0x84332211)] 2 = some 0x0011FF84 := by decide +kernel
theorem test_iset : (after (.isetS h0 .s32 .lt 5 3 4) (as 0 (regs [(3, 0xFFFFFFFF), (4, 0)]))).map (·.rp 5) = some true ∧
    (after (.isetS h0 .z32 .lt 5 3 4) (as 0 (regs [(3, 0xFFFFFFFF), (4, 0)]))).map (·.rp 5) = some false := by decide +kernel
theorem test_false_guard : (after (.movi ⟨3, false, 0⟩ 2 7) (as 0 th0)).map (fun t => (t.rv 2, t.pc)) = some (0, 0x100C) := by
  decide +kernel
theorem test_f2i : vf_ (.f2i h0 .s8 .f32 .rn 2 3) [(3, 0x43480000)] 2 = some (0x7F, 16) ∧
    vf_ (.f2i h0 .z32 .f32 .rz 2 3) [(3, 0xBF400000)] 2 = some (0, 1) := by decide +kernel
theorem test_i2f : vf_ (.i2f h0 .s32 .f32 .rn 2 3) [(3, 0x01000001)] 2 = some (0x4B800000, 1) := by decide +kernel
theorem test_hcvt2 : vf_ (.hcvt2 h0 .pk .bf16 .rn 2 3 4) [(3, 0x3F808000), (4, 0xC0400000)] 2 = some (0xC0403F80, 1) := by
  decide +kernel
theorem test_fmin : vf_ (.fminS h0 .f32 2 3 4) [(3, 0x80000000)] 2 = some (0x80000000, 0) ∧
    v_ (.fmaxS h0 .f32 2 3 4) [(3, 0x7FC00001), (4, 0x40000000)] 2 = some 0x40000000 := by decide +kernel
theorem test_vacsel : (after (.vacsel h0 false 12 4 5 6 20) (as 0 (regs [(4, 0x00040003), (5, 2), (6, 0x00020000), (20, 1)]))).map
    (fun t => (t.rv 12, t.rv 20)) = some (0x00030004, 5) := by decide +kernel
theorem test_vote : v_ (.vote h0 .act 2 127) [] 2 = some 1 := by decide +kernel

/-! ### Control, memory, traps, system registers -/

theorem test_br : (after (.br h0 false 127 0xFFFFFFF8) (as 0 th0)).map Thread.pc = some 0xFF8 := by decide +kernel
theorem test_call : (after (.call h0 2 0x20) (as 0 th0)).map (fun t => (t.pc, t.rw 2)) = some (0x1020, 0x100C) := by
  decide +kernel
theorem test_exit : (after (.exit h0) (as 0 th0)).map Thread.status = some .exited := by decide +kernel
/-- A store to core scratchpad: lowest byte first (R50); a load sign-extends (R195). -/
theorem test_store : (match exec (.stS h0 .rlx .none .b32 4 3 .core 4) (as 0 (regs [(4, 0x11223344)])) with
    | .next t => (t.group 3).alloc.read 4 4
    | _ => []) = [0x44, 0x33, 0x22, 0x11] := by decide +kernel
theorem test_load : (after (.ldS h0 .rlx .none .s8 2 3 .core 4) { as 0 th0 with
    groups := [(3, { group0 with alloc := { cells := [(4, 0x80)], bad := [] } })] }).map (·.rv 2) = some 0xFFFFFF80 := by decide +kernel
/-- ADDR before MISALIGN: an address outside every aperture (R52, R53); a misaligned one. -/
theorem test_addr : (after (.ldS h0 .rlx .none .b32 2 4 .pair 0) (as 0 (regs [(4, 1), (5, 0x40000000)]))).map
    (fun t => (t.trap.cause, t.trap.tpc, t.trap.val, t.pc)) = some (causeAddr, 0x1000, 0x4000000000000001, 0x2000) := by
  decide +kernel
theorem test_misalign : (after (.ldS h0 .rlx .none .b32 2 4 .core 1) (as 0 th0)).map (·.trap.cause) = some causeMisalign := by
  decide +kernel
theorem test_trap : (after (.trap h0 9) (as 0 th0)).map (fun t => (t.trap.cause, t.trap.val, t.hand)) =
    some (causeUserTrap, 9, true) := by decide +kernel
theorem test_priv : (after (.eret h0) (as 0 th0)).map (·.trap.cause) = some causePriv := by decide +kernel
theorem test_sup_trap : (after (.eret h0) (as 2 th0)).map (fun t => (t.sup.trap.cause, t.sup.trap.aux, t.pc)) =
    some (causeIllegal, 10, 0x3000) := by decide +kernel
theorem test_sysr : (after (.sysr h0 6 2 0x1002) (as 2 th0)).map (·.rw 6) = some 0x3000 := by decide +kernel
theorem test_sysr_own : (after (.sysr h0 6 2 0x3030) (as 1 th0)).map (·.sup.trap.cause) ≠ some 0 := by decide +kernel
theorem test_bar : (after (.bar h0 false 1) { as 0 th0 with threads := [(key, th0), (key + 32, { th0 with tid := 1 })] }).map
    Thread.wait = some (.bar 1 0) := by decide +kernel
theorem test_tladv : (after (.tladv h0 2 1) (as 0 th0)).map (·.rw 2) = some 1 := by decide +kernel
theorem test_hjoin_outside : (after (.hjoin h0 2 5 3) (as 0 (regs [(2, 9)]))).map (fun t => (t.rv 2, t.rp 5)) =
    some (0, false) := by decide +kernel
theorem test_acz : (after (.acrd h0 2 1 3) (as 0 { th0 with a := [(19, 0x3F800000)] })).map (·.rv 2) = some 0x3F800000 := by
  decide +kernel

/-! ### The first instruction after reset, and State.reset -/

theorem test_first : (match step (State.reset.withFetchWord 96 0x00000100000000000009FCD1) with
    | .next t => t.threads.map fun e => e.2.rv 2
    | _ => []) = [0x100] := by decide +kernel
theorem test_reset_memory : DrawerOk State.reset := by unfold DrawerOk; decide +kernel
theorem test_enable_before_wipe : (match exec (.enable 5) State.reset with
    | .next t => t.cmdResult
    | _ => 0) = 3 := by decide +kernel
/-- The latencies of R380's example: D = 232, M = 192 to 199 and 231 to 254. -/
def link0 : LinkId := ⟨false, 0⟩
def exampleLink (inb : Bool) : State :=
  let s := State.reset.setReg 0x8000 0 (setBits (setBits (setBits 0 63 62 2) 41 32 232) 60 60 inb.toNat)
  (s.setReg 0x8012 3 (BitVec.ofNat 64 (2 ^ 8 - 1 + (2 ^ 24 - 1) * 2 ^ 39)))
theorem test_latency : (exampleLink false).latencyOf link0 40 false = 1624 ∧ (exampleLink true).latencyOf link0 40 false = 1640 ∧
    (exampleLink true).latencyOf link0 200 false = 1736 := by decide +kernel
theorem test_sm3 : ofBytes (sm3 [0x61, 0x62, 0x63]).reverse = 0x66c7f0f462eeedd9d1f2d46bdc10e4e24167c4875cf2f7a2297da02b8f4ba8e0 := by
  decide +kernel

/-! ### Readiness as a computation -/

def aloneB (i : Instr) (s : State) (k : Nat) (th : Thread) : Bool :=
  decide (s.cur = [k]) && decide (lookup s.threads k = some th) && th.active i.head && (preTrap s i k th).isNone &&
    (!compares i.raw.op || !th.skew) && (Instr.readRefs i).all (fun r => decide (r ∉ th.bad)) && decide (s.begunTag th [k] = none)
theorem alone_of {i : Instr} {s : State} {k : Nat} {th : Thread} (h : aloneB i s k th = true) : Alone i s k th := by
  simp only [aloneB, Bool.and_eq_true, decide_eq_true_eq, Bool.or_eq_true, Bool.not_eq_true', Option.isNone_iff_eq_none,
    List.all_eq_true] at h
  obtain ⟨⟨⟨⟨⟨⟨a, b⟩, c⟩, d⟩, e⟩, f⟩, g⟩ := h
  exact ⟨a, b, c, d, fun q => by rcases e with e | e; exact absurd q (by simp [e]); exact e, f, g⟩
theorem ready_of {i : Instr} {s : State} {k : Nat} {th : Thread} (h : Alone i s k th) : Ready i s :=
  ⟨by simp [h.cur], by simp [h.cur], by
    intro j hj; rw [h.cur, List.mem_singleton] at hj; subst hj; exact ⟨th, h.here, fun _ => ⟨h.clear, h.whole, h.sound⟩⟩⟩

/-! ### Witnesses: an instance of every encoded form that is ready (for each statement `Rewrites i f`, and for the completion of
every form) -/

def s0 : State := as 0 th0
def s2 : State := as 2 th0
def cp0 : CpDesc := ⟨.raw, 0, .none, 0, 0, 0, 7⟩
def forms : List Instr := [
  .iaddS h0 .s32 false .none 4 4 4 0, .iaddW h0 .s32 false .none 4 4 0 0, .isubS h0 .s32 false .none 4 4 4 0,
  .isubW h0 .s32 false .none 4 4 0 0, .imulS h0 .s32 false 4 4 4, .imulW h0 .s32 false 4 4 0, .imulhS h0 .s32 4 4 4,
  .imulhW h0 .s32 4 4 0, .imad h0 .s32 false 4 4 4 4, .imadw h0 .s32 false 4 4 4 4, .idivS h0 .s32 4 4 4,
  .idivW h0 .s32 4 4 0, .iremS h0 .s32 4 4 4, .iremW h0 .s32 4 4 0, .iminS h0 .s32 4 4 4, .iminW h0 .s32 4 4 0,
  .imaxS h0 .s32 4 4 4, .imaxW h0 .s32 4 4 0, .iabs h0 .s32 false 4 4, .ineg h0 .s32 false 4 4, .isad h0 .s32 false 4 4 4 4,
  .iadd64S h0 .s64 false 4 4 4, .iadd64W h0 .s64 false 4 4 0, .isub64S h0 .s64 false 4 4 4, .isub64W h0 .s64 false 4 4 0,
  .imul64 h0 .s64 false 4 4 4, .andS h0 4 4 4, .andW h0 4 4 0, .orS h0 4 4 4, .orW h0 4 4 0, .xorS h0 4 4 4, .xorW h0 4 4 0,
  .andnS h0 4 4 4, .andnW h0 4 4 0, .ornS h0 4 4 4, .ornW h0 4 4 0, .not h0 4 4, .shlS h0 4 4 4, .shlW h0 4 4 0,
  .shrS h0 4 4 4, .shrW h0 4 4 0, .sarS h0 4 4 4, .sarW h0 4 4 0, .rotS h0 4 4 4, .rotW h0 4 4 0, .fsh h0 .right 4 4 4 4,
  .bfx h0 .s32 4 4 4 4, .bfi h0 4 4 4 4, .popc h0 false 4 4, .clz h0 false 4 4, .ctz h0 false 4 4, .brev h0 false 4 4,
  .permS h0 4 4 4, .permW h0 4 4 0, .isetS h0 .s32 .lt 4 4 4, .isetW h0 .s32 .lt 4 4 0, .isetvS h0 .s32 .lt 4 4 4,
  .isetvW h0 .s32 .lt 4 4 0, .sel h0 4 4 4 4, .mov h0 false 4 4, .movi h0 4 0, .movw h0 4 0, .plop h0 0 4 4 4 4,
  .p2v h0 false 4 0, .v2p h0 false 0 4, .getid h0 4 0, .br h0 false 4 0, .bru h0 false 4 (.imm 8), .jmp h0 0, .call h0 4 0,
  .callr h0 4 4, .ret h0 4, .reform h0 4 0, .exit h0, .nopS h0, .nopW h0, .nopX h0, .yield h0, .nap h0 4,
  .faddS h0 .f32 .rn 4 4 4, .faddW h0 .f32 .rn 4 4 0, .fsubS h0 .f32 .rn 4 4 4, .fsubW h0 .f32 .rn 4 4 0,
  .fmulS h0 .f32 .rn 4 4 4, .fmulW h0 .f32 .rn 4 4 0, .ffma h0 .f32 .rn 4 4 4 4, .fdiv h0 .f32 .rn 4 4 4,
  .fminS h0 .f32 4 4 4, .fminW h0 .f32 4 4 0, .fmaxS h0 .f32 4 4 4, .fmaxW h0 .f32 4 4 0, .fsetS h0 .f32 .lt 4 4 4,
  .fsetW h0 .f32 .lt 4 4 0, .fsetvS h0 .f32 .lt 4 4 4, .fsetvW h0 .f32 .lt 4 4 0, .fcls h0 .f32 4 4, .frnd h0 .f32 .rn 4 4,
  .f2i h0 .s32 .f32 .rn 4 4, .i2f h0 .s32 .f32 .rn 4 4, .fcvt h0 .f32 .f32 .rn 4 4, .rcp h0 .f32 .rn 4 4,
  .rsq h0 .f32 .rn 4 4, .sqrt h0 .f32 .rn 4 4, .exp2 h0 .f32 .rn 4 4, .log2 h0 .f32 .rn 4 4, .fstat h0 4,
  .hadd2 h0 .f16 .rn 4 4 4, .hsub2 h0 .f16 .rn 4 4 4, .hmul2 h0 .f16 .rn 4 4 4, .hfma2 h0 .f16 .rn 4 4 4 4,
  .hmin2 h0 .f16 4 4 4, .hmax2 h0 .f16 4 4 4, .hcvt2 h0 .pk .f16 .rn 4 4 4, .vadd2 h0 .s16 false 4 4 4,
  .vsub2 h0 .s16 false 4 4 4, .vmin2 h0 .s16 4 4 4, .vmax2 h0 .s16 4 4 4, .vacsel h0 false 12 4 5 6 20,
  .vshf h0 .idx 4 4 4 4, .vbfly h0 4 4 4 0, .vred h0 .add .s32 false .rn 4 4, .vscan h0 .add .s32 false .rn 4 4,
  .vote h0 .any 4 4, .ldS h0 .rlx .none .b32 4 4 .core 0, .ldW h0 .rlx .none .b32 4 4 .core 0,
  .stS h0 .rlx .none .b32 4 4 .core 0, .stW h0 .rlx .none .b32 4 4 .core 0, .atom h0 .rlx .none .add .s32 4 4 .core 4 0,
  .acas h0 .rlx .none .s32 4 0 4 .core 4 4 0, .red h0 .rlx .none .add .s32 4 .core 4 0, .prefS h0 .l1 4 .core 0,
  .prefW h0 .l1 4 .core 0, .cflushS h0 .inv 4 .core 0, .cflushW h0 .inv 4 .core 0, .fence h0 .ar .g, .bar h0 false 0,
  .bara h0 4 0, .barw h0 4 0, .subon h0 false 4 4 4 4 4, .suboff h0 4 4, .subq h0 4 4, .subfl h0,
  .rmac h0 false 4 4 4 ⟨0, 0, .bq, .bq, 0⟩, .rmag h0 false 4 4 4 4 ⟨0, 0, .bq, .bq, 0⟩, .acz h0 4, .acldS h0 4 4 .core 0,
  .acldW h0 4 4 .core 0, .acstS h0 false 4 4 .core 0, .acstW h0 false 4 4 .core 0, .acrd h0 4 4 0, .acwr h0 4 4 0,
  .acmul h0 .rn 4 4 4, .cpi h0 4 4 4 0 cp0, .cpo h0 4 4 4 0 cp0, .cpl h0 4 4 4 0 cp0, .cpr h0 4 4 4 0 { cp0 with sc := .m },
  .cpf h0 4 4 4 cp0, .cpq h0 4 4 0, .cpk h0 4 4 0, .tlwS h0 4 0, .tlwW h0 0 0, .tlwCtr h0 .none 4 4 .core (.short 0),
  .tlr h0 false 4 0, .tladv h0 4 0, .hire h0 .w8 .none 4 4 0 0, .hjoin h0 4 4 4, .hsync h0, .hrd h0 4 0, .hret h0 4,
  .hrel h0, .lnch h0 4 4 0, .trap h0 0, .bkpt h0, .tret h0 .retry 0, .tmfr h0 4 0, .sysr h0 4 4 0, .sysw h0 4 4 0,
  .sysx h0 4 4 0, .eret h0, .tinv h0 .all 0 0 0, .cinvr h0 .cln 4 4 4, .waiti h0 4 4]
theorem forms_alone : (forms.length == 182 && forms.all fun i =>
    aloneB i s2 key th0 && i.wellFormed && i.raw.len != 3) = true := by decide +kernel
/-- Witness for EncodeDecodeRoundTrip, for every statement about a form that needs no more than a ready thread, and for the types
those statements ask for. -/
theorem wit_forms : (∀ i ∈ forms, Alone i s2 key th0 ∧ Ready i s2 ∧ i.wellFormed = true ∧ i.raw.len ≠ 3) ∧
    Ty.s32.narrow = true ∧ Ty.s32.is32 = true ∧ Ty.s64.wide = true ∧ Ty.s32.integral = true ∧ Fmt.f16 ≠ .f32 := by
  refine ⟨fun i hi => ?_, by decide⟩
  have := forms_alone
  simp only [Bool.and_eq_true, List.all_eq_true, bne_iff_ne, ne_eq] at this
  obtain ⟨⟨a, b⟩, c⟩ := this.2 i hi
  exact ⟨alone_of a, ready_of (alone_of a), b, c⟩
theorem wit_CarryResults : Ready (.iaddS h0 .s32 false .co 2 3 4 5) s0 ∧ Ready (.isubW h0 .z32 false .cio 2 3 0 5) s0 ∧
    (Carry.ci, true, false) ∈ [(Carry.co, false, true), (Carry.ci, true, false), (Carry.cio, true, true)] :=
  ⟨ready_of (alone_of (k := key) (th := th0) (by decide +kernel)), ready_of (alone_of (k := key) (th := th0) (by decide +kernel)),
    by decide⟩

/-! ### Witnesses: control and floating point -/

theorem wit_UniformBranchTogether : Ready (.bru h0 false 127 (.imm 8)) s0 ∧ (∃ k ∈ s0.cur, (s0.thread k).active h0 = true) ∧
    ∀ k ∈ s0.cur, (s0.thread k).active h0 = true →
      ((s0.thread k).rp 127 != false) = true ∧ bruAddress (s0.thread k) (.imm 8) = 0x1008 :=
  ⟨ready_of (alone_of (k := key) (th := th0) (by decide +kernel)), by decide +kernel, by decide +kernel⟩
def hamp : Hamper := ⟨3, 0x1008, 0, [(key + 32, (5 : Int))], false, false, 1⟩
def withHampers (l : Cells Hamper) : State := { s0 with cores := [(0, { CoreState.zero with hampers := l })] }
def fullHampers : State := withHampers ((List.range 128).map fun e => (e, { hamp with key := 1 }))
def helper0 : Thread := { th0 with hidx := 1 }
theorem wit_WaveInstructions : Alone (.nap h0 4) s0 key th0 ∧ Alone (.nap h0 4) (as 0 (regs [(4, 1)])) key (regs [(4, 1)]) ∧
    Alone (.reform h0 4 8) s0 key th0 ∧ Alone (.exit h0) s0 key th0 ∧ th0.hidx = 0 ∧ th0.hire = none ∧
    Alone (.exit h0) { s0 with threads := [(key + 1, helper0)], cur := [key + 1] } (key + 1) helper0 :=
  ⟨alone_of (by decide +kernel), alone_of (by decide +kernel), alone_of (by decide +kernel), alone_of (by decide +kernel), rfl, rfl,
    alone_of (by decide +kernel)⟩
theorem wit_Reform : (∀ e ∈ (s0.core 0).hampers, ¬namesHamper e.2 th0 8 4) ∧ lookup (s0.core 0).hampers 127 = none ∧
    Alone (.reform h0 4 8) fullHampers key th0 ∧ (∀ e ∈ (fullHampers.core 0).hampers, ¬namesHamper e.2 th0 8 4) ∧
    (∀ e, e < 128 → lookup (fullHampers.core 0).hampers e ≠ none) ∧
    let s := withHampers [(127, hamp)]
    lookup (s.core 0).hampers 127 = some hamp ∧ namesHamper hamp th0 8 4 ∧
      ∀ y ∈ (s.core 0).hampers, namesHamper y.2 th0 8 4 → y.1 = 127 := by
  unfold namesHamper
  refine ⟨by decide +kernel, by decide +kernel, alone_of (by decide +kernel), by decide +kernel, by decide +kernel, ?_⟩
  exact ⟨by decide +kernel, by decide +kernel, by decide +kernel⟩

theorem wit_value : value .f32 0x3F800000 = 1 ∧ value .f32 0xBF800000 = -1 ∧ value .f32 0x80000000 = 0 ∧ value .f32 1 = 2 ^ (-149 : ℤ) := by
  norm_num [value, expOf, fracOf, expLen, fracLen]
theorem wit_FloatResults : finite .f32 0x3F800000 ∧ finite .f32 0xBF800000 ∧ finite .f32 0x80000000 ∧ finite .f16 0x7BFF ∧
    ¬finite .f32 (infPat .f32 true) ∧ negative .f32 0xBF800000 ∧ ¬negative .f32 0x3F800000 ∧ nanPat .f32 0x7FC00001 ∧
    sigPat .f32 0x7F800001 ∧ ¬sigPat .f32 0x7FC00001 ∧ ¬nanPat .f32 0xFF800000 ∧ quietPat .bf16 = 0x7FC0 ∧ (0 : Nat) < 1 := by
  unfold finite negative sigPat nanPat; decide +kernel

/-! ### Witnesses: memory (R49 to R64, R192 to R203) -/

/-- An address at each edge of each aperture, and what stands there. -/
theorem wit_ApertureChecks : (0x1FFFFFFFFFFFFFF : Nat) < 2 ^ 57 ∧ (0x8000000000000000 : Nat) / 2 ^ 60 = 8 ∧
    (0x8FE0000000000000 : Nat) / 2 ^ 53 % 128 = 127 ∧ (s0.reg 0xB001 0).toNat % 128 = 0 ∧
    (0xC000000000000FFF : Nat) = 0xC000000000000000 + 4095 ∧ (0xD0000000000FFFFF : Nat) = 0xD000000000000000 + (2 ^ 20 - 1) ∧
    (0xE000000001FFFFFF : Nat) = 0xE000000000000000 + 31 * 2 ^ 20 + (2 ^ 20 - 1) ∧
    (0xF000000003FFFFFF : Nat) = 0xF000000000000000 + (2 ^ 26 - 1) ∧
    (0xFF00000003FFFFFF : Nat) = 0xFF00000000000000 + 31 * 2 ^ 21 + 2047 * 2 ^ 10 + 1023 ∧
    s0.memberOf 2 0 = some 3 ∧ s0.ngr 2 = 1 ∧ (0x9000000000000000 : Nat) / 2 ^ 60 ≠ 8 := by decide +kernel
def ld0 : Instr := load h0 .rlx .none .b32 2 3 .core (.short 0)
def st0 : Instr := store h0 .rlx .none .b32 2 3 .core (.short 0)
theorem wit_OnChip : Alone ld0 s0 key th0 ∧ Alone st0 s0 key th0 ∧
    s0.access th0 key (address th0 .core 3 (offset (.short 0))) 4 4 false false = .ok (.alloc 3 0) ∧ onChip (.alloc 3 0) ∧
    there s0 (.alloc 3 0) ∧ s0.locWaits (.alloc 3 0) 4 false = false ∧ s0.locWaits (.alloc 3 0) 4 true = false ∧
    (s0.readLoc (.alloc 3 0) 4).2 = false ∧ (s0.flushFirst th0 Ord.rlx.releases (Ord.rlx == .seq) .none).2 = none := by
  refine ⟨alone_of (by decide +kernel), alone_of (by decide +kernel), by decide +kernel, trivial, ?_, by decide +kernel⟩
  unfold there; decide +kernel
def atom0 : Instr := .atom h0 .rlx .none .add .z32 2 3 .core 4 0
def red0 : Instr := .red h0 .rlx .none .add .z32 3 .core 4 0
def acas0 : Instr := .acas h0 .rlx .none .z32 2 5 3 .core 4 6 0
theorem wit_OnChipAtomics : Alone atom0 s0 key th0 ∧ Alone red0 s0 key th0 ∧ Alone acas0 s0 key th0 ∧ atomType .add .z32 ∧
    readyAt s0 th0 .rlx .none (.alloc 3 0) (atomLen .z32) ∧
    s0.access th0 key (address th0 .core 3 (offset (.long 0))) (atomLen .z32) (atomLen .z32) true false = .ok (.alloc 3 0) := by
  refine ⟨alone_of (by decide +kernel), alone_of (by decide +kernel), alone_of (by decide +kernel), by unfold atomType; decide, ?_,
    by decide +kernel⟩
  obtain ⟨_, _, _, a, b, _, c, d, e⟩ := wit_OnChip
  exact ⟨a, b, by decide +kernel, by decide +kernel, by decide +kernel⟩
/-- A thread with the global address 0x2000 in w4, and one with the address 0x2000 of its own package. -/
def thG : Thread := regs [(4, 0x2000)]
def thD : Thread := regs [(4, 0x2000), (5, 0x80000000)]
def line0 : Line := ⟨0, 64, 0, 64, 0x5000, [(0, 7)], false, true, true, false, 0, 0⟩
theorem wit_RemoteAccesses :
    let ld := load h0 .rlx .none .b32 2 4 .pair (.short 0)
    let st := store h0 .rel .d .b64 2 4 .pair (.short 0)
    let s := as 0 thG
    Alone ld s key thG ∧ Alone st s key thG ∧ Alone (.atom h0 .rlx .none .add .z32 2 4 .pair 6 0) s key thG ∧
    Alone (.red h0 .rlx .none .add .z32 4 .pair 6 0) s key thG ∧ Alone (.acas h0 .rlx .none .z32 2 5 4 .pair 6 7 0) s key thG ∧
    s.access thG key (address thG .pair 4 (offset (.short 0))) 4 4 false false = .ok (.global 0x2000) ∧
    s.access thG key (address thG .pair 4 (offset (.long 0))) 4 4 true false = .ok (.global 0x2000) ∧
    remoteVa (address thG .pair 4 (offset (.short 0))) (.global 0x2000) = some 0x2000 ∧ s.l1Hit 0 0 0x2000 = none ∧
    (s.flushFirst thG Ord.rel.releases (Ord.rel == .seq) .d).2 = none ∧
    (as 0 thD).access thD key (address thD .pair 4 (offset (.short 0))) 4 4 false false = .ok (.own 0x2000) :=
  ⟨alone_of (by decide +kernel), alone_of (by decide +kernel), alone_of (by decide +kernel), alone_of (by decide +kernel),
    alone_of (by decide +kernel), by decide +kernel⟩
theorem wit_L1Hit : let s : State := { as 0 thG with l1 := [(l1Base 0 0x2000, line0)] }
    s.l1Hit 0 0 0x2000 = some (l1Base 0 0x2000, line0) ∧ Alone (load h0 .rlx .none .b32 2 4 .pair (.short 0)) s key thG :=
  ⟨by decide +kernel, alone_of (by decide +kernel)⟩
def thBad : Thread := regs [(4, 1), (5, 0x40000000)]
theorem wit_AccessTraps : canTrap (as 0 thBad) thBad ∧ Alone (load h0 .rlx .none .b32 2 4 .pair (.short 0)) (as 0 thBad) key thBad ∧
    (as 0 thBad).access thBad key (address thBad .pair 4 (offset (.short 0))) 4 4 false false = .error causeAddr ∧
    (as 0 thBad).access thBad key (address thBad .pair 4 (offset (.long 0))) 4 4 true false = .error causeAddr ∧
    Alone (.atom h0 .rlx .none .add .z32 2 4 .pair 6 0) (as 0 thBad) key thBad ∧
    Alone (.tlwCtr h0 .none 2 4 .pair (.short 0)) (as 0 thBad) key thBad := by
  refine ⟨?_, alone_of (by decide +kernel), by decide +kernel, by decide +kernel, alone_of (by decide +kernel),
    alone_of (by decide +kernel)⟩
  unfold canTrap; decide +kernel

/-! ### Witnesses: home slices, answers, domain requests -/

def req0 (op : ReqOp) (dest : Dest) : MemReq :=
  { th := key, ctx := 0, core := 0, pc := 0x1000, va := 0x2000, size := 4, op := op, dest := dest, domain := false, link := none
    las := [], served := false, cycle := 0, fill := none, release := false }
def sliceState (q : MemReq) : State := { s0 with l2 := [(l2Base 0 64, line0)], reqs := [(50, q)] }
/-- A table frame at 0x1000 that leads back to itself but at the last level, where page 2 lies in frame 5 with R and W. -/
def paged (s : State) : State :=
  { (s.setReg 0x6000 0 0x1000).setReg 0x3007 0 (setBits 0 43 32 1) with
    drawer := ⟨[(0x1000, 0x01), (0x1001, 0x10), (0x1010, 0x0F), (0x1011, 0x50)], []⟩ }
/-- The slice serves a request from a line that it holds and that is not poisoned. -/
def servedB (s : State) (come : Bool) (a : Access) : Bool :=
  match s.serveWith come a with
  | .ok s1 l => !l.poison && (s1.l2Find l.asid l.cline).isSome
  | _ => false
theorem served_of {s : State} {come : Bool} {a : Access} (h : servedB s come a = true) :
    ∃ s1 l key cur, s.serveWith come a = .ok s1 l ∧ l.poison = false ∧ s1.l2Find l.asid l.cline = some (key, cur) := by
  unfold servedB at h
  split at h
  · next s1 l e =>
    simp only [Bool.and_eq_true, Bool.not_eq_true', Option.isSome_iff_exists] at h
    obtain ⟨a, ⟨x, b⟩⟩ := h
    exact ⟨s1, l, x.1, x.2, e, a, b⟩
  · cases h
theorem wit_HomeSliceAnswers : ∀ op ∈ [ReqOp.load, .store [1, 2, 3, 4], .atomic .add .z32 5, .acas .z32 0 9],
    let q := req0 op .none
    let access := State.reqAccess q.ctx (within53 q) q.op
    lookup (sliceState q).reqs 50 = some q ∧ q.served = false ∧ q.link = none ∧ atomType .add .z32 ∧ q.size = atomLen .z32 ∧
      (5 : DWord).toNat < 256 ^ q.size ∧ q.fill = none ∧ (sliceState q).missPa access = none ∧
      ∃ s1 l key cur, (sliceState q).serveWith false access = .ok s1 l ∧ l.poison = false ∧
        s1.l2Find l.asid l.cline = some (key, cur) := by
  intro op h
  refine ⟨rfl, rfl, rfl, by unfold atomType; decide, rfl, by show _ < 256 ^ 4; decide, rfl, by revert op; decide +kernel, served_of ?_⟩
  revert op; decide +kernel
/-- A request that misses and asks the drawer, and the same with its line come. -/
def missState (fill : Option Bool) : State :=
  paged ({ s0 with reqs := [(50, { req0 .load .none with fill := fill })] }.setReg 0x4000 0 1)
theorem wit_HomeSliceMiss : (missState none).missPa ⟨0, 0x2000, true, false, 0⟩ = some 0x5000 ∧
    lookup (missState (some false)).reqs 50 = some { req0 .load .none with fill := some false } ∧
    ∃ s1 l key cur, (missState (some true)).serveWith true ⟨0, 0x2000, true, false, 0⟩ = .ok s1 l ∧ l.poison = false ∧
        s1.l2Find l.asid l.cline = some (key, cur) :=
  ⟨by decide +kernel, by decide +kernel, served_of (by decide +kernel)⟩
/-- An answer for each destination; the lengths are those of its pieces. -/
theorem wit_ResponsesLand : ∀ x ∈ [(Dest.none, ReqOp.load, 0), (.load 2 .b128, .load, 16), (.old 2 8, .load, 8),
      (.acas 2 4 5, .acas .z32 1 2, 4), (.acc 2 3, .load, 16)],
    let q := req0 x.2.1 x.1
    lookup (sliceState q).reqs 50 = some q ∧ lookup (sliceState q).threads q.th = some th0 ∧
      (List.replicate x.2.2 (0 : Byte)).length = x.2.2 ∧ ∀ id u o, q.dest ≠ .copy id u o := by
  intro x h
  simp only [List.mem_cons, List.not_mem_nil, or_false] at h
  rcases h with rfl | rfl | rfl | rfl | rfl <;>
    exact ⟨by decide +kernel, by decide +kernel, by decide, by intros; simp [req0]⟩
def dreq : DomainReq :=
  { tag := 50, link := 0, src := 5, fg := 1, ctx := 0, op := .read, va := 0x2000, size := 4, data := [], data2 := [], poison := false
    clock := [] }
/-- A context of fabric group 1 that package 5 asks for a line. -/
def domainState : State :=
  ({ s0 with l2 := [(l2Base 0 64, line0)] }.setReg 0x9101 0 (setBits (setBits 0 63 63 1) 2 0 1)).setReg 0x9100 2 133
theorem wit_DomainServed : domainState.domainServes dreq = true ∧
    dreq.op = .read ∧ dreq.poison = false ∧ dreq.va.toNat % 128 + dreq.size ≤ 128 ∧
    (match (domainState.mergeClock dreq.fg dreq.clock).serve ⟨dreq.ctx, dreq.va.toNat, true, false, 0⟩ with
      | .ok _ _ => true
      | _ => false) = true := by decide +kernel
theorem wit_DomainRequests : State.reset.ctxState 5 = 0 ∧ (s0.reg 0x9101 (s0.sgrpOf 0)).getLsbD 63 = false ∧ s0.ctxState 0 ≠ 0 ∧
    s0.ctxState 0 ≠ 6 ∧ lookup (sliceState (req0 .load .none)).reqs 50 = some (req0 .load .none) := by decide +kernel

/-! ### Witnesses: hints, fences, barriers, subscriptions, timelines (R71 to R81, R201 to R214) -/

def inv0 : Instr := .cflushW h0 .inv 4 .pair 0
def hintState : State := paged (({ as 0 thG with l2 := [(l2Base 0 64, line0)] } : State).setReg 0x4000 0 1)
theorem wit_HintsAndFences : 2 ^ 57 ≤ (address th0 .core 4 (offset (.long 0))).toNat ∧ Alone (.prefW h0 .l1 4 .core 0) s0 key th0 ∧
    Alone (.cflushW h0 .inv 4 .core 0) s0 key th0 ∧ Alone inv0 hintState key thG ∧
    (address thG .pair 4 (offset (.long 0))).toNat = 0x2000 ∧
    hintState.l2Find (hintState.canon 0 0x2000).asid ((hintState.canon 0 0x2000).va / 128) = some (l2Base 0 64, line0) ∧
    (hintState.reg 0x4000 (hintState.sgrpOf 0)).getLsbD (l2Base 0 64 % 32) = true ∧ hintState.translates 0 0x2000 = true ∧
    Alone (.fence h0 .seq .s) s0 key th0 ∧ (s0.flushFirst th0 Ord.seq.releases true .s).2 = none ∧
    Alone (.fence h0 .acq .d) s0 key th0 :=
  ⟨by decide +kernel, alone_of (by decide +kernel), alone_of (by decide +kernel), alone_of (by decide +kernel), by decide +kernel,
    by decide +kernel, by decide +kernel, by decide +kernel, alone_of (by decide +kernel), by decide +kernel,
    alone_of (by decide +kernel)⟩
def mate : Thread := { th0 with tid := 1 }
/-- Two threads in the group; who has arrived at its barrier 1. -/
def barState (arrived : List Nat) : State :=
  { s0 with threads := [(key, th0), (key + 32, mate)], groups := [(3, { group0 with bars := [(1, ⟨7, arrived⟩)] })] }
def bar0 : Instr := .bar h0 false 1
def bara0 : Instr := .bara h0 2 1
theorem wit_Barriers : (∀ l ∈ [[], [key + 32], [key]], aloneB bar0 (barState l) key th0 && aloneB bara0 (barState l) key th0) ∧
    lookup (barState []).groups 3 ≠ none ∧ key ∉ ((barState []).barrier 3 1).arrived ∧
    (∃ p ∈ (barState []).participants 3, p ≠ key ∧ p ∉ ((barState []).barrier 3 1).arrived) ∧
    key ∈ (barState [key + 32]).participants 3 ∧
    (∀ p ∈ (barState [key + 32]).participants 3, p ≠ key → p ∈ ((barState [key + 32]).barrier 3 1).arrived) ∧
    key ∈ ((barState [key]).barrier 3 1).arrived ∧ aloneB (.barw h0 2 1) (barState []) key th0 = true ∧
    aloneB (.bar h0 true 0) (barState []) key th0 = true ∧ lookup (barState []).hoods 2 ≠ none ∧
    ∃ p ∈ ((barState []).hood 2).groups.flatMap (barState []).participants, p ≠ key ∧ p ∉ ((barState []).hood 2).bar.arrived := by
  decide +kernel
/-- A hood of two groups on two cores; a thread asks for 256 bytes at 0x100 of member m, from offset o. -/
def thS (m o : Word) : Thread := regs [(4, 0x100), (5, m), (6, o), (7, 256)]
def hoodState (th : Thread) (l : Cells SubEntry) : State :=
  { as 0 th with
    groups := [(3, group0), (4, { group0 with hpos := 1, core := 1 })], hoods := [(2, { Hood.zero with launch := 1, groups := [3, 4] })]
    cores := [(0, { CoreState.zero with subIn := l })] }
def sub0 (soff : Nat) : SubEntry := ⟨2, 0, soff, 1, 0, 256, true, none, false⟩
def on0 : Instr := .subon h0 false 2 4 5 6 7
/-- An entry for each answer: a bad offset, no such member, the same core, no entry free, a clash, a request. -/
theorem wit_Subscriptions : aloneB on0 (hoodState (thS 1 1) []) key (thS 1 1) = true ∧ (1 : Nat) % 256 ≠ 0 ∧
    aloneB on0 (hoodState (thS 2 0) []) key (thS 2 0) = true ∧ (hoodState th0 []).ngr 2 = 2 ∧
    aloneB on0 (hoodState (thS 0 0) []) key (thS 0 0) = true ∧ (hoodState th0 []).memberOf 2 0 = some 3 ∧
    aloneB on0 (hoodState (thS 1 0) ((List.range 16).map fun e => (e, sub0 0x1000))) key (thS 1 0) = true ∧
    aloneB on0 (hoodState (thS 1 0) [(0, sub0 0x1FF)]) key (thS 1 0) = true ∧ 0x100 < 0x1FF + 256 ∧ 0x1FF < 0x100 + 256 ∧
    aloneB on0 (hoodState (thS 1 0) []) key (thS 1 0) = true ∧ (hoodState th0 []).memberOf 2 1 = some 4 ∧
    ((hoodState th0 []).group 4).core ≠ 0 ∧ ((hoodState th0 []).groupPkt 3).scratch = 65536 ∧ th0.wait ≠ .drained ∧
    aloneB (.suboff h0 2 4) (hoodState (thS 1 0) []) key (thS 1 0) = true ∧ (hoodState (thS 1 0) []).inboundAt 3 0x100 = none ∧
    aloneB (.suboff h0 2 4) (hoodState (thS 1 0) [(9, sub0 0x100)]) key (thS 1 0) = true ∧
    (hoodState (thS 1 0) [(9, sub0 0x100)]).inboundAt 3 0x100 = some (9, sub0 0x100) ∧ s0.streams = [] ∧
    aloneB (.subq h0 2 4) (hoodState (thS 1 0) [(9, sub0 0x100)]) key (thS 1 0) = true ∧
    (hoodState (thS 1 0) [(9, sub0 0x100)]).entryAt 3 0x100 = some (9, sub0 0x100) ∧ (hoodState (thS 1 0) []).entryAt 3 0x100 = none ∧
    ((hoodState (thS 1 0) [(0, sub0 0x1FF)]).core 0).subIn.length < 16 ∧
    16 ≤ ((hoodState (thS 1 0) ((List.range 16).map fun e => (e, sub0 0x1000))).core 0).subIn.length ∧ aloneB (.subfl h0) s0 key th0 = true := by
  decide +kernel
def subreq (m : Nat) : SubReq := ⟨key, 2, 3, 9, 0x100, m, 0, 256, true⟩
/-- The publisher's core with its outbound and inbound entries. -/
def pubState (ins outs : Cells SubEntry) : State :=
  { hoodState (thS 1 0) [(9, sub0 0x100)] with
    cores := [(0, { CoreState.zero with subIn := [(9, sub0 0x100)] }), (1, { CoreState.zero with subIn := ins, subOut := outs })] }
def update0 : Update := ⟨2, 0, 0x100, 0x100, [1, 2], 0⟩
def streamState : State :=
  { hoodState th0 [] with streams := [(State.streamKey 1 0, ⟨[update0], 0, [[update0]], 0⟩)] }
theorem wit_SubscriptionEvents : (pubState [] []).memberOf 2 2 = none ∧ (pubState [] []).memberOf 2 1 = some 4 ∧
    (∀ e, e < 16 → lookup ((pubState [] ((List.range 16).map fun e => (e, sub0 0))).core 1).subOut e ≠ none) ∧
    (∃ e ∈ ((pubState [(3, { sub0 255 with smem := 1 })] []).core 1).subIn, e.2.hood = 2 ∧ e.2.smem = 1 ∧ 0 < e.2.soff + e.2.len ∧
      e.2.soff < 0 + 256) ∧
    lookup (pubState [] []).threads key = some (thS 1 0) ∧ lookup ((pubState [] []).core 0).subIn 9 = some (sub0 0x100) ∧
    lookup ((pubState [] [(2, { sub0 0x100 with prime := some 1 })]).core 1).subOut 2 = some { sub0 0x100 with prime := some 1 } ∧
    (pubState [] []).memberOf 2 0 = some 3 ∧ (streamState.stream 1 0).basket ≠ [] ∧ (streamState.stream 1 0).sent = [update0] :: [] ∧
    streamState.memberOf 2 0 = some 3 ∧ lookup streamState.groups 3 ≠ none ∧
    streamState.heldNow (streamState.cpKey (streamState.hood 2).ctx 1) = false ∧
    streamState.mustWait (streamState.group 3).core (.alloc 3) 0x100 (0x100 + 2) true = false := by decide +kernel
def ctr0 : Instr := .tlwCtr h0 .none 2 4 .core (.short 0)
theorem wit_Timelines : aloneB (.tlwS h0 2 1) s0 key th0 = true ∧ aloneB (.tlwW h0 1 1) s0 key th0 = true ∧
    aloneB (.tlr h0 true 2 1) s0 key th0 = true ∧ aloneB (.tladv h0 2 1) s0 key th0 = true ∧ lookup s0.groups 3 ≠ none ∧
    (s0.timelineOf 3 1).completed = (s0.timelineOf 3 1).issued ∧ (s0.timelineOf 3 1).out = [] ∧ aloneB ctr0 s0 key th0 = true ∧
    s0.access th0 key (address th0 .core 4 (offset (.short 0))) 8 8 false false = .ok (.alloc 3 0) ∧
    s0.locWaits (.alloc 3 0) 8 false = false ∧ (s0.readLoc (.alloc 3 0) 8).2 = false ∧
    aloneB (.tlwCtr h0 .none 2 4 .pair (.short 0)) (as 0 thG) key thG = true ∧
    (as 0 thG).access thG key (address thG .pair 4 (offset (.short 0))) 8 8 false false = .ok (.global 0x2000) ∧
    (as 0 thG).l1Hit 0 0 0x2000 = none := by decide +kernel

/-! ### Witnesses: matrix work, accumulators, copies (R215 to R240) -/

def mx0 : MxDesc := ⟨0, 0, .bq, .bq, 1⟩
def thM (n : Nat) : Thread := { regs [(9, 0x1000)] with tid := n, lane := n }
def keyM (n : Nat) : Nat := threadKey 3 n 0
/-- One whole quarter in the fragment at hand. -/
def quarter : State :=
  { s0 with threads := (List.range 8).map fun n => (keyM n, thM n), cur := (List.range 8).map keyM }
def readyB (i : Instr) (s : State) : Bool :=
  !s.cur.isEmpty && decide s.cur.Nodup && s.cur.all fun k =>
    match lookup s.threads k with
    | some th => (preTrap s i k th).isNone && !th.skew && th.bad.isEmpty
    | none => false
theorem ready_of_all {i : Instr} {s : State} (h : readyB i s = true) : Ready i s := by
  simp only [readyB, Bool.and_eq_true, Bool.not_eq_true', List.isEmpty_eq_false_iff, decide_eq_true_eq, List.all_eq_true] at h
  obtain ⟨⟨a, b⟩, c⟩ := h
  refine ⟨a, b, fun k hk => ?_⟩
  have := c k hk
  split at this
  · next th e =>
    simp only [Bool.and_eq_true, Bool.not_eq_true', Option.isNone_iff_eq_none, List.isEmpty_iff] at this
    exact ⟨th, e, fun _ => ⟨this.1.1, fun _ => this.1.2, fun r _ => by simp [this.2]⟩⟩
  · cases this
def rmac0 : Instr := .rmac h0 true 1 8 9 mx0
/-- Rows at either end of the allocation: A from 0, B up to 0x1000 + 16 rows of 272 bytes. -/
theorem wit_MatrixIssue : quarter.cur = keyM 0 :: (List.range' 1 7).map keyM ∧ Ready rmac0 quarter ∧
    (∀ k ∈ quarter.cur, (quarter.thread k).active h0 = true ∧ (quarter.thread k).lane / 8 = 0 ∧ (quarter.thread k).gid = 3 ∧
      (quarter.thread k).rv 8 = 0 ∧ (quarter.thread k).rv 9 = 0x1000 ∧
      rowFits 65536 (rowOffset (quarter.thread k) 8 none (stride 0 .bq 2)) (rowLen .bq 2)) ∧
    (∀ j, j < 16 → rowFits 65536 (0x1000 + j * stride 0 .bq 2) (rowLen .bq 2)) ∧ (quarter.groupPkt 3).scratch = 65536 ∧
    (quarter.core 0).score = [] ∧ quarter.heldNow (quarter.mxKey 0 0) = false ∧ quarter.passes = [] ∧
    (∀ e ∈ quarter.threads, e.2.core = 0 → e.1 ∉ quarter.cur → e.2.wait ≠ .quarter) ∧ Alone rmac0 s0 key th0 ∧ canTrap s0 th0 ∧
    Alone (.rmag h0 true 1 8 9 10 mx0) s0 key th0 := by
  refine ⟨by decide +kernel, ready_of_all (by decide +kernel), ?_, ?_, by decide +kernel, by decide +kernel, by decide +kernel,
    by decide +kernel, by decide +kernel, alone_of (by decide +kernel), ?_, alone_of (by decide +kernel)⟩
  · unfold rowFits; decide +kernel
  · unfold rowFits; decide +kernel
  · unfold canTrap; decide +kernel
def pass0 (prot : Bool) : Pass := ⟨0, 3, 1, true, .bq, .bq, 1, [(key, 0)], 0x1000, 144, prot, 5, 0, some 9⟩
/-- A protected pass whose check residue agrees, and one with a check byte changed. -/
def passState (x : Byte) : State :=
  { s0 with
    passes := [(7, pass0 true)]
    groups := [(3, { group0 with alloc := ⟨[(0, 3), (32, 3), (64, 3), (96, x), (0x1000, 5), (0x1020, 5), (0x1040, 5), (0x1060, 5)], []⟩ })] }
/-- The operands of column e: A's row, and B's. -/
def rowsAt (x : Byte) (e : Nat) : Bytes × Bytes :=
  let mem := ((passState x).group 3).alloc
  (mem.read 0 (rowLen .bq 1), mem.read (0x1000 + e * 144) (rowLen .bq 1))
def agree0 (r : Bytes × Bytes) : Prop := (plane r.1 0 r.2 0 3 : Int) = passValue r.1 0 r.2 0 % 121
theorem rows_zero : ∀ e, e < 16 → e ≠ 0 → rowsAt 3 e = ((rowsAt 3 0).1, List.replicate 144 0) := by decide +kernel
theorem agree_cases : agree0 (rowsAt 3 0) ∧ agree0 ((rowsAt 3 0).1, List.replicate 144 0) ∧ ¬agree0 (rowsAt 4 0) := by
  unfold agree0; decide +kernel
theorem wit_MatrixPassResults : lookup (passState 3).passes 7 = some (pass0 true) ∧ ((passState 3).group 3).alloc.bad = [] ∧
    (passState 3).instPasses 5 = [(7, pass0 true)] ∧ (pass0 true).due ≠ none ∧ ({ pass0 true with due := none } : Pass).due = none ∧
    passOffsets .bq .bq 0 = [(0, 0)] ∧ (∀ e, e < 16 → agree0 (rowsAt 3 e)) ∧ ¬agree0 (rowsAt 4 0) ∧ (pass0 true).prot = true ∧
    (pass0 false).prot = false := by
  refine ⟨by decide +kernel, by decide +kernel, by decide +kernel, by decide, rfl, by decide, fun e h => ?_, agree_cases.2.2, rfl, rfl⟩
  by_cases z : e = 0
  · exact z ▸ agree_cases.1
  · rw [rows_zero e h z]; exact agree_cases.2.1
theorem wit_BlockStep : ((511 : Nat) = 511 ∨ (0 : Nat) = 511 ∨ nanPat .f32 0) ∧ (510 : Nat) ≠ 511 ∧ ¬nanPat .f32 0xFF800000 ∧
    ¬finite .f32 0xFF800000 ∧ finite .f32 0 ∧ value .f32 0 + 15 * 2 ^ ((256 : Int) + 256 - 512) ≠ 0 := by
  refine ⟨.inl rfl, by decide, by unfold nanPat; decide +kernel, by unfold finite; decide +kernel, by unfold finite; decide +kernel, ?_⟩
  norm_num [value, expOf, fracOf, expLen, fracLen]
def thAcc : Thread := regs [(4, 0x2000)]
theorem wit_AccumulatorMemory :
    let ld (off : Off) := acLoad h0 2 4 .core off
    let st (off : Off) := acStore h0 true 2 4 .core off
    Alone (ld (.short 0)) s0 key th0 ∧ Alone (st (.long 0)) s0 key th0 ∧
    s0.access th0 key (address th0 .core 4 (offset (.short 0))) 64 64 false true = .ok (.alloc 3 0) ∧
    s0.locWaits (.alloc 3 0) 64 false = false ∧ s0.locWaits (.alloc 3 0) 64 true = false ∧ (s0.readLoc (.alloc 3 0) 64).2 = false ∧
    Alone (acLoad h0 2 4 .pair (.short 0)) (as 0 thG) key thG ∧ Alone (acStore h0 false 2 4 .pair (.long 0)) (as 0 thG) key thG ∧
    (as 0 thG).access thG key (address thG .pair 4 (offset (.short 0))) 64 64 false true = .ok (.global 0x2000) ∧
    (as 0 thG).l1Hit 0 0 0x2000 = none ∧ Alone (acLoad h0 2 4 .pair (.short 0)) (as 0 thBad) key thBad ∧
    (as 0 thBad).access thBad key (address thBad .pair 4 (offset (.short 0))) 64 64 false true = .error causeAddr := by
  exact ⟨alone_of (by decide +kernel), alone_of (by decide +kernel), by decide +kernel, by decide +kernel, by decide +kernel,
    by decide +kernel, alone_of (by decide +kernel), alone_of (by decide +kernel), by decide +kernel, by decide +kernel,
    alone_of (by decide +kernel), by decide +kernel⟩
/-- Copies of two rows of 16 bytes: global 0x2000 in w4, core scratchpad 0x100 and a misaligned 0x108 in w6 and w8. -/
def cp1 : CpDesc := ⟨.raw, 1, .none, 0, 0, 1, 0⟩
def thC : Thread := regs [(4, 0x2000), (6, 0x100), (7, 0xD0000000), (8, 0x108), (9, 0xD0000000)]
theorem wit_CopyIssue : (∀ kind ∈ [CpKind.cpi, .cpf],
      aloneB (copyInstr h0 kind 2 4 6 10 cp1) (as 0 thC) key thC = true ∧
      (∀ n, n < 2 → (as 0 thC).copyRowCheck thC key kind cp1 (copySrc thC kind 4) (thC.rw 6) 0 n = none) ∧
      (as 0 thC).copyRoom ((as 0 thC).copyEntries thC key kind cp1 (copySrc thC kind 4) (thC.rw 6)) = true) ∧
    lookup (as 0 thC).groups 3 ≠ none ∧ ((as 0 thC).flushFirst thC true false .none).2 = none ∧ (as 0 thC).copies = [] ∧
    aloneB (copyInstr h0 .cpi 2 4 8 10 cp1) (as 0 thC) key thC = true ∧
    (as 0 thC).copyRowCheck thC key .cpi cp1 (thC.rw 4) (thC.rw 8) 0 0 = some (causeMisalign, thC.rw 8) := by decide +kernel
def copy0 (st : CpState) : CopyRec := ⟨0, 3, key, .cpf, cp0, 0, 0xD000000000000070, 0, 0xAABBCCDD, 1, 0, 2, st, false, none, [], []⟩
/-- A fill of 128 bytes from 0x70 in two units; its number is 1 of timeline 0. -/
def copyState (c : CopyRec) : State :=
  { as 0 (regs [(4, 1)]) with
    copies := [(9, c)]
    groups := [(3, { group0 with tls := [(0, ⟨1, 0, [], []⟩)] })]
    cores := [(0, { CoreState.zero with score := [⟨.write, .alloc 3, 0x70, 0xF0, .copy 9⟩] })] }
theorem wit_CopyQueries : (∀ st ∈ [CpState.queued, .moving, .paused 2], let s := copyState (copy0 st)
      aloneB (.cpq h0 2 4 0) s key (regs [(4, 1)]) = true ∧ aloneB (.cpk h0 2 4 0) s key (regs [(4, 1)]) = true ∧
      (s.timelineOf 3 0).issued = 1 ∧ (1 : Nat) ∉ (s.timelineOf 3 0).adv ∧ s.copyOf 3 0 1 = some (9, copy0 st)) ∧
    aloneB (.cpq h0 2 4 1) s0 key th0 = true ∧ aloneB (.cpk h0 2 4 0) s0 key th0 = true ∧ (th0.rw 4).toNat = 0 ∧
    ({ copyState (copy0 .queued) with copies := [] } : State).copyOf 3 0 1 = none := by decide +kernel
theorem wit_CopyEngine :
    let c := copy0 .queued
    let s := copyState c
    let row := 0xD000000000000070
    lookup s.copies 9 = some c ∧ lookup s.threads c.th = some (regs [(4, 1)]) ∧ c.desc.nrm1 = 0 ∧ (0x70 : Nat) % 16 = 0 ∧
      0x70 + 16 * (c.desc.lnm1.toNat + 1) ≤ (s.pktOf (regs [(4, 1)])).scratch ∧ c.next < c.total ∧ s.copyWaits 9 = false ∧
      s.heldNow (s.cpKey (s.copyCtx c) c.core) = false ∧
      max row ((row / 128 + c.next) * 128) - row < min (row + 16 * (c.desc.lnm1.toNat + 1)) ((row / 128 + c.next + 1) * 128) - row ∧
      lookup s.groups c.gid ≠ none ∧ (s.timelineOf 3 0).completed + 1 = c.num ∧
      ({ c with next := 2 } : CopyRec).next = ({ c with next := 2 } : CopyRec).total ∧ ({ c with stop := true } : CopyRec).stop = true ∧
      (regs [(4, 1)]).wait ≠ .stop 9 2 ∧ (c.next ≠ c.total ∧ c.stop = false) := by decide +kernel

/-! ### Witnesses: helpers, launches, traps (R241 to R260) -/

def hire0 : HireState := ⟨2, 8, .addS32, 5, [(4, 7)], [1, 2], [], [], 0, none, [], 0⟩
def thH (x : HireState) : Thread := { th0 with hire := some x }
def helperN (n : Nat) : Thread := { th0 with hidx := n, lane := n, issued := 65536 }
/-- A recruiter with its helpers; thread k of its group is at hand. -/
def hireState (x : HireState) (k : Nat) : State :=
  { as 0 (thH x) with threads := [(key, thH x), (key + 1, helperN 1), (key + 2, helperN 2)], cur := [k] }
theorem wit_Hire : aloneB (.hire h0 .w8 .addS32 4 3 5 0x60) s0 key th0 = true ∧ th0.hire = none ∧
    aloneB (.hire h0 .w64 .none 12 3 5 0x60) (hireState hire0 key) key (thH hire0) = true := by decide +kernel
theorem wit_Hjoin : let i := Instr.hjoin h0 2 5 3
    aloneB i s0 key th0 = true ∧ aloneB i (hireState hire0 key) key (thH hire0) = true ∧ hire0.live ≠ [] ∧
      aloneB i (as 0 (thH { hire0 with live := [], trapped := some (2, 7) })) key (thH { hire0 with live := [], trapped := some (2, 7) }) = true ∧
      aloneB i (as 0 (thH { hire0 with live := [], done := [1, 2] })) key (thH { hire0 with live := [], done := [1, 2] }) = true := by
  decide +kernel
theorem wit_HelperInstructions :
    let s := hireState hire0
    (∀ n ∈ [1, 2], aloneB (.hrd h0 2 4) (s (key + n)) (key + n) (helperN n) && aloneB (.hret h0 4) (s (key + n)) (key + n) (helperN n) &&
      aloneB (.hrel h0) (s (key + n)) (key + n) (helperN n) && aloneB (.hsync h0) (s (key + n)) (key + n) (helperN n)) ∧
    lookup (s key).threads (key + 2 - 2) = some (thH hire0) ∧ aloneB (.hrd h0 12 4) (s key) key (thH hire0) = true ∧
    aloneB (.hrd h0 2 4) s0 key th0 = true ∧ th0.hire = none ∧ th0.hidx = 0 ∧ aloneB (.hret h0 4) s0 key th0 = true ∧
    aloneB (.hrel h0) s0 key th0 = true ∧ aloneB (.hsync h0) s0 key th0 = true ∧
    (∃ j ∈ 0 :: hire0.live, j ≠ 1 ∧ j ∉ hire0.arrived) ∧
    aloneB (.hsync h0) (hireState { hire0 with arrived := [0, 2] } (key + 1)) (key + 1) (helperN 1) = true ∧
    (∀ j ∈ 0 :: hire0.live, j = 1 ∨ j ∈ ({ hire0 with arrived := [0, 2] } : HireState).arrived) ∧ 65536 ≤ (helperN 1).issued ∧
    ¬65536 ≤ th0.issued := by decide +kernel
/-- Queue 5 of context 0, number 3: two packets of room at 0x2000, TAIL − HEAD = n. -/
def queueState (n : Nat) : State :=
  let s : State := { as 0 (regs [(4, 0), (5, 0xD0000000)]) with l2 := [(l2Base 0 64, line0)] }
  (((s.setFld 0x5100 5 63 61 5).setFld 0x5100 5 31 24 0x61).setReg 0x5101 5 0x2000).setReg 0x5103 5 (BitVec.ofNat 64 n)
theorem wit_Lnch : let i := Instr.lnch h0 2 4 3
    let th := regs [(4, 0), (5, 0xD0000000)]
    (∀ n ∈ [0, 1, 2], aloneB i (queueState n) key th && ((queueState n).localQueue 0 3 1 == some 5)) ∧
      (as 0 th).access th key (th.rw 4) 128 128 false true = .ok (.alloc 3 0) ∧ (as 0 th).localQueue 0 3 1 = none ∧
      2 ^ (((queueState 2).reg 0x5100 5).toNat / 2 ^ 24 % 32) = 2 ∧
      ((queueState 1).flushFirst th true false .p).2 = none ∧ (queueState 1).locWaits (.alloc 3 0) 128 false = false ∧
      ((queueState 1).readLoc (.alloc 3 0) 128).2 = false ∧
      ((match ((queueState 0).modThread key (advance i)).writeGlobal ⟨0, (queueState 0).lqSlot 5 0, false, true, 1⟩
          ((List.range 128).map (byteOf (queueState 0) (.alloc 3 0))) with
        | .ok t1 => t1.reg 0x5103 5 == 0 && decide (t1.threads = ((queueState 0).modThread key (advance i)).threads)
        | _ => false) : Bool) = true := by decide +kernel
def thX (tpc : DWord) : Thread := { th0 with hand := true, trap := ⟨9, tpc, 0, 0⟩ }
def block0 : IBlock := ⟨0, 0, 1, 0x80, List.replicate 32 0x20⟩
theorem wit_TrapInstructions : canTrap s0 th0 ∧ canTrap s2 th0 ∧ Alone (.trap h0 9) s0 key th0 ∧ Alone (.bkpt h0) s0 key th0 ∧
    (∀ m ∈ [TretMode.retry, .to, .next], Alone (.tret h0 m 4) s0 key th0 ∧ Alone (.tret h0 m 4) (as 0 (thX 0x1002)) key (thX 0x1002)) ∧
    th0.hand = false ∧ (thX 0x1002).trap.tpc.toNat % 4 ≠ 0 ∧
    (let s : State := { as 0 (thX 0x1000) with icache := [block0] };
      Alone (.tret h0 .next 4) s key (thX 0x1000) ∧
      ((match (s.modThread key (advance (.tret h0 .next 4))).fetchBlock (thX 0x1000) 0x1000 with
        | .ok s1 _ => decide (s1.threads = (s.modThread key (advance (.tret h0 .next 4))).threads)
        | _ => false) : Bool) = true) ∧
    Alone (.tmfr h0 2 0) s0 key th0 ∧ Alone (.tmfr h0 2 3) s2 key th0 := by
  refine ⟨by unfold canTrap; decide +kernel, by unfold canTrap; decide +kernel, alone_of (by decide +kernel),
    alone_of (by decide +kernel), ?_, rfl, by decide +kernel, ⟨alone_of (by decide +kernel), by decide +kernel⟩,
    alone_of (by decide +kernel), alone_of (by decide +kernel)⟩
  intro m hm
  exact ⟨alone_of (by revert m; decide +kernel), alone_of (by revert m; decide +kernel)⟩

/-! ### Witnesses: system registers and instructions, traps (R257, R277 to R299) -/

/-- SYSR, SYSW or SYSX of register 0x…: w2 is the operand, the pair behind v4 the instance. -/
def sysI (idx : BitVec 16) : SysOp → Instr
  | .read => .sysr h0 2 4 idx
  | .write _ => .sysw h0 2 4 idx
  | .exec _ => .sysx h0 2 4 idx
def whoS (s : State) : Who := ⟨s.priv 0, s.partOf 0, some key⟩
/-- A thread at a level about to access instance n with operand v. -/
def thI (n : Word) (v : Word) : Thread := regs [(2, v), (4, n)]
/-- The outcome of the four checks in their order: 0 to 3 for the first that fails, 4 for none. -/
def checkOf (s : State) (idx n : Nat) (op : SysOp) : Nat :=
  let w := whoS s
  if State.indexOk w idx op = false then 0 else if instOk idx n = false then 1 else if s.inReach w idx n op = false then 2
  else if (s.valueCheck w idx n op).isSome then 3 else 4
/-- Alone, with nothing to drain, and with that outcome. -/
def sysCase (priv : Nat) (idx : BitVec 16) (n v : Word) (op : SysOp) (want : Nat) : Bool :=
  let s := as priv (thI n v)
  let s1 := s.modThread key (advance (sysI idx op))
  aloneB (sysI idx op) s key (thI n v) && decide (s1.flushFirst (thI n v) true true .s = (s1, none)) &&
    (checkOf s idx.toNat n.toNat op == want || (want != 0 && checkOf s1 idx.toNat n.toNat op == want)) && decide ((thI n v).rw 2 = v.setWidth 64)
theorem wit_SystemRegisterAccess :
    (∀ op ∈ [SysOp.read, .write 7, .exec 7], sysCase 2 0xFFFF 0 7 op 0 = true) ∧ sysCase 1 0xA002 0 7 (.exec 7) 2 = true ∧
    sysCase 2 0x1002 65536 7 .read 1 = true ∧ sysCase 2 0x1002 65535 7 .read 4 = true ∧
    sysCase 1 0x1002 5 7 .read 4 = true ∧ sysCase 1 0x3000 1 7 .read 2 = true ∧
    sysCase 2 0x0005 0 7 .read 4 = true ∧ sysCase 2 0x0005 0 7 (.write 7) 4 = true ∧
    sysCase 2 0x1002 0 7 (.write 7) 3 = true ∧ sysCase 2 0x1002 0 64 (.write 64) 4 = true ∧
    sysCase 2 0x1004 5 7 (.exec 7) 4 = true ∧ sysCase 2 0x8011 0 0 (.exec 0) 4 = true := by decide +kernel
/-- A command that completes, and one that completes later. -/
def trainedLink (l : LinkState) : State :=
  let s : State := { as 2 (thI 0x500 0) with links := [(State.linkKey ⟨true, 5⟩, l)] }
  let s := s.setReg 0x9000 0x500 (setBits 0 63 62 2)
  [63, 127, 191, 255].foldl (fun t p => t.setReg 0x9010 (0x500 + p) (setBits 0 63 61 2)) s
theorem wit_commands :
    (match (as 2 (thI 0 7)).sysExec (whoS s2) (.thread key 2) 0x1004 5 7 with
      | .done s _ => (lookup s.threads key).map (·.tag) == some (thI 0 7).tag
      | _ => false) = true ∧
    (match (trainedLink LinkState.zero).sysExec (whoS s2) (.thread key 2) 0x9011 0x500 0 with
      | .later s => (lookup s.threads key).map (·.tag) == some 1
      | _ => false) = true := by decide +kernel
def thE (x : SupRegs) : Thread := { regs [(4, 5), (6, 0x2000), (7, 0), (8, 256), (10, 0), (11, 0x2000000)] with sup := x }
def inSup : SupRegs := { th0.sup with inTrap := true }
/-- A line of context 0 in the second-level cache, dirty, and one that is not in the range. -/
def lineState (priv : Nat) : State := { as priv (thE th0.sup) with l2 := [(l2Base 0 64, { line0 with dirty := true }), (l2Base 0 65, { line0 with cline := 65 })] }
/-- A partition supervisor's thread; context 5 is not in its partition. -/
def part3 (th : Thread) : State := (as 1 th).setReg 0x1000 0 (setBits (setBits 0 62 61 1) 60 56 3)
theorem wit_SystemInstructions :
    let th := thE th0.sup
    aloneB (.eret h0) (as 2 th) key th = true ∧ aloneB (.eret h0) (as 2 (thE inSup)) key (thE inSup) = true ∧
    th0.sup.inTrap = false ∧ canTrap s2 th0 ∧
    (∀ k ∈ [TinvKind.all, .ctx, .range], aloneB (.tinv h0 k 4 6 8) (as 1 th) key th = true) ∧
    (as 1 th).mayCtx ⟨1, 0, some key⟩ 5 = true ∧
    (part3 th).mayCtx ⟨1, 3, some key⟩ 5 = false ∧ (part3 th).partOf 0 = 3 ∧ (∀ i ∈ [Instr.tinv h0 .ctx 4 6 8, .cinvr h0 .inv 4 6 8],
      aloneB i (part3 th) key th = true) ∧
    (∀ op ∈ [CinvOp.cln, .inv, .disc], aloneB (.cinvr h0 op 4 6 8) (lineState 2) key th = true) ∧
    (let s1 := (lineState 2).modThread key (advance (.cinvr h0 .cln 4 6 8))
     s1.flushFirst th true true .s = (s1, none)) ∧
    (th.rw 6).toNat = 0x2000 ∧ (th.rw 8).toNat = 256 ∧ 0x2000 + 256 ≤ 2 ^ 57 ∧ (keysOf (lineState 2).l2).Nodup ∧
    aloneB (.cinvr h0 .inv 4 6 12) (lineState 2) key th = true ∧ (th.rw 12).toNat = 0 ∧
    aloneB (.cinvr h0 .disc 4 10 8) (lineState 2) key th = true ∧ 2 ^ 57 < (th.rw 10).toNat + 256 ∧
    privateLine (lineState 2) 0 0x2000 0x2100 line0 ∧ ¬privateLine (lineState 2) 0 0x2000 0x2080 { line0 with cline := 65 } ∧
    aloneB (.waiti h0 2 12) (as 2 th) key th = true ∧ (th.rv 12).setWidth 5 = 0#5 ∧
    aloneB (.waiti h0 2 4) (as 2 th) key th = true ∧ (as 2 th).events 0 &&& 5#5 = 0 ∧
    ((as 2 th).setReg 0x1006 0 0).events 0 &&& 5#5 ≠ 0 := by
  unfold canTrap privateLine; decide +kernel
/-- A thread with and without a handler, at either level; a helper that traps; checks made before an instruction. -/
theorem wit_TrapEntry : lookup s0.threads key = some th0 ∧ th0.hidx = 0 ∧ s0.priv 0 = 0 ∧ s2.priv 0 ≠ 0 ∧
    (s0.pktOf th0).handler ≠ 0 ∧ th0.hand = false ∧ (thX 0).hand = true ∧ s2.reg 0x1002 0 ≠ 0 ∧ th0.sup.inTrap = false ∧
    inSup.inTrap = true ∧ s0.ctxState 0 ≠ 0 ∧ s0.ctxState 0 ≠ 6 ∧
    lookup (hireState hire0 (key + 1)).threads (key + 1) = some (helperN 1) ∧ (helperN 1).hidx ≠ 0 ∧ (helperN 1).hidx ≤ key + 1 ∧
    lookup (hireState hire0 (key + 1)).threads (key + 1 - 1) = some (thH hire0) ∧ 0 ∉ hire0.live ∧ hire0.trapped = none ∧
    canTrap s0 th0 ∧ preTrap s0 (.eret h0) key th0 = some (causePriv, Instr.tval (.eret h0), 0) ∧
    preTrap (hireState hire0 key) (.movi h0 4 7) key (thH hire0) = some (causeSnapWr, 4, 0) ∧ 0xF0 ≤ (Instr.eret h0).raw.op ∧
    th0.active ⟨3, false, 0⟩ = false := by
  unfold canTrap; decide +kernel

/-! ### Witnesses: steps (R129 to R140) -/

/-- Context 0 runs at 0x1000 from its instruction cache: the bytes stand at the start of the block. -/
def stepState (pc : DWord) (b : Bytes) : State :=
  { as 0 { th0 with pc := pc } with power := { s0.power with on := true }, icache := [⟨0, 0, 1, pc.toNat / 32, b⟩] }
def bytesOf (w : BitVec 128) : Bytes := (List.range 16).map (fun j => w.extractLsb' (8 * j) 8) ++ List.replicate 16 0
/-- The fields that step looks at, if the block is there and nothing else is new. -/
def fetched (s : State) (pc : DWord) : Option Raw :=
  match s.fetchBlock (s.thread key) pc with
  | .ok s1 b => if s1.threads = s.threads ∧ s1.cur = s.cur then some (fieldsAt b pc) else none
  | _ => none
/-- MOVI; LEN = 3; an instruction across the end of a block; guard 96; FN of no instruction; the same at a supervisor opcode,
and behind a false guard. -/
theorem wit_StepRunsDecoded :
    let at_ (w : BitVec 128) := stepState 0x1000 (bytesOf w)
    (fetched (at_ (words 0x0009FCD1 0 0x100 0)) 0x1000).map Raw.decode = some (.ok (.movi h0 2 0x100)) ∧
    (fetched (at_ (words 3 0 0 0)) 0x1000).map (·.len) = some 3 ∧
    (fetched (stepState 0x1018 (List.replicate 32 1)) 0x1018).map (·.len) = some 1 ∧ (32 : Nat) < 0x1018 % 32 + 8 + 4 * 1 ∧
    (fetched (at_ (words 0x00018120 0 0 0)) 0x1000).map (·.g) = some 96 ∧
    (fetched (at_ (words 0x0001FD20 0x00040000 0 0)) 0x1000).map Raw.decode = some (.error 7) ∧
    (fetched (at_ (words 0x00000D20 0x00040000 0 0)) 0x1000).map (fun x => (x.decode, th0.active x.head)) = some (.error 7, false) ∧
    canTrap (at_ 0) th0 ∧ (at_ 0).power.on = true ∧ (at_ 0).cur = [key] ∧ (0x1002 : Nat) % 4 ≠ 0 ∧ 2 ^ 57 ≤ (2 ^ 57 : Nat) := by
  unfold canTrap; decide +kernel
theorem wit_inbox : ({ State.reset with inbox := [.wipeDone] } : State).inbox = .wipeDone :: [] ∧ State.reset.cur = [] ∧
    State.reset.power.on = true ∧ State.reset.inbox = [] := by decide +kernel
/-- Witness for DrawerOkStays: a state with its memory in canonical form that takes a step. -/
theorem wit_DrawerOkStays : DrawerOk { State.reset with inbox := [.wipeDone] } ∧
    ∃ t, step { State.reset with inbox := [.wipeDone] } = .next t := ⟨test_reset_memory, _, rfl⟩

/-! ### Witnesses: waves, hampers, servers (R25 to R32, R299, R304) -/

def filed (n lane : Nat) : Thread := { th0 with tid := n, lane := lane, status := .filed }
/-- Threads 0, 1 and 32 filed under one hamper at clock 5: 0 and 32 share a home lane. -/
def hamper1 : Hamper := ⟨3, 0x1008, 0, [(key, 5), (keyM 1, 5), (keyM 32, 6)], false, false, 5⟩
def hampState (clk : Nat) (h : Hamper) : State :=
  { s0 with
    clk := clk, threads := [(key, filed 0 0), (keyM 1, filed 1 1), (keyM 32, filed 32 0)], cur := []
    cores := [(0, { CoreState.zero with hampers := [(4, h)] })] }
theorem wit_hampers :
    (hamper1.aged = false ∧ ∃ x ∈ hamper1.ths, x.2 + 256 ≤ 261) ∧ (∀ x ∈ hamper1.ths, 260 < x.2 + 256) ∧
    (∀ e ∈ ((hampState 5 hamper1).core 0).hampers, ¬mayDraw (hampState 5 hamper1) e.2) ∧
    (let h := { hamper1 with aged := true }
     let s := hampState 6 h
     (keysOf (s.core 0).hampers).Nodup ∧ lookup (s.core 0).hampers 4 = some h ∧ mayDraw s h ∧ (s.core 0).lastDraw ≠ some s.clk ∧
       (s.core 0).reformQ = [] ∧ (∀ x ∈ (s.core 0).hampers, x.1 ≠ 4 → ¬mayDraw s x.2) ∧ (s.group h.gid).slots = 0 :: [1] ∧
       (h.ths.map Prod.fst).Nodup ∧ (∀ x ∈ s.threads, x.2.core = 0 → x.2.slot = 0 → x.2.hidx = 0 ∧ x.2.status ≠ .live) ∧
       (∀ x ∈ h.ths, (lookup s.threads x.1).isSome) ∧ firstOfLane s h (key, 5) ∧ ¬firstOfLane s h (keyM 32, 6) ∧
       firstOfLane s h (keyM 1, 5)) := by
  unfold mayDraw firstOfLane; decide +kernel
theorem slots_all {s : State} {core ig : Nat} {P : Nat → Wave → Prop}
    (h : ∀ i, i < 16 → ∀ v ∈ (lookup s.waves (State.waveKey core (16 * ig + i))).toList, P (16 * ig + i) v) :
    ∀ sl v, 16 * ig ≤ sl → sl < 16 * ig + 16 → lookup s.waves (State.waveKey core sl) = some v → P sl v := by
  intro sl v a b e
  have := h (sl - 16 * ig) (by omega) v (by rw [Nat.add_sub_cancel' a, e]; simp)
  rwa [Nat.add_sub_cancel' a] at this
/-- A pending wave in slot 0 and n active ones behind it, whose threads are ready or wait. -/
def waveState (n : Nat) (w : Wait) : State :=
  { s0 with
    threads := (key, th0) :: (List.range' 1 n).map fun j => (keyM j, { th0 with tid := j, slot := j, wait := w })
    waves := (State.waveKey 0 0, ⟨3, 4, false, 0, 0, []⟩) :: (List.range' 1 n).map fun j => (State.waveKey 0 j, ⟨3, j, true, 0, 0, []⟩) }
theorem wit_waves :
    (∀ n ∈ [7, 8], ∀ w ∈ [Wait.none, .counter], pendingReady (waveState n w) 0 0 0 ⟨3, 4, false, 0, 0, []⟩ ∧
      ∀ sl v, pendingReady (waveState n w) 0 0 sl v → (4 : Int) < v.age ∨ (4 = v.age ∧ 0 ≤ sl)) ∧
    activeCount (waveState 7 .none) 0 0 = 7 ∧ (∀ w ∈ [Wait.none, .counter], activeCount (waveState 8 w) 0 0 = 8) ∧
    (activeAt (waveState 8 .counter) 0 0 1 ⟨3, 1, true, 0, 0, []⟩ ∧ allHeld (waveState 8 .counter) 0 1 ∧
      ∀ j u, activeAt (waveState 8 .counter) 0 0 j u → allHeld (waveState 8 .counter) 0 j → 1 ≤ j) ∧
    ((∀ sl v, activeAt (waveState 8 .none) 0 0 sl v → ¬allHeld (waveState 8 .none) 0 sl) ∧ (waveState 8 .none).overdue 0 0 = none) ∧
    ∀ slot w, ¬pendingReady State.reset 0 0 slot w := by
  have oldest : ∀ n ∈ [7, 8], ∀ w ∈ [Wait.none, .counter], ∀ i, i < 16 →
      ∀ v ∈ (lookup (waveState n w).waves (State.waveKey 0 (16 * 0 + i))).toList,
        v.active = false → (4 : Int) < v.age ∨ (4 = v.age ∧ 0 ≤ 16 * 0 + i) := by decide +kernel
  refine ⟨fun n hn w hw => ⟨?_, ?_⟩, by decide +kernel, by decide +kernel, ⟨?_, ?_, ?_⟩, ⟨?_, by decide +kernel⟩, ?_⟩
  · unfold pendingReady; revert n w; decide +kernel
  · rintro sl v ⟨a, b, e, act, _⟩
    refine slots_all (P := fun sl v => v.active = false → (4 : Int) < v.age ∨ (4 = v.age ∧ 0 ≤ sl)) (oldest n hn w hw) sl v a b e act
  · unfold activeAt; decide +kernel
  · intro k hk
    have : k = keyM 1 := by
      have h : (waveState 8 .counter).waveThreads 0 1 = [keyM 1] := by decide +kernel
      rw [h] at hk; simpa using hk
    subst this
    exact ⟨by decide +kernel, keyM 1, by decide +kernel, by trivial⟩
  · rintro j u ⟨a, b, e, act⟩ _
    exact slots_all (s := waveState 8 .counter) (core := 0) (ig := 0) (P := fun sl v => v.active = true → 1 ≤ sl)
      (by decide +kernel) j u a b e act.1
  · rintro sl v ⟨a, b, e, act⟩ held
    have found : ((waveState 8 .none).waveThreads 0 sl).any (fun k =>
        (waveState 8 .none).fragmentReady 0 sl ((waveState 8 .none).thread k).tag) = true := by
      refine slots_all (P := fun sl v => v.active = true → ((waveState 8 .none).waveThreads 0 sl).any (fun k =>
        (waveState 8 .none).fragmentReady 0 sl ((waveState 8 .none).thread k).tag) = true) ?_ sl v a b e act.1
      decide +kernel
    obtain ⟨k, hk, h⟩ := List.any_eq_true.mp found
    rw [(held k hk).1] at h
    cases h
  · rintro sl v ⟨_, _, e, _⟩; cases e
def srv0 : SrvKey := linkSrv ⟨false, 2⟩ 3
def srvState (tick : Nat) (h : Bool) : State :=
  ({ s0 with tick := tick, servers := [(srvNat srv0, ⟨-1, 10, h, false, 0⟩)] } : State).setReg 0x4100 0x203
    (setBits (setBits (setBits 0 63 63 1) 23 0 5) 47 24 7)
theorem wit_ScheduleEvents : (srvState 10 true).srvInstalled srv0 = true ∧ ((srvState 10 true).srv srv0).held = true ∧
    ((srvState 10 true).srv srv0).d ≤ (srvState 10 true).tick ∧ (srvState 9 true).tick < ((srvState 9 true).srv srv0).d ∧
    ((srvState 10 false).srv srv0).held = false ∧
    (let s (c : Nat) : State := { as 0 { th0 with wait := .nap c } with clk := 8 }
     lookup (s 8).threads key = some { th0 with wait := .nap 8 } ∧ 8 ≤ (s 8).clk ∧ (s 9).clk < 9 ∧ th0.core = 0 ∧ th0.slot = 0 ∧
      th0.tag = 1 ∧ th0.status = .live ∧ th0.lane < 32) ∧
    (let s (n : DWord) : State := ({ as 0 { th0 with wait := .event 4 } with tick := 8 } : State).setReg 0x1006 0 n
     ((s 8).reg 0x1006 0).toNat ≤ (s 8).tick ∧ (s 8).events 0 &&& 4 ≠ 0 ∧ (s 9).events 0 &&& 4 = 0) := by decide +kernel

/-! ### Witnesses: commands and stages of a context (R290, R291, R333 to R340) -/

/-- Context 0 in a state. -/
def inCtx (n : Nat) : State := s0.setReg 0x1003 0 (setBits 0 63 61 n)
/-- Ready for ENABLE: wiped, a root table, and a partition that holds server group 0, protection 0 and context 0. -/
def enableState : State :=
  ((((((inCtx 0).setReg 0x3030 0 0).setReg 0x1001 0 (setBits 0 45 12 9)).setReg 0x3005 0 1).setReg 0x3004 0 1).setReg 0x300A 0
    (setBits 0 48 32 1))
/-- Context 0 in the table of time-sliced partition 1. -/
def slicedState (n : Nat) : State :=
  ((inCtx n).setReg 0x3000 1 (setBits (setBits 0 63 63 1) 62 62 1)).setReg 0x3020 8 (setBits 0 63 63 1)
def saggar0 (header : Bytes) : Saggar :=
  ⟨header, [], [(7, { Launch.zero with pkt := pkt0 })], [], [], [], [], [], [], [], [], [], [], [], 0⟩
/-- A saved context with its image, marked valid or not. -/
def savedState (v : Nat) (header : Bytes) : State :=
  { (inCtx 5).setReg 0x5004 0 (setBits 0 63 63 v) with saggars := [(0, saggar0 header)] }
def routed (s : State) : State := { s with routes := [(State.routeKey (s.sgrpOf 0) 0, ⟨5, 1, 2, [], 0⟩)] }
/-- An image of n pages of 4,096 bytes, offered by a peer under ticket 0. -/
def offer0 (n : Nat) (pages : List (Nat × Nat × List Host.Cell)) : Offer :=
  ⟨5, 0, saggar0 (List.replicate 8 0 ++ toBytes 8 (4096 * n)), 4096 * n, pages⟩
def importState (o : List Offer) : State := { (inCtx 1).setReg 0x5002 0 3 with offers := o }
theorem wit_ContextCommands :
    (∀ n, n < 7 → (inCtx n).ctxState 0 = n ∧ (inCtx n).sliced 0 = false) ∧ ¬enableOk (inCtx 0) 0 ∧
    enableState.ctxState 0 = 0 ∧ enableOk enableState 0 ∧ (slicedState 2).sliced 0 = true ∧ (slicedState 2).ctxState 0 = 2 ∧
    (∀ e ∈ (inCtx 2).threads, e.2.hidx ≤ e.1) ∧ lookup (inCtx 5).saggars 0 = none ∧
    lookup (savedState 1 []).saggars 0 = some (saggar0 []) ∧ (savedState 1 []).imageOk 0 (saggar0 []) = true ∧
    (savedState 0 []).imageOk 0 (saggar0 []) = false ∧ (∀ e ∈ (saggar0 []).launches, e.2.adding = false) ∧
    (keysOf (saggar0 []).launches).Nodup ∧ (savedState 1 []).ctxState 0 = 5 ∧ imgv (savedState 1 []) 0 = 1 ∧ imgv (inCtx 5) 0 = 0 ∧
    lookup (savedState 1 []).routes (State.routeKey ((savedState 1 []).sgrpOf 0) (part ((savedState 1 []).reg 0x5300 0) 6 0)) = none ∧
    lookup (routed (savedState 1 [])).routes (State.routeKey ((savedState 1 []).sgrpOf 0) (part ((savedState 1 []).reg 0x5300 0) 6 0)) ≠
      none ∧
    (importState []).offers = [] ∧ (importState [offer0 3 []]).ctxState 0 = 1 ∧
    (offer0 3 []).ticket = ((importState []).reg 0x5302 0 ++ (importState []).reg 0x5301 0 : BitVec 128) ∧
    4096 * part ((importState []).reg 0x5002 0) 31 0 = State.imageLength (offer0 3 []).image ∧
    4096 * part ((importState []).reg 0x5002 0) 31 0 < State.imageLength (offer0 4 []).image ∧
    (importState []).pageMapped 0 0 4096 = false := by
  unfold enableOk; decide +kernel
/-- Context 0 drains or saves since tick 0; the drain limit is 100 or n, forced or not. -/
def drainState (st tick n force : Nat) : State :=
  { (inCtx st).setReg 0x5000 0 (setBits (setBits 0 63 63 force) 19 0 n) with tick := tick }
/-- Time-sliced partition 1 with its entry 0 for context 0; the context at hand is in a state. -/
def turnState (n cur tick : Nat) : State :=
  let s := (slicedState n).setReg 0x3020 9 (setBits (setBits 0 63 63 1) 47 32 9)
  let s := (s.setReg 0x1003 9 (setBits 0 63 61 1)).setReg 0x5100 0 (setBits (setBits 0 63 63 1) 47 32 9)
  { (s.setReg 0x5103 0 1).setReg 0x3021 1 (setBits 0 63 63 cur) with tick := tick }
/-- A save with the largest saggar area. -/
def saving : State := (inCtx 4).setReg 0x5002 0 0xFFFFFFFF
theorem save_fits : saving.saveExpired 0 = false := by
  have past : saving.stagePast 0 (saving.saveLimit 0) = false := by decide +kernel
  have captured : saving.capturedBytes 0 true < 2 ^ 40 := by decide +kernel
  have area : saving.fld 0x5002 0 31 0 = 4294967295 := by decide +kernel
  have size : saving.imageSize 0 true < 2 ^ 40 := by
    simp only [State.imageSize, Bool.true_or, if_true, show saving.carriedBytes 0 = 0 by decide +kernel, Nat.add_zero]; exact captured
  have small := (Config.imageOverhead (saving.imageSize 0 true)).isLt
  simp only [State.saveExpired, past, State.imageTooBig, State.imageBytes, area, Bool.false_or, Bool.and_eq_false_iff,
    decide_eq_false_iff_not]
  omega
/-- The save of a context one of whose threads holds an uncorrectable error. -/
def brokenSave : State := { saving with threads := [(key, { th0 with bad := [⟨.vec, 5⟩] })] }
theorem wit_ContextEvents : saving.saveExpired 0 = false ∧
    (∀ s ∈ [saving, { inCtx 3 with hoods := [] }], s.carried 0 = none) ∧ (∀ e ∈ saving.threads, e.2.bad = []) ∧
    ((∃ e ∈ brokenSave.threads, e.2.ctx = 0 ∧ e.2.bad ≠ []) ∧ brokenSave.saveQuiet 0 = true ∧ brokenSave.ctxState 0 = 4) ∧
    (125 * 782 : Nat) ≤ 16 * (6110 - 0) ∧
    ({ inCtx 3 with hoods := [] } : State).ctxState 0 = 3 ∧ (∃ e ∈ (inCtx 3).hoods, e.2.ctx = 0) ∧
    (∀ x ∈ [(0, 100, 782), (5, 5, 40)], ((drainState 3 x.2.2 x.1 1).reg 0x5000 0).getLsbD 63 = true ∧
      125 * x.2.1 ≤ 16 * ((drainState 3 x.2.2 x.1 1).tick - part ((drainState 3 x.2.2 x.1 1).reg 0x5004 0) 47 0) ∧
      16 * ((drainState 3 (x.2.2 - 1) x.1 1).tick - part ((drainState 3 x.2.2 x.1 1).reg 0x5004 0) 47 0) < 125 * x.2.1) ∧
    ((drainState 3 782 0 0).reg 0x5000 0).getLsbD 63 = false ∧
    saving.saveQuiet 0 = true ∧ (inCtx 3).saveQuiet 0 = false ∧ (drainState 4 16000 0 1).stagePast 0 2000 = true ∧
    lookup saving.groups (key / 32768) = some group0 ∧ lookup saving.threads key = some th0 ∧
    lookup ({ inCtx 2 with watch := [(0, 7)] } : State).watch 0 = some 7 ∧ lookup (inCtx 2).watch 0 = none ∧
    (part ((inCtx 2).reg 0x1000 0) 19 0 = 0) ∧
    ((inCtx 2).reg 0x3000 2).getLsbD 63 = false ∧ (turnState 1 0 0).rotates 1 = true ∧
    (turnState 1 0 0).nextEntry 1 = some 0 ∧ part ((turnState 1 0 0).reg 0x3020 8) 47 32 = 0 ∧
    ((turnState 1 0 0).reg 0x3021 1).getLsbD 63 = false ∧ (turnState 1 0 0).ctxState 0 = 1 ∧
    (turnState 2 1 0).nextEntry 1 = some 1 ∧ part ((turnState 2 1 0).reg 0x3021 1) 58 56 = 0 ∧
    part ((turnState 2 1 0).reg 0x3020 8) 47 32 = 0 ∧ (turnState 2 1 0).ctxState 0 = 2 ∧ (turnState 2 1 7812).sliceOver 1 = false ∧
    (turnState 2 1 7813).sliceOver 1 = true := by
  refine ⟨save_fits, ?_⟩; decide +kernel

/-! ### Witnesses: launches, groups, Ethernet (R18 to R20, R325 to R332, R391, R392) -/

/-- A packet of one hood of one group of four threads, with entry and completion address. -/
def packet (entry : Nat) : Bytes :=
  toBytes 8 entry ++ toBytes 8 7 ++ toBytes 2 4 ++ toBytes 2 1 ++ toBytes 4 1 ++ toBytes 4 1 ++ toBytes 4 1 ++ toBytes 4 1 ++
    [1, 1, 1, 0] ++ toBytes 2 256 ++ toBytes 2 4 ++ toBytes 4 256 ++ toBytes 4 65536 ++ List.replicate 76 0
/-- Queue 5 of context 0 at a packet it has read; m launches are there. -/
def takeState (b : Bytes) (m : Nat) : State :=
  { ((s0.setReg 0x5100 5 (setBits 0 63 63 1)).setReg 0x5103 5 1 : State) with
    heads := [(5, b)], launches := (List.range m).map fun j => (j, { Launch.zero with pkt := pkt0 }) }
theorem wit_packetTake : (∀ m ∈ [63, 64], (takeState (packet 0x1000) m).queueLive 5 = true ∧
      ((takeState (packet 0x1000) m).launches.filter fun e => e.2.ctx = 0).length = m) ∧
    (takeState (packet 0x1000) 63).packetOk 0 (packet 0x1000) = true ∧ (packet 0x1000).length = 128 ∧
    leAt (packet 0x1000) 0x40 8 = 0 ∧ leAt (packet 0x1000) 0x50 8 = 0 ∧ leAt (packet 0x1000) 0x28 2 = 256 ∧
    (({ takeState (packet 0x1000) 0 with struck := [] } : State).setReg 0x1003 0 (setBits 0 63 61 1)).ctxState 0 ≠ 2 ∧
    (takeState (packet 0x1001) 0).packetOk 0 (packet 0x1001) = false ∧ State.reset.queueLive 5 = false ∧
    (match (takeState (packet 0x1000) 63).headPacket 5 with
      | .ok (_, b) => b == packet 0x1000
      | _ => false) = true := by decide +kernel
def launch0 (p : Packet) : Launch := { Launch.zero with pkt := p }
def placeState (p : Packet) (from_ : Option Nat) : State :=
  { s0 with launches := [(1, { launch0 p with waitFrom := from_ })], clk := 3000007 }
theorem wit_hoodPlace : let s := placeState pkt0 none
    s.mayPlace 0 = (1, launch0 pkt0) :: [] ∧ lookup s.launches 1 = some (launch0 pkt0) ∧
      s.nextHood 1 (launch0 pkt0) = some (.fresh 0) ∧ s.hoodRect 0 1 (launch0 pkt0) = some (0, 0, 0) ∧ pkt0.threads ≤ 1024 ∧
      (∀ e ∈ s.groups, e.1 < s.fresh ∧ e.2.hood < s.fresh) ∧
      (placeState { pkt0 with scratch := 1048576, slice := 4096 } none).hoodRect 0 1 (launch0 { pkt0 with scratch := 1048576, slice := 4096 }) =
        none := by decide +kernel
/-- A copy of the group's that has begun with n answers out. -/
def dyingState (n : Nat) : State := { s0 with copies := [(9, { copy0 .moving with units := [⟨0, n, []⟩] })] }
theorem wit_groups : (placeState pkt0 (some 7)).clk = 7 + 3000000 ∧ s0.mayLeave 3 = false ∧
    lookup (placeState pkt0 (some 7)).launches 1 = some { launch0 pkt0 with waitFrom := some 7 } ∧
    (∀ e ∈ (placeState pkt0 (some 7)).placeOrder ((placeState pkt0 (some 7)).partOf 0), e.2.reserved = false) ∧
    (∃ e ∈ (placeState pkt0 (some 7)).placeOrder ((placeState pkt0 (some 7)).partOf 0), e.1 = 1) ∧ (placeState pkt0 (some 8)).clk < 8 + 3000000 ∧
    (∀ n ∈ [0, 1], lookup (dyingState n).hoods 2 = some (s0.hood 2)) ∧ (s0.hood 2).dying = none ∧
    (∃ e ∈ (dyingState 1).copies, ((dyingState 1).group e.2.gid).hood = 2 ∧ State.copyOut e.2 = true) ∧
    (∀ e ∈ (dyingState 0).copies, State.copyOut e.2 = false) ∧ (keysOf (dyingState 1).threads).Nodup ∧
    ({ s0 with threads := [] } : State).mayLeave 3 = true ∧ lookup s0.hoods 9 = none ∧ (lookup s0.hoods 2).isSome ∧
    s0.ctxState 0 ≠ 0 ∧
    (let s : State := ({ placeState { pkt0 with replay := true } none with fqWait := [⟨0, []⟩] } : State).setReg 0x2000 0 (setBits 0 63 63 1)
     (s.launch 1).pkt.replay = true ∧ lookupD 0 (s.launch 1).kills 0 < 2 ∧ (s.reg 0x2000 (s.fqOf 0)).getLsbD 63 = true ∧
       s.fqWait.any (fun w => w.fq == s.fqOf 0) = true) := by decide +kernel
/-- A request for local queue 3 with key id 9 and a sequence number; entry 0 takes it for context 0, entries 0x1000 to 0x2000. -/
def request (seq entry : Nat) : Bytes :=
  let b := toBytes 4 9 ++ toBytes 4 3 ++ toBytes 8 seq ++ packet entry
  b ++ hmacSm3 (toBytes 32 0) b
def remoteState (n : Nat) : State :=
  let s := ((queueState n).setFld 0x5100 5 62 61 2).setReg 0x5200 1 (setBits (setBits 0 63 63 1) 15 0 0x88B5)
  (((s.setReg 0x5201 0 (setBits (setBits (setBits 0 63 63 1) 55 48 8) 31 0 9)).setReg 0x5204 0 5).setReg 0x5202 0 0x1000).setReg 0x5202 1 0x2000
theorem wit_remoteLaunch :
    let s := remoteState 1
    (s.reg 0x5200 1).getLsbD 63 = true ∧ (s.reg 0x5200 0).getLsbD 63 = false ∧ s.rlEntry (leAt (request 6 0x1000) 0 4) = some 0 ∧
      s.rlEntry 8 = none ∧ hmacSm3 (s.rlKey 0) ((request 6 0x1000).take 0x90) = ((request 6 0x1000).drop 0x90).take 32 ∧
      hmacSm3 (s.rlKey 0) ((request 6 0x1000 ++ [0]).take 0x90) ≠ List.replicate 32 0 ∧
      (s.reg 0x5204 0).toNat < leAt (request 6 0x1000) 8 8 ∧ ¬(s.reg 0x5204 0).toNat < leAt (request 5 0x1000) 8 8 ∧
      s.rlQueue 0 3 = some 5 ∧ s.rlQueue 0 2 = none ∧
      ((s.reg 0x5202 0).toNat ≤ 0x1000 ∧ 0x1FFF < (s.reg 0x5202 1).toNat ∧ ¬0x2000 < (s.reg 0x5202 1).toNat) ∧
      s.lqCount 5 < s.lqSize 5 ∧ (remoteState 2).lqSize 5 ≤ (remoteState 2).lqCount 5 ∧
      (match (remoteState 0).appendPacket 5 (((request 6 0x1000).drop 0x10).take 128) with
        | .ok _ => true
        | _ => false) = true := by decide +kernel
/-- Ring r of context 0 with one descriptor at 0x2000: a buffer of 64 bytes at 0x2040. -/
def ringState (tx : Nat) : State :=
  let d : Line := { line0 with data := [(1, 0x20), (0, 0x40), (8, 64)] }
  let s : State := { s0 with l2 := [(l2Base 0 64, { d with data := [(0, 0x40), (1, 0x20), (8, 64)] })] }
  let s := s.setReg 0x9200 64 (setBits (setBits (setBits (setBits 0 63 63 1) 62 62 tx) 27 20 1) 11 0 5)
  (s.setReg 0x9201 64 0x2000).setReg 0x9202 64 (setBits 0 63 32 1)
def frame (n vid : Nat) (ok : Bool) : EthFrame := ⟨0x800, vid, 0, ok, List.replicate n 1⟩
theorem wit_frames : let s := ringState 0
    (frame 60 5 false).fcsOk = false ∧ (frame 60 5 true).fcsOk = true ∧
      ((remoteState 0).reg 0x5200 1).getLsbD 63 = true ∧ part ((remoteState 0).reg 0x5200 1) 15 0 = 0x88B5 ∧
      (s.reg 0x5200 1).getLsbD 63 = false ∧ s.rxRing 1 4 0 = none ∧ s.rxRing 1 5 0 = some 64 ∧
      (s.storeFrame 64 (frame 64 5 true).bytes).isSome ∧ s.storeFrame 64 (frame 65 5 true).bytes = none ∧
      (ringState 0).txReady 64 = false ∧ (ringState 1).txReady 64 = true ∧
      ({ ringState 1 with ethTurn := put (ringState 1).ethTurn 1 1 } : State).txFrame 64 ≠ none ∧
      ({ (ringState 1).setReg 0x9201 64 0x3000 with ethTurn := put (ringState 1).ethTurn 1 1 } : State).txFrame 64 = none := by
  decide +kernel

/-! ### Witnesses: commands of servers, routes, translation, reliability (R308 to R316, R349 to R369, R404, R434) -/

/-- Server group 0 is enabled, with shares for its partition's links. -/
def groupOn : State := (s0.setReg 0x4000 0 (setBits 0 63 63 1)).setReg 0x3009 0 (setBits (setBits 0 52 32 524288) 20 0 524288)
def template (q n : Nat) : DWord := setBits (setBits (setBits 0 63 63 1) 47 24 n) 23 0 q
/-- At the bound, past it, and past the share: 378 of 384 cycles are 1,032,192 of 2^20; 256 fabric slots hold half at 128. -/
theorem wit_Turnstile : part (template 0 1) 23 0 = 0 ∧ part (template 5 0) 47 24 = 0 ∧ groupOn.sgOn 0 = true ∧ s0.sgOn 0 = false ∧
    groupOn.templateSum .ig 0 0 + asked (template 378 1) 384 = 1032192 ∧
    1032192 < groupOn.templateSum .ig 0 0 + asked (template 379 1) 384 ∧ asked (groupOn.reg 0x4002 0) 384 = 0 ∧
    2 ^ 20 < groupOn.templateSum .mx 0 0 + asked (template 385 1) 384 ∧ 2 ^ 20 < groupOn.templateSum .cp 0 0 + asked (template 193 1) 192 ∧
    (∀ fab : Bool, (groupOn.linkSum fab 5 fun x _ => x != 3) = 0 ∧
      asked (template 128 1) 256 = (if fab then part (groupOn.reg 0x3009 0) 20 0 else part (groupOn.reg 0x3009 0) 52 32) ∧
      (if fab then part (groupOn.reg 0x3009 0) 20 0 else part (groupOn.reg 0x3009 0) 52 32) < asked (template 129 1) 256 ∧
      (if fab then 1032192 else 1015808) < asked (template 253 1) 256) := by decide +kernel
/-- A route record to package 7 of n hops: on link 2, 5 of every 9. -/
def route (n : Nat) : Bytes := [7, BitVec.ofNat 8 n, 0x34, 0, 0, 0, 0, 0, 0, 2, 5, 0, 0, 9, 0, 0] ++ List.replicate 48 0
def build0 : RouteBuild := ⟨0, 7, 0x34, 1, [], (2, 0), 3, some .outside, 0, none, []⟩
/-- A route to package 7 in the last entry, and a load of context 0 that is out to that package or not. -/
def boundState (n : Nat) : State :=
  { groupOn with
    routes := [(State.routeKey 0 7, ⟨5, 15, 31, [], 0⟩)]
    reqs := if n = 0 then [] else [(50, { req0 .load .none with va := 0x80E0000000002000, link := some 15 })] }
/-- Server group 0 serves fabric group 3. -/
def jobState : State := groupOn.setReg 0x9101 0 (setBits (setBits 0 63 63 1) 2 0 3)
theorem wit_routes :
    (lookup (boundState 0).routes (State.routeKey 0 7) = some ⟨5, 15, 31, [], 0⟩ ∧ (boundState 0).routeTags 0 7 = [] ∧
      (boundState 1).routeTags 0 7 ≠ []) ∧
    (jobState.jobGroup 3 = some 0 ∧ jobState.jobGroup 2 = none ∧ (jobState.reserveHop 15 0 false 5 9).2.1 = 0 ∧
      (jobState.reserveHop 15 0 false 250 1).2.1 ≠ 0) ∧
    (∀ n ∈ [1, 7], groupOn.badRoute (route n) = none) ∧ groupOn.badRoute (route 0) = some 0xFF ∧ groupOn.badRoute (route 8) = some 0xFF ∧
    leAt (route 7) 0 1 = 7 ∧ leAt (route 7) 1 1 = 7 ∧ leAt (route 7) 2 2 = 0x34 ∧ State.hopAt (route 1) 0 = (0, 2, false, 5, 9) ∧
    lookup groupOn.routes (State.routeKey 0 7) = none ∧ groupOn.builds = [] ∧ (groupOn.reserveHop 2 0 false 5 9).2.1 = 0 ∧
    (s0.reserveHop 2 0 false 5 9).2.1 = 4 ∧ build0.since + 1024 ≤ 1027 ∧ ¬build0.since + 1024 ≤ 1026 ∧
    build0.who = some .outside ∧ build0.left = [] ∧ build0.hop = 1 ∧ 1 < ({ build0 with hop := 3 } : RouteBuild).hop := by
  decide +kernel
/-- A remap table of two entries at frame 1: the second good, empty, or over the first. -/
def remapState (base pages : Nat) : State :=
  let e (b n : Nat) : Bytes := toBytes 8 (14 * 2 ^ 60 + 4096 * b) ++ toBytes 8 0 ++ toBytes 4 n ++ toBytes 12 0
  let s := s0.setReg 0x6001 0 (setBits (setBits 0 45 12 1) 10 0 2)
  { s with drawer := s.drawer.write 4096 (e 3 2 ++ e base pages) }
def remapBadB (s : State) (e : RemapEntry) : Bool :=
  remapBad (s.remapBytes 0 e.index) e || (s.remapTable 0).any fun x => decide (x.index < e.index) && remapMeets x e
theorem wit_rmsync : (∀ e ∈ (remapState 5 1).remapTable 0, remapBadB (remapState 5 1) e = false) ∧
    (∀ s ∈ [remapState 5 0, remapState 4 1], (s.remapTable 0).map (remapBadB s) = [false, true]) ∧
    (∀ e ∈ (remapState 5 0).remapTable 0, e.index < 1024) := by decide +kernel
def fault0 : FaultRec := ⟨0, 3, 0, 2, 0, 1, [.thread key]⟩
def parked : State := { as 0 { th0 with wait := .fault 9 } with faults := [(9, fault0)] }
theorem wit_reliability :
    lookup parked.faults 9 = some fault0 ∧ fault0.fq = 3 ∧ lookup parked.faults 8 = none ∧ parked.ctxState fault0.ctx ≠ 0 ∧
    lookup parked.threads key = some { th0 with wait := .fault 9 } ∧
    s0.frameReach 0 true 0 = true ∧ s0.frameReach 0 true (2 ^ 34 - 1) = false ∧ s0.retireSlot (s0.frameDie 5) = some (256 * s0.frameDie 5) ∧
    s0.lifeCycle ≠ 1 ∧ (s0.setReg 0xA001 0 1).lifeCycle = 1 ∧ (131071 : Nat) % 250000 < 131072 ∧ 131072 ≤ (131072 : Nat) % 250000 ∧
    (s0.drawer.poisoned (s0.channelPa 95 640 / 128 * 128) 128 = false ∧ (∀ e ∈ s0.l2, e.2.pa ≠ s0.channelPa 95 640 / 128 * 128) ∧
      (s0.frameTag (s0.channelPa 95 640 / 128 * 128 / 4096)).getLsbD 63 = false ∧
      ({ s0 with drawer := s0.drawer.addPoison 128 0 128 } : State).drawer.poisoned 0 128 = true) ∧
    95 ∈ s0.drawers ∧ 96 ∉ s0.drawers ∧ ({ s0 with scrubFix := [(95, 5)] } : State).scrubFix = (95, 5) :: [] ∧ s0.lcNext = none ∧
    part (s0.reg 0xA003 0) 5 0 < 1 ∧ State.reset.liveContexts = [] ∧ (∀ n, n < 16 → State.reset.linkUp ⟨true, n⟩ = false) ∧
    (exampleLink true).linkUp link0 = true ∧ (trainedLink LinkState.zero).linkUp ⟨true, 5⟩ = true := by decide +kernel

/-! ### Witnesses: links and rings (R303, R366, R371 to R389, R420) -/

def fabLink : LinkId := ⟨true, 5⟩
def memLink : LinkId := ⟨false, 5⟩
/-- A link that is up with kind 2 at four or eight positions of its shadow and of its timetable in force. -/
def linkState_ (l : LinkId) (x : LinkState) : State :=
  let s : State := { s0 with links := [(State.linkKey l, x)], tick := 1050, clk := 3 }
  let s := s.setReg (if l.fab then 0x9000 else 0x8000) 0x500 (setBits 0 63 62 2)
  let at_ : List Nat := if l.fab then [63, 127, 191, 255] else [31, 63, 95, 127, 159, 191, 223, 255]
  at_.foldl (fun t p => (t.setReg (if l.fab then 0x9010 else 0x8010) (0x500 + p) (setBits 0 63 61 2)).setReg
    (if l.fab then 0x9010 else 0x8010) (0x500 + p + 32768) (setBits 0 63 61 2)) s
def up_ (l : LinkId) : State := linkState_ l LinkState.zero
def kindsOf (s : State) (l : LinkId) (k : Nat) : Nat := ((List.range 256).filter fun p => part (shadowAt s l p) 63 61 = k).length
theorem wit_ttcommit : (∀ l ∈ [fabLink, memLink], kindsOf (up_ l) l 2 = (if l.fab then 4 else 8) ∧ (up_ l).linkUp l = true ∧
      kindsOf ((up_ l).setReg (if l.fab then 0x9010 else 0x8010) (0x500 + 1) (setBits 0 63 61 2)) l 2 ≠ if l.fab then 4 else 8) ∧
    kindsOf ((up_ memLink).setReg 0x8010 (0x500 + 1) (setBits 0 63 61 4)) memLink 4 ≠ 0 ∧
    ((up_ memLink).setReg 0x8000 0x500 0).linkUp memLink = false ∧ ((up_ fabLink).link fabLink).shadowAsk = none ∧
    (∀ l ∈ [fabLink, memLink], ((up_ l).link l).commit = none) ∧ fabLink.n < 128 ∧
    (let s (c : Option Nat) : State := (linkState_ fabLink { LinkState.zero with shadowAsk := some 26, commit := c }).setReg 0x9000 0x500
       (setBits (setBits 0 63 62 2) 30 24 9)
     ((s none).link fabLink).shadowAsk ≠ none ∧ (s none).pkgId < part (linkReg (s none) fabLink 0 0) 30 24 ∧
      ((s (some 1051)).link fabLink).commit ≠ none ∧ (s none).linkUp fabLink = true) ∧
    (let far (k : Nat) : List DWord := (List.range 256).map fun p =>
       setBits 0 63 61 (match part (shadowAt (up_ fabLink) fabLink p) 63 61 with | 2 => 2 | 4 => 1 | _ => k)
     (∀ p, p < 256 → ¬((part (shadowAt (up_ fabLink) fabLink p) 63 61 = 2 ∧ part ((far 4).getD p 0) 63 61 ≠ 2) ∨
        (part (shadowAt (up_ fabLink) fabLink p) 63 61 ≠ 2 ∧ part ((far 4).getD p 0) 63 61 = 2) ∨
        ((part (shadowAt (up_ fabLink) fabLink p) 63 61 = 4 ↔ part ((far 4).getD p 0) 63 61 = 4) ∧
          ¬(part (shadowAt (up_ fabLink) fabLink p) 63 61 = 2 ∧ part ((far 4).getD p 0) 63 61 = 2)))) ∧
      ((part (shadowAt (up_ fabLink) fabLink 0) 63 61 = 4 ↔ part ((far 0).getD 0 0) 63 61 = 4) ∧
          ¬(part (shadowAt (up_ fabLink) fabLink 0) 63 61 = 2 ∧ part ((far 0).getD 0 0) 63 61 = 2))) ∧
    (let s (f : Nat) := linkState_ fabLink { LinkState.zero with shadowAsk := some f, commit := some (f + 1024) }
     ((s 26).link fabLink).shadowAsk = some 26 ∧ 26 + 1024 ≤ (s 26).tick ∧ ¬27 + 1024 ≤ (s 27).tick ∧
      ((s 26).link fabLink).commitWho = .outside ∧ ((s 26).link fabLink).commit = some 1050 ∧ (s 27).tick < 27 + 1024 ∧
      ((s 26).link fabLink).nextCommit = [] ∧ ((s 26).link fabLink).heldAsk = none) ∧
    (let s := linkState_ fabLink { LinkState.zero with shadowAsk := some 26, heldAsk := some [] }
     (s.link fabLink).heldAsk = some [] ∧ (s.link fabLink).commit = none) := by decide +kernel
def ring0 : RingId := ⟨fabLink, 15⟩
def ringSt (v : DWord) (x : RingState) : State :=
  ({ up_ fabLink with rings := [(ringKey ring0, x)] } : State).setReg 0x9030 0x50F v
theorem wit_rings : ring0.ring < 16 ∧ heatOf (ringSt 4000 RingState.zero) ring0 = 4000 ∧
    (let sum (op : DWord) : Int := heatOf (ringSt 4000 RingState.zero) ring0 + (op.setWidth 13).toInt
     sum 95 = 4095 ∧ 4095 < sum 96 ∧ sum 0x1060 = 0 ∧ sum 0x105F < 0) ∧
    (let s := ringSt 0 { RingState.zero with effect := some 3, settleEnd := some 3 }
     (s.ring ring0).effect = some 3 ∧ (s.ring ring0).settleEnd = some 3 ∧ 3 ≤ s.clk ∧ s.clk < 4) ∧
    (∀ n ∈ [0, 14, 16], let s := ringSt 0 { RingState.zero with readings := List.replicate n 1023 }
      (∀ y ∈ (s.ring ring0).readings, y < 1024) ∧ (s.ring ring0).readings.length = n ∧ part (ringReg s ring0) 61 61 = 0) ∧
    part (ringReg (ringSt (setBits 0 61 61 1) RingState.zero) ring0) 61 61 = 1 := by decide +kernel
def flit0 (kind cmd : Nat) : Flit := ⟨setBits 0 30 28 kind, BitVec.ofNat 128 (cmd * 2 ^ 124 + 5 * 2 ^ 64), List.replicate 128 7⟩
def txn0 : Txn := ⟨0, 0, 9, flit0 1 1, none, 0, false, 0, 0, false, [], false, 0, none⟩
/-- A transaction waits for position p, of a kind in force. -/
def slotWith (l : LinkId) (p kind : Nat) (x : LinkState) : State :=
  (linkState_ l x).setReg (if l.fab then 0x9010 else 0x8010) (0x500 + p + 32768) (setBits (setBits 0 63 61 kind) 4 0 31)
def slotState (l : LinkId) (p kind : Nat) : State := slotWith l p kind { LinkState.zero with queue := [txn0] }
def reply0 : Txn := { txn0 with flit := flit0 2 0, far := true }
/-- What waits for a position of each kind: a flit that was sent before, a control flit, a reply, and a header that is owed. -/
theorem wit_slotKinds :
    (∀ x ∈ [(1, txn0), (2, { txn0 with flit := flit0 3 0 }), (4, reply0)], let t : Txn := { x.2 with pos := some 3, again := true }
      let s := slotWith fabLink 0 x.1 { LinkState.zero with queue := [t] }
      s.linkUp fabLink = true ∧ s.slotFits fabLink 0 = true ∧ (s.link fabLink).queue = t :: [] ∧ t.pos ≠ none ∧ State.flitClass t = x.1 ∧
        part (forceAt s fabLink 0) 63 61 = x.1 ∧ (x.1 = 1 → s.posUsable fabLink 0 = true)) ∧
    (let s := slotWith fabLink 0 2 { LinkState.zero with maint := [flit0 3 0], queue := [txn0] }
     part (forceAt s fabLink 0) 63 61 = 2 ∧ (s.link fabLink).maint = flit0 3 0 :: [] ∧ State.unacked (s.link fabLink) < 1024 ∧
      (∀ x ∈ (s.link fabLink).queue, x.pos = none) ∧ Txn.new 0 0 (cmdBits (flit0 3 0) 84 64) (flit0 3 0) s.tick ∉ (s.link fabLink).queue) ∧
    (let s : State := { slotWith memLink 0 2 LinkState.zero with scrubFix := [(5, 7)] }
     memLink.n = 5 ∧ (s.link memLink).maint = [] ∧ s.scrubFix = (5, 7) :: [] ∧ s.linkUp memLink = true ∧ s.slotFits memLink 0 = true) ∧
    (let s := slotWith fabLink 0 4 { LinkState.zero with replies := [reply0] }
     part (forceAt s fabLink 0) 63 61 = 4 ∧ (s.link fabLink).replies = reply0 :: [] ∧ reply0.due ≤ s.unitNow ∧ reply0.pos = none ∧
      s.ctxClock reply0.ctx = none ∧ reply0 ∉ (s.link fabLink).queue) ∧
    (let s := slotWith fabLink 0 1 { LinkState.zero with nak := true }
     (s.link fabLink).queue = [] ∧ (s.link fabLink).nak = true) ∧
    (let s := slotWith fabLink 0 1 { LinkState.zero with seqIn := 5 }
     (s.link fabLink).ackOut ≠ ((s.link fabLink).seqIn + 65535) % 65536) ∧
    (let s : State := { (slotState fabLink 0 1).setReg 0x9101 0 (setBits (setBits 0 63 63 1) 2 0 3) with
       clocks := [(3, 7 :: List.replicate 15 0)] }
     s.ctxClock txn0.ctx = some (3, 7 :: List.replicate 15 0) ∧
      7 :: List.replicate 15 0 ≠ lookupD (List.replicate 16 0) (s.link fabLink).lastClock 3 ∧ flitKind txn0.flit = 1) := by decide +kernel
theorem wit_slots : (∀ l ∈ [fabLink, memLink], let s := slotState l 0 1
      s.linkUp l = true ∧ s.slotFits l 0 = true ∧ s.posUsable l 0 = true ∧ part (forceAt s l 0) 63 61 = 1 ∧ State.flitClass txn0 = 1 ∧
        State.unacked (s.link l) < 1024 ∧ (s.link l).queue = [txn0] ∧ txn0.pos = none ∧
        (∀ e, e < 32 → s.srvInstalled (linkSrv l e) = false) ∧ s.ctxClock txn0.ctx = none ∧
        part (forceAt s l 255) 63 61 = 2 ∧ (slotState l 0 0).posUsable l 0 = false) ∧
    (let s := (slotState memLink 0 3).setReg 0x4100 (0x500 + 31) (template 5 9)
     s.posUsable memLink 0 = true ∧ part (forceAt s memLink 0) 63 61 = 3 ∧ part (forceAt s memLink 0) 4 0 = 31 ∧
      s.srvInstalled (linkSrv memLink 31) = true ∧ s.heldNow (linkSrv memLink 31) = false ∧ txn0.paid = 0 ∧ isRows txn0.flit = false ∧ s.entryGroup memLink 31 = txn0.sgrp) := by
  decide +kernel
theorem wit_drawer : (∀ c ∈ [1, 2, 3, 4, 5], cmdBits (flit0 1 c) 127 124 = c) ∧ (flit0 1 1).data.length = 128 ∧ 5 ∈ s0.drawers ∧
    96 ∉ s0.drawers ∧ (s0.drawer.poisoned 0 128 || s0.errorAt 0 == some true) = false ∧
    (let s : State := { s0 with struck := [(s0.channelOf 0, s0.channelOff 0 / 128, true)] }
     (s.drawer.poisoned 0 128 || s.errorAt 0 == some true) = true) := by decide +kernel
def good (f : Flit) : Flit := sealFlit f
def shortFlit (kind cmd : Nat) : Flit :=
  { flit0 kind cmd with hdr := setBits (setBits 0 30 28 kind) 27 20 255, data := [7] }
/-- A flit with a CRC that is one too high. -/
def wrong (f : Flit) : Flit := { f with hdr := setBits f.hdr 15 0 ((flitCrc f).toNat + 1) }
theorem wrong_crc (f : Flit) : part (wrong f).hdr 15 0 ≠ (flitCrc (wrong f)).toNat := by
  unfold wrong
  rw [flitCrc_setCrc]
  show bits _ 15 0 ≠ _
  rw [setCrc_low]
  have := (flitCrc f).isLt
  omega
theorem good_cmd (f : Flit) : (good f).cmd = f.cmd := rfl
theorem good_data (f : Flit) : (good f).data = f.data := rfl
theorem good_part {hi lo : Nat} (f : Flit) (h : 16 ≤ lo) : part (good f).hdr hi lo = part f.hdr hi lo := sealFlit_bits f h
/-- A flit with a good CRC and one with a bad CRC; reserved codes; a header that is idle, and one in or out of its sequence. -/
theorem wit_flits : (∀ f, part (good f).hdr 15 0 = (flitCrc (good f)).toNat ∧ part (wrong f).hdr 15 0 ≠ (flitCrc (wrong f)).toNat) ∧
    flitReserved (good (shortFlit 1 1)) = false ∧ flitReserved (good (shortFlit 6 1)) = true ∧
    flitReserved (good (shortFlit 5 6)) = true ∧ flitReserved (good (shortFlit 5 5)) = false ∧
    (let f := good (shortFlit 1 1)
     part f.hdr 31 31 = 0 ∧ part f.hdr 19 16 = 0 ∧ part f.hdr 27 20 = 255 ∧ flitKind f = 1 ∧ cmdBits f 127 124 ≠ 0 ∧
      part f.hdr 63 48 = ((up_ fabLink).link fabLink).seqIn ∧
      part f.hdr 63 48 ≠ ((linkState_ fabLink { LinkState.zero with seqIn := 65535 }).link fabLink).seqIn) ∧
    (up_ fabLink).linkUp fabLink = true ∧ (0 + 65536 - 65535) % 65536 < 32768 ∧ State.reset.linkUp fabLink = false := by
  refine ⟨fun f => ⟨sealFlit_crc f, wrong_crc f⟩, ?_, ?_, ?_, ?_, ⟨?_, ?_, ?_, ?_, ?_, ?_, ?_⟩, ?_⟩
  · rw [good, sealFlit_reserved]; decide +kernel
  · rw [good, sealFlit_reserved]; decide +kernel
  · rw [good, sealFlit_reserved]; decide +kernel
  · rw [good, sealFlit_reserved]; decide +kernel
  · rw [good_part _ (by decide)]; decide +kernel
  · rw [good_part _ (by decide)]; decide +kernel
  · rw [good_part _ (by decide)]; decide +kernel
  · exact (sealFlit_bits _ (by decide)).trans (by decide +kernel : bits (shortFlit 1 1).hdr 30 28 = 1)
  · unfold cmdBits; rw [good_cmd]; decide +kernel
  · rw [good_part _ (by decide)]; decide +kernel
  · rw [good_part _ (by decide)]; decide +kernel
  · decide +kernel
theorem wit_rotate : (up_ fabLink).linkUp fabLink = true ∧ ((up_ fabLink).link fabLink).outDir.wlOut = none ∧
    ((up_ fabLink).link fabLink).inDir.wlOut = none ∧ part (forceAt (up_ fabLink) fabLink 255) 63 61 = 2 ∧
    ¬(2 : DWord).toNat < 2 ∧ (1 : DWord).toNat < 2 ∧
    (let s (h : Nat) : State := (List.range 8).foldl (fun t i => t.setReg 0x9030 (0x500 + i) (BitVec.ofNat 64 h))
      (linkState_ fabLink { LinkState.zero with rotate := [(.outbound, 1050 * 256 + 2, .outside)] })
     ((s 0).link fabLink).rotate = [(.outbound, 1050 * 256 + 2, .outside)] ∧ 1050 * 256 + 2 ≤ (s 0).slotNow ∧
      (s 0).slotNow < 1050 * 256 + 3 ∧ (∀ i, i < 8 → ¬4095 < heatOf (s 2895) ⟨fabLink, i⟩ + 1200) ∧
      4095 < heatOf (s 2896) ⟨fabLink, 0⟩ + 1200) := by decide +kernel
/-- A wavelength out, trained or not, that rejoins at a frame. -/
def outState (wl : Nat) (t : Bool) (f : Option Nat) : State :=
  linkState_ fabLink { LinkState.zero with outDir := { DirState.zero with wlOut := some wl, trained := t, rejoin := f } }
theorem wit_wavelengths : (up_ fabLink).linkUp fabLink = true ∧ (dirAt (up_ fabLink) fabLink .inbound).wlOut = none ∧
    (dirAt (outState 7 false none) fabLink .outbound).wlOut = some 7 ∧ (dirAt (outState 7 false none) fabLink .outbound).trained = false ∧
    (dirAt (outState 7 true none) fabLink .outbound).trained = true ∧
    (dirAt (outState 7 true (some 1050)) fabLink .outbound).rejoin = some 1050 ∧ 1050 ≤ (outState 7 true none).tick ∧
    ((outState 7 true none).link fabLink).stalled = [] ∧
    (let s (t : Nat) := (linkState_ fabLink { LinkState.zero with windows := [(7, t)] }).setReg 0x9021 0x500 0
     part (linkReg (s 26) fabLink 0x20 7) 63 63 = 0 ∧
      lookupD 0 ((s 26).link fabLink).windows 7 + 2 ^ (part (linkReg (s 26) fabLink 0x21 0) 63 60 + 10) ≤ (s 26).tick ∧
      ¬lookupD 0 ((s 27).link fabLink).windows 7 + 2 ^ (part (linkReg (s 27) fabLink 0x21 0) 63 60 + 10) ≤ (s 27).tick) := by
  decide +kernel
/-- A fabric link down since frame f, with a request of context 0 on it. -/
def downState (f : Nat) (op : ReqOp) : State :=
  ({ linkState_ fabLink { LinkState.zero with downAt := some f } with
      tick := 78130, reqs := [(50, { req0 op .none with link := some 5 })] } : State).setReg 0x9000 0x500 (setBits 0 63 62 3)
theorem wit_LinkEvents : (∀ op ∈ [ReqOp.load, .store [1, 2, 3, 4]],
      ((downState 5 op).link fabLink).downAt = some 5 ∧ part (linkReg (downState 5 op) fabLink 0 0) 63 62 = 3 ∧
      5 + 78125 ≤ (downState 5 op).tick ∧ (downState 6 op).tick < 6 + 78125 ∧
      (downState 5 op).reqs = [(50, { req0 op .none with link := some 5 })] ∧ (downState 5 op).copies = [] ∧
      (downState 5 op).ctxState 0 ≠ 0 ∧ (downState 5 op).ctxState 0 ≠ 6) ∧
    delayD true 471 468 250 = 1022 ∧ delayD false 72 72 3999 = 232 ∧ (127 : Nat) < 128 ∧ (15 : Nat) < 16 := by decide +kernel

/-! ### Witnesses: what reaches the package from outside (R281, R285, R324, R397, R401 to R406, R433 to R437)

The clauses of POWER_ON that ask how the bundle's root key compares with the fuses, and whether a signature verifies, have free
values for hypotheses (log 5), and so no witness. -/

def dev : Who := ⟨2, 0, none⟩
/-- The checks of an access from outside: 0 to 3 for the first that fails, 4 for none. -/
def outCheck (s : State) (w : Who) (x n : Nat) (op : SysOp) : Nat :=
  if State.indexOk w x op = false then 0 else if instOk x n = false then 1 else if s.inReach w x n op = false then 2
  else if (s.valueCheck w x n op).isSome then 3 else 4
def tailState (count en : Nat) : State := (queueState count).setFld 0x5100 5 63 63 en
/-- A partition that virtual function 3 acts for, and windows that are served. -/
def winState (fn x n : Nat) : State :=
  let s := (s0.setReg 0x3000 1 (setBits (setBits 0 63 63 1) 61 57 3)).setReg 0xA000 0 (setBits 0 63 60 4)
  { s with power := ⟨true, true, true, true, true⟩, wins := [(fn, ⟨BitVec.ofNat 64 (x * 2 ^ 32 + n), 0, 0⟩)] }
theorem wit_writes : outCheck s0 dev 0xFFFF 0 (.write 0) = 0 ∧ outCheck s0 dev 0x2000 64 (.write 0) = 1 ∧
    outCheck s0 dev 0x2000 63 (.write 0) = 4 ∧ outCheck s0 dev 0x5103 63 (.write 9) = 4 ∧ outCheck s0 dev 0x5100 63 (.write 0) = 4 ∧
    outCheck s0 dev 0x9202 255 (.write 0) = 4 ∧ outCheck s0 dev 0x1002 65535 (.write 64) = 4 ∧ s0.fqWait = [] ∧
    (∀ c ∈ [(0, 0), (1, 1), (1, 2)], part ((tailState c.2 c.1).reg 0x5100 5) 63 63 = c.1 ∧ part ((tailState c.2 c.1).reg 0x5103 5) 31 0 = c.2) ∧
    part ((tailState 0 1).reg 0x5100 5) 28 24 = 1 ∧ part (((tailState 0 1).setFld 0x5100 5 62 61 0).reg 0x5100 5) 62 61 = 0 ∧
    part ((tailState 0 1).reg 0x5100 5) 62 61 ≠ 0 := by decide +kernel
theorem wit_windows : (winState 3 0x1002 0).power.pcie = true ∧ part ((winState 3 0x1002 0).reg 0xA000 0) 59 56 = 0 ∧
    part ((winState 3 0x1002 0).reg 0x3000 1) 63 63 = 1 ∧ part ((winState 3 0x1002 0).reg 0x3000 1) 61 57 = 3 ∧
    (∀ p, p < 17 → part ((winState 3 0x1002 0).reg 0x3000 p) 61 57 = 3 → p = 1) ∧
    (∀ p, p < 17 → part ((winState 3 0x1002 0).reg 0x3000 p) 61 57 ≠ 4) ∧
    part ((winState 0 0x1002 5).hostWin 0).sel 47 32 = 0x1002 ∧ part ((winState 0 0x1002 5).hostWin 0).sel 31 0 = 5 ∧
    outCheck (winState 0 0x1002 5) dev 0x1002 5 .read = 4 ∧ outCheck (winState 0 0x1002 5) dev 0x1002 5 (.write 32) = 4 ∧
    outCheck (winState 0 0x1002 5) dev 0x1002 5 (.write 33) = 3 ∧ outCheck (winState 0 0x1004 5) dev 0x1004 5 (.exec 2) = 4 ∧
    outCheck (winState 0 0x1002 5) dev 0x1002 5 (.exec 2) ≠ 4 ∧ (winState 3 0x1002 0).power.trained = true ∧
    (let s := (winState 3 0 0).setReg 0x3003 1 5
     let own := (List.range 64).filter fun q => (s.reg 0x3000 1).getLsbD 63 && (s.reg 0x3003 1).getLsbD q
     own.length ≤ 2 ∧ own[1]? = some 2 ∧ part (s.reg 0x5100 2) 62 61 = 0 ∧ part ((s.setReg 0x5100 2 (setBits 0 62 61 1)).reg 0x5100 2) 62 61 ≠ 0) ∧
    (match (winState 0 0x1004 5).sysExec dev (.window 0) 0x1004 5 2 with
      | .done _ _ => true
      | _ => false) = true := by decide +kernel
theorem wit_OutsideEvents : part (State.reset.reg 0x3030 0) 63 63 = 1 ∧
    part ((s0.setReg 0x3030 0 0).reg 0x3030 0) 63 63 = 0 ∧ s0.lcNext = none ∧ ({ s0 with lcNext := some 3 } : State).lcNext = some 3 ∧
    part ((winState 0 0 0).reg 0xA000 0) 63 60 = 4 ∧ part (s0.reg 0xA000 0) 63 60 ≠ 4 ∧ part (s0.reg 0xA000 0) 59 56 = 0 ∧
    (3 : Nat) < 4 ∧ part (s0.reg 0xB006 0) 11 0 < part (s0.reg 0xB006 0) 27 16 ∧ part (s0.reg 0xB006 0) 27 16 < 2 ^ 12 ∧
    part ((winState 0 0 0).reg 0x1000 0) 60 56 ≠ 1 ∧ 0 ∈ (winState 0 0 0).liveContexts ∧ s0.lifeCycle ≠ 3 ∧
    (s0.setReg 0xA001 0 3).lifeCycle = 3 ∧ (([0x12, 0xE0, 1, 255] : Bytes).getD 2 0).toNat % 2 = 1 ∧
    (([0x12, 0xE0, 0, 16] : Bytes).getD 3 0).toNat ≤ 16 := by decide +kernel

/-! ### Witnesses of single clauses: control, floating point, answers, barriers, subscriptions, helpers -/

/-- Two threads that sleep together, with 1 and 0 in v4. -/
def napState : State :=
  { s0 with threads := [(key, regs [(4, 1)]), (keyM 1, { th0 with tid := 1, lane := 1 })], cur := [key, keyM 1] }
theorem wit_NapExitReform : Ready (.nap h0 4) napState ∧ napFor h0 4 napState = 1 ∧
    Alone (.exit h0) (hireState hire0 key) key (thH hire0) ∧ 0 ∉ hire0.live ∧ 127 ∉ (s0.core 0).kept ∧ (s0.core 0).reformQ = [] ∧
    (∀ e, e < 128 → lookup (fullHampers.core 0).hampers e ≠ none) :=
  ⟨ready_of_all (by decide +kernel), by decide +kernel, alone_of (by decide +kernel), by decide +kernel⟩
/-- Exact zeros: 0 + 0, 1 − 1, 1 · 1 − 1; a tiny exact number. -/
theorem wit_FloatZeros : value .f32 0 + value .f32 0 = 0 ∧ value .f32 0x3F800000 - value .f32 0x3F800000 = 0 ∧
    value .f32 0x3F800000 * value .f32 0x3F800000 + value .f32 0xBF800000 = 0 ∧ |value .f32 1| < leastNormal .f32 ∧
    infPat .f32 true ≠ zeroPat .f32 true ∧ (infPat .f32 true : Nat) = 0xFF800000 := by
  refine ⟨?_, ?_, ?_, ?_, by decide, by decide⟩ <;> norm_num [value, expOf, fracOf, expLen, fracLen, leastNormal]
/-- A helper that was stopped, with its last answer to come. -/
def goneState : State :=
  { sliceState { req0 .load .none with th := key + 1 } with threads := [(key + 1, { helperN 1 with status := .exited, pend := 1 })] }
theorem wit_LastAnswer : lookup goneState.reqs 50 = some { req0 .load .none with th := key + 1 } ∧
    lookup goneState.threads (key + 1) = some { helperN 1 with status := .exited, pend := 1 } ∧ (helperN 1).hidx ≠ 0 ∧
    (helperN 1).hidx ≤ key + 1 ∧ domainState.domainHeld dreq = false ∧
    ({ domainState with domWait := [dreq] } : State).domainHeld dreq = true ∧
    ({ domainState with domWait := [dreq] } : State).domainServes dreq = true := by decide +kernel
/-- The line of 0x2000 in L2, mapped, with ways in L2 and L1. -/
def prefState : State := hintState.setReg 0x4000 0 (1 + 2 ^ 32)
theorem wit_HeldLines : (∀ op ∈ [CfOp.inv, .cln, .l1], aloneB (.cflushW h0 op 4 .pair 0) hintState key thG = true) ∧
    (∀ lv ∈ [PrefLv.l1, .l2], aloneB (.prefW h0 lv 4 .pair 0) prefState key thG = true) ∧ line0.dirty = false ∧
    ({ line0 with dirty := true } : Line).dirty = true ∧ (prefState.canon 0 0x2000).present = true ∧ (prefState.canon 0 0x2000).r = true ∧
    prefState.l2Find (prefState.canon 0 0x2000).asid ((prefState.canon 0 0x2000).va / 128) = some (l2Base 0 64, line0) ∧
    line0.r = true ∧ line0.poison = false ∧ prefState.l1Find 0 0 0x2000 = none ∧ (prefState.reg 0x4000 (prefState.sgrpOf 0)).getLsbD (32 + 0) = true := by
  decide +kernel
/-- The other thread of the hood has arrived at BAR.H. -/
def hoodBar : State :=
  { barState [] with hoods := [(2, { Hood.zero with launch := 1, groups := [3], bar := ⟨7, [key + 32]⟩ })] }
theorem wit_HoodBarrier : aloneB (.bar h0 true 0) hoodBar key th0 = true ∧ lookup hoodBar.hoods 2 ≠ none ∧
    key ∈ (hoodBar.hood 2).groups.flatMap hoodBar.participants ∧ hoodBar.streams = [] ∧
    (∀ p ∈ (hoodBar.hood 2).groups.flatMap hoodBar.participants, p ≠ key → p ∈ (hoodBar.hood 2).bar.arrived) := by decide +kernel
/-- Publisher core 1 holds an update for core 0 that is not applied; the thread waits there or has been drained. -/
def drainSub (w : Wait) : State :=
  { hoodState { thS 1 0 with wait := w } [(9, sub0 0x100)] with
    cores := [(0, { CoreState.zero with subIn := [(9, sub0 0x100)], produced := 1 }), (1, { CoreState.zero with produced := 1 })]
    streams := [(State.streamKey 1 0, ⟨[update0], 0, [], 0⟩), (State.streamKey 0 1, ⟨[update0], 0, [], 0⟩)] }
theorem wit_WaitingSubscriptions : (∀ w ∈ [Wait.none, .drained], ∀ i ∈ [Instr.suboff h0 2 4, .subfl h0],
      aloneB i (drainSub w) key { thS 1 0 with wait := w } = true) ∧
    (drainSub .none).inboundAt 3 0x100 = some (9, sub0 0x100) ∧ (drainSub .drained).entryAt 3 0x100 = some (9, sub0 0x100) ∧
    (drainSub .none).pubCore (sub0 0x100) = 1 ∧ lookup (drainSub .none).streams (1024 * 1 + 0) = some ⟨[update0], 0, [], 0⟩ ∧
    update0.seq < ((drainSub .none).core 1).produced ∧ lookup (drainSub .none).streams (State.streamKey 0 1) = some ⟨[update0], 0, [], 0⟩ ∧
    State.streamKey 0 1 / 1024 = 0 ∧ update0.seq < ((drainSub .none).core 0).produced := by decide +kernel
/-- The recruiter's v4 holds an uncorrectable error; a helper with an access out is at its limit. -/
def badSnap : State :=
  { hireState hire0 (key + 1) with
    threads := [(key, { thH hire0 with bad := [⟨.vec, 4⟩] }), (key + 1, helperN 1), (key + 2, { helperN 2 with pend := 1 })] }
theorem wit_BadSnapshot : aloneB (.hrd h0 2 4) badSnap (key + 1) (helperN 1) = true ∧
    lookup badSnap.threads key = some { thH hire0 with bad := [⟨.vec, 4⟩] } ∧ (⟨.vec, 5⟩ : RegRef) ∉ ({ thH hire0 with bad := [⟨.vec, 4⟩] } : Thread).bad ∧
    lookup badSnap.threads (key + 2) = some { helperN 2 with pend := 1 } ∧ 65536 ≤ (helperN 2).issued ∧
    (∃ j ∈ 0 :: hire0.live, j ≠ 1 ∧ j ∉ hire0.arrived ∧ (j = 0 ∨ (badSnap.thread (key + j)).status ≠ .exited)) := by decide +kernel

/-! ### Witnesses of single clauses: copies, traps, launches, commands -/

def canStartB (s : State) (id : Nat) (c : CopyRec) : Bool :=
  decide (lookup s.copies id = some c) && (lookup s.groups c.gid).isSome && ((lookup s.threads c.th).any fun t => t.gid == c.gid) &&
  decide (c.desc.nrm1 = 0) && !c.stop && c.units.isEmpty && decide (c.next < c.total) && decide (c.state ≠ .paused 2) && !s.copyWaits id &&
  !s.heldNow (s.cpKey (s.copyCtx c) c.core) && !(s.unitPath id c).any (s.linkShort (s.copyCtx c))
theorem canStart_of {s : State} {id : Nat} {c : CopyRec} (h : canStartB s id c = true) : CanStart s id c := by
  simp only [canStartB, Bool.and_eq_true, decide_eq_true_eq, Bool.not_eq_true', List.isEmpty_iff, Option.isSome_iff_ne_none] at h
  obtain ⟨⟨⟨⟨⟨⟨⟨⟨⟨⟨a, b⟩, d⟩, e⟩, f⟩, g⟩, i⟩, j⟩, k⟩, l⟩, m⟩ := h
  obtain ⟨t, x, y⟩ := (Option.any_eq_true _ _).mp d
  exact ⟨a, b, ⟨t, x, by simpa using y⟩, e, f, g, i, j, k, l, m⟩
/-- A copy of one row from an address to offset 0x100 of core scratchpad, at unit n of m, with its line of 0x2000 in L2. -/
def rowCopy (kind : CpKind) (fmt : CpFmt) (src : DWord) (n m : Nat) : CopyRec :=
  { copy0 .queued with kind := kind, desc := { cp0 with fmt := fmt }, src := src, dst := 0xD000000000000100, scl := 0x2000, next := n, total := m }
def rowState (c : CopyRec) : State :=
  let s := { copyState c with cores := [(0, CoreState.zero)], l2 := [(l2Base 0 64, line0)], routes := [(State.routeKey 0 7, ⟨5, 1, 2, [], 0⟩)] }
  s.setReg 0x9101 0 (setBits (setBits 0 63 63 1) 2 0 1)
def consumes (c : CopyRec) (a : DWord) (n : Nat) : Bool := match (rowState c).copyConsume c a n with | .ok _ => true | _ => false
def writes (s : State) (c : CopyRec) (a n : Nat) (then_ : State → Bool) : Bool :=
  match s.writeGlobal ⟨s.copyCtx c, a, false, true, 5⟩ (List.replicate n 0) with | .ok t => then_ t | _ => false
/-- A copy of each kind that may start a unit, with what the unit reads or writes; a piece that comes back; a copy that ends. -/
theorem wit_CopyStarts :
    (∀ c ∈ [rowCopy .cpl .raw 0xD000000000000200 0 2, { rowCopy .cpl .raw 0xD000000000000200 1 2 with snap := some (List.replicate 128 0) },
      rowCopy .cpi .bq4 0x2000 7 9, rowCopy .cpi .bq4 0x2000 8 9, rowCopy .cpi .bq8 0x2000 0 9, rowCopy .cpi .bx16 0x2000 0 17,
      rowCopy .cpo .bf16 0xD000000000000200 0 8, rowCopy .cpo .bq8 0xD000000000000200 0 8, rowCopy .cpr .raw 0x80E0000000002000 0 2],
      CanStart (rowState c) 9 c ∧ inScratch (rowState c) c 0xD000000000000100 0x100 1152 ∧
        inScratch (rowState c) c 0xD000000000000200 0x200 1024 ∧ ((rowState c).group 3).alloc.bad = [] ∧ c.snapBad = []) ∧
    blockLo 0x100 0 < blockHi 0x100 128 0 ∧ blockLo 0x70 1 < blockHi 0x70 128 1 ∧
    consumes (rowCopy .cpi .bq4 0x2000 7 9) (0x2000 + BitVec.ofNat 64 (16 * 7)) 16 = true ∧
    consumes (rowCopy .cpi .bq4 0x2000 8 9) 0x2000 16 = true ∧ consumes (rowCopy .cpi .bx16 0x2000 0 17) 0x2000 64 = true ∧
    (let c := { rowCopy .cpo .bf16 0xD000000000000200 0 8 with dst := 0x2000 }
     writes (rowState c) c 0x2000 64 (fun _ => true)) = true ∧
    (let c := { rowCopy .cpo .bq8 0xD000000000000200 0 8 with dst := 0x2040 }
     writes (rowState c) c 0x2000 2 fun t => writes t c 0x2040 32 fun _ => true) = true ∧
    (let c := rowCopy .cpr .raw 0x80E0000000002000 0 2
     (rowState c).access ((rowState c).thread c.th) c.th c.src 128 1 false false = .ok (.peer 7 0x2000) ∧
       lookup (rowState c).routes ((rowState c).sgrpOf ((rowState c).copyCtx c) * 128 + 7) = some ⟨5, 1, 2, [], 0⟩) ∧
    (let c := { rowCopy .cpr .raw 0x80E0000000002000 1 1 with units := [⟨0, 1, []⟩] }
     let q := req0 .load (.copy 9 0 (some 0xD000000000000100))
     let s : State := { rowState c with reqs := [(50, q)] }
     lookup s.reqs 50 = some q ∧ lookup s.copies 9 = some c ∧ lookup s.threads c.th = some (regs [(4, 1)]) ∧
       inScratch s c (BitVec.ofNat 64 0xD000000000000100) 0x100 4) ∧
    (∃ u ∈ ({ copy0 .moving with units := [⟨0, 1, []⟩] } : CopyRec).units, u.unacked ≠ 0) := by
  refine ⟨fun c h => ⟨canStart_of ?_, ?_⟩, ?_⟩
  · revert c; decide +kernel
  · unfold inScratch; revert c; decide +kernel
  · unfold inScratch; decide +kernel
def imadI : Instr := .imad h0 .s32 false 12 4 5 6
/-- Pending accesses before a trap; the checks of R139 on operands, an open window, an open HIRE. -/
theorem wit_PreChecks : ({ th0 with pend := 1 } : Thread).pend ≠ 0 ∧
    notForHelpers (Instr.bar h0 false 1).raw.op.toNat ∧ ¬notForHelpers imadI.raw.op.toNat ∧ ¬noLaViol imadI.raw.op.toNat ∧
    noLaViol (Instr.exit h0).raw.op.toNat ∧ (.w 3 ∈ (Instr.movw h0 3 0).reads ++ (Instr.movw h0 3 0).writes ++ (Instr.movw h0 3 0).names) ∧
    BadOperand s0 th0 (.w 3) ∧ preTrap s0 imadI key th0 = none ∧
    (let w : LaWin := ⟨0xFF8, 2, [⟨.vec, 9⟩], [⟨.vec, 4⟩]⟩
     breaks imadI w ⟨.vec, 4⟩ ∧ (∀ q, breaks imadI w q → q = ⟨.vec, 4⟩) ∧ ∀ q, ¬breaks (.movi h0 2 7) w q) ∧
    (let i := Instr.movi h0 4 7
     hire0.win = 8 ∧ preTrap s0 i key th0 = none ∧ (⟨.vec, 4⟩ : RegRef) ∈ Instr.writeRefs i ∧
       (∀ m, (⟨.vec, m⟩ : RegRef) ∈ Instr.writeRefs i → 4 ≤ m) ∧ i.raw.op ≠ 0xE1) := by
  have reads : Instr.readRefs imadI = [⟨.vec, 4⟩, ⟨.vec, 5⟩, ⟨.vec, 6⟩] := by decide +kernel
  have writes : Instr.writeRefs imadI = [⟨.vec, 12⟩] := by decide +kernel
  have reads' : Instr.readRefs (.movi h0 2 7) = [] := by decide +kernel
  have writes' : Instr.writeRefs (.movi h0 2 7) = [⟨.vec, 2⟩] := by decide +kernel
  refine ⟨by decide, by unfold notForHelpers; decide +kernel, by unfold notForHelpers; decide +kernel,
    by unfold noLaViol; decide +kernel, by unfold noLaViol; decide +kernel, by decide +kernel, .inl (by decide), by decide +kernel,
    ⟨?_, ?_, ?_⟩, rfl, by decide +kernel, by decide +kernel, ?_, by decide +kernel⟩
  · unfold breaks; rw [reads, writes]; decide
  · intro q h; unfold breaks at h; rw [reads, writes] at h
    simp only [List.mem_cons, List.not_mem_nil, or_false] at h
    rcases h with ⟨_, e⟩ | ⟨rfl, e | e⟩
    · exact e
    · cases e
    · cases e
  · intro q h; unfold breaks at h; rw [reads', writes'] at h; simp at h; rcases h with ⟨rfl, h | h⟩ <;> simp at h
  · have : Instr.writeRefs (.movi h0 4 7) = [⟨.vec, 4⟩] := by decide +kernel
    intro m h; rw [this] at h; simp at h; omega
/-- Requests that TINV waits for; the order of a rotation; a launch that may reserve; frames of every kind. -/
theorem wit_Clauses :
    (∀ kind ∈ [TinvKind.all, .ctx, .range], tinvAwaits s2 th0 kind 0 1 0) ∧
    lookup (turnState 1 0 0).sliceNext 1 = none ∧ part ((turnState 2 1 0).reg 0x3021 1) 58 56 ≠ 1 ∧
    (let b : Bytes := List.replicate 12 0 ++ [0x88, 0x08, 1, 1, 0, 3] ++ List.replicate 60 1
     let f : EthFrame := ⟨0x8808, 0, 0, true, b⟩
     let pair (n : Nat) : Nat := 256 * leAt (framePayload b) n 1 + leAt (framePayload b) (n + 1) 1
     f.bytes.length = 78 ∧ pair 0 = 0x0101 ∧ (pair 2).testBit 1 = true ∧ (pair 2).testBit 2 = false) ∧
    (frame 59 5 true).bytes.length < 60 ∧ 9212 < (frame 9213 5 true).bytes.length ∧ (frame 9212 5 true).bytes.length = 9212 ∧
    (let s : State := { ringState 1 with pfc := [(8, 10 ^ 9)], ethTurn := put (ringState 1).ethTurn 1 1 }
     s.txReady 64 = true ∧ s.txPaused 64 = true ∧ (ringState 1).txPaused 64 = false) ∧
    (let s : State := remapState 5 1
     s.remapLost 0 = none ∧ ({ s with drawer := s.drawer.addPoison 128 4096 128 } : State).remapLost 0 = some 0) := by
  refine ⟨?_, by decide +kernel⟩
  intro kind h
  simp only [List.mem_cons, List.not_mem_nil, or_false] at h
  rcases h with rfl | rfl | rfl
  · exact .inl (by decide +kernel)
  · exact ⟨rfl, .inl rfl⟩
  · exact ⟨by decide, rfl, .inl rfl⟩
/-- A paid transaction at a slot of a held server; a header that a hand-back owes; a flit of code 9; links in training or not; a ring
at a frame's end and within a frame. -/
theorem wit_LinkClauses :
    (let s : State := { (slotWith memLink 0 3 { LinkState.zero with queue := [{ txn0 with paid := 1 }] }).setReg 0x4100 (0x500 + 31) (template 5 9) with
       servers := [(srvNat (linkSrv memLink 31), ⟨-1, 2000, true, false, 0⟩)] }
     s.slotFits memLink 0 = true ∧ s.posUsable memLink 0 = true ∧ s.srvInstalled (linkSrv memLink 31) = true ∧
       s.heldNow (linkSrv memLink 31) = true ∧ ({ txn0 with paid := 1 } : Txn).paid ≠ 0) ∧
    (let s := slotWith fabLink 0 1 { LinkState.zero with inDir := { DirState.zero with handed := 2 } }
     (s.link fabLink).queue = [] ∧ (s.link fabLink).inDir.handed ≠ 0 ∧ s.posUsable fabLink 0 = true) ∧
    (let f : Flit := { shortFlit 3 0 with data := [9, 0, 0, 0, 0, 0, 0, 0, 5] }
     flitReserved (good f) = false ∧ leAt (good f).data 0 1 = 9 ∧
       part (good f).hdr 30 28 = 3 ∧ part (good f).hdr 63 48 = ((up_ fabLink).link fabLink).seqIn) ∧
    (∀ n ∈ [1, 3], part (linkReg ((up_ fabLink).setReg 0x9000 0x500 (setBits 0 63 62 n)) fabLink 0 0) 63 62 = n) ∧
    part (linkReg (up_ fabLink) fabLink 0 0) 63 62 = 2 ∧ ((up_ fabLink).link fabLink).stalled = [] ∧
    (let s (clk : Nat) : State := { ringSt 0 RingState.zero with clk := clk }
     (s 3).rings = [(ringKey ring0, RingState.zero)] ∧ (∀ c ∈ (s 3).cores, c.2.kept = []) ∧ RingState.zero.level < 1024 ∧
       ((s 3).clk + 1 + (s 3).frameOff) % 384 ≠ 0 ∧ ((s 383).clk + 1 + (s 383).frameOff) % 384 = 0) := by
  refine ⟨by decide +kernel, by decide +kernel, ⟨?_, ?_, ?_, ?_⟩, by decide +kernel⟩
  · rw [good, sealFlit_reserved]; decide +kernel
  · rw [good_data]; decide +kernel
  · rw [good_part _ (by decide)]; decide +kernel
  · rw [good_part _ (by decide)]; decide +kernel
/-- Windows with and without their reach; ENABLE in a window during the wipe; power on with a bundle at hand; the stages of a wipe. -/
theorem wit_OutsideClauses : WinWho (winState 0 0x1002 5) 0 dev ∧ WinWho (winState 3 0x1002 0) 3 ⟨1, 1, none⟩ ∧ winPart s0 0 0 ∧
    winPart (winState 3 0 0) 3 1 ∧ (∀ w, ¬WinWho s0 0 w) ∧
    Terms.Served (winState 0 0x1002 5) dev 0x1002 5 .read ∧ ¬Terms.Served (winState 0 0x1002 5) dev 0x1002 5 (.write 33) ∧
    (let s : State := { winState 0 0x1004 5 with power := ⟨true, true, true, false, true⟩ }
     ¬Terms.Served s dev 0x1002 5 .read ∧ ¬Terms.Served (s.setReg 0x3030 0 0) dev 0x1004 5 (.exec 1) ∧ Terms.Served s dev 0x1004 5 (.exec 1)) ∧
    (let s (n : Option Nat) : State := { (winState 0 0 0).setReg 0x3030 0 (setBits 0 63 63 1) with lcDue := n }
     part ((s none).reg 0xA000 0) 63 60 = 4 ∧ part ((s none).reg 0x3030 0) 63 63 = 1 ∧ (s none).lcDue = none ∧ (s (some 2)).lcDue = some 2) ∧
    (part (State.reset.reg 0xA000 0) 63 60 ≠ 4 ∧ part (State.reset.reg 0xA000 0) 59 56 = 0) ∧
    ({ winState 0 0 0 with power := ⟨true, true, true, false, false⟩ } : State).power.booted = true ∧
    ({ State.reset with flash := some ⟨[], [], []⟩ } : State).flash = some ⟨[], [], []⟩ ∧
    ({ s0 with lcNext := some 2 } : State).lcNext = some 2 ∧ imageOk ⟨[], [], []⟩ 0 := by
  have w0 : WinWho (winState 0 0x1002 5) 0 dev := ⟨by decide +kernel, by decide +kernel, .inl ⟨rfl, rfl⟩⟩
  have vf : ∀ x ∈ [0, 0x1002], vfNames (winState 3 x 0) 3 1 := by unfold vfNames; decide +kernel
  have least : ∀ x n q, vfNames (winState 3 x n) 3 q → 1 ≤ q := fun _ _ _ h => h.1
  refine ⟨w0, ⟨by decide +kernel, by decide +kernel, .inr ⟨1, by decide, vf _ (by decide), least _ _, rfl⟩⟩, .inl ⟨rfl, rfl⟩,
    .inr ⟨by decide, vf _ (by decide), least _ _⟩, ?_, ?_, ?_, ?_⟩
  · rintro w ⟨h, _⟩; exact absurd h (by decide +kernel)
  · unfold Terms.Served Checks; decide +kernel
  · unfold Terms.Served Checks; decide +kernel
  · unfold Terms.Served Checks imageOk; exact ⟨by decide +kernel, by decide +kernel, by decide +kernel, by decide +kernel, rfl, rfl, by simp⟩

end Sys2Proof.Tests
end

/-!
The state of reset (O53): no register is written and nothing is stored, so every clause is a row of the reset table (R13).
-/
namespace Sys2Proof.Machine

@[simp] theorem State.reg_reset (idx inst : Nat) : State.reset.reg idx inst = sysReset idx inst := rfl

theorem Store.byte_zero (a : Nat) : Store.zero.byte a = 0 := rfl

/-- A context at reset: FREE, CTXEVT all ones, DRAINLIM and SAVELIM at their defaults, its other registers zero (R290, R333). -/
theorem sysReset_context (c : Nat) :
    sysReset 0x1000 c = 0 ∧ sysReset 0x1002 c = 0 ∧ sysReset 0x1003 c = 0 ∧ State.reset.ctxState c = 0 ∧
      sysReset 0x1005 c = 0 ∧ sysReset 0x1006 c = 0xFFFFFFFFFFFFFFFF ∧ sysReset 0x5000 c = 0x800007D000000064 ∧
      sysReset 0x5004 c = 0 := by
  have hs : State.reset.ctxState c = bits 0 63 61 := rfl
  have hl : sysReset 0x5000 c = setBits (setBits (setBits 0 63 63 1) 51 32 2000) 19 0 100 := rfl
  refine ⟨rfl, rfl, rfl, ?_, rfl, rfl, ?_, rfl⟩
  · rw [hs]; decide
  · rw [hl]; decide

/-- A fault queue at reset has no owner and is empty, and a launch queue is off (R292). -/
theorem sysReset_queue (q : Nat) :
    sysReset 0x2000 q = 0xFFFF ∧ sysReset 0x2002 q = 0 ∧ sysReset 0x2003 q = 0 ∧ sysReset 0x5100 q = 0 :=
  ⟨rfl, rfl, rfl, rfl⟩

/-- A partition other than 0 owns no cluster at reset (R393). -/
theorem sysReset_partition {p : Nat} (h : p ≠ 0) : sysReset 0x3000 p = 0 ∧ sysReset 0x3001 p = 0 := ⟨if_neg h, if_neg h⟩

/-- Settles O53, clause by clause from the rows of the reset table. -/
theorem resetState : Obligations.ResetState := by
  have hw : sysReset 0x3030 0 = setBits (setBits 0 63 63 1) 62 60 1 := rfl
  refine ⟨wf_zero, Store.byte_zero, rfl, rfl, rfl, rfl, rfl, rfl, rfl, rfl, rfl, rfl, rfl, rfl, sysReset_context,
    sysReset_queue, rfl, fun _ hp => sysReset_partition hp, ?_, ?_⟩
  · rw [State.reg_reset, hw]; decide
  · rw [State.reg_reset, hw]; decide

end Sys2Proof.Machine

/-!
Main memory stays in canonical form (O52; R8, R359): one lemma per function of the model, in the order of the model's files.

* `f_drawer`: `f` leaves main memory (the field `drawer`) as it is. Most functions do: all that writes it goes through
  `drawerWrite`, `zeroDrawer`, `addPoison`, a page's copy, the wipe or reset.
* `f_keeps`: what `f` leaves has its main memory in canonical form if what it was given had. For a function with an outcome of
  its own type, `Keeps` of that type says so of each outcome.

So the body of each instruction keeps the form (`Body.Keeps`), so does each event and each piece of due work, and so does a step.
Where a proof opens with `change DrawerOk _`, the branches of `f` are taken under the predicate: the kernel compares the two
sides as they stand, and does not evaluate `f` to reach its field.
-/

namespace Sys2Proof.Machine
open Sys2Proof.Safety

/-! ### What it is that each kind of outcome keeps main memory -/

/-- The state that the outcome of an access carries has its main memory in canonical form. -/
def Served.Keeps : Served → Prop
  | .ok t _ | .fault t _ _ | .poison t => Memory.wf t.drawer

section
variable (t : State)
@[simp] theorem Served.keeps_ok (l : Line) : (Served.ok t l).Keeps ↔ Memory.wf t.drawer := .rfl
@[simp] theorem Served.keeps_fault (f : FaultInfo) (n : Nat) : (Served.fault t f n).Keeps ↔ Memory.wf t.drawer := .rfl
@[simp] theorem Served.keeps_poison : (Served.poison t).Keeps ↔ Memory.wf t.drawer := .rfl
end

/-- Both outcomes of a computation that may stop meet their condition. -/
def Holds {ε α : Type} (p : ε → Prop) (q : α → Prop) : Except ε α → Prop
  | .error x => p x
  | .ok x => q x

section
variable {ε α : Type} (p : ε → Prop) (q : α → Prop)
@[simp] theorem holds_error (x : ε) : Holds p q (.error x) ↔ p x := .rfl
@[simp] theorem holds_ok (x : α) : Holds p q (.ok x) ↔ q x := .rfl
end

/-- The state that a unit of a copy leaves (`movedState`) has its main memory in canonical form. -/
def Moved.Keeps (m : Moved) : Prop := Memory.wf (State.movedState m).drawer

section
variable (t : State)
@[simp] theorem Moved.keeps_ok : (Moved.ok t).Keeps ↔ Memory.wf t.drawer := .rfl
@[simp] theorem Moved.keeps_away : (Moved.away t).Keeps ↔ Memory.wf t.drawer := .rfl
@[simp] theorem Moved.keeps_lost : (Moved.lost t).Keeps ↔ Memory.wf t.drawer := .rfl
@[simp] theorem Moved.keeps_poison (a : DWord) : (Moved.poison t a).Keeps ↔ Memory.wf t.drawer := .rfl
@[simp] theorem Moved.keeps_fault (f : FaultInfo) (n : Nat) (a : DWord) :
    (Moved.fault t f n a).Keeps ↔ Memory.wf t.drawer := .rfl
end

/-- The state that a lane's run of a body leaves has its main memory in canonical form; a trap leaves the state as it was. -/
def Lane.Keeps : Lane → Prop
  | .done t | .hold t _ | .last t => Memory.wf t.drawer
  | .trap _ _ _ => True

section
variable (t : State)
@[simp] theorem Lane.keeps_done : (Lane.done t).Keeps ↔ Memory.wf t.drawer := .rfl
@[simp] theorem Lane.keeps_hold (w : Wait) : (Lane.hold t w).Keeps ↔ Memory.wf t.drawer := .rfl
@[simp] theorem Lane.keeps_last : (Lane.last t).Keeps ↔ Memory.wf t.drawer := .rfl
@[simp] theorem Lane.keeps_trap (c : BitVec 8) (v : DWord) (x : Word) : (Lane.trap c v x).Keeps := trivial
end

/-- Every run of a body keeps main memory in canonical form. -/
def Body.Keeps (body : Body) : Prop := ∀ env k (s : State), Memory.wf s.drawer → (body env k s).Keeps

/-- The state that the fetch of a block leaves has its main memory in canonical form. -/
def Fetched.Keeps : Fetched → Prop
  | .ok t _ | .fault t _ | .poison t => Memory.wf t.drawer

@[simp] theorem Fetched.keeps_poison (t : State) : (Fetched.poison t).Keeps ↔ Memory.wf t.drawer := .rfl

/-- The state in which an instruction is fetched has its main memory in canonical form. -/
def Issue.Keeps : Issue → Prop
  | .run t _ | .stay t => Memory.wf t.drawer

section
variable (t : State)
@[simp] theorem Issue.keeps_run (i : Instr) : (Issue.run t i).Keeps ↔ Memory.wf t.drawer := .rfl
@[simp] theorem Issue.keeps_stay : (Issue.stay t).Keeps ↔ Memory.wf t.drawer := .rfl
end

/-- The state that a SYSX operation leaves has its main memory in canonical form. -/
def SysResult.Keeps : SysResult → Prop
  | .done t _ | .later t => Memory.wf t.drawer

section
variable (t : State)
@[simp] theorem SysResult.keeps_done (r : DWord) : (SysResult.done t r).Keeps ↔ Memory.wf t.drawer := .rfl
@[simp] theorem SysResult.keeps_later : (SysResult.later t).Keeps ↔ Memory.wf t.drawer := .rfl
end

/-- The state, if there is one, has its main memory in canonical form. -/
def SomeKeeps (o : Option State) : Prop := ∀ t, o = some t → Memory.wf t.drawer

section
variable {α : Type}
@[simp] theorem someKeeps_none : SomeKeeps none := fun _ e => nomatch e
@[simp] theorem someKeeps_some (t : State) : SomeKeeps (some t) ↔ Memory.wf t.drawer := by simp [SomeKeeps]
theorem someKeeps_map {f : α → State} (h : ∀ x, Memory.wf (f x).drawer) (o : Option α) : SomeKeeps (o.map f) := by
  cases o <;> simp [h]
theorem someKeeps_bind {f : α → Option State} (h : ∀ x, SomeKeeps (f x)) (o : Option α) : SomeKeeps (o.bind f) := by
  cases o <;> simp [h]
theorem someKeeps_findSome {f : α → Option State} (h : ∀ x, SomeKeeps (f x)) (l : List α) : SomeKeeps (l.findSome? f) := by
  intro t e
  obtain ⟨x, -, hx⟩ := List.exists_of_findSome?_eq_some e
  exact h x t hx
end

/-- The next state, if the outcome is one, has its main memory in canonical form. -/
def NextKeeps : Host.Outcome State Fault Refusal → Prop
  | .next t => Memory.wf t.drawer
  | .fault _ | .refused _ => True

@[simp] theorem nextKeeps_next (t : State) : NextKeeps (.next t) ↔ Memory.wf t.drawer := .rfl

namespace State
variable {s : State}

/-! ### The updates of State, and folds of a function over a list

The four rules of high priority say again what the laws of State do, but are not proved by `rfl`: a step that `simp` takes by a law
proved so is left to the kernel to compute, which would evaluate the keys of registers.
-/

@[simp high] theorem setReg_keeps_drawer (s : State) (idx inst : Nat) (v : DWord) :
    (s.setReg idx inst v).drawer = s.drawer := by rw [setReg_drawer]
@[simp high] theorem setFld_keeps_drawer (s : State) (idx inst hi lo v : Nat) :
    (s.setFld idx inst hi lo v).drawer = s.drawer := by rw [setFld_drawer]
@[simp high] theorem modThread_keeps_drawer (s : State) (k : Nat) (f : Thread → Thread) :
    (s.modThread k f).drawer = s.drawer := by rw [modThread_drawer]
@[simp high] theorem setThread_keeps_drawer (s : State) (k : Nat) (th : Thread) :
    (s.setThread k th).drawer = s.drawer := by rw [setThread_drawer]

@[simp] theorem foldl_drawer {α : Type} {g : State → α → State} (h : ∀ t x, (g t x).drawer = t.drawer) (l : List α)
    (s : State) : (l.foldl g s).drawer = s.drawer := by
  induction l generalizing s with
  | nil => rfl
  | cons x l ih => simp [ih, h]

theorem foldl_keeps {α : Type} {g : State → α → State} (hg : ∀ t x, Memory.wf t.drawer → Memory.wf (g t x).drawer)
    (l : List α) (h : Memory.wf s.drawer) : Memory.wf (l.foldl g s).drawer := by
  induction l generalizing s with
  | nil => exact h
  | cons x l ih => exact ih (hg s x h)

/-! ### Host windows and context states -/

@[simp] theorem setHostWin_drawer (s : State) (fn : Nat) (w : HostWin) :
    (s.setHostWin fn w).drawer = s.drawer := by simp [setHostWin]
@[simp] theorem setCtxState_drawer (s : State) (ctx v : Nat) : (s.setCtxState ctx v).drawer = s.drawer := by simp [setCtxState]

/-! ### Servers and contexts -/

@[simp] theorem arrive_drawer (s : State) (k : SrvKey) : (s.arrive k).drawer = s.drawer := by
  unfold arrive; split <;> simp
@[simp] theorem charge_drawer (s : State) (k : SrvKey) (units : Nat) : (s.charge k units).drawer = s.drawer := by
  unfold charge; split <;> simp
@[simp] theorem replenish_drawer (s : State) (k : SrvKey) : (s.replenish k).drawer = s.drawer := by
  unfold replenish; dsimp only; split <;> simp

/-! ### Wipes -/

@[simp] theorem removeGroups_drawer (s : State) (gone goneHood : Nat → Bool) :
    (s.removeGroups gone goneHood).drawer = s.drawer := by simp [removeGroups]
@[simp] theorem zeroWindow_drawer (s : State) (sg : Nat) : (s.zeroWindow sg).drawer = s.drawer := by
  simp [zeroWindow, apply_ite State.drawer]
@[simp] theorem wipeContext_drawer (s : State) (ctx : Nat) (window : Bool) : (s.wipeContext ctx window).drawer = s.drawer := by
  unfold wipeContext; split <;> simp
@[simp] theorem raiseEvent_drawer (s : State) (ctx bit : Nat) : (s.raiseEvent ctx bit).drawer = s.drawer := by simp [raiseEvent]
@[simp] theorem raiseCstate_drawer (s : State) (ctx : Nat) : (s.raiseCstate ctx).drawer = s.drawer := by simp [raiseCstate]
@[simp] theorem contextFault_drawer (s : State) (ctx cls : Nat) : (s.contextFault ctx cls).drawer = s.drawer := by
  unfold contextFault; split <;> simp

/-! ### Translation -/

@[simp] theorem injected_drawer (s : State) (pa n : Nat) : (s.injected pa n).drawer = s.drawer := by
  unfold injected; split <;> simp
@[simp] theorem drawerWrite_keeps (h : Memory.wf s.drawer) (pa : Nat) (l : Bytes) : Memory.wf (s.drawerWrite pa l).drawer := by
  simp [drawerWrite, wf_clearPoison, wf_write, h]
@[simp] theorem checkLine_drawer (s : State) (pa : Nat) : (s.checkLine pa).drawer = s.drawer := by
  unfold checkLine; split <;> simp
@[simp] theorem setFrameTag_keeps (h : Memory.wf s.drawer) (frame : Nat) (t : DWord) :
    Memory.wf (s.setFrameTag frame t).drawer := by simp [setFrameTag, h]

theorem checkTag_keeps (h : Memory.wf s.drawer) {asid va : Nat} {l : Leaf} {t : State} (e : s.checkTag asid va l = .ok t) :
    Memory.wf t.drawer := by
  unfold checkTag at e
  dsimp only at e
  split at e
  · split at e <;> cases e
    exact setFrameTag_keeps h _ _
  · split at e <;> cases e
    exact h

@[simp] theorem tcFill_drawer (s0 : State) (die part asid : Nat) (l : Leaf) : (s0.tcFill die part asid l).drawer = s0.drawer := by
  unfold tcFill; dsimp only; split <;> simp
@[simp] theorem tcTouch_drawer (s : State) (e : TcEntry) : (s.tcTouch e).drawer = s.drawer := by simp [tcTouch]

@[simp] theorem walkChecked_drawer (s : State) (part : Nat) (renamed : Bool) (asid va : Nat) :
    (s.walkChecked part renamed asid va).1.drawer = s.drawer := by
  unfold walkChecked; split <;> simp

/-! ### Caches and home slices -/

@[simp] theorem writeBack_keeps (h : Memory.wf s.drawer) (l : Line) : Memory.wf (s.writeBack l).drawer := by
  unfold writeBack; dsimp only; (repeat' split) <;> simp [h, wf_addPoison]
@[simp] theorem setL2_drawer (s : State) (k : Nat) (l : Line) : (s.setL2 k l).drawer = s.drawer := by simp [setL2]
@[simp] theorem askDrawer_drawer (s : State) (ctx pa tag : Nat) (f : Flit) (undo : Bytes) (bad : Bool) :
    (s.askDrawer ctx pa tag f undo bad).drawer = s.drawer := by simp [askDrawer]
@[simp] theorem askRead_drawer (s : State) (ctx pa tag : Nat) : (s.askRead ctx pa tag).drawer = s.drawer := by simp [askRead]
@[simp] theorem cleanLine_keeps (h : Memory.wf s.drawer) (ctx : Nat) (l : Line) : Memory.wf (s.cleanLine ctx l).drawer := by
  unfold cleanLine; split <;> simp [h]
@[simp] theorem evictL2_keeps (h : Memory.wf s.drawer) (ctx k : Nat) : Memory.wf (s.evictL2 ctx k).drawer := by
  unfold evictL2; split <;> simp [h]

@[simp] theorem fillL2_keeps (h : Memory.wf s.drawer) (come : Bool) (ctx : Nat) (n : Named) (lf : Leaf) :
    Memory.wf (s.fillL2 come ctx n lf).1.drawer := by
  unfold fillL2
  extract_lets line pa l s0
  have h0 : Memory.wf s0.drawer := by simp only [s0]; split <;> simp [h]
  split
  · simp [h0]
  · exact h0

/-- The walk and the check of its leaf's tag are looked at apart: a tag that is written is the only write. -/
@[simp] theorem translate_keeps (h : Memory.wf s.drawer) (ctx : Nat) (n : Named) (needR needW : Bool) :
    Memory.wf (s.translate ctx n needR needW).1.drawer := by
  unfold translate
  extract_lets die part lacks checked walked
  have hc (t : State) (l : Leaf) (c : Bool) (ht : Memory.wf t.drawer) : Memory.wf (checked t l c).1.drawer := by
    have hl : Memory.wf (t.checkLine (t.tagAddr (l.pa / 4096))).drawer := by rwa [checkLine_drawer]
    unfold checked
    split
    · exact ht
    split
    · exact hl
    cases e : (t.checkLine (t.tagAddr (l.pa / 4096))).checkTag n.asid n.va l with
    | ok t' => cases c <;> simp [checkTag_keeps hl e]
    | error f => exact ht
  obtain ⟨w, ew⟩ : ∃ w, walked = w := ⟨_, rfl⟩
  rw [ew]
  have hw : Memory.wf w.1.drawer := by
    have e : Memory.wf (s.walkChecked part n.renamed n.asid n.va).1.drawer := by rwa [walkChecked_drawer]
    unfold walked at ew
    revert ew e
    rcases s.walkChecked part n.renamed n.asid n.va with ⟨t, l | f | -⟩ <;> rintro rfl e
    · exact hc t l false e
    all_goals exact e
  rcases s.cachedLeaf die part n.renamed n.asid n.va with _ | ⟨e, l⟩
  · exact hw
  · change Memory.wf (if lacks l then w else checked (s.tcTouch e) l true).1.drawer
    split
    · exact hw
    · exact hc _ l true ((tcTouch_drawer s e).symm ▸ h)

theorem translate_eq_keeps {t : State} {ctx : Nat} {n : Named} {needR needW : Bool} {w : Walk}
    (e : s.translate ctx n needR needW = (t, w)) (h : Memory.wf s.drawer) : Memory.wf t.drawer := by
  simpa [e] using translate_keeps h ctx n needR needW

theorem serveWith_keeps (h : Memory.wf s.drawer) (come : Bool) (a : Access) : (s.serveWith come a).Keeps := by
  unfold serveWith
  extract_lets n
  split
  · exact h
  split
  · simp [h]
  split
  · next k l _ =>
    obtain ⟨x, hx⟩ : ∃ x : State, (if s.ownsWay a.ctx (k % 32) then
      { s.setL2 k { l with stamp := s.stamp } with stamp := s.stamp + 1 } else s) = x := ⟨_, rfl⟩
    have h1 : Memory.wf x.drawer := by rw [← hx]; split <;> simp [h]
    rw [hx]
    extract_lets s1
    (repeat' split) <;> simp [h1, s1] <;> exact translate_eq_keeps ‹_› h1
  · split <;> simp [translate_eq_keeps ‹_› h]

theorem serve_keeps (h : Memory.wf s.drawer) (a : Access) : (s.serve a).Keeps := serveWith_keeps h false a
theorem serve_eq_keeps {a : Access} {x : Served} (e : s.serve a = x) (h : Memory.wf s.drawer) : x.Keeps := e ▸ serve_keeps h a
@[simp] theorem fillL1_drawer (s : State) (core ctx va : Nat) (l : Line) : (s.fillL1 core ctx va l).drawer = s.drawer := by
  unfold fillL1; (repeat' split) <;> simp
@[simp] theorem dropL1_drawer (s : State) (asid line : Nat) : (s.dropL1 asid line).drawer = s.drawer := by simp [dropL1]

@[simp] theorem writeLine_keeps (h : Memory.wf s.drawer) (ctx va : Nat) (l : Line) (b : Bytes) :
    Memory.wf (s.writeLine ctx va l b).drawer := by
  unfold writeLine; dsimp only; split <;> simp [h]

theorem readGlobal_keeps (h : Memory.wf s.drawer) (a : Access) (n : Nat) :
    Holds (fun x => x.Keeps) (fun x => Memory.wf x.1.drawer) (s.readGlobal a n) := by
  have := serve_keeps h a
  unfold readGlobal
  cases e : s.serve a <;> rw [e] at this <;> exact this

theorem writeGlobal_keeps (h : Memory.wf s.drawer) (a : Access) (b : Bytes) :
    Holds (fun x => x.Keeps) (fun t => Memory.wf t.drawer) (s.writeGlobal a b) := by
  have := serve_keeps h a
  unfold writeGlobal
  cases e : s.serve a <;> rw [e] at this
  · exact writeLine_keeps this _ _ _ _
  all_goals exact this

/-! ### Routers -/

@[simp] theorem sendPacket_drawer (s : State) (o vc input n : Nat) (item : NetItem) :
    (s.sendPacket o vc input n item).drawer = s.drawer := by simp [sendPacket]
@[simp] theorem arrived_drawer (s : State) (i : NetItem) : (s.arrived i).drawer = s.drawer := by
  unfold arrived; split <;> simp
@[simp] theorem routeFlit_drawer (s : State) (o : Nat) : (s.routeFlit o).drawer = s.drawer := by
  unfold routeFlit; dsimp only; (repeat' split) <;> simp

/-! ### Records of the fault queues -/

@[simp] theorem ringFail_drawer (s : State) (q : Nat) : (s.ringFail q).drawer = s.drawer := by
  rw [ringFail, foldl_drawer fun _ _ => contextFault_drawer .., setFld_drawer, setFld_drawer]

@[simp] theorem writeRecord_keeps (h : Memory.wf s.drawer) (q : Nat) (b : Bytes) : Memory.wf (s.writeRecord q b).drawer := by
  change DrawerOk _
  unfold writeRecord
  extract_lets owner tail va
  have hw := writeGlobal_keeps h ⟨owner, va, false, true, 1⟩ b
  split
  · simp [DrawerOk, h]
  split
  · simp [DrawerOk, h]
  · next e =>
    rw [e] at hw
    split <;> simpa [DrawerOk] using hw

@[simp] theorem addRecord_keeps (h : Memory.wf s.drawer) (ctx : Nat) (b : Bytes) : Memory.wf (s.addRecord ctx b).drawer := by
  unfold addRecord; dsimp only; (repeat' split) <;> simp [h]

@[simp] theorem drainRecords_keeps (h : Memory.wf s.drawer) (q : Nat) : Memory.wf (s.drainRecords q).drawer := by
  refine foldl_keeps (fun t w ht => ?_) _ h
  split <;> simp [ht]

@[simp] theorem raiseFault_keeps (h : Memory.wf s.drawer) (who : Requester) (ctx acc : Nat) (named : DWord) (n : Named)
    (f : FaultInfo) : Memory.wf (s.raiseFault who ctx acc named n f).1.drawer := by
  unfold raiseFault
  extract_lets die
  split
  · exact h
  split
  · simp [h]
  · simp +zetaDelta [h]

theorem raiseFault_eq_keeps {who : Requester} {ctx acc : Nat} {named : DWord} {n : Named} {f : FaultInfo} {t : State}
    {fid : Option Nat} (e : s.raiseFault who ctx acc named n f = (t, fid)) (h : Memory.wf s.drawer) : Memory.wf t.drawer := by
  simpa [e] using raiseFault_keeps h who ctx acc named n f

@[simp] theorem withdraw_drawer (s : State) (gone : Requester → Bool) : (s.withdraw gone).drawer = s.drawer := by simp [withdraw]

/-! ### Traps and the issue of an instruction -/

@[simp] theorem takeUserTrap_drawer (s : State) (k : Nat) (t : Trap) : (s.takeUserTrap k t).drawer = s.drawer := by
  unfold takeUserTrap; dsimp only; split <;> simp
@[simp] theorem takeSupervisorTrap_drawer (s : State) (k : Nat) (t : Trap) : (s.takeSupervisorTrap k t).drawer = s.drawer := by
  unfold takeSupervisorTrap; dsimp only; split <;> simp
@[simp] theorem releaseHsync_drawer (s : State) (rk : Nat) : (s.releaseHsync rk).drawer = s.drawer := by
  unfold releaseHsync; (repeat' split) <;> simp
@[simp] theorem endHelper_drawer (s : State) (rk i : Nat) : (s.endHelper rk i).drawer = s.drawer := by
  unfold endHelper; split <;> simp
@[simp] theorem stopHelper_drawer (s : State) (rk i : Nat) : (s.stopHelper rk i).drawer = s.drawer := by
  unfold stopHelper; split <;> simp
@[simp] theorem endStopped_drawer (s : State) (k : Nat) : (s.endStopped k).drawer = s.drawer := by
  unfold endStopped; dsimp only; split <;> simp
@[simp] theorem stopHelpers_drawer (s : State) (rk : Nat) : (s.stopHelpers rk).drawer = s.drawer := by
  unfold stopHelpers; split <;> simp
@[simp] theorem endHelpers_drawer (s : State) (rk : Nat) : (s.endHelpers rk).drawer = s.drawer := by
  unfold endHelpers; split <;> simp
@[simp] theorem takeHelperTrap_drawer (s : State) (k : Nat) (t : Trap) :
    (s.takeHelperTrap k t).drawer = s.drawer := by simp [takeHelperTrap]
@[simp] theorem takeTrap_drawer (s0 : State) (k : Nat) (t : Trap) : (s0.takeTrap k t).drawer = s0.drawer := by
  unfold takeTrap; dsimp only; (repeat' split) <;> simp
@[simp] theorem enterTrap_drawer (s : State) (sup : Bool) (k : Nat) (t : Trap) : (s.enterTrap sup k t).drawer = s.drawer := by
  unfold enterTrap; (repeat' split) <;> simp
@[simp] theorem takeTraps_drawer (s : State) (ts : List (Nat × Trap)) : (s.takeTraps ts).drawer = s.drawer := by simp [takeTraps]
theorem onThread_keeps (f : Env → Nat → Thread → Thread) : Body.Keeps (onThread f) :=
  fun _ k s h => by simpa [onThread] using h

@[simp] theorem park_drawer (s : State) (k cycle : Nat) (pc : DWord) (las : List LaWin) (w : Wait) :
    (s.park k cycle pc las w).drawer = s.drawer := by
  unfold park; dsimp only; split <;> simp

theorem runLane_keeps {body : Body} (hb : Body.Keeps body) (env : Env) {r : Issued} (h : Memory.wf r.s.drawer) (k : Nat) :
    Memory.wf (runLane env body r k).s.drawer := by
  have hl := hb env k r.s h
  unfold runLane
  extract_lets b
  split
  · exact h
  split
  · simp [h]
  cases e : body env k r.s <;> rw [e] at hl
  case trap => simp [h]
  case hold s w => dsimp only; split <;> simpa using hl
  all_goals exact hl

@[simp] theorem retag_drawer (s0 s : State) (key : Nat → Thread → DWord × Wait) (base : Nat → Nat) (ks : List Nat)
    (seen : List (Nat × (DWord × Wait) × Nat)) : (retag s0 s key base ks seen).drawer = s.drawer := by
  induction ks generalizing s seen with
  | nil => rfl
  | cons k ks ih => unfold retag; (repeat' split) <;> simp [ih, apply_ite State.drawer]

@[simp] theorem setTurn_drawer (s : State) (core ig sg : Nat) : (s.setTurn core ig sg).drawer = s.drawer := by simp [setTurn]
@[simp] theorem settle_drawer (s0 s : State) (ran : Bool) : (settle s0 s ran).drawer = s.drawer := by
  unfold settle; dsimp only; (repeat' split) <;> simp

@[simp] theorem endIssue_drawer (s0 s : State) (size : Nat) (left trapped : List Nat) (ran : Bool) :
    (endIssue s0 s size left trapped ran).drawer = s.drawer := by
  simp [endIssue]

theorem guarded_keeps {body : Body} (hb : Body.Keeps body) (i : Instr) : Body.Keeps (guarded i body) := by
  intro env k s h
  unfold guarded
  split
  · trivial
  · exact hb env k s h

@[simp] theorem killIssue_drawer (s : State) (cause k : Nat) : (killIssue s cause k).drawer = s.drawer := by simp [killIssue]

theorem issue_keeps {body : Body} (hb : Body.Keeps body) (i : Instr) (h : Memory.wf s.drawer) : NextKeeps (issue i body s) := by
  unfold issue
  split
  · exact h
  extract_lets act present s1 r s3
  split
  · simp [h]
  split
  · simp [h]
  have hr : Memory.wf r.s.drawer := by
    refine List.foldlRecOn act _ (motive := fun r : Issued => Memory.wf r.s.drawer) ?_ fun r hr k _ =>
      runLane_keeps (guarded_keeps hb i) _ hr k
    simpa [s1] using h
  have h3 : Memory.wf s3.drawer := by
    simp only [s3]; split <;> simp [hr]
  simp [h3]

/-! ### Cross-lane instructions -/

theorem shuffle_keeps (lane : Env → Nat → Nat → Option Nat) (d c a : Reg) : Body.Keeps (shuffle lane d c a) := by
  intro env k s h
  unfold shuffle
  dsimp only
  split <;> simp [h]

/-! ### Scheduling of waves, barriers and hampers -/

@[simp] theorem setActive_drawer (s : State) (core slot : Nat) (b : Bool) (since : Nat) :
    (s.setActive core slot b since).drawer = s.drawer := by simp [setActive]
@[simp] theorem swapWaves_drawer (s : State) (core out in_ : Nat) :
    (s.swapWaves core out in_).drawer = s.drawer := by simp [swapWaves]
@[simp] theorem exchange_drawer (s : State) (core slot : Nat) : (s.exchange core slot).drawer = s.drawer := by
  unfold exchange; split <;> simp
@[simp] theorem refillSlot_drawer (s : State) (core slot : Nat) : (s.refillSlot core slot).drawer = s.drawer := by
  unfold refillSlot; split <;> simp
@[simp] theorem exchangeIg_drawer (s : State) (core ig : Nat) : (s.exchangeIg core ig).drawer = s.drawer := by
  unfold exchangeIg; (repeat' split) <;> simp

@[simp] theorem joinReleased_drawer (s : State) (ks : List Nat) (seen : List (Nat × Nat × DWord × Nat)) :
    (s.joinReleased ks seen).drawer = s.drawer := by
  induction ks generalizing s seen with
  | nil => rfl
  | cons k ks ih => unfold joinReleased; dsimp only; split <;> simp [ih]

@[simp] theorem setBarrier_drawer (s : State) (gid k : Nat) (b : Barrier) :
    (s.setBarrier gid k b).drawer = s.drawer := by simp [setBarrier]
@[simp] theorem releaseBar_drawer (s : State) (gid k : Nat) : (s.releaseBar gid k).drawer = s.drawer := by
  unfold releaseBar; dsimp only; split <;> simp
@[simp] theorem releaseHood_drawer (s : State) (hood : Nat) : (s.releaseHood hood).drawer = s.drawer := by
  unfold releaseHood; dsimp only; split <;> simp
@[simp] theorem releaseAll_drawer (s : State) (gid : Nat) : (s.releaseAll gid).drawer = s.drawer := by simp [releaseAll]
@[simp] theorem finishHelper_drawer (s : State) (k : Nat) (contrib : Option Word) :
    (s.finishHelper k contrib).drawer = s.drawer := by simp [finishHelper]
@[simp] theorem forceRelease_drawer (s : State) (k : Nat) : (s.forceRelease k).drawer = s.drawer := by simp [forceRelease]
@[simp] theorem exitThread_drawer (s : State) (k : Nat) : (s.exitThread k).drawer = s.drawer := by simp [exitThread]
@[simp] theorem fileInto_drawer (s : State) (core entry k t : Nat) :
    (s.fileInto core entry k t).drawer = s.drawer := by simp [fileInto]
@[simp] theorem newHamper_drawer (s : State) (core entry k t : Nat) (target : DWord) (key : Word) :
    (s.newHamper core entry k t target key).drawer = s.drawer := by simp [newHamper]
@[simp] theorem forceOldest_drawer (s : State) (core gid : Nat) : (s.forceOldest core gid).drawer = s.drawer := by
  unfold forceOldest; dsimp only; split <;> simp

theorem reformThread_drawer {k : Nat} {target : DWord} {key : Word} {t : State} (e : s.reformThread k target key = some t) :
    t.drawer = s.drawer := by
  unfold reformThread at e
  extract_lets th c at e
  split at e
  · cases e; simp
  split at e
  · cases e
  · obtain ⟨x, -, rfl⟩ := Option.map_eq_some_iff.1 e
    simp

@[simp] theorem takeFreed_drawer (s : State) (core entry : Nat) : (s.takeFreed core entry).drawer = s.drawer := by
  unfold takeFreed; split <;> simp
@[simp] theorem takeKept_drawer (s : State) (core : Nat) : (s.takeKept core).drawer = s.drawer := by simp [takeKept]
@[simp] theorem clearLane_drawer (s : State) (core slot lane : Nat) : (s.clearLane core slot lane).drawer = s.drawer := by
  unfold clearLane; split <;> simp
@[simp] theorem placeDrawn_drawer (s : State) (core slot lane k tag : Nat) (target : DWord) :
    (s.placeDrawn core slot lane k tag target).drawer = s.drawer := by simp [placeDrawn]

@[simp] theorem placeEach_drawer (s : State) (core : Nat) (slots : List Nat) (target : DWord) (l : List (Nat × Nat)) :
    (s.placeEach core slots target l).drawer = s.drawer := by
  induction l generalizing s with
  | nil => rfl
  | cons x l ih => unfold placeEach; dsimp only; rw [ih]; split <;> simp

@[simp] theorem drawHamper_drawer (s : State) (core entry : Nat) (h : Hamper) :
    (s.drawHamper core entry h).drawer = s.drawer := by
  unfold drawHamper; dsimp only; split <;> simp

/-! ### Control flow -/

@[simp] theorem jumpIf_drawer (s : State) (target : DWord) (taken : Bool) (k : Nat) :
    (s.jumpIf target taken k).drawer = s.drawer := by
  unfold jumpIf; split <;> simp

theorem branchUniform_keeps (hd : Head) (cn : Bool) (a : Reg) (tgt : BruTarget) : Body.Keeps (branchUniform hd cn a tgt) := by
  intro env k s h
  unfold branchUniform
  dsimp only
  (repeat' split) <;> simp [h]

theorem reformBody_keeps (a : Reg) (imm : BitVec 32) : Body.Keeps (reformBody a imm) := by
  intro env k s h
  unfold reformBody
  dsimp only
  split
  · next e => simpa [reformThread_drawer e] using h
  · simp [h, apply_ite State.drawer]

theorem exitBody_keeps : Body.Keeps exitBody := by
  intro env k s h
  unfold exitBody
  split <;> simp [h]

@[simp] theorem offerOnce_drawer (s : State) (env : Env) (k : Nat) : (s.offerOnce env k).drawer = s.drawer := by
  unfold offerOnce; split <;> simp

theorem napBody_keeps (hd : Head) (a : Reg) : Body.Keeps (napBody hd a) := by
  intro env k s h
  unfold napBody
  dsimp only
  split <;> simp [h]

/-! ### Streams -/

@[simp] theorem takeScore_drawer (s : State) (core : Nat) (kind : ScoreKind) (place : Place) (lo hi : Nat) (who : Holder) :
    (s.takeScore core kind place lo hi who).drawer = s.drawer := by simp [takeScore]
@[simp] theorem releaseScores_drawer (s : State) (gone : Score → Bool) :
    (s.releaseScores gone).drawer = s.drawer := by simp [releaseScores]
@[simp] theorem setStream_drawer (s : State) (pub sub : Nat) (x : Stream) :
    (s.setStream pub sub x).drawer = s.drawer := by simp [setStream]
@[simp] theorem flushStream_drawer (s : State) (pub sub : Nat) : (s.flushStream pub sub).drawer = s.drawer := by
  unfold flushStream; dsimp only; split <;> simp
@[simp] theorem flushCore_drawer (s : State) (pub : Nat) : (s.flushCore pub).drawer = s.drawer := by
  simp [flushCore, apply_ite State.drawer]

@[simp] theorem addUpdate_drawer (s : State) (pub sub : Nat) (u : Update) (alone : Bool) :
    (s.addUpdate pub sub u alone).drawer = s.drawer := by
  simp [addUpdate, apply_ite State.drawer]

@[simp] theorem forwardOne_drawer (alone : Bool) (pub gid off : Nat) (data : Bytes) (s : State) (e : SubEntry) :
    (forwardOne alone pub gid off data s e).drawer = s.drawer := by
  unfold forwardOne; dsimp only; (repeat' split) <;> simp

@[simp] theorem forward_drawer (s : State) (gid off : Nat) (data : Bytes) (alone : Bool) :
    (s.forward gid off data alone).drawer = s.drawer := by simp [forward]
@[simp] theorem writeAlloc_drawer (s : State) (gid off : Nat) (b : Bytes) (alone : Bool) :
    (s.writeAlloc gid off b alone).drawer = s.drawer := by simp [writeAlloc]
@[simp] theorem wakeDrains_drawer (s : State) : (s.wakeDrains).drawer = s.drawer := by simp [wakeDrains]
@[simp] theorem chargeBytes_drawer (s : State) (k : SrvKey) (n : Nat) : (s.chargeBytes k n).drawer = s.drawer := by
  simp [chargeBytes, apply_ite State.drawer]
@[simp] theorem payBasket_drawer (s : State) (pub sub : Nat) : (s.payBasket pub sub).drawer = s.drawer := by simp [payBasket]

theorem applyUpdate_drawer {u : Update} {t : State} (e : s.applyUpdate u = some t) : t.drawer = s.drawer := by
  unfold applyUpdate at e
  split at e
  · cases e; rfl
  · split at e <;> cases e
    simp

@[simp] theorem applyBasket_drawer (s : State) (pub sub : Nat) (l : List Update) (rest : List (List Update)) :
    (s.applyBasket pub sub l rest).drawer = s.drawer := by
  induction l generalizing s with
  | nil => simp [applyBasket]
  | cons u l ih =>
    unfold applyBasket
    split
    · next e => rw [ih, applyUpdate_drawer e]
    · simp

@[simp] theorem releaseHoods_drawer (s : State) : (s.releaseHoods).drawer = s.drawer := by simp [releaseHoods]
@[simp] theorem applyStream_drawer (s : State) (pub sub : Nat) : (s.applyStream pub sub).drawer = s.drawer := by
  unfold applyStream; dsimp only; (repeat' split) <;> simp

/-! ### Accesses of threads -/

@[simp] theorem writeLoc_drawer (s : State) (l : Loc) (b : Bytes) (alone : Bool) : (s.writeLoc l b alone).drawer = s.drawer := by
  unfold writeLoc; split <;> simp
@[simp] theorem poisonLoc_drawer (s : State) (l : Loc) (n : Nat) : (s.poisonLoc l n).drawer = s.drawer := by
  unfold poisonLoc; split <;> simp
@[simp] theorem killGang_drawer (s : State) (k cause : Nat) (addr pc : DWord) :
    (s.killGang k cause addr pc).drawer = s.drawer := by simp [killGang]
@[simp] theorem clockRelease_drawer (s : State) (ctx : Nat) : (s.clockRelease ctx).drawer = s.drawer := by
  unfold clockRelease; split <;> simp

@[simp] theorem flushFirst_drawer (s : State) (b : Thread) (release seq : Bool) (sc : Scope) :
    (s.flushFirst b release seq sc).1.drawer = s.drawer := by
  unfold flushFirst; dsimp only; (repeat' split) <;> simp

@[simp] theorem sendControl_drawer (s : State) (l : LinkId) (code : Nat) (b : Bytes) :
    (s.sendControl l code b).drawer = s.drawer := by simp [sendControl]
@[simp] theorem queueTxn_drawer (s : State) (l : LinkId) (t : Txn) : (s.queueTxn l t).drawer = s.drawer := by simp [queueTxn]

@[simp] theorem request_drawer (s : State) (k : Nat) (b : Thread) (va : DWord) (l : Loc) (n : Nat) (op : ReqOp) (dest : Dest) :
    (s.request k b va l n op dest).drawer = s.drawer := by
  unfold request; (repeat' split) <;> simp

/-! ### Requests at the home slice -/

@[simp] theorem performReq_keeps (h : Memory.wf s.drawer) (ctx va n : Nat) (op : ReqOp) (l : Line) :
    Memory.wf (s.performReq ctx va n op l).1.drawer := by
  unfold performReq; dsimp only; (repeat' split) <;> simp [h]

@[simp] theorem l1After_drawer (s before : State) (r : MemReq) (l : Line) : (s.l1After before r l).drawer = s.drawer := by
  unfold l1After; (repeat' split) <;> simp

@[simp] theorem serveRequest_keeps (h : Memory.wf s.drawer) (tag : Nat) : Memory.wf (s.serveRequest tag).drawer := by
  change DrawerOk _
  unfold serveRequest
  split
  · exact h
  next r _ =>
  split
  · exact h
  split
  · simp [DrawerOk, h]
  have hs := serveWith_keeps h r.fill.isSome (accessOf r)
  split <;> rename_i e <;> rw [e] at hs <;> simp only [Served.Keeps] at hs
  · simp [DrawerOk, hs]
  · extract_lets s2
    split
    · simp [DrawerOk, s2, hs]
    split <;> next e' => simpa [DrawerOk] using raiseFault_eq_keeps e' hs
  · simp [DrawerOk, hs]

@[simp] theorem answerThread_drawer (s : State) (r : MemReq) (data : Bytes) : (s.answerThread r data).drawer = s.drawer := by
  unfold answerThread; dsimp only; (repeat' split) <;> simp
@[simp] theorem mergeClock_drawer (s : State) (fg : Nat) (v : List Nat) : (s.mergeClock fg v).drawer = s.drawer := by
  unfold mergeClock; split <;> simp
@[simp] theorem reply_drawer (s : State) (q : DomainReq) (poison : Bool) (data : Bytes) :
    (s.reply q poison data).drawer = s.drawer := by simp [reply]
@[simp] theorem replyWith_drawer (s : State) (q : DomainReq) (code : Nat) :
    (s.replyWith q code).drawer = s.drawer := by simp [replyWith]

@[simp] theorem performDomain_keeps (h : Memory.wf s.drawer) (q : DomainReq) : Memory.wf (s.performDomain q).drawer := by
  change DrawerOk _
  unfold performDomain
  extract_lets s0
  have h0 : Memory.wf s0.drawer := by simp [s0, h]
  have hs := serve_keeps h0 (reqAccess q.ctx q.va.toNat (domainOp q))
  split <;> rename_i e <;> rw [e] at hs <;> simp only [Served.Keeps] at hs
  · extract_lets l' p _ s2
    have hp : Memory.wf p.1.drawer := performReq_keeps hs ..
    have h2 : Memory.wf s2.drawer := by
      simp only [s2]
      split
      · split <;> simp [hp, wf_addPoison]
      · exact hp
    simp [DrawerOk, h2]
  · simp [DrawerOk, hs]
  · simp [DrawerOk, hs]

@[simp] theorem serveDomain_keeps (h : Memory.wf s.drawer) (q : DomainReq) : Memory.wf (s.serveDomain q).drawer := by
  unfold serveDomain; (repeat' split) <;> simp [h]
@[simp] theorem retryDomain_keeps (h : Memory.wf s.drawer) (q : DomainReq) : Memory.wf (s.retryDomain q).drawer := by
  unfold retryDomain; dsimp only; split <;> simp [h]
@[simp] theorem refuseDomain_drawer (s : State) (tag : Nat) : (s.refuseDomain tag).drawer = s.drawer := by
  unfold refuseDomain; (repeat' split) <;> simp

/-! ### Memory instructions -/

@[simp] theorem touchL1_drawer (s : State) (ctx k : Nat) (l : Line) : (s.touchL1 ctx k l).drawer = s.drawer := by
  unfold touchL1; split <;> simp

theorem loadFrom_keeps {k : Nat} {b : Thread} {addr : DWord} {l : Loc} {n : Nat} {dest : Dest} {take : State → Bytes → Lane}
    (ht : ∀ t x, Memory.wf t.drawer → (take t x).Keeps) (h : Memory.wf s.drawer) :
    (s.loadFrom k b addr l n dest take).Keeps := by
  unfold loadFrom; dsimp only; (repeat' split) <;> simp [h, ht]

theorem storeTo_keeps (h : Memory.wf s.drawer) (k : Nat) (b : Thread) (addr : DWord) (l : Loc) (d : Bytes) (alone : Bool) :
    (s.storeTo k b addr l d alone).Keeps := by
  unfold storeTo; (repeat' split) <;> simp [h]

@[simp] theorem returnOld_drawer (s : State) (k : Nat) (dest : Dest) (old : Bytes) (ok : Bool) :
    (s.returnOld k dest old ok).drawer = s.drawer := by
  unfold returnOld; split <;> simp

theorem updateAt_keeps (h : Memory.wf s.drawer) (k : Nat) (b : Thread) (addr : DWord) (l : Loc) (n : Nat) (op : ReqOp)
    (dest : Dest) (next : Bytes → Option Bytes) (alone : Bool) : (s.updateAt k b addr l n op dest next alone).Keeps := by
  unfold updateAt; dsimp only; (repeat' split) <;> simp [h]

@[simp] theorem released_drawer (before s : State) (ctx : Nat) : (before.released s ctx).drawer = s.drawer := by
  unfold released; split <;> simp

theorem ordered_keeps {b : Thread} {ord : Ord} {load : Bool} {sc : Scope} {go : State → Bool → Lane}
    (hgo : ∀ t x, Memory.wf t.drawer → (go t x).Keeps) (h : Memory.wf s.drawer) : (s.ordered b ord load sc go).Keeps := by
  have hf : Memory.wf (s.flushFirst b (ord.releases && !load) (ord == .seq) sc).1.drawer := by simpa using h
  unfold ordered
  extract_lets rel
  split <;> rename_i e <;> rw [e] at hf
  · exact hf
  have hg := hgo _ (rel && wideScope sc) hf
  split
  · next e' => rw [e'] at hg; split <;> simpa using hg
  · exact hg

theorem loadBody_keeps (ord : Ord) (sc : Scope) (sz : LdSz) (d a : Reg) (am : Am) (off : Off) :
    Body.Keeps (loadBody ord sc sz d a am off) := by
  intro env k s h
  unfold loadBody
  dsimp only
  split
  · trivial
  · exact ordered_keeps (fun t _ ht => loadFrom_keeps (fun u x hu => by simpa using hu) ht) h

theorem storeBody_keeps (ord : Ord) (sc : Scope) (sz : StSz) (d a : Reg) (am : Am) (off : Off) :
    Body.Keeps (storeBody ord sc sz d a am off) := by
  intro env k s h
  unfold storeBody
  dsimp only
  split
  · trivial
  · exact ordered_keeps (fun t _ ht => storeTo_keeps ht ..) h

theorem atomicBody_keeps (ord : Ord) (sc : Scope) (aop : Aop) (ty : Ty) (dest : Dest) (a : Reg) (am : Am) (c : Reg)
    (off : BitVec 32) : Body.Keeps (atomicBody ord sc aop ty dest a am c off) := by
  intro env k s h
  unfold atomicBody
  dsimp only
  split
  · trivial
  · exact ordered_keeps (fun t _ ht => updateAt_keeps ht ..) h

theorem acasBody_keeps (ord : Ord) (sc : Scope) (ty : Ty) (d : Reg) (ps : BitVec 7) (a : Reg) (am : Am) (c n : Reg)
    (off : BitVec 32) : Body.Keeps (acasBody ord sc ty d ps a am c n off) := by
  intro env k s h
  unfold acasBody
  dsimp only
  split
  · trivial
  · exact ordered_keeps (fun t _ ht => updateAt_keeps ht ..) h

theorem prefBody_keeps (lv : PrefLv) (a : Reg) (am : Am) (off : Off) : Body.Keeps (prefBody lv a am off) := by
  intro env k s h
  unfold prefBody
  extract_lets b
  split
  · next va _ =>
    have hs := serve_keeps h ⟨b.ctx, va, true, false, 0⟩
    split
    · next e =>
      rw [e] at hs
      simp only [Served.Keeps] at hs
      (repeat' split) <;> simp [h, hs]
    all_goals exact h
  · exact h

theorem cflushBody_keeps (op : CfOp) (a : Reg) (am : Am) (off : Off) : Body.Keeps (cflushBody op a am off) := by
  intro env k s h
  unfold cflushBody
  extract_lets b
  split
  · extract_lets n
    cases s.l2Find n.asid (n.va / 128) with
    | none => exact h
    | some x => cases op <;> dsimp only <;> split <;> simp [h]
  · exact h

theorem fenceBody_keeps (ord : Ord) (sc : Scope) : Body.Keeps (fenceBody ord sc) :=
  fun _ _ _ h => ordered_keeps (fun _ _ ht => ht) h
@[simp] theorem arriveBar_drawer (s : State) (gid k key : Nat) : (s.arriveBar gid k key).drawer = s.drawer := by simp [arriveBar]

theorem barBody_keeps (bk : BitVec 2) : Body.Keeps (barBody bk) := by
  intro env k s h
  unfold barBody; dsimp only; split <;> simp [h]

theorem barHoodBody_keeps : Body.Keeps barHoodBody := by
  intro env k s h
  simp [barHoodBody, h]

theorem baraBody_keeps (d : Reg) (bk : BitVec 2) : Body.Keeps (baraBody d bk) := by
  intro env k s h
  unfold baraBody; dsimp only; split <;> simp [h]

theorem barwBody_keeps (a : Reg) (bk : BitVec 2) : Body.Keeps (barwBody a bk) := by
  intro env k s h
  unfold barwBody; dsimp only; split <;> simp [h]

theorem subonBody_keeps (prime : Bool) (d a b c l : Reg) : Body.Keeps (subonBody prime d a b c l) := by
  intro env k s h
  unfold subonBody; dsimp only; (repeat' split) <;> simp [h]

theorem suboffBody_keeps (d a : Reg) : Body.Keeps (suboffBody d a) := by
  intro env k s h
  unfold suboffBody; dsimp only; (repeat' split) <;> simp [h]

theorem subqBody_keeps (d a : Reg) : Body.Keeps (subqBody d a) := by
  intro env k s h
  simp [subqBody, h]

theorem subflBody_keeps : Body.Keeps subflBody := by
  intro env k s h
  unfold subflBody; dsimp only; (repeat' split) <;> simp [h]

@[simp] theorem setTimeline_drawer (s : State) (gid tl : Nat) (x : Timeline) :
    (s.setTimeline gid tl x).drawer = s.drawer := by simp [setTimeline]
@[simp] theorem wakeTimelines_drawer (s : State) (gid : Nat) : (s.wakeTimelines gid).drawer = s.drawer := by simp [wakeTimelines]
@[simp] theorem completeNumber_drawer (s : State) (gid tl n : Nat) :
    (s.completeNumber gid tl n).drawer = s.drawer := by simp [completeNumber]

theorem tlwBody_keeps (threshold : Thread → Nat) (tk : BitVec 2) : Body.Keeps (tlwBody threshold tk) := by
  intro env k s h
  unfold tlwBody; dsimp only; split <;> simp [h]

theorem counterBody_keeps (sc : Scope) (d a : Reg) (am : Am) (off : Off) : Body.Keeps (counterBody sc d a am off) := by
  intro env k s h
  unfold counterBody
  dsimp only
  split
  · trivial
  · exact ordered_keeps (fun t _ ht => loadFrom_keeps (fun u x hu => by split <;> exact hu) ht) h

theorem tladvBody_keeps (d : Reg) (tk : BitVec 2) : Body.Keeps (tladvBody d tk) := by
  intro env k s h
  simp [tladvBody, h]

@[simp] theorem subonArrives_drawer (s : State) (q : SubReq) : (s.subonArrives q).drawer = s.drawer := by
  unfold subonArrives; dsimp only; (repeat' split) <;> simp
@[simp] theorem subonEnds_drawer (s : State) (q : SubReq) (status : Nat) : (s.subonEnds q status).drawer = s.drawer := by
  unfold subonEnds; split <;> simp
@[simp] theorem primeNext_drawer (s : State) (core entry : Nat) : (s.primeNext core entry).drawer = s.drawer := by
  unfold primeNext; (repeat' split) <;> simp

/-! ### Matrix unit -/

@[simp] theorem pinQuarter_drawer (b : Thread) (d : Reg) (z : Bool) (m : MxDesc) (inst : Nat) (s : State) (q : Quarter) :
    (pinQuarter b d z m inst s q).drawer = s.drawer := by simp [pinQuarter]

@[simp] theorem admitQuarter_drawer (s : State) (id : Nat) (p : Pass) (ctx : Nat) :
    (s.admitQuarter id p ctx).drawer = s.drawer := by
  unfold admitQuarter; dsimp only; split <;> simp

theorem issueQuarter_keeps (h : Memory.wf s.drawer) (b : Thread) (d : Reg) (z : Bool) (m : MxDesc) (q : Quarter)
    (all : List Quarter) :
    Holds (fun x => Memory.wf x.1.drawer) (fun t => Memory.wf t.drawer) (s.issueQuarter b d z m q all) := by
  unfold issueQuarter; dsimp only; (repeat' split) <;> simp [h]

theorem matrixBody_keeps (hd : Head) (z : Bool) (d a b : Reg) (idx : Option Reg) (m : MxDesc) :
    Body.Keeps (matrixBody hd z d a b idx m) := by
  intro env k s h
  unfold matrixBody
  extract_lets th size
  split
  · trivial
  have hq (q : Quarter) : Holds (fun x : State × Wait => Memory.wf x.1.drawer) (fun t => Memory.wf t.drawer)
      (if q.rows.isEmpty then .ok s else s.issueQuarter th d z m q (quartersOf env hd size a b idx m)) := by
    split
    · exact h
    · exact issueQuarter_keeps h ..
  have hq := hq (quarterOf env size a b idx m k)
  split <;> rename_i e <;> rw [e] at hq
  · exact hq
  · split
    · trivial
    · exact hq

@[simp] theorem writePass_drawer (s : State) (p : Pass) : (s.writePass p).drawer = s.drawer := by simp [writePass]
@[simp] theorem finishPass_drawer (s : State) (id : Nat) : (s.finishPass id).drawer = s.drawer := by
  unfold finishPass; dsimp only; (repeat' split) <;> simp

theorem acldBody_keeps (d a : Reg) (am : Am) (off : Off) : Body.Keeps (acldBody d a am off) := by
  intro env k s h
  unfold acldBody
  dsimp only
  (repeat' split)
  · trivial
  · simp [h]
  · simp [h]
  · exact loadFrom_keeps (fun u x hu => by simpa using hu) h

theorem acstBody_keeps (z : Bool) (d a : Reg) (am : Am) (off : Off) : Body.Keeps (acstBody z d a am off) := by
  intro env k s h
  unfold acstBody; dsimp only; (repeat' split) <;> simp [h]

/-! ### Copy engine -/

theorem copyBody_keeps (kind : CpKind) (d : Reg) (a : Option Reg) (b c : Reg) (m : CpDesc) :
    Body.Keeps (copyBody kind d a b c m) := by
  intro env k s h
  unfold copyBody
  extract_lets th src dst scl
  have hf : Memory.wf (s.flushFirst th true false m.sc).1.drawer := by simpa using h
  split
  · trivial
  split <;> rename_i e <;> rw [e] at hf
  · exact hf
  · dsimp only
    (repeat' split) <;> simpa using hf

theorem copyRequest_keeps (h : Memory.wf s.drawer) (id : Nat) (c : CopyRec) (pkg va : Nat) (addr : DWord) (n : Nat)
    (op : ReqOp) (note : Option Nat) (poison : Bool) : (s.copyRequest id c pkg va addr n op note poison).Keeps := by
  unfold copyRequest; dsimp only; split <;> simp [h]

@[simp] theorem poisonLine_keeps (h : Memory.wf s.drawer) (l : Line) : Memory.wf (s.poisonLine l).drawer := by
  unfold poisonLine; split <;> simp [h, wf_addPoison]

theorem copyRead_keeps (h : Memory.wf s.drawer) (c : CopyRec) (a : DWord) (n : Nat) :
    Holds Moved.Keeps (fun x => Memory.wf x.1.drawer) (s.copyRead c a n) := by
  unfold copyRead
  refine List.foldlRecOn (motive := Holds Moved.Keeps fun x : State × Bytes × List Bool => Memory.wf x.1.drawer) _ _
    ((holds_ok ..).2 h) fun r hr p _ => ?_
  split
  · exact hr
  next t b f =>
  replace hr : Memory.wf t.drawer := hr
  extract_lets at_ ofServe
  have hs (va : Nat) : Holds Moved.Keeps (fun x : State × Bytes × List Bool => Memory.wf x.1.drawer) (ofServe va) := by
    have := readGlobal_keeps hr ⟨t.copyCtx c, va, true, false, 4⟩ p.2
    simp only [ofServe]
    split <;> rename_i e <;> rw [e] at this <;> exact this
  split
  · exact hr
  · exact hs _
  · exact hs _
  · exact hr
  · split <;> exact hr
  · exact hr

@[simp] theorem putPieces_drawer (s : State) (l : Loc) (b : Bytes) (f : List Bool) : (s.putPieces l b f).drawer = s.drawer := by
  unfold putPieces; dsimp only; (repeat' split) <;> simp [apply_ite State.drawer]

theorem copyPieces_keeps (h : Memory.wf s.drawer) (id : Nat) (c : CopyRec) (a : DWord) (b : Bytes) (f : List Bool) :
    (s.copyPieces id c a b f).Keeps := by
  unfold copyPieces
  refine List.foldlRecOn (motive := Moved.Keeps) _ _ ((Moved.keeps_ok s).2 h) fun r hr p _ => ?_
  extract_lets at_ x g bad go
  have hgo (t : State) (ht : Memory.wf t.drawer) : (go t).Keeps := by
    unfold go
    extract_lets ofServe
    have hs (va : Nat) : (ofServe va).Keeps := by
      have := serve_keeps ht ⟨t.copyCtx c, va, false, true, 5⟩
      simp only [ofServe]
      split <;> rename_i e <;> rw [e] at this <;> simp only [Served.keeps_ok, Served.keeps_fault, Served.keeps_poison] at this
      · split <;> simp [this]
      · exact this
      · exact this
    split
    · exact ht
    · exact hs _
    · exact hs _
    · exact copyRequest_keeps ht ..
    · split <;> simp [ht]
    · simp [ht]
  split
  · exact hgo _ hr
  · next t =>
    have := hgo t hr
    split
    · next e => rw [e] at this; exact this
    · exact this
  · exact hr

theorem wholly_keeps {go : State → Moved} (hg : ∀ t, Memory.wf t.drawer → (go t).Keeps) (h : Memory.wf s.drawer) :
    (s.wholly go).Keeps := by
  have := hg s h
  unfold wholly
  split
  · exact h
  · exact h
  · exact this

theorem copyWrite_keeps (h : Memory.wf s.drawer) (id : Nat) (c : CopyRec) (a : DWord) (b : Bytes) (f : List Bool) :
    (s.copyWrite id c a b f).Keeps := wholly_keeps (fun _ ht => copyPieces_keeps ht ..) h

theorem copyConsume_keeps (h : Memory.wf s.drawer) (c : CopyRec) (a : DWord) (n : Nat) :
    Holds Moved.Keeps (fun x => Memory.wf x.1.drawer) (s.copyConsume c a n) := by
  have := copyRead_keeps h c a n
  unfold copyConsume
  split <;> rename_i e <;> rw [e] at this
  · exact this
  · split <;> exact this

theorem rawBytes_keeps (h : Memory.wf s.drawer) (c : CopyRec) (i off n : Nat) :
    Holds Moved.Keeps (fun x => Memory.wf x.1.drawer) (s.rawBytes c i off n) := by
  unfold rawBytes
  split
  · exact h
  · exact copyRead_keeps h ..

@[simp] theorem takeSnap_drawer (s : State) (id : Nat) (c : CopyRec) : (s.takeSnap id c).drawer = s.drawer := by
  simp [takeSnap]

theorem rawUnit_keeps (h : Memory.wf s.drawer) (id : Nat) (c : CopyRec) (i j : Nat) : (s.rawUnit id c i j).Keeps := by
  unfold rawUnit
  extract_lets row lo hi dst
  split
  · exact copyWrite_keeps h ..
  split
  · refine List.foldlRecOn (motive := Moved.Keeps) _ _ ((Moved.keeps_ok s).2 h) fun r hr p _ => ?_
    split
    · exact copyRequest_keeps hr ..
    · exact copyRequest_keeps hr ..
    · exact hr
  · have := rawBytes_keeps h c i (lo - row) (hi - lo)
    split <;> rename_i e <;> rw [e] at this
    · exact this
    · exact copyWrite_keeps this ..

theorem fireUnit_keeps (h : Memory.wf s.drawer) (id : Nat) (c : CopyRec) (i j : Nat) : (s.fireUnit id c i j).Keeps := by
  have hc {a : DWord} {n : Nat} {x} (e : s.copyConsume c a n = x) := e ▸ copyConsume_keeps h c a n
  unfold fireUnit
  extract_lets l src dst at_
  split <;> split
  all_goals
    dsimp only
    split <;> rename_i e
    · exact hc e
    · exact copyWrite_keeps (hc e) ..

theorem glazeUnit_keeps (h : Memory.wf s.drawer) (id : Nat) (c : CopyRec) (i j : Nat) : (s.glazeUnit id c i j).Keeps := by
  unfold glazeUnit
  extract_lets at_ dst
  have hc := copyConsume_keeps h c (at_ (srcRow c.src c.desc i) (128 * j)) 128
  split <;> rename_i e <;> rw [e] at hc
  · exact hc
  extract_lets v scaled
  have hs (cut : Nat) (lo hi : Int) (n : Nat) (enc : List Int → Bytes) : (scaled cut lo hi n enc).Keeps := by
    refine wholly_keeps (fun t ht => ?_) hc
    have hp := copyPieces_keeps ht id c (at_ (scaleRow c.scl c.kind c.desc i) (2 * j)) (toBytes 2 (glaze cut lo hi v).1) []
    split
    · next e' => rw [e'] at hp; exact copyPieces_keeps hp ..
    · exact hp
  split
  · exact hs ..
  · exact hs ..
  · exact copyWrite_keeps hc ..
  · exact copyWrite_keeps hc ..

theorem moveUnit_keeps (h : Memory.wf s.drawer) (id : Nat) (c : CopyRec) : (s.moveUnit id c).Keeps := by
  unfold moveUnit
  extract_lets u
  split
  · exact rawUnit_keeps h ..
  split
  · exact fireUnit_keeps h ..
  · exact glazeUnit_keeps h ..

@[simp] theorem modCopy_drawer (s : State) (id : Nat) (f : CopyRec → CopyRec) :
    (s.modCopy id f).drawer = s.drawer := by simp [modCopy]
@[simp] theorem killCopy_drawer (s : State) (c : CopyRec) (addr : DWord) :
    (s.killCopy c addr).drawer = s.drawer := by simp [killCopy]
@[simp] theorem unitWritten_drawer (s : State) (id n : Nat) : (s.unitWritten id n).drawer = s.drawer := by simp [unitWritten]
@[simp] theorem startCopy_drawer (s : State) (id : Nat) (c : CopyRec) : (s.startCopy id c).drawer = s.drawer := by
  unfold startCopy; split <;> simp

theorem tryUnit_keeps (h : Memory.wf s.drawer) (id : Nat) (c : CopyRec) : (s.tryUnit id c).Keeps := by
  unfold tryUnit
  split
  · exact h
  · exact moveUnit_keeps (by simpa using h) ..

@[simp] theorem copyFault_keeps (h : Memory.wf s.drawer) (id : Nat) (c : CopyRec) (f : FaultInfo) (acc : Nat) (addr : DWord) :
    Memory.wf (s.copyFault id c f acc addr).drawer := by
  unfold copyFault
  extract_lets va
  split <;> next e => simpa using raiseFault_eq_keeps e h

@[simp] theorem payLink_drawer (before : State) (id : Nat) (c : CopyRec) (t : State) (l : LinkId) :
    (before.payLink id c t l).drawer = t.drawer := by
  unfold payLink; dsimp only; split <;> simp

@[simp] theorem unitStarted_drawer (before : State) (id : Nat) (c : CopyRec) (t : State) :
    (before.unitStarted id c t).drawer = t.drawer := by
  simp [unitStarted]

@[simp] theorem sourceRead_drawer (s : State) (id : Nat) (c : CopyRec) : (s.sourceRead id c).drawer = s.drawer := by
  unfold sourceRead; split <;> simp

theorem writeGot_keeps (h : Memory.wf s.drawer) (id : Nat) (c : CopyRec) (u : CopyUnit) : (s.writeGot id c u).Keeps := by
  refine wholly_keeps (fun s0 h0 => ?_) h
  refine List.foldlRecOn (motive := Moved.Keeps) _ _ ((Moved.keeps_ok s0).2 h0) fun r hr g _ => ?_
  extract_lets go
  have hgo (t : State) (ht : Memory.wf t.drawer) : (go t).Keeps := copyPieces_keeps ht ..
  split
  · exact hgo _ hr
  · next t =>
    have hp := hgo t hr
    split
    · next e => rw [e] at hp; exact hp
    · exact hp
  · exact hr

@[simp] theorem finishUnit_keeps (h : Memory.wf s.drawer) (id : Nat) (c : CopyRec) (u : CopyUnit) :
    Memory.wf (s.finishUnit id c u).drawer := by
  have hw := writeGot_keeps h id c u
  unfold finishUnit
  split
  · exact h
  split
  · simp [h]
  split <;> rename_i e <;> rw [e] at hw <;> simp_all

@[simp] theorem copyUnitStep_keeps (h : Memory.wf s.drawer) (id : Nat) : Memory.wf (s.copyUnitStep id).drawer := by
  unfold copyUnitStep
  split
  · exact h
  next c _ =>
  have ht := tryUnit_keeps h id c
  split
  · exact h
  split
  · simp [h]
  split
  · simp [h]
  split <;> rename_i e <;> rw [e] at ht <;> simp_all

@[simp] theorem completeCopy_drawer (s : State) (id : Nat) : (s.completeCopy id).drawer = s.drawer := by
  unfold completeCopy; (repeat' split) <;> simp

@[simp] theorem copyAnswer_keeps (h : Memory.wf s.drawer) (id n : Nat) (at_ : Option Nat) (data : Bytes) (poison : Bool) :
    Memory.wf (s.copyAnswer id n at_ data poison).drawer := by
  unfold copyAnswer; dsimp only; (repeat' split) <;> simp [h]

@[simp] theorem takeResponse_keeps (h : Memory.wf s.drawer) (tag : Nat) (data : Bytes) (poison : Bool) :
    Memory.wf (s.takeResponse tag data poison).drawer := by
  unfold takeResponse; dsimp only; (repeat' split) <;> simp [h]

theorem copyQueryBody_keeps (d a : Reg) (tk : BitVec 2) : Body.Keeps (copyQueryBody d a tk) := by
  intro env k s h
  simp [copyQueryBody, h]

theorem copyStopBody_keeps (d a : Reg) (tk : BitVec 2) : Body.Keeps (copyStopBody d a tk) := by
  intro env k s h
  unfold copyStopBody; dsimp only; (repeat' split) <;> simp [h]

/-! ### Fetch -/

theorem fetchBlock_keeps (h : Memory.wf s.drawer) (th : Thread) (pc : DWord) : (s.fetchBlock th pc).Keeps := by
  unfold fetchBlock
  extract_lets launch block
  split
  · exact h
  have hr := readGlobal_keeps h ⟨th.ctx, 32 * block, true, false, 3⟩ 32
  split <;> rename_i e <;> rw [e] at hr <;> exact hr

@[simp] theorem parkOnFetch_keeps (h : Memory.wf s.drawer) (k : Nat) (pc : DWord) (f : FaultInfo) :
    Memory.wf (s.parkOnFetch k pc f).drawer := by
  unfold parkOnFetch
  split
  · exact h
  split <;> next e => simpa using raiseFault_eq_keeps e h

@[simp] theorem trapAll_drawer (s : State) (cause : BitVec 8) (val : DWord) (aux : Word) :
    (s.trapAll cause val aux).drawer = s.drawer := by
  unfold trapAll; split <;> simp

@[simp] theorem rejectAll_drawer (s : State) (x : Raw) (code : Nat) (val : DWord) :
    (s.rejectAll x code val).drawer = s.drawer := by
  unfold rejectAll; split <;> simp

theorem fetchIssue_keeps (h : Memory.wf s.drawer) : s.fetchIssue.Keeps := by
  unfold fetchIssue
  split
  · exact h
  next k0 _ _ =>
  extract_lets th pc
  split
  · simp [h]
  split
  · simp [h]
  have hf := fetchBlock_keeps h th pc
  split <;> rename_i e <;> rw [e] at hf
  · simpa using foldl_keeps (fun t k ht => parkOnFetch_keeps ht k pc _) _ hf
  · simpa using hf
  · replace hf : Memory.wf _ := hf
    extract_lets bytes val x
    (repeat' split) <;> simp [hf]

/-! ### Helpers, launches and system traps -/

theorem hireBody_keeps (win : Win) (comb : Comb) (d a c : Reg) (imm : BitVec 32) : Body.Keeps (hireBody win comb d a c imm) := by
  intro env k s h
  unfold hireBody; dsimp only; split <;> simp [h]

theorem hjoinBody_keeps (d a b : Reg) : Body.Keeps (hjoinBody d a b) := by
  intro env k s h
  unfold hjoinBody; dsimp only; (repeat' split) <;> simp [h]

theorem hsyncBody_keeps : Body.Keeps hsyncBody := by
  intro env k s h
  unfold hsyncBody; dsimp only; split <;> simp [h]

theorem hrdBody_keeps (i : Instr) (d n : BitVec 8) : Body.Keeps (hrdBody i d n) := by
  intro env k s h
  unfold hrdBody; dsimp only; (repeat' split) <;> simp [h]

theorem endBody_keeps (i : Instr) (contrib : Thread → Option Word) : Body.Keeps (endBody i contrib) := by
  intro env k s h
  unfold endBody; dsimp only; split <;> simp [h]

theorem appendPacket_keeps (h : Memory.wf s.drawer) (q : Nat) (b : Bytes) :
    Holds Served.Keeps (fun t => Memory.wf t.drawer) (s.appendPacket q b) := by
  unfold appendPacket
  extract_lets tail
  have hw := writeGlobal_keeps h ⟨s.fld 0x5100 q 47 32, s.lqSlot q tail, false, true, 1⟩ b
  split <;> rename_i e <;> rw [e] at hw <;> simpa using hw

theorem failLaunch_keeps (s : State) (k : Nat) (b : Thread) (va : DWord) {x : Served} (hx : x.Keeps) :
    (s.failLaunch k b va x).Keeps := by
  unfold failLaunch
  split
  · exact hx
  · split <;> next e => exact raiseFault_eq_keeps e hx
  · simpa using hx

theorem lnchBody_keeps (d a : Reg) (q : BitVec 3) : Body.Keeps (lnchBody d a q) := by
  intro env k s h
  unfold lnchBody
  extract_lets b addr
  split
  · trivial
  split
  · simp [h]
  next hq _ =>
  split
  · simp [h]
  have hf : Memory.wf (s.flushFirst b true false .p).1.drawer := by simpa using h
  split <;> rename_i e <;> rw [e] at hf
  · exact hf
  next s1 =>
  extract_lets append
  have ha (t : State) (x : Bytes) (ht : Memory.wf t.drawer) : (append t x).Keeps := by
    have hp := appendPacket_keeps ht hq x
    unfold append
    split <;> rename_i e <;> rw [e] at hp
    · simpa using hp
    · exact failLaunch_keeps t _ _ _ hp
  split
  · next va _ =>
    have hr := readGlobal_keeps hf ⟨b.ctx, va, true, false, 0⟩ 128
    split <;> rename_i e <;> rw [e] at hr
    · exact ha _ _ hr
    · simpa using hr
    · exact failLaunch_keeps s1 _ _ _ hr
  · split
    · exact hf
    split
    · simpa using hf
    · exact ha _ _ hf

theorem tretBody_keeps (i : Instr) (mode : TretMode) (a : Reg) : Body.Keeps (tretBody i mode a) := by
  intro env k s h
  unfold tretBody
  extract_lets th tpc resume
  have hres (t : State) (pc : DWord) (ht : Memory.wf t.drawer) : (resume t pc).Keeps := by simpa [resume] using ht
  split
  · trivial
  split
  · exact hres _ _ h
  · exact hres _ _ h
  split
  · exact hres _ _ h
  have hf := fetchBlock_keeps h th tpc
  split <;> rename_i e <;> rw [e] at hf
  · exact hres _ _ hf
  · split <;> next e => exact raiseFault_eq_keeps e hf
  · simpa using hf

theorem tmfrBody_keeps (d code : BitVec 8) : Body.Keeps (tmfrBody d code) := by
  intro env k s h
  simp [tmfrBody, h]

/-! ### Choice of a fragment -/

@[simp] theorem takeFragment_drawer (s : State) (core : Nat) (w : Nat × Wave) : (s.takeFragment core w).drawer = s.drawer := by
  unfold takeFragment; split <;> simp
@[simp] theorem restServers_drawer (s : State) : (s.restServers).drawer = s.drawer := by simp [restServers]
@[simp] theorem fileWaiting_drawer (s : State) : (s.fileWaiting).drawer = s.drawer := by simp [fileWaiting]
@[simp] theorem ringFrame_drawer (s : State) (e : Nat × RingState) : (s.ringFrame e).drawer = s.drawer := by
  simp [ringFrame, apply_ite State.drawer]
@[simp] theorem nextCycle_drawer (s : State) : (s.nextCycle).drawer = s.drawer := by
  unfold nextCycle; dsimp only; split <;> simp

/-! ### Hampers and waves -/

@[simp] theorem ageHamper_drawer (s : State) (core entry : Nat) : (s.ageHamper core entry).drawer = s.drawer := by
  unfold ageHamper; (repeat' split) <;> simp
@[simp] theorem drawNext_drawer (s : State) (core : Nat) : (s.drawNext core).drawer = s.drawer := by
  unfold drawNext; split <;> simp
@[simp] theorem expireNap_drawer (s : State) (core slot tag : Nat) :
    (s.expireNap core slot tag).drawer = s.drawer := by simp [expireNap]
@[simp] theorem wakeEvents_drawer (s : State) (ctx : Nat) : (s.wakeEvents ctx).drawer = s.drawer := by simp [wakeEvents]

/-! ### Launches -/

theorem queueRead_keeps (h : Memory.wf s.drawer) (hq ctx va n : Nat) :
    Holds (fun t => Memory.wf t.drawer) (fun x => Memory.wf x.1.drawer) (s.queueRead hq ctx va n) := by
  unfold queueRead
  have hr := readGlobal_keeps h ⟨ctx, va, true, false, 0⟩ n
  split <;> rename_i e <;> rw [e] at hr <;>
    simp only [holds_ok, holds_error, Served.keeps_fault, Served.keeps_ok, Served.keeps_poison] at hr <;> simp [hr]

theorem headPacket_keeps (h : Memory.wf s.drawer) (hq : Nat) :
    Holds (fun t => Memory.wf t.drawer) (fun x => Memory.wf x.1.drawer) (s.headPacket hq) := by
  unfold headPacket
  split
  · exact h
  extract_lets ctx
  have hr := queueRead_keeps h hq ctx (s.fld 0x5101 hq 56 0 + 128 * (s.fld 0x5102 hq 31 0 % 2 ^ s.fld 0x5100 hq 28 24)) 128
  split <;> rename_i e <;> rw [e] at hr <;> exact hr

theorem waitMet_keeps (h : Memory.wf s.drawer) (hq ctx : Nat) (a v : DWord) :
    Holds (fun t => Memory.wf t.drawer) (fun x => Memory.wf x.1.drawer) (s.waitMet hq ctx a v) := by
  unfold waitMet
  split
  · exact h
  have hr := queueRead_keeps h hq ctx a.toNat 8
  split <;> rename_i e <;> rw [e] at hr <;> exact hr

@[simp] theorem recordLaunch_drawer (s : State) (hq ctx : Nat) (b : Bytes) : (s.recordLaunch hq ctx b).drawer = s.drawer := by
  simp [recordLaunch]

@[simp] theorem takePacket_keeps (h : Memory.wf s.drawer) (hq : Nat) : Memory.wf (s.takePacket hq).drawer := by
  change DrawerOk _
  unfold takePacket
  split
  · exact h
  extract_lets ctx
  have hp := headPacket_keeps h hq
  split <;> rename_i e <;> rw [e] at hp
  · exact hp
  next s1 b =>
  replace hp : Memory.wf s1.drawer := hp
  extract_lets p
  split
  · simp [DrawerOk, hp]
  split
  · exact hp
  have hw := waitMet_keeps hp hq ctx p.w0a p.w0v
  split <;> rename_i e <;> rw [e] at hw
  · exact hw
  · exact hp
  next s2 =>
  have hv := waitMet_keeps hw hq ctx p.w1a p.w1v
  split <;> rename_i e <;> rw [e] at hv
  · exact hv
  · exact hp
  · simpa [DrawerOk] using hv

@[simp] theorem completeLaunch_keeps (h : Memory.wf s.drawer) (id : Nat) : Memory.wf (s.completeLaunch id).drawer := by
  change DrawerOk _
  unfold completeLaunch
  split
  · exact h
  extract_lets gone
  split
  · exact h
  split <;> rename_i e <;> have hs := serve_eq_keeps e h
  · replace hs : Memory.wf _ := hs
    split
    · simp [DrawerOk, hs]
    · split <;> simp [DrawerOk, gone, hs]
  · exact raiseFault_keeps hs ..
  · simpa [DrawerOk] using hs

/-! ### Placement and the end of groups and hoods -/

@[simp] theorem formWave_drawer (s : State) (gid core slot : Nat) (age : Int) :
    (s.formWave gid core slot age).drawer = s.drawer := by simp [formWave]
@[simp] theorem watchStart_drawer (s : State) (ctx : Nat) : (s.watchStart ctx).drawer = s.drawer := by
  unfold watchStart; split <;> simp
@[simp] theorem watchLeave_drawer (s : State) (ctx : Nat) : (s.watchLeave ctx).drawer = s.drawer := by
  unfold watchLeave; split <;> simp
@[simp] theorem placeGroup_drawer (p : Packet) (ctx launch hood : Nat) (s : State) (m : Nat × Nat) :
    (placeGroup p ctx launch hood s m).drawer = s.drawer := by simp [placeGroup]
@[simp] theorem placeHood_drawer (s : State) (launch index : Nat) (r : Nat × Nat × Nat) :
    (s.placeHood launch index r).drawer = s.drawer := by simp [placeHood]
@[simp] theorem restoreHamper_drawer (s : State) (savedAt core : Nat) (h : Hamper) :
    (s.restoreHamper savedAt core h).drawer = s.drawer := by simp [restoreHamper]
@[simp] theorem restoreGroup_drawer (img : Saggar) (s : State) (m : Nat × Nat) : (restoreGroup img s m).drawer = s.drawer := by
  unfold restoreGroup; split <;> simp
@[simp] theorem restoreSub_drawer (s : State) (e : SubEntry) : (s.restoreSub e).drawer = s.drawer := by simp [restoreSub]

@[simp] theorem restoreHood_drawer (s : State) (ctx hood : Nat) (r : Nat × Nat × Nat) :
    (s.restoreHood ctx hood r).drawer = s.drawer := by
  unfold restoreHood; dsimp only; (repeat' split) <;> simp

@[simp] theorem placeNext_drawer (s : State) (id : Nat) (l : Launch) (r : Nat × Nat × Nat) :
    (s.placeNext id l r).drawer = s.drawer := by
  unfold placeNext; split <;> simp

@[simp] theorem placeStep_drawer (s : State) (part : Nat) (l : List (Nat × Launch)) :
    (s.placeStep part l).drawer = s.drawer := by
  induction l generalizing s with
  | nil => rfl
  | cons x l ih =>
    unfold placeStep
    split
    · simp
    · rw [ih]

@[simp] theorem reservePart_drawer (s : State) (id : Nat) : (s.reservePart id).drawer = s.drawer := by simp [reservePart]
@[simp] theorem hoodDone_keeps (h : Memory.wf s.drawer) (hood : Nat) : Memory.wf (s.hoodDone hood).drawer := by
  unfold hoodDone; dsimp only; split <;> simp [h]
@[simp] theorem leaveGroup_keeps (h : Memory.wf s.drawer) (gid : Nat) : Memory.wf (s.leaveGroup gid).drawer := by
  unfold leaveGroup; dsimp only; (repeat' split) <;> simp [h]
@[simp] theorem withdrawGang_drawer (s : State) (hood : Nat) : (s.withdrawGang hood).drawer = s.drawer := by simp [withdrawGang]
@[simp] theorem haltGang_drawer (s : State) (hood : Nat) (cause : KillCause) :
    (s.haltGang hood cause).drawer = s.drawer := by simp [haltGang]

@[simp] theorem finishKill_keeps (h : Memory.wf s.drawer) (hood : Nat) (cause : KillCause) :
    Memory.wf (s.finishKill hood cause).drawer := by
  unfold finishKill; dsimp only; (repeat' split) <;> simp [h]

@[simp] theorem killHood_keeps (h : Memory.wf s.drawer) (hood : Nat) (cause : KillCause) :
    Memory.wf (s.killHood hood cause).drawer := by
  unfold killHood; (repeat' split) <;> simp [h]

theorem dueKill_keeps (h : Memory.wf s.drawer) : SomeKeeps s.dueKill :=
  someKeeps_findSome (fun _ => someKeeps_bind (fun _ => by split <;> simp [h]) _) _

/-! ### Contexts -/

@[simp] theorem enableCtx_drawer (s : State) (c : Nat) : (s.enableCtx c).1.drawer = s.drawer := by
  unfold enableCtx; dsimp only; (repeat' split) <;> simp

theorem wf_storeOutside {m : Store} (h : Memory.wf m) (lo hi : Nat) : Memory.wf (storeOutside m lo hi) := by
  rw [wf_iff] at h ⊢
  exact ⟨risingFrom_filter _ h.1, fun e he => h.2 e (List.mem_filter.1 he).1⟩

@[simp] theorem zeroDrawer_keeps (h : Memory.wf s.drawer) (pa n : Nat) : Memory.wf (s.zeroDrawer pa n).drawer :=
  wf_storeOutside h ..
@[simp] theorem dropImage_keeps (h : Memory.wf s.drawer) (c : Nat) : Memory.wf (s.dropImage c).drawer := by
  unfold dropImage; dsimp only; split <;> simp [h]
@[simp] theorem setStage_drawer (s : State) (c stage : Nat) : (s.setStage c stage).drawer = s.drawer := by simp [setStage]
@[simp] theorem saveFails_keeps (h : Memory.wf s.drawer) (c : Nat) : Memory.wf (s.saveFails c).drawer := by
  simp [saveFails, h]

@[simp] theorem teardownCtx_keeps (h : Memory.wf s.drawer) (c : Nat) : Memory.wf (s.teardownCtx c).1.drawer := by
  change DrawerOk _
  unfold teardownCtx
  split
  · exact h
  extract_lets s s1 s2
  have h0 : Memory.wf s.drawer := by
    unfold s; split <;> simp [h]
  have h1 : Memory.wf s1.drawer := by simp [s1, h0]
  have h2 : Memory.wf s2.drawer := by
    unfold s2; split <;> simp [h1]
  simpa [DrawerOk] using h2

@[simp] theorem signalCtx_drawer (s : State) (c : Nat) : (s.signalCtx c).1.drawer = s.drawer := by simp [signalCtx]
@[simp] theorem startCtx_drawer (s : State) (c : Nat) : (s.startCtx c).1.drawer = s.drawer := by
  unfold startCtx; split <;> simp
@[simp] theorem releaseHelpers_drawer (s : State) (c : Nat) : (s.releaseHelpers c).drawer = s.drawer := by simp [releaseHelpers]
@[simp] theorem dropWaits_drawer (s : State) (c : Nat) : (s.dropWaits c).drawer = s.drawer := by simp [dropWaits]
@[simp] theorem drainCtx_drawer (s : State) (c : Nat) : (s.drainCtx c).1.drawer = s.drawer := by
  unfold drainCtx; split <;> simp
@[simp] theorem beginSave_drawer (s : State) (c : Nat) : (s.beginSave c).drawer = s.drawer := by simp [beginSave]
@[simp] theorem saveCtx_drawer (s : State) (c : Nat) : (s.saveCtx c).1.drawer = s.drawer := by
  unfold saveCtx; split <;> simp

@[simp] theorem putImage_keeps (h : Memory.wf s.drawer) (c : Nat) (full : Bool) : Memory.wf (s.putImage c full).drawer := by
  change DrawerOk _
  unfold putImage
  extract_lets g _ s1 s2
  have h1 : Memory.wf s1.drawer := h
  have h2 : Memory.wf s2.drawer := by simp [s2, h1]
  rw [DrawerOk, wakeRetry_drawer, raiseCstate_drawer, setCtxState_drawer, setStage_drawer, setFld_drawer]
  exact h2

@[simp] theorem drainDone_keeps (h : Memory.wf s.drawer) (c : Nat) : Memory.wf (s.drainDone c).drawer := by
  unfold drainDone; split <;> simp [h]
@[simp] theorem drainLimitStep_drawer (s : State) (c : Nat) : (s.drainLimitStep c).drawer = s.drawer := by
  unfold drainLimitStep; split <;> simp
@[simp] theorem saveDone_keeps (h : Memory.wf s.drawer) (c : Nat) : Memory.wf (s.saveDone c).drawer := by
  unfold saveDone; (repeat' split) <;> simp [h]
@[simp] theorem saveIncompleteStep_keeps (h : Memory.wf s.drawer) (c : Nat) : Memory.wf (s.saveIncompleteStep c).drawer := by
  unfold saveIncompleteStep; split <;> simp [h]
@[simp] theorem restoreDsp_drawer (s : State) (c : Nat) (g : Saggar) :
    (s.restoreDsp c g).drawer = s.drawer := by simp [restoreDsp]

@[simp] theorem restoreCtx_keeps (h : Memory.wf s.drawer) (c : Nat) : Memory.wf (s.restoreCtx c).1.drawer := by
  unfold restoreCtx
  split
  · exact h
  split
  · simp [h]
  split
  · simp [h]
  · refine foldl_keeps (fun t e ht => ?_) _ ?_
    · split <;> simp [ht]
    · split <;> simp [h]

@[simp] theorem exportCtx_drawer (s : State) (c : Nat) : (s.exportCtx c).1.drawer = s.drawer := by
  unfold exportCtx; (repeat' split) <;> simp

theorem wf_foldl_setByte (a : Nat) (l : List Host.Cell) {m : Store} (h : Memory.wf m) :
    Memory.wf (l.foldl (fun m e => m.setByte (a + e.1) e.2) m) := by
  induction l generalizing m with
  | nil => exact h
  | cons e l ih => exact ih (wf_setByte h ..)

/-- The function is unfolded as a whole, not at its arguments: so the kernel compares its text and does not evaluate the walk. -/
@[simp] theorem copyPage_keeps (h : Memory.wf s.drawer) (c : Nat) (p : Nat × Nat × List Host.Cell) :
    Memory.wf (copyPage c s p).drawer := by
  change DrawerOk _
  have e : copyPage = copyPage := rfl
  conv at e => rhs; delta copyPage
  rw [e]
  beta_reduce
  split
  · next l _ => exact wf_foldl_setByte l.pa p.2.2 (zeroDrawer_keeps h l.pa p.2.1)
  · exact h

@[simp] theorem chargeRoute_drawer (s : State) (c pkg n : Nat) : (s.chargeRoute c pkg n).drawer = s.drawer := by
  unfold chargeRoute; split <;> simp

@[simp] theorem imageTaken_keeps (h : Memory.wf s.drawer) (pkg : Nat) (ticket : BitVec 128) :
    Memory.wf (s.imageTaken pkg ticket).drawer := by
  unfold imageTaken; split <;> simp [h]

@[simp] theorem pullImage_keeps (h : Memory.wf s.drawer) (pkg : Nat) (ticket : BitVec 128) :
    Memory.wf (s.pullImage pkg ticket).drawer := by
  unfold pullImage; (repeat' split) <;> simp [h]

@[simp] theorem askImage_drawer (s : State) (c pkg : Nat) (ticket : BitVec 128) :
    (s.askImage c pkg ticket).drawer = s.drawer := by
  unfold askImage; split <;> simp

@[simp] theorem importCtx_keeps (h : Memory.wf s.drawer) (c : Nat) : Memory.wf (s.importCtx c).1.drawer := by
  change DrawerOk _
  unfold importCtx
  split
  · exact h
  extract_lets ticket
  split
  · exact h
  split
  · exact h
  split
  · exact h
  extract_lets g body g' s0 s1
  have h0 : Memory.wf s0.drawer := by
    refine imageTaken_keeps (foldl_keeps (fun t p ht => copyPage_keeps ht c p) _ ?_) ..
    rw [askImage_drawer, chargeRoute_drawer]
    exact h
  obtain ⟨t, et⟩ : ∃ t, s0 = t := ⟨_, rfl⟩
  have h1 : Memory.wf s1.drawer := by
    rw [et] at h0
    unfold s1
    rw [et]
    exact h0
  rw [DrawerOk, raiseCstate_drawer, setCtxState_drawer, setFld_drawer]
  exact drawerWrite_keeps h1 ..

@[simp] theorem ctxCommand_keeps (h : Memory.wf s.drawer) (c code : Nat) : Memory.wf (s.ctxCommand c code).1.drawer := by
  unfold ctxCommand; (repeat' split) <;> simp [h]
@[simp] theorem ctxRow_keeps (h : Memory.wf s.drawer) (c code : Nat) : Memory.wf (s.ctxRow c code).drawer := by
  simp [ctxRow, h]
@[simp] theorem watchdogStep_keeps (h : Memory.wf s.drawer) (c : Nat) : Memory.wf (s.watchdogStep c).drawer := by
  unfold watchdogStep; (repeat' split) <;> simp [h]
@[simp] theorem sliceWipe_keeps (h : Memory.wf s.drawer) (p : Nat) : Memory.wf (s.sliceWipe p).drawer :=
  foldl_keeps (fun _ _ ht => by split <;> simp [ht]) _ h
@[simp] theorem giveSlice_keeps (h : Memory.wf s.drawer) (p e : Nat) : Memory.wf (s.giveSlice p e).drawer := by
  unfold giveSlice; dsimp only; split <;> simp [h]
@[simp] theorem sliceStep_keeps (h : Memory.wf s.drawer) (p : Nat) : Memory.wf (s.sliceStep p).drawer := by
  unfold sliceStep; dsimp only; (repeat' split) <;> simp [h]

/-! ### Turnstile and routes -/

@[simp] theorem rebudget_drawer (s : State) (pick : SrvKey → Bool) (v : DWord) : (s.rebudget pick v).drawer = s.drawer := by
  unfold rebudget; split <;> simp

@[simp] theorem templateCommand_drawer (s : State) (cls : SrvClass) (sg : Nat) (op : DWord) :
    (s.templateCommand cls sg op).1.drawer = s.drawer := by
  unfold templateCommand; dsimp only; (repeat' split) <;> simp

@[simp] theorem lsrvCommand_drawer (s : State) (fab : Bool) (link entry : Nat) (op : DWord) :
    (s.lsrvCommand fab link entry op).1.drawer = s.drawer := by
  unfold lsrvCommand; dsimp only; (repeat' split) <;> simp

/-- A hop is reserved by one LSRV command, or no entry is free for it. (The function is unfolded as a whole, as copyPage is.) -/
theorem reserveHop_cases (s : State) (link sg : Nat) (hard : Bool) (q t : Nat) : s.reserveHop link sg hard q t = (s, 7, 0, 0) ∨
    ∃ e op x, s.reserveHop link sg hard q t = ((s.lsrvCommand true link e op).1, x) := by
  have e : @reserveHop = @reserveHop := rfl
  conv at e => rhs; delta reserveHop
  rw [e]
  beta_reduce
  split
  · exact .inl rfl
  · exact .inr ⟨_, _, _, rfl⟩

@[simp] theorem reserveHop_drawer (s : State) (link sg : Nat) (hard : Bool) (q t : Nat) :
    (s.reserveHop link sg hard q t).1.drawer = s.drawer := by
  obtain e | ⟨_, _, _, e⟩ := s.reserveHop_cases link sg hard q t <;> simp [e]

@[simp] theorem removeHop_drawer (s : State) (link entry : Nat) :
    (s.removeHop link entry).drawer = s.drawer := by simp [removeHop]
@[simp] theorem askHop_drawer (s : State) (b : RouteBuild) : (s.askHop b).drawer = s.drawer := by simp [askHop]
@[simp] theorem askRelease_drawer (s : State) (b : RouteBuild) (hop : Nat) :
    (s.askRelease b hop).drawer = s.drawer := by simp [askRelease]
@[simp] theorem answerBind_drawer (s : State) (who : Asker) (r : DWord) : (s.answerBind who r).drawer = s.drawer := by
  unfold answerBind; split <;> simp
@[simp] theorem bindRoute_drawer (s : State) (b : RouteBuild) : (s.bindRoute b).drawer = s.drawer := by simp [bindRoute]
@[simp] theorem answerAny_drawer (s : State) (who : Option Asker) (r : DWord) : (s.answerAny who r).drawer = s.drawer := by
  unfold answerAny; split <;> simp
@[simp] theorem hopDone_drawer (s : State) (b : RouteBuild) : (s.hopDone b).drawer = s.drawer := by
  unfold hopDone; dsimp only; split <;> simp
@[simp] theorem unwindNext_drawer (s : State) (b : RouteBuild) : (s.unwindNext b).drawer = s.drawer := by
  unfold unwindNext; split <;> simp
@[simp] theorem unwind_drawer (s : State) (b : RouteBuild) : (s.unwind b).drawer = s.drawer := by simp [unwind]
@[simp] theorem hopFails_drawer (s : State) (b : RouteBuild) (sum status : Nat) :
    (s.hopFails b sum status).drawer = s.drawer := by simp [hopFails]

@[simp] theorem bindRecord_drawer (s : State) (sg : Nat) (rec : Bytes) (who : Asker) :
    (s.bindRecord sg rec who).drawer = s.drawer := by
  unfold bindRecord; dsimp only; (repeat' split) <;> simp

@[simp] theorem hopAnswer_drawer (s : State) (via sg tag status sum pkg : Nat) :
    (s.hopAnswer via sg tag status sum pkg).drawer = s.drawer := by
  unfold hopAnswer; (repeat' split) <;> simp

@[simp] theorem hopReleased_drawer (s : State) (sg tag : Nat) : (s.hopReleased sg tag).drawer = s.drawer := by
  unfold hopReleased; split <;> simp
@[simp] theorem hopTimeout_drawer (s : State) (sg : Nat) : (s.hopTimeout sg).drawer = s.drawer := by
  unfold hopTimeout; (repeat' split) <;> simp
@[simp] theorem serveHop_drawer (s : State) (q : HopReq) : (s.serveHop q).drawer = s.drawer := by
  unfold serveHop; dsimp only; (repeat' split) <;> simp
@[simp] theorem serveRelease_drawer (s : State) (via src sg tag : Nat) : (s.serveRelease via src sg tag).drawer = s.drawer := by
  unfold serveRelease; split <;> simp
@[simp] theorem unbind_drawer (s : State) (sg pkg : Nat) : (s.unbind sg pkg).1.drawer = s.drawer := by
  unfold unbind; split <;> simp

@[simp] theorem unbindFor_drawer (s : State) (who : Asker) (sg pkg : Nat) : (s.unbindFor who sg pkg).1.drawer = s.drawer := by
  have hu := unbind_drawer s sg pkg
  unfold unbindFor
  split
  · rfl
  split <;> rename_i e <;> rw [e] at hu <;> exact hu

@[simp] theorem unbindEnd_drawer (s : State) (u : Asker × List Nat) : (s.unbindEnd u).drawer = s.drawer := by simp [unbindEnd]

theorem templateRow_keeps (h : Memory.wf s.drawer) (cls : SrvClass) (sg : Nat) (op : DWord) :
    NextKeeps (templateRow cls sg op s) := by
  simp [templateRow, h]

/-! ### Repair of frames and lines -/

@[simp] theorem rmsync_drawer (s0 : State) (c : Nat) : (s0.rmsync c).1.drawer = s0.drawer := by
  unfold rmsync; dsimp only; (repeat' split) <;> simp
@[simp] theorem replayOne_keeps (h : Memory.wf s.drawer) (r : Requester) : Memory.wf (s.replayOne r).drawer := by
  cases r <;> simp [replayOne, h]

@[simp] theorem trreplay_keeps (h : Memory.wf s.drawer) (q : Nat) (op : DWord) : Memory.wf (s.trreplay q op).1.drawer := by
  unfold trreplay
  extract_lets fid
  split
  · exact h
  extract_lets s1
  split
  · simp [s1, h]
  · exact foldl_keeps (fun _ _ ht => replayOne_keeps ht _) _ h

@[simp] theorem freeFrame_keeps (h : Memory.wf s.drawer) (f : Nat) : Memory.wf (s.freeFrame f).drawer := by
  simp [freeFrame, h]

theorem frzero_keeps (h : Memory.wf s.drawer) (part : Nat) (device : Bool) (op : DWord) :
    SomeKeeps (s.frzero part device op) := by
  unfold frzero
  split
  · simpa using foldl_keeps (fun _ _ ht => freeFrame_keeps ht _) _ h
  · simp

@[simp] theorem retireFrame_keeps (h : Memory.wf s.drawer) (f : Nat) (poison : Bool) :
    Memory.wf (s.retireFrame f poison).1.drawer := by
  unfold retireFrame; split <;> simp [h]

@[simp] theorem autoRetire_keeps (h : Memory.wf s.drawer) (f : Nat) (poison : Bool) :
    Memory.wf (s.autoRetire f poison).drawer := by
  unfold autoRetire; split <;> simp [h]

@[simp] theorem countError_drawer (s : State) (die code : Nat) (unc : Bool) (ctx loc : Nat) :
    (s.countError die code unc ctx loc).drawer = s.drawer := by
  simp [countError, apply_ite State.drawer]

@[simp] theorem poisonNotice_keeps (h : Memory.wf s.drawer) (pa : Nat) (tag : DWord) (c : Nat) :
    Memory.wf (s.poisonNotice pa tag c).drawer := by
  simp [poisonNotice, h]

@[simp] theorem uncorrectable_keeps (h : Memory.wf s.drawer) (pa : Nat) : Memory.wf (s.uncorrectable pa).drawer := by
  unfold uncorrectable
  extract_lets pa f
  split
  · exact h
  rename_i s0 tag s1 _
  have h0 : Memory.wf s0.drawer := by simp [s0, h]
  have hp : Memory.wf { s0 with drawer := s0.drawer.addPoison 128 pa 128 }.drawer := wf_addPoison h0 128 pa 128
  have h1 : Memory.wf s1.drawer := retireFrame_keeps hp f true
  split
  · simp [h0]
  split
  · exact foldl_keeps (fun _ _ ht => poisonNotice_keeps ht ..) _ h1
  · exact h1

@[simp] theorem corrected_keeps (h : Memory.wf s.drawer) (pa : Nat) : Memory.wf (s.corrected pa).drawer := by
  unfold corrected
  extract_lets f s0 n s1
  have h1 : Memory.wf s1.drawer := by simp [s1, s0, h]
  split
  · exact autoRetire_keeps h1 ..
  · exact h1

@[simp] theorem scrubReturn_keeps (h : Memory.wf s.drawer) (link line : Nat) (st : ScrubStatus) :
    Memory.wf (s.scrubReturn link line st).drawer := by
  unfold scrubReturn
  split
  · exact h
  · cases st <;> simp [h]

@[simp] theorem scrubRepair_keeps (h : Memory.wf s.drawer) (link : Nat) : Memory.wf (s.scrubRepair link).drawer := by
  unfold scrubRepair; dsimp only; (repeat' split) <;> simp [h]
@[simp] theorem refreshFrame_drawer (s : State) (link : Nat) : (s.refreshFrame link).drawer = s.drawer := by
  simp [refreshFrame, apply_ite State.drawer]

@[simp] theorem takeScrubs_keeps (h : Memory.wf s.drawer) (link : Nat) (rows : Flit) (b : Bytes) :
    Memory.wf (s.takeScrubs link rows b).drawer :=
  foldl_keeps (fun _ _ ht => by split <;> simp [ht]) _ h

@[simp] theorem errinj_drawer (s : State) (op : DWord) : (s.errinj op).drawer = s.drawer := by simp [errinj]

theorem answer_keeps (h : Memory.wf s.drawer) {r : Option (State × DWord)} (hr : SomeKeeps (r.map Prod.fst)) :
    Memory.wf (answer r s).drawer := by
  cases r with
  | none => exact h
  | some x => exact hr x.1 rfl

/-! ### Links -/

@[simp] theorem setMap_drawer (s : State) (l : LinkId) : (s.setMap l).drawer = s.drawer := by simp [setMap]
@[simp] theorem storeTable_drawer (s : State) (l : LinkId) (base : Nat) (t : List DWord) :
    (s.storeTable l base t).drawer = s.drawer := by simp [storeTable]
@[simp] theorem adoptAt_drawer (s : State) (l : LinkId) (t : List DWord) (frame : Nat) :
    (s.adoptAt l t frame).drawer = s.drawer := by simp [adoptAt]
@[simp] theorem beginCommit_drawer (s : State) (l : LinkId) (who : Asker) : (s.beginCommit l who).1.drawer = s.drawer := by
  unfold beginCommit; (repeat' split) <;> simp
@[simp] theorem ttcommit_drawer (s : State) (l : LinkId) (who : Asker) : (s.ttcommit l who).1.drawer = s.drawer := by
  unfold ttcommit; split <;> simp
@[simp] theorem answerShadow_drawer (s : State) (l : LinkId) (far : List DWord) : (s.answerShadow l far).drawer = s.drawer := by
  unfold answerShadow; dsimp only; split <;> simp
@[simp] theorem shadowRequest_drawer (s : State) (l : LinkId) (far : List DWord) : (s.shadowRequest l far).drawer = s.drawer := by
  unfold shadowRequest; dsimp only; split <;> simp
@[simp] theorem nextCommit_drawer (s : State) (l : LinkId) : (s.nextCommit l).drawer = s.drawer := by
  unfold nextCommit; dsimp only; (repeat' split) <;> simp

@[simp] theorem commitAnswer_drawer (s : State) (l : LinkId) (far : List DWord) (frame : Nat) :
    (s.commitAnswer l far frame).drawer = s.drawer := by
  simp [commitAnswer, apply_ite State.drawer]

@[simp] theorem commitTimeout_drawer (s : State) (l : LinkId) : (s.commitTimeout l).drawer = s.drawer := by
  unfold commitTimeout; split <;> simp
@[simp] theorem takeEffect_drawer (s : State) (l : LinkId) : (s.takeEffect l).drawer = s.drawer := by
  unfold takeEffect; split <;> simp
@[simp] theorem sendFlit_drawer (s : State) (l : LinkId) (tag : Nat) (f : Flit) :
    (s.sendFlit l tag f).drawer = s.drawer := by simp [sendFlit]
@[simp] theorem sendTxn_drawer (s : State) (l : LinkId) (t : Txn) (pos : Nat) :
    (s.sendTxn l t pos).drawer = s.drawer := by simp [sendTxn]

@[simp] theorem sendClocked_drawer (s : State) (l : LinkId) (t : Txn) (pos : Nat) :
    (s.sendClocked l t pos).drawer = s.drawer := by
  unfold sendClocked; split <;> simp

@[simp] theorem giveSlot_keeps (h : Memory.wf s.drawer) (l : LinkId) (pos : Nat) : Memory.wf (s.giveSlot l pos).drawer := by
  unfold giveSlot
  extract_lets s0
  have h0 : Memory.wf s0.drawer := by simp [s0, h]
  split
  · exact h0
  · simp [h0]
  · simp [h0]
  extract_lets s1
  have h1 : Memory.wf s1.drawer := by
    unfold s1
    split
    · split <;> simp [h0]
    · simp [h0]
  (repeat' split) <;> simp [h1]

@[simp] theorem drawerAnswer_keeps (h : Memory.wf s.drawer) (link : Nat) (f : Flit) :
    Memory.wf (s.drawerAnswer link f).1.drawer := by
  unfold drawerAnswer
  extract_lets addr pa line o n mine answer none mark
  have hm : ∀ t : State, Memory.wf t.drawer → Memory.wf (mark t).drawer := fun t ht => by
    unfold mark
    split
    · exact wf_addPoison ht ..
    · exact ht
  split
  · simp [h]
  · exact hm _ (drawerWrite_keeps h ..)
  · exact hm _ (drawerWrite_keeps h ..)
  · rename_i old bad s1 _ _
    have h1 : Memory.wf s1.drawer := by simp [s1, h]
    dsimp only
    split
    · exact h1
    · exact hm _ (drawerWrite_keeps h1 ..)
  · exact h
  · exact h

@[simp] theorem drawerCommand_keeps (h : Memory.wf s.drawer) (link : Nat) (f : Flit) :
    Memory.wf (s.drawerCommand link f).drawer := by
  unfold drawerCommand; dsimp only; (repeat' split) <;> simp [h]

@[simp] theorem countLink_drawer (s : State) (l : LinkId) (unc : Bool) (n : Nat) :
    (s.countLink l unc n).drawer = s.drawer := by simp [countLink]
@[simp] theorem countSymbols_drawer (s : State) (l : LinkId) (f : Flit) : (s.countSymbols l f).drawer = s.drawer := by
  simp [countSymbols, apply_ite State.drawer]
@[simp] theorem countUncorrectable_drawer (s : State) (l : LinkId) : (s.countUncorrectable l).drawer = s.drawer := by
  unfold countUncorrectable; split <;> simp
@[simp] theorem askHandBack_drawer (s : State) (l : LinkId) : (s.askHandBack l).drawer = s.drawer := by
  unfold askHandBack; (repeat' split) <;> simp
@[simp] theorem nakLink_drawer (s : State) (l : LinkId) : (s.nakLink l).drawer = s.drawer := by simp [nakLink]
@[simp] theorem replayFrom_drawer (s : State) (l : LinkId) (ack : Nat) :
    (s.replayFrom l ack).drawer = s.drawer := by simp [replayFrom]
@[simp] theorem reissue_drawer (s : State) (l : LinkId) : (s.reissue l).drawer = s.drawer := by simp [reissue]
@[simp] theorem takeAck_drawer (s : State) (l : LinkId) (ack : Nat) : (s.takeAck l ack).drawer = s.drawer := by simp [takeAck]

@[simp] theorem stallRecord_keeps (h : Memory.wf s.drawer) (l : LinkId) (cause wl since frames ctx : Nat) :
    Memory.wf (s.stallRecord l cause wl since frames ctx).drawer := by
  simp [stallRecord, h]

@[simp] theorem endTxn_drawer (s : State) (l : LinkId) (t : Txn) : (s.endTxn l t).drawer = s.drawer := by simp [endTxn]

@[simp] theorem writeStalls_keeps (h : Memory.wf s.drawer) (l : LinkId) (ended : Stall → Bool) :
    Memory.wf (s.writeStalls l ended).drawer :=
  foldl_keeps (fun _ _ ht => stallRecord_keeps ht ..) _ (by simp [h])

@[simp] theorem modDir_drawer (s : State) (l : LinkId) (d : Dir) (f : DirState → DirState) :
    (s.modDir l d f).drawer = s.drawer := by simp [modDir]

@[simp] theorem relay_drawer (s : State) (src sg tag : Nat) (back : Bool) (f : Flit) :
    (s.relay src sg tag back f).drawer = s.drawer := by
  unfold relay; split <;> simp

@[simp] theorem nameRejoin_drawer (s : State) (l : LinkId) (d : Dir) (wl frame : Nat) :
    (s.nameRejoin l d wl frame).drawer = s.drawer := by
  unfold nameRejoin; split <;> simp

@[simp] theorem controlFlit_keeps (h : Memory.wf s.drawer) (l : LinkId) (f : Flit) : Memory.wf (s.controlFlit l f).drawer := by
  unfold controlFlit; dsimp only; (repeat' split) <;> simp [h]

@[simp] theorem drawerResponse_keeps (h : Memory.wf s.drawer) (l : LinkId) (f : Flit) :
    Memory.wf (s.drawerResponse l f).drawer := by
  unfold drawerResponse; dsimp only; (repeat' split) <;> simp [h]

@[simp] theorem domainResponse_drawer (s : State) (l : LinkId) (f : Flit) : (s.domainResponse l f).drawer = s.drawer := by
  unfold domainResponse; dsimp only; (repeat' split) <;> simp
@[simp] theorem acceptFlit_keeps (h : Memory.wf s.drawer) (l : LinkId) (f : Flit) : Memory.wf (s.acceptFlit l f).drawer := by
  unfold acceptFlit; dsimp only; (repeat' split) <;> simp [h]

@[simp] theorem handBackStep_drawer (s : State) (l : LinkId) (d : Dir) (wl slot : Nat) :
    (s.handBackStep l d wl slot).drawer = s.drawer := by
  unfold handBackStep; (repeat' split) <;> simp

@[simp] theorem trainedStep_drawer (s : State) (l : LinkId) (d : Dir) (wl : Nat) : (s.trainedStep l d wl).drawer = s.drawer := by
  simp [trainedStep, apply_ite State.drawer]
@[simp] theorem restartCounts_drawer (s : State) (l : LinkId) (wl : Nat) : (s.restartCounts l wl).drawer = s.drawer := by
  simp [restartCounts, apply_ite State.drawer]

@[simp] theorem rejoinStep_keeps (h : Memory.wf s.drawer) (l : LinkId) (d : Dir) (wl : Nat) :
    Memory.wf (s.rejoinStep l d wl).drawer := by
  unfold rejoinStep; dsimp only; (repeat' split) <;> simp [h]

@[simp] theorem windowEnd_drawer (s : State) (l : LinkId) (wl : Nat) : (s.windowEnd l wl).drawer = s.drawer := by
  unfold windowEnd; split <;> simp
@[simp] theorem handedBack_drawer (s : State) (l : LinkId) (f : Flit) : (s.handedBack l f).drawer = s.drawer := by
  unfold handedBack; split <;> simp
@[simp] theorem takeHeader_drawer (s : State) (l : LinkId) (f : Flit) : (s.takeHeader l f).drawer = s.drawer := by
  simp [takeHeader, apply_ite State.drawer]
@[simp] theorem loseFlit_drawer (s : State) (l : LinkId) : (s.loseFlit l).drawer = s.drawer := by
  unfold loseFlit; split <;> simp
@[simp] theorem receiveFlit_keeps (h : Memory.wf s.drawer) (l : LinkId) (f : Flit) : Memory.wf (s.receiveFlit l f).drawer := by
  unfold receiveFlit; dsimp only; (repeat' split) <;> simp [h]

@[simp] theorem drawerReturn_keeps (h : Memory.wf s.drawer) (l : LinkId) : Memory.wf (s.drawerReturn l).drawer := by
  unfold drawerReturn
  split
  · exact h
  split
  · dsimp only
    split <;> simp [h]
  · simp [h]

@[simp] theorem clearOut_drawer (s : State) (l : LinkId) : (s.clearOut l).drawer = s.drawer := by simp [clearOut]

@[simp] theorem downStep_keeps (h : Memory.wf s.drawer) (l : LinkId) : Memory.wf (s.downStep l).drawer := by
  unfold downStep
  split
  · exact h
  · rw [modLink_drawer, reissue_drawer, clearOut_drawer, setFld_drawer]
    exact writeStalls_keeps h ..

@[simp] theorem loseReq_drawer (s : State) (tag : Nat) (r : MemReq) : (s.loseReq tag r).drawer = s.drawer := by
  unfold loseReq; split <;> simp

theorem wf_foldl_addPoison (l : List Nat) {m : Store} (h : Memory.wf m) :
    Memory.wf (l.foldl (fun m a => m.addPoison 128 a 128) m) := by
  induction l generalizing m with
  | nil => exact h
  | cons a l ih => exact ih (wf_addPoison h ..)

@[simp] theorem loseUnit_keeps (h : Memory.wf s.drawer) (l : LinkId) (id : Nat) (c : CopyRec) :
    Memory.wf (s.loseUnit l id c).drawer := by
  unfold loseUnit
  split
  · exact foldl_keeps (fun _ _ ht => by split <;> simp [ht]) _ (by simp [h])
  split
  · simp [h]
  extract_lets after lines s2 s3
  have h2 : Memory.wf s2.drawer := wf_foldl_addPoison _ h
  exact copyUnitStep_keeps h2 id

@[simp] theorem loseWrite_keeps (h : Memory.wf s.drawer) (l : LinkId) (t : Txn) : Memory.wf (s.loseWrite l t).drawer := by
  unfold loseWrite
  extract_lets pa
  split
  · exact h
  rename_i s1 _
  have h1 : Memory.wf s1.drawer := drawerWrite_keeps h ..
  split <;> simp [h1, wf_addPoison h1]

@[simp] theorem downTimeout_keeps (h : Memory.wf s.drawer) (l : LinkId) : Memory.wf (s.downTimeout l).drawer := by
  unfold downTimeout
  split
  · exact h
  extract_lets reqs copies s1 s2 s3
  have h1 : Memory.wf s1.drawer := by simp [s1, h]
  have h2 : Memory.wf s2.drawer := foldl_keeps (fun _ _ ht => by split <;> simp [ht]) _ h1
  have h3 : Memory.wf s3.drawer := foldl_keeps (fun _ _ ht => by split <;> simp [ht]) _ h2
  split
  · exact h3
  · exact foldl_keeps (fun _ _ ht => loseWrite_keeps ht ..) _ h3

@[simp] theorem tuneRings_drawer (s : State) (l : LinkId) : (s.tuneRings l).drawer = s.drawer := by
  rw [tuneRings, foldl_drawer]
  intro t x
  rw [setFld_drawer, setFld_drawer, setFld_drawer, drawFree_drawer]

@[simp] theorem startTraining_drawer (s : State) (ls : List LinkId) :
    (s.startTraining ls).drawer = s.drawer := by simp [startTraining]
@[simp] theorem trainingOver_drawer (s : State) (l : LinkId) : (s.trainingOver l).drawer = s.drawer := by
  simp [trainingOver, apply_ite State.drawer]
@[simp] theorem alignTick_drawer (s : State) (l : LinkId) (peer : Nat) : (s.alignTick l peer).drawer = s.drawer := by
  unfold alignTick; split <;> simp

@[simp] theorem trainStep_drawer (s : State) (l : LinkId) (fout fin eoff peer : Nat) :
    (s.trainStep l fout fin eoff peer).drawer = s.drawer := by
  unfold trainStep
  split
  · rfl
  split
  · simp
  · rw [wakeRetry_drawer, trainingOver_drawer, alignTick_drawer, tuneRings_drawer, setMap_drawer, storeTable_drawer,
      storeTable_drawer, modLink_drawer, clearOut_drawer, setReg_drawer]

/-! ### Rings -/

@[simp] theorem modRing_drawer (s : State) (r : RingId) (f : RingState → RingState) :
    (s.modRing r f).drawer = s.drawer := by simp [modRing]
@[simp] theorem setRing_drawer (s : State) (r : RingId) (hi lo v : Nat) :
    (s.setRing r hi lo v).drawer = s.drawer := by simp [setRing]
@[simp] theorem changeHeat_drawer (s : State) (r : RingId) (v : Nat) : (s.changeHeat r v).drawer = s.drawer := by
  unfold changeHeat; split <;> simp
@[simp] theorem writeRing_drawer (s : State) (r : RingId) (v : DWord) : (s.writeRing r v).drawer = s.drawer := by
  simp [writeRing, apply_ite State.drawer]
@[simp] theorem ringStep_drawer (s : State) (r : RingId) (op : DWord) : (s.ringStep r op).1.drawer = s.drawer := by
  simp [ringStep, apply_ite State.drawer]

@[simp] theorem rotateStep_drawer (s : State) (l : LinkId) (op : DWord) (who : Asker) :
    (s.rotateStep l op who).1.drawer = s.drawer := by
  unfold rotateStep; (repeat' split) <;> simp

@[simp] theorem rotateRing_drawer (s : State) (r : RingId) : (s.rotateRing r).drawer = s.drawer := by
  rw [rotateRing, modRing_drawer, drawFree_drawer, setRing_drawer, setRing_drawer, setRing_drawer]
@[simp] theorem turnLanes_drawer (s : State) (l : LinkId) (d : Dir) : (s.turnLanes l d).drawer = s.drawer := by simp [turnLanes]
@[simp] theorem rotateEffect_drawer (s : State) (l : LinkId) (d : Dir) : (s.rotateEffect l d).drawer = s.drawer := by
  unfold rotateEffect; (repeat' split) <;> simp
@[simp] theorem farTurn_drawer (s : State) (l : LinkId) (n : Nat) : (s.farTurn l n).drawer = s.drawer := by simp [farTurn]
@[simp] theorem heatEffect_drawer (s : State) (r : RingId) : (s.heatEffect r).drawer = s.drawer := by
  unfold heatEffect; split <;> simp
@[simp] theorem settleStep_drawer (s : State) (r : RingId) : (s.settleStep r).drawer = s.drawer := by
  unfold settleStep; split <;> simp
@[simp] theorem monStep_drawer (s : State) (r : RingId) (reading : Nat) :
    (s.monStep r reading).drawer = s.drawer := by simp [monStep]

/-! ### Reads of system registers -/

@[simp] theorem sysAfterRead_drawer (s : State) (idx inst : Nat) : (s.sysAfterRead idx inst).drawer = s.drawer := by
  unfold sysAfterRead; (repeat' split) <;> simp
@[simp] theorem sysRead_drawer (s : State) (w : Who) (idx inst : Nat) : (s.sysRead w idx inst).1.drawer = s.drawer := by
  unfold sysRead; (repeat' split) <;> simp

/-! ### Writes of system registers and SYSX -/

@[simp] theorem writeFqcfg_keeps (h : Memory.wf s.drawer) (q : Nat) (v : DWord) : Memory.wf (s.writeFqcfg q v).drawer := by
  unfold writeFqcfg
  extract_lets s1
  have h1 : Memory.wf s1.drawer := by simp [s1, h]
  split
  · exact foldl_keeps (fun _ _ ht => by simp [ht]) _ h1
  · exact drainRecords_keeps h1 q

@[simp] theorem writeLqcfg_drawer (s : State) (q : Nat) (v : DWord) : (s.writeLqcfg q v).drawer = s.drawer := by
  unfold writeLqcfg; dsimp only; split <;> simp
@[simp] theorem writeTail_drawer (s : State) (q t : Nat) : (s.writeTail q t).drawer = s.drawer := by
  simp [writeTail, apply_ite State.drawer]
@[simp] theorem writeGroup_drawer (s : State) (sg : Nat) (v : DWord) : (s.writeGroup sg v).drawer = s.drawer := by
  unfold writeGroup; dsimp only; split <;> simp
@[simp] theorem writeWindow_drawer (s : State) (sg : Nat) (v : DWord) :
    (s.writeWindow sg v).drawer = s.drawer := by simp [writeWindow]
@[simp] theorem writeQuota_drawer (s : State) (p : Nat) (v : DWord) : (s.writeQuota p v).drawer = s.drawer := by simp [writeQuota]

@[simp] theorem sysWrite_keeps (h : Memory.wf s.drawer) (w : Who) (idx inst : Nat) (v : DWord) :
    Memory.wf (s.sysWrite w idx inst v).drawer := by
  unfold sysWrite
  split
  · split <;> simp [h]
  extract_lets x
  split <;> simp [h]

@[simp] theorem lcadv_drawer (s : State) (op : DWord) : (s.lcadv op).1.drawer = s.drawer := by
  unfold lcadv; dsimp only; split <;> simp
@[simp] theorem rbadv_drawer (s : State) (op : DWord) : (s.rbadv op).1.drawer = s.drawer := by
  unfold rbadv; split <;> simp
@[simp] theorem setMeasured_drawer (s : State) (i : Nat) (b : Bytes) :
    (s.setMeasured i b).drawer = s.drawer := by simp [setMeasured]
@[simp] theorem extendMr_drawer (s : State) (i : Nat) (d : Bytes) : (s.extendMr i d).drawer = s.drawer := by simp [extendMr]
@[simp] theorem tbset_drawer (s : State) (op : DWord) : (s.tbset op).1.drawer = s.drawer := by simp [tbset]
theorem soonOr_keeps {x : State × Option Nat} (h : Memory.wf x.1.drawer) : (soonOr x).Keeps := by
  unfold soonOr; split <;> exact h

theorem sysExec_keeps (h : Memory.wf s.drawer) (w : Who) (who : Asker) (idx inst : Nat) (op : DWord) :
    (s.sysExec w who idx inst op).Keeps := by
  have hz := frzero_keeps h w.part (w.level == 2) op
  unfold sysExec
  extract_lets now fab link
  have hn (x : State × DWord) (hx : Memory.wf x.1.drawer) : (now x).Keeps := hx
  split
  · exact ctxCommand_keeps h ..
  · exact hn _ (by simp [h])
  · exact hn _ (by simp [h])
  · exact hn _ (by simp [h])
  · exact hn _ (by simp [h])
  · exact soonOr_keeps (by simp [h])
  · exact hn _ (by simp [h])
  · exact hn _ (by simp [h])
  · split <;> rename_i e <;> rw [e] at hz
    · simpa using hz
    · exact h
  · exact hn _ (by simp [h])
  · simp [h]
  · exact soonOr_keeps (by simp [h])
  · exact soonOr_keeps (by simp [h])
  · exact hn _ (by simp [h])
  · exact hn _ (by simp [h])
  · exact soonOr_keeps (by simp [h])
  · exact soonOr_keeps (by simp [h])
  · exact hn _ (by simp [h])
  · exact hn _ (by simp [h])
  · exact hn _ (by simp [h])
  · exact h

theorem sysGuard_keeps (h : Memory.wf s.drawer) (k : Nat) (th : Thread) (idx inst : Nat) (op : SysOp) {go : State → Lane}
    (hgo : ∀ t, Memory.wf t.drawer → (go t).Keeps) : (sysGuard k th idx inst op s go).Keeps := by
  have hf : Memory.wf (s.flushFirst th true true .s).1.drawer := by simpa using h
  unfold sysGuard
  split <;> rename_i e <;> rw [e] at hf
  · exact hf
  · split
    · trivial
    · exact hgo _ (by simpa using hf)

theorem sysrBody_keeps (d a : Reg) (idx : Nat) : Body.Keeps (sysrBody d a idx) := by
  intro env k s h
  unfold sysrBody
  exact sysGuard_keeps h _ _ _ _ _ fun _ ht => by simp [ht]

theorem syswBody_keeps (d a : Reg) (idx : Nat) : Body.Keeps (syswBody d a idx) := by
  intro env k s h
  unfold syswBody
  exact sysGuard_keeps h _ _ _ _ _ fun _ ht => by simp [ht]

theorem sysFetch_keeps (h : Memory.wf s.drawer) (k : Nat) (th : Thread) (addr : DWord) (n : Nat) {go : State → Bytes → Lane}
    (hgo : ∀ t b, Memory.wf t.drawer → (go t b).Keeps) : (sysFetch k th addr n s go).Keeps := by
  unfold sysFetch
  split
  · trivial
  · next va _ =>
    have hr := readGlobal_keeps h ⟨th.ctx, va, true, false, 0⟩ n
    split <;> rename_i e <;> rw [e] at hr
    · exact hgo _ _ hr
    · simpa using hr
    · exact failLaunch_keeps s _ _ _ hr
  · split
    · exact h
    split
    · simpa using h
    · exact hgo _ _ h

theorem sysLater_keeps (h : Memory.wf s.drawer) (k : Nat) (d : Reg) : (sysLater k d s).Keeps := by simp [sysLater, h]

theorem rbindBody_keeps (h : Memory.wf s.drawer) (k : Nat) (th : Thread) (d : Reg) (sg : Nat) (addr : DWord) :
    (rbindBody k th d sg addr s).Keeps :=
  sysFetch_keeps h _ _ _ _ fun _ _ ht => by dsimp only; split <;> simp [ht]

theorem mrextBody_keeps (h : Memory.wf s.drawer) (k : Nat) (th : Thread) (d : Reg) (i : Nat) (addr : DWord) :
    (mrextBody k th d i addr s).Keeps :=
  sysFetch_keeps h _ _ _ _ fun _ _ ht => by simp [ht]

theorem sysxBody_keeps (d a : Reg) (idx : Nat) : Body.Keeps (sysxBody d a idx) := by
  intro env k s h
  unfold sysxBody
  refine sysGuard_keeps h _ _ _ _ _ fun t ht => ?_
  split
  · exact rbindBody_keeps ht ..
  split
  · exact mrextBody_keeps ht ..
  · have hx := sysExec_keeps ht (t.whoIs k) (.thread k d) idx ((env.before.thread k).rv a).toNat ((env.before.thread k).rw d)
    split <;> rename_i e <;> rw [e] at hx
    · simpa using hx
    · exact sysLater_keeps hx ..

theorem outsideWrite_keeps (h : Memory.wf s.drawer) (idx inst : Nat) (v : DWord) :
    Memory.wf (s.outsideWrite idx inst v).drawer := by
  unfold outsideWrite; split
  · exact h
  · exact sysWrite_keeps h ..

@[simp] theorem windowTail_drawer (s : State) (fn m : Nat) (v : DWord) : (s.windowTail fn m v).drawer = s.drawer := by
  unfold windowTail; (repeat' split) <;> simp
@[simp] theorem hostSel_drawer (s : State) (fn : Nat) (v : DWord) : (s.hostSel fn v).drawer = s.drawer := by
  unfold hostSel; split <;> simp
@[simp] theorem hostRead_drawer (s : State) (fn : Nat) : (s.hostRead fn).drawer = s.drawer := by
  unfold hostRead; dsimp only; (repeat' split) <;> simp
@[simp] theorem hostWrite_keeps (h : Memory.wf s.drawer) (fn : Nat) (v : DWord) : Memory.wf (s.hostWrite fn v).drawer := by
  unfold hostWrite; dsimp only; (repeat' split) <;> simp [h]

@[simp] theorem hostExec_keeps (h : Memory.wf s.drawer) (fn : Nat) (v : DWord) : Memory.wf (s.hostExec fn v).drawer := by
  unfold hostExec
  extract_lets w
  split
  · exact h
  next who _ =>
  split
  · have hx := sysExec_keeps h who (.window fn) (selIdx w) (selInst w) v
    split <;> rename_i e <;> rw [e] at hx <;> simpa using hx
  · simp +zetaDelta [h]

/-! ### System instructions -/

@[simp] theorem tinv_drawer (s : State) (w : Who) (kind : TinvKind) (c base pages : Nat) :
    (s.tinv w kind c base pages).drawer = s.drawer := by simp [tinv]

@[simp] theorem cinvrLine_keeps (h : Memory.wf s.drawer) (op : CinvOp) (c lo hi k : Nat) :
    Memory.wf (cinvrLine op c lo hi s k).drawer := by
  unfold cinvrLine
  split
  · exact h
  next l _ =>
  split
  · exact h
  have hc := cleanLine_keeps h c l
  cases op with
  | cln => simp [hc]
  | inv => exact hc
  | disc =>
    dsimp only
    split
    · exact hc
    · exact h

@[simp] theorem cinvr_keeps (h : Memory.wf s.drawer) (op : CinvOp) (c lo hi : Nat) : Memory.wf (s.cinvr op c lo hi).drawer := by
  have hl : Memory.wf ((keysOf s.l2).foldl (cinvrLine op c lo hi) s).drawer :=
    foldl_keeps (fun _ _ ht => cinvrLine_keeps ht ..) _ h
  unfold cinvr; dsimp only; split <;> exact hl

theorem eretBody_keeps (i : Instr) : Body.Keeps (eretBody i) := by
  intro env k s h
  unfold eretBody; split <;> simp [h]

theorem tinvBody_keeps (kind : TinvKind) (a b c : Reg) : Body.Keeps (tinvBody kind a b c) := by
  intro env k s h
  unfold tinvBody; dsimp only; (repeat' split) <;> simp [h]

theorem cinvrBody_keeps (op : CinvOp) (a b c : Reg) : Body.Keeps (cinvrBody op a b c) := by
  intro env k s h
  unfold cinvrBody
  extract_lets th ctx base len
  have hf : Memory.wf (s.flushFirst th true true .s).1.drawer := by simpa using h
  split <;> rename_i e <;> rw [e] at hf
  · exact hf
  (repeat' split) <;> simp [hf]

theorem waitiBody_keeps (d a : Reg) : Body.Keeps (waitiBody d a) := by
  intro env k s h
  unfold waitiBody; dsimp only; (repeat' split) <;> simp [h]

/-! ### Ethernet -/

@[simp] theorem rlDrop_drawer (s : State) (reason : Nat) : (s.rlDrop reason).drawer = s.drawer := by simp [rlDrop]

@[simp] theorem remoteLaunch_keeps (h : Memory.wf s.drawer) (port : Nat) (p : Bytes) :
    Memory.wf (s.remoteLaunch port p).drawer := by
  unfold remoteLaunch
  split
  · exact h
  split
  · simp [h]
  extract_lets entry
  split
  · simp [h]
  split
  · simp [h]
  split
  · simp [h]
  next q _ =>
  split
  · simp [h]
  split
  · simp [h]
  have ha := appendPacket_keeps h q ((p.drop 0x10).take 128)
  split <;> rename_i e <;> rw [e] at ha
  · simpa using ha
  · exact h

theorem readSpan_keeps (h : Memory.wf s.drawer) (ctx : Nat) (l : List (Nat × Bytes)) :
    SomeKeeps ((s.readSpan ctx l).map Prod.fst) := by
  induction l generalizing s with
  | nil => simpa [readSpan] using h
  | cons p rest ih =>
    have hr := readGlobal_keeps h ⟨ctx, p.1, true, false, 0⟩ p.2.length
    unfold readSpan
    split <;> rename_i e
    · rw [e] at hr
      simpa [Function.comp_def] using ih hr
    · simp

theorem writeSpan_keeps (h : Memory.wf s.drawer) (ctx : Nat) (l : List (Nat × Bytes)) : SomeKeeps (s.writeSpan ctx l) := by
  induction l generalizing s with
  | nil => simpa [writeSpan] using h
  | cons p rest ih =>
    have hw := writeGlobal_keeps h ⟨ctx, p.1, false, true, 1⟩ p.2
    unfold writeSpan
    split <;> rename_i e <;> rw [e] at hw
    · exact ih hw
    · simp

@[simp] theorem erDone_drawer (s : State) (r : Nat) : (s.erDone r).drawer = s.drawer := by simp [erDone]
@[simp] theorem noRing_drawer (s : State) (port : Nat) : (s.noRing port).drawer = s.drawer := by simp [noRing]

theorem storeFrame_keeps (h : Memory.wf s.drawer) (r : Nat) (b : Bytes) : SomeKeeps (s.storeFrame r b) := by
  unfold storeFrame
  extract_lets ctx
  split
  · simp
  have hr := readGlobal_keeps h ⟨ctx, s.erSlot r, true, false, 0⟩ 32
  split <;> rename_i e
  · rw [e] at hr
    split
    · simp
    next s1 d _ =>
    have hs := writeSpan_keeps hr ctx (piecesOf (pktField d 0 8) b)
    split <;> rename_i e2 <;> rw [e2] at hs
    · simp
    next s2 =>
    extract_lets d'
    have h2 : Memory.wf s2.drawer := by simpa using hs
    have hw := writeGlobal_keeps h2 ⟨ctx, s.erSlot r, false, true, 1⟩ d'
    split <;> rename_i e3 <;> rw [e3] at hw
    · simpa using hw
    · simp
  · simp

@[simp] theorem pausePriority_drawer (port : Nat) (s : State) (x : Nat × Nat) :
    (pausePriority port s x).drawer = s.drawer := by simp [pausePriority]

@[simp] theorem receiveFrame_keeps (h : Memory.wf s.drawer) (port : Nat) (f : EthFrame) :
    Memory.wf (s.receiveFrame port f).drawer := by
  unfold receiveFrame
  split
  · exact h
  split
  · simp [h]
  split
  · exact h
  split
  · simp [h]
  split
  · exact foldl_keeps (fun _ _ ht => by simp [ht]) _ h
  split
  · simp [h]
  · next r _ =>
    have hs := storeFrame_keeps h r f.bytes
    cases e : s.storeFrame r f.bytes with
    | none => simp [h]
    | some t => exact hs t e

theorem txFrame_keeps (h : Memory.wf s.drawer) (r : Nat) : SomeKeeps ((s.txFrame r).map Prod.fst) := by
  have hr := readGlobal_keeps h ⟨s.erOwner r, s.erSlot r, true, false, 0⟩ 32
  unfold txFrame
  split <;> rename_i e
  · rw [e] at hr
    exact readSpan_keeps hr _ _
  · simp

@[simp] theorem sendFrame_keeps (h : Memory.wf s.drawer) (r : Nat) : Memory.wf (s.sendFrame r).drawer := by
  unfold sendFrame
  split
  · exact h
  extract_lets s0
  have h0 : Memory.wf s0.drawer := h
  have ht := txFrame_keeps h0 r
  split <;> rename_i e <;> rw [e] at ht
  · replace ht := (someKeeps_some _).1 ht
    dsimp only at ht
    split <;> simp [ht]
  · simp [h0]

/-! ### Reset, boot and SPDM -/

@[simp] theorem resetFrom_drawer (s : State) (on : Bool) : (s.resetFrom on).drawer = Store.zero := by
  unfold resetFrom
  extract_lets kept _ _ r
  have hr : r.drawer = Store.zero := rfl
  split
  · rw [setFld_drawer, hr]
  · exact hr

@[simp] theorem powerOff_drawer (s : State) : s.powerOff.drawer = Store.zero := resetFrom_drawer s false
@[simp] theorem bootFail_drawer (s : State) (stage err img : Nat) :
    (s.bootFail stage err img).drawer = s.drawer := by simp [bootFail]

@[simp] theorem bootImages_drawer (key : Bytes) (s : State) (i : Nat) (l : List BootImage) :
    (bootImages key s i l).drawer = s.drawer := by
  induction l generalizing s i with
  | nil => rw [bootImages, setFld_drawer]
  | cons x rest ih =>
    rw [bootImages]
    split
    · rw [bootFail_drawer]
    · rw [ih, extendMr_drawer]

@[simp] theorem bootRom_drawer (s : State) (b : Bundle) : (s.bootRom b).drawer = s.drawer := by
  unfold bootRom; dsimp only; (repeat' split) <;> simp
@[simp] theorem startUp_drawer (s : State) (b : Bundle) : (s.startUp b).drawer = Store.zero := by
  simp [startUp]
@[simp] theorem powerUp_drawer (s : State) (b : Bundle) : (s.powerUp b).drawer = Store.zero := startUp_drawer _ b
@[simp] theorem resetStep_drawer (s : State) : s.resetStep.drawer = Store.zero := by
  unfold resetStep; split <;> simp

@[simp] theorem wipeStep_keeps (h : Memory.wf s.drawer) : Memory.wf s.wipeStep.drawer := by
  unfold wipeStep
  split
  · exact h
  extract_lets s1 s2 s3
  have h3 : Memory.wf s3.drawer := by
    unfold s3; split <;> simp [s2, wf_zero]
  split <;> simp [h3]

@[simp] theorem pcieStep_drawer (s : State) : (s.pcieStep).drawer = s.drawer := by
  unfold pcieStep; split <;> simp

@[simp] theorem sampleStep_keeps (h : Memory.wf s.drawer) (die : Nat) (tj : BitVec 12) :
    Memory.wf (s.sampleStep die tj).drawer := by
  unfold sampleStep; dsimp only; (repeat' split) <;> simp [h, wf_zero]

@[simp] theorem flrStep_keeps (h : Memory.wf s.drawer) (vf : Nat) : Memory.wf (s.flrStep vf).drawer := by
  unfold flrStep
  split
  · exact h
  · exact foldl_keeps (fun _ _ ht => teardownCtx_keeps ht _) _ h

@[simp] theorem spdmAnswer_drawer (s : State) (fn : Nat) (m a : Bytes) : (s.spdmAnswer fn m a).drawer = s.drawer := by
  unfold spdmAnswer; split <;> simp

@[simp] theorem spdmServe_keeps (h : Memory.wf s.drawer) (fn : Nat) (m : Bytes) {go : State} (hgo : Memory.wf go.drawer) :
    Memory.wf (s.spdmServe fn m go).drawer := by
  unfold spdmServe; split <;> simp [h, hgo]

@[simp] theorem spdmNonce_drawer (s : State) : (s.spdmNonce).1.drawer = s.drawer := by simp [spdmNonce]
@[simp] theorem spdmChallenge_drawer (s : State) (fn : Nat) (m : Bytes) : (s.spdmChallenge fn m).drawer = s.drawer := by
  unfold spdmChallenge; split <;> simp
@[simp] theorem spdmMeasure_drawer (s : State) (fn : Nat) (m : Bytes) : (s.spdmMeasure fn m).drawer = s.drawer := by
  unfold spdmMeasure; dsimp only; (repeat' split) <;> simp

/-! ### The own work of the package -/

@[simp] theorem setDeficit_drawer (s : State) (port g v : Nat) : (s.setDeficit port g v).drawer = s.drawer := by simp [setDeficit]

theorem drrTake_drawer {port : Nat} {x : State × Nat} (e : s.drrTake port = some x) : x.1.drawer = s.drawer := by
  obtain ⟨g, -, hg⟩ := Option.bind_eq_some_iff.1 e
  obtain ⟨r, -, rfl⟩ := Option.map_eq_some_iff.1 hg
  simp

theorem dueRequest_keeps (h : Memory.wf s.drawer) : SomeKeeps s.dueRequest := by
  unfold dueRequest
  split
  · simp [h]
  · refine someKeeps_bind (fun r t e => ?_) _
    obtain ⟨x, hx, rfl⟩ := Option.map_eq_some_iff.1 e
    exact serveRequest_keeps (by simpa [drrTake_drawer hx] using h) _

theorem dueDomain_keeps (h : Memory.wf s.drawer) : SomeKeeps s.dueDomain := someKeeps_map (fun _ => retryDomain_keeps h _) _
theorem dueNet_keeps (h : Memory.wf s.drawer) : SomeKeeps s.dueNet := someKeeps_map (fun _ => by simp [h]) _
theorem dueThread_keeps (h : Memory.wf s.drawer) : SomeKeeps s.dueThread :=
  someKeeps_findSome (fun _ => by (repeat' split) <;> simp [h]) _

theorem dueWave_keeps (h : Memory.wf s.drawer) : SomeKeeps s.dueWave := by
  have ha : SomeKeeps (s.cores.findSome? fun c => (c.2.hampers.find? fun h => s.ageDue h.2).map fun h => s.ageHamper c.1 h.1) :=
    someKeeps_findSome (fun _ => someKeeps_map (fun _ => by simp [h]) _) _
  unfold dueWave
  split <;> rename_i e
  · rw [e] at ha
    exact ha
  split
  · simp [h]
  · exact someKeeps_map (fun _ => by simp [h]) _

theorem dueStream_keeps (h : Memory.wf s.drawer) : SomeKeeps s.dueStream := by
  unfold dueStream
  split
  · simp [h]
  split
  · simp [h]
  split
  · simp [h]
  · exact someKeeps_findSome (fun _ => someKeeps_map (fun _ => by simp [h]) _) _

theorem duePass_keeps (h : Memory.wf s.drawer) : SomeKeeps s.duePass := someKeeps_map (fun _ => by simp [h]) _
@[simp] theorem startUnit_keeps (h : Memory.wf s.drawer) (c : Nat × CopyRec) : Memory.wf (s.startUnit c).drawer := by
  simp [startUnit, h]

theorem dueCopy_keeps (h : Memory.wf s.drawer) : SomeKeeps s.dueCopy := by
  unfold dueCopy
  dsimp only
  split
  · simp [h]
  split
  · simp [h]
  split
  · simp
  · exact someKeeps_map (fun _ => startUnit_keeps h _) _

theorem duePacket_keeps (h : Memory.wf s.drawer) : SomeKeeps s.duePacket :=
  someKeeps_findSome (fun _ => by dsimp only; split <;> simp [h]) _

theorem dueLaunch_keeps (h : Memory.wf s.drawer) : SomeKeeps s.dueLaunch := by
  unfold dueLaunch
  split
  · simp [h]
  split
  · simp [h]
  · exact someKeeps_map (fun _ => by simp [h]) _

theorem dueContext_keeps (h : Memory.wf s.drawer) : SomeKeeps s.dueContext := by
  have hl : SomeKeeps (s.liveContexts.findSome? fun c =>
      if s.drained c then some (s.drainDone c)
      else if s.drainExpired c then some (s.drainLimitStep c)
      else if s.saveExpired c then some (s.saveIncompleteStep c)
      else if s.saveQuiet c then some (s.saveDone c)
      else none) :=
    someKeeps_findSome (fun _ => by (repeat' split) <;> simp [h]) _
  unfold dueContext
  split
  · simp [h]
  split <;> rename_i e
  · rw [e] at hl
    exact hl
  · exact someKeeps_map (fun _ => by simp [h]) _

theorem dueServer_keeps (h : Memory.wf s.drawer) : SomeKeeps s.dueServer := by
  unfold dueServer
  split
  · simp [h]
  · exact someKeeps_map (fun _ => by simp [h]) _

theorem dueMemory_keeps (h : Memory.wf s.drawer) : SomeKeeps s.dueMemory := by
  unfold dueMemory
  split
  · simp [h]
  · exact someKeeps_map (fun _ => by simp [h]) _

theorem dueOfLink_keeps (h : Memory.wf s.drawer) (l : LinkId) : SomeKeeps (s.dueOfLink l) := by
  have hg : SomeKeeps ((s.slotDue l).map (s.giveSlot l)) := someKeeps_map (fun _ => giveSlot_keeps h l _) _
  unfold dueOfLink
  (repeat' split) <;> simp [h, hg]

theorem dueLink_keeps (h : Memory.wf s.drawer) : SomeKeeps s.dueLink := by
  have hl : SomeKeeps ((keysOf s.links).findSome? fun k => s.dueOfLink (linkOf k)) :=
    someKeeps_findSome (fun _ => dueOfLink_keeps h _) _
  unfold dueLink
  split <;> rename_i e
  · rw [e] at hl
    exact hl
  split
  · simp [h]
  split
  · simp [h]
  split
  · split <;> simp [h]
  · exact someKeeps_map (fun _ => sendFrame_keeps h _) _

theorem due_keeps (h : Memory.wf s.drawer) : SomeKeeps s.due := by
  intro t e
  obtain ⟨f, hf, e⟩ := List.exists_of_findSome?_eq_some e
  simp only [List.mem_cons, List.not_mem_nil, or_false] at hf
  rcases hf with rfl | rfl | rfl | rfl | rfl | rfl | rfl | rfl | rfl | rfl | rfl | rfl | rfl | rfl | rfl
  exacts [dueMemory_keeps h t e, dueNet_keeps h t e, dueRequest_keeps h t e, dueDomain_keeps h t e, duePass_keeps h t e,
    dueServer_keeps h t e, dueStream_keeps h t e, dueCopy_keeps h t e, dueThread_keeps h t e, dueWave_keeps h t e,
    dueKill_keeps h t e, dueContext_keeps h t e, dueLaunch_keeps h t e, duePacket_keeps h t e, dueLink_keeps h t e]

theorem goOn_keeps (h : Memory.wf s.drawer) : Memory.wf s.goOn.drawer := by
  have hd := due_keeps h
  unfold goOn
  split <;> rename_i e
  · exact hd _ e
  split <;> simp [h]

/-! ### Injected errors -/

@[simp] theorem containGroup_drawer (s : State) (gid : Nat) : (s.containGroup gid).drawer = s.drawer := by simp [containGroup]

theorem errorHits_keeps (h : Memory.wf s.drawer) (x : Inject) (die ctx : Nat) {effect : State → State}
    (he : ∀ t, Memory.wf t.drawer → Memory.wf (effect t).drawer) : Memory.wf (s.errorHits x die ctx effect).drawer := by
  have hc : Memory.wf (s.countError die x.code x.unc ctx x.loc).drawer := by simp [h]
  unfold errorHits; dsimp only; split
  · exact he _ hc
  · exact hc

theorem regHits_keeps (h : Memory.wf s.drawer) (x : Inject) (k : Nat) (r : RegRef) : Memory.wf (s.regHits x k r).drawer :=
  errorHits_keeps h _ _ _ fun t ht => by split <;> simp [ht]
theorem regStrike_keeps (h : Memory.wf s.drawer) (x : Inject) : SomeKeeps (s.regStrike x) :=
  someKeeps_map (fun _ => regHits_keeps h ..) _
theorem scratchStrike_keeps (h : Memory.wf s.drawer) (x : Inject) : SomeKeeps (s.scratchStrike x) :=
  someKeeps_map (fun _ => errorHits_keeps h _ _ _ fun _ ht => by simp [ht]) _

theorem lineStrike_keeps (h : Memory.wf s.drawer) (x : Inject) : SomeKeeps (s.lineStrike x) := by
  unfold lineStrike
  split
  · exact someKeeps_map (fun _ => errorHits_keeps h _ _ _ fun _ ht => by exact ht) _
  · exact someKeeps_map (fun _ => errorHits_keeps h _ _ _ fun _ ht => by split <;> simp [ht]) _

theorem coreStrike_keeps (h : Memory.wf s.drawer) (b : State) (x : Inject) : SomeKeeps (b.coreStrike s x) := by
  unfold coreStrike
  split
  · refine someKeeps_bind (fun _ => ?_) _
    split
    · simp
    · exact (someKeeps_some _).2 (errorHits_keeps h _ _ _ fun _ ht => by simp [ht])
  · exact someKeeps_map (fun _ => errorHits_keeps h _ _ _ fun _ ht => by simp [ht]) _

theorem cacheStrike_keeps (h : Memory.wf s.drawer) (b : State) (x : Inject) : SomeKeeps (b.cacheStrike s x) := by
  unfold cacheStrike
  split <;> exact someKeeps_map (fun _ => errorHits_keeps h _ _ _ fun _ ht => by exact ht) _

@[simp] theorem spoilPacket_drawer (s : State) (o : Nat) (p : NetPacket) : (s.spoilPacket o p).drawer = s.drawer := by
  unfold spoilPacket; (repeat' split) <;> simp
theorem packetStrike_keeps (h : Memory.wf s.drawer) (b : State) (x : Inject) : SomeKeeps (b.packetStrike s x) :=
  someKeeps_map (fun _ => errorHits_keeps h _ _ _ fun _ ht => by simp [ht]) _
theorem linkStrike_keeps (h : Memory.wf s.drawer) (b : State) (x : Inject) : SomeKeeps (b.linkStrike s x) :=
  someKeeps_map (fun _ => errorHits_keeps h _ _ _ fun _ ht => by (repeat' split) <;> simp [ht]) _

theorem strikeOne_keeps (h : Memory.wf s.drawer) (go : State → Option State) (b : State) (x : Inject) :
    SomeKeeps (strikeOne go b s x) := by
  unfold strikeOne
  (repeat' split) <;> simp [regStrike_keeps, scratchStrike_keeps, lineStrike_keeps, coreStrike_keeps, cacheStrike_keeps,
    packetStrike_keeps, linkStrike_keeps, h]

theorem strike_keeps (h : Memory.wf s.drawer) (go : State → Option State) (b : State) : Memory.wf (strike go b s).drawer := by
  refine foldl_keeps (fun t x ht => ?_) _ h
  split
  · have hx := strikeOne_keeps ht go b x
    split <;> rename_i e <;> rw [e] at hx
    · simpa using hx
    · exact ht
  · exact ht

/-! ### Instructions, events and steps -/

theorem execLsrv_keeps (h : Memory.wf s.drawer) (inst : Nat) (op : BitVec 64) : NextKeeps (execLsrv inst op s) := by
  unfold execLsrv; dsimp only; (repeat' split) <;> simp [h]
theorem execRunbind_keeps (h : Memory.wf s.drawer) (sg pkg : Nat) : NextKeeps (execRunbind sg pkg s) := by
  unfold execRunbind; dsimp only; split <;> simp [h]
theorem execTtcommit_keeps (h : Memory.wf s.drawer) (link : LinkId) : NextKeeps (execTtcommit link s) := by
  unfold execTtcommit; dsimp only; split <;> simp [h]
theorem execRotate_keeps (h : Memory.wf s.drawer) (link : LinkId) (op : BitVec 64) : NextKeeps (execRotate link op s) := by
  unfold execRotate; dsimp only; (repeat' split) <;> simp [h, answer_keeps]

theorem execQueueTailWrite_keeps (h : Memory.wf s.drawer) (lq : Nat) (v : BitVec 64) (win : Bool) :
    NextKeeps (execQueueTailWrite lq v win s) := by
  unfold execQueueTailWrite; split <;> simp [h, outsideWrite_keeps]

/-- Each instruction issues a body that keeps the form; each event's next state is given by one function of the model. -/
theorem exec_keeps (h : Memory.wf s.drawer) (i : Instr) : NextKeeps (exec i s) := by
  cases i
  case iaddS | iaddW | isubS | isubW | imulS | imulW | imulhS | imulhW | imad | imadw | idivS | idivW | iremS | iremW |
    iminS | iminW | imaxS | imaxW | iabs | ineg | isad | iadd64S | iadd64W | isub64S | isub64W | imul64 | andS | andW |
    orS | orW | xorS | xorW | andnS | andnW | ornS | ornW | not | shlS | shlW | shrS | shrW | sarS | sarW | rotS | rotW |
    fsh | bfx | bfi | popc | clz | ctz | brev | permS | permW | isetS | isetW | isetvS | isetvW | sel | mov | movi | movw |
    plop | p2v | v2p | faddS | faddW | fsubS | fsubW | fmulS | fmulW | ffma | fdiv | fminS | fminW | fmaxS | fmaxW | fsetS |
    fsetW | fsetvS | fsetvW | fcls | frnd | f2i | i2f | fcvt | rcp | rsq | sqrt | exp2 | log2 | fstat | hadd2 | hsub2 |
    hmul2 | hfma2 | hmin2 | hmax2 | hcvt2 | vadd2 | vsub2 | vmin2 | vmax2 | vacsel | acz | acrd | acwr | acmul =>
    exact issue_keeps (onThread_keeps _) _ h
  case getid | br | jmp | call | callr | ret | nopS | nopW | nopX | yield | vred | vscan | vote | tlr =>
    exact issue_keeps (fun _ _ _ ht => by simp [ht]) _ h
  case bru => exact issue_keeps (branchUniform_keeps _ _ _ _) _ h
  case reform => exact issue_keeps (reformBody_keeps _ _) _ h
  case exit => exact issue_keeps exitBody_keeps _ h
  case nap => exact issue_keeps (napBody_keeps _ _) _ h
  case vshf | vbfly => exact issue_keeps (shuffle_keeps _ _ _ _) _ h
  case ldS | ldW => exact issue_keeps (loadBody_keeps _ _ _ _ _ _ _) _ h
  case stS | stW => exact issue_keeps (storeBody_keeps _ _ _ _ _ _ _) _ h
  case atom | red => exact issue_keeps (atomicBody_keeps _ _ _ _ _ _ _ _ _) _ h
  case acas => exact issue_keeps (acasBody_keeps _ _ _ _ _ _ _ _ _ _) _ h
  case prefS | prefW => exact issue_keeps (prefBody_keeps _ _ _ _) _ h
  case cflushS | cflushW => exact issue_keeps (cflushBody_keeps _ _ _ _) _ h
  case fence => exact issue_keeps (fenceBody_keeps _ _) _ h
  case bar =>
    refine issue_keeps ?_ _ h
    split
    · exact barHoodBody_keeps
    · exact barBody_keeps _
  case bara => exact issue_keeps (baraBody_keeps _ _) _ h
  case barw => exact issue_keeps (barwBody_keeps _ _) _ h
  case subon => exact issue_keeps (subonBody_keeps _ _ _ _ _ _) _ h
  case suboff => exact issue_keeps (suboffBody_keeps _ _) _ h
  case subq => exact issue_keeps (subqBody_keeps _ _) _ h
  case subfl => exact issue_keeps subflBody_keeps _ h
  case rmac | rmag => exact issue_keeps (matrixBody_keeps _ _ _ _ _ _ _) _ h
  case acldS | acldW => exact issue_keeps (acldBody_keeps _ _ _ _) _ h
  case acstS | acstW => exact issue_keeps (acstBody_keeps _ _ _ _ _) _ h
  case cpi | cpo | cpl | cpr | cpf => exact issue_keeps (copyBody_keeps _ _ _ _ _ _) _ h
  case cpq => exact issue_keeps (copyQueryBody_keeps _ _ _) _ h
  case cpk => exact issue_keeps (copyStopBody_keeps _ _ _) _ h
  case tlwS | tlwW => exact issue_keeps (tlwBody_keeps _ _) _ h
  case tlwCtr => exact issue_keeps (counterBody_keeps _ _ _ _ _) _ h
  case tladv => exact issue_keeps (tladvBody_keeps _ _) _ h
  case hire => exact issue_keeps (hireBody_keeps _ _ _ _ _ _) _ h
  case hjoin => exact issue_keeps (hjoinBody_keeps _ _ _) _ h
  case hsync => exact issue_keeps hsyncBody_keeps _ h
  case hrd => exact issue_keeps (hrdBody_keeps _ _ _) _ h
  case hret | hrel => exact issue_keeps (endBody_keeps _ _) _ h
  case lnch => exact issue_keeps (lnchBody_keeps _ _ _) _ h
  case trap | bkpt => exact issue_keeps (fun _ _ _ _ => Lane.keeps_trap ..) _ h
  case tret => exact issue_keeps (tretBody_keeps _ _ _) _ h
  case tmfr => exact issue_keeps (tmfrBody_keeps _ _) _ h
  case sysr => exact issue_keeps (sysrBody_keeps _ _ _) _ h
  case sysw => exact issue_keeps (syswBody_keeps _ _ _) _ h
  case sysx => exact issue_keeps (sysxBody_keeps _ _ _) _ h
  case eret => exact issue_keeps (eretBody_keeps _) _ h
  case tinv => exact issue_keeps (tinvBody_keeps _ _ _ _) _ h
  case cinvr => exact issue_keeps (cinvrBody_keeps _ _ _ _) _ h
  case waiti => exact issue_keeps (waitiBody_keeps _ _) _ h
  case powerOn | resetRequest | powerLoss => change NextKeeps (.next _); simp [wf_zero]
  case helperIssueLimit | thermalTrip => change NextKeeps (.next _); rw [nextKeeps_next]; split <;> simp [h, wf_zero]
  case hamperAged | hamperDraw | waveExchange | napExpire | userTrapEntry | supervisorTrapEntry | homeSliceRequest |
    memoryResponse | domainRequest | domainRefused | subonRequest | subonReply | primingRead | basketFlushTimer |
    basketApply | matrixPassComplete | copyUnit | copyComplete | serverReplenish | packetTake | hoodPlace |
    placementReserve | groupLeave | gangKill | watchdogExpire | drainComplete | drainLimitExpire | saveComplete |
    saveIncomplete | sliceExpire | remoteLaunchRequest | ethRxFrame | ethTxFrame | enable | teardown | signal | start |
    drain | save | restore | exportImage | importImage | rbind | rbindHopRequest | rbindHopTimeout | ttcommitShadowRequest |
    ttcommitTimeout | timetableTakeEffect | heatWrite | hostSelWrite | hostDataRead | hostDataWrite | hostExecWrite |
    refreshFrame | scrubReturn | scrubRepair | linkSlot | drawerCommandExecute | flitReceive | handBack |
    wavelengthTrained | wavelengthRejoin | wlthrWindowEnd | linkDown | linkDownTimeout | linkTrainDone | heatTakeEffect |
    rotateTakeEffect | settleEnd | monUpdate | wipeDone | pcieEnumeration | temperatureSample | functionLevelReset |
    getVersion | getCapabilities | negotiateAlgorithms | getDigests | getCertificate | challenge | getMeasurements |
    spdmUnsupportedRequest | ctxevtTime =>
    change NextKeeps (.next _); simp [h]
  case sgig | sgmx | sgcp => exact templateRow_keeps h ..
  case lsrv => exact execLsrv_keeps h ..
  case runbind => exact execRunbind_keeps h ..
  case ttcommit => exact execTtcommit_keeps h ..
  case rotate => exact execRotate_keeps h ..
  case rmsync | trreplay | retire | lcadv | rbadv => exact answer_keeps h (by simp [h])
  case errinj | ringstep | mrext | tbset => exact answer_keeps h (by split <;> simp [h])
  case frzero => exact answer_keeps h (by simpa [Function.comp_def] using frzero_keeps h _ _ _)
  case fqcfgWrite | fqheadWrite | lqcfgWrite | erptrTailWrite | registerWrite => exact outsideWrite_keeps h ..
  case queueTailWrite => exact execQueueTailWrite_keeps h ..

theorem cleanStep_keeps (h : Memory.wf s.drawer) : NextKeeps (cleanStep s) := by
  have hf := fetchIssue_keeps h
  have hi (l : List Instr) : Memory.wf { s with inbox := l }.drawer := h
  unfold cleanStep
  split
  · split
    · split <;> rename_i e <;> rw [e] at hf
      · exact exec_keeps hf _
      · exact hf
    split
    · exact exec_keeps (hi _) _
    · exact goOn_keeps h
  · split
    · split
      · exact exec_keeps (hi _) _
      · exact h
    · trivial

theorem struckBy_keeps {o : Host.Outcome State Fault Refusal} (h : NextKeeps o) : NextKeeps (struckBy s o) := by
  cases o with
  | next t => exact strike_keeps h ..
  | _ => trivial

theorem step_keeps (h : Memory.wf s.drawer) : NextKeeps (step s) := struckBy_keeps (cleanStep_keeps h)

end State

/-- Settles O52: the outcome of a step keeps the form (`step_keeps`), whatever the step was. -/
theorem drawerOkStays : Obligations.DrawerOkStays := by
  intro s t h e
  have hs := State.step_keeps h
  rw [e] at hs
  exact hs

end Sys2Proof.Machine

/-!
Tables, registers and threads behind updates: what the lemmas of Laws/Cells.lean and Laws/State.lean leave to say.
-/
namespace Sys2Proof.Machine
open Sys2Proof.Safety Sys2Proof.Terms

/-! ### Tables behind filters and folds -/

/-- A key whose every entry a test drops is not there. -/
theorem lookup_keep_none {α : Type} {f : Nat → α → Bool} {k : Nat} (h : ∀ x, f k x = false) (c : Cells α) :
    lookup (keep f c) k = none := by
  induction c with
  | nil => rfl
  | cons e l ih =>
    obtain ⟨j, x⟩ := e
    by_cases hj : j = k
    · subst hj; simpa [keep, h] using ih
    · by_cases hf : f j x = true
      · simpa [keep, hf, lookup, hj] using ih
      · simpa [keep, hf] using ih

/-- Changing some threads one after another, by a change that done twice is as done once. -/
theorem lookup_foldl_modThread {α : Type} {f : Thread → Thread} (hf : ∀ th, f (f th) = f th) (key : α → Nat) (l : List α)
    (s : State) (j : Nat) : lookup (l.foldl (fun t x => t.modThread (key x) f) s).threads j =
      if j ∈ l.map key then (lookup s.threads j).map f else lookup s.threads j := by
  induction l generalizing s with
  | nil => simp
  | cons x l ih =>
    rw [List.foldl_cons, ih, State.lookup_modThread, List.map_cons]
    by_cases hj : j = key x <;> by_cases hl : j ∈ l.map key
    · rw [if_pos hl, if_pos hj, if_pos (List.mem_cons.2 (.inl hj)), Option.map_map]
      exact congrArg (Option.map · _) (funext hf)
    · rw [if_neg hl, if_pos hj, if_pos (List.mem_cons.2 (.inl hj))]
    · rw [if_pos hl, if_neg hj, if_pos (List.mem_cons_of_mem _ hl)]
    · rw [if_neg hl, if_neg hj, if_neg (List.mem_cons.not.2 (not_or.2 ⟨hj, hl⟩))]

/-! ### Registers behind updates (R279) -/

@[simp] theorem reg_setReg_same (s : State) (idx inst : Nat) (v : DWord) : (s.setReg idx inst v).reg idx inst = v := by
  simp [State.reg, State.setReg, lookupD_putD]
@[simp] theorem reg_setFld_same (s : State) (idx inst hi lo v : Nat) :
    (s.setFld idx inst hi lo v).reg idx inst = setBits (s.reg idx inst) hi lo v := reg_setReg_same ..

/-- Setting a field of one register leaves every register of another index. -/
theorem reg_setFld_other (s : State) {idx inst i j : Nat} (hi lo v : Nat) (h : i ≠ idx) (hj : j < 4294967296)
    (hn : inst < 4294967296) : (s.setFld idx inst hi lo v).reg i j = s.reg i j := by
  rw [State.setFld, State.reg_setReg _ _ _ _ _ _ (State.sysKey_inj hj hn), if_neg fun e => h e.1]

end Sys2Proof.Machine

/-!
The issue of an encoded instruction and the taking of a trap in one thread (R33, R135, R139, R257, R287): what the shared
operations of Ops.lean leave.
-/
namespace Sys2Proof.Machine
open Sys2Proof.Safety Sys2Proof.Terms

/-! ### Every encoded instruction issues a body -/

/-- An instruction that has words is issued, by a body that its operands name. -/
theorem exec_eq_issue (i : Instr) (h : i.raw.len ≠ 3) : ∃ body, ∀ s, exec i s = issue i body s := by
  cases i
  case hamperAged | hamperDraw | waveExchange | napExpire | userTrapEntry | supervisorTrapEntry | helperIssueLimit |
    homeSliceRequest | memoryResponse | domainRequest | domainRefused | subonRequest | subonReply | primingRead |
    basketFlushTimer | basketApply | matrixPassComplete | copyUnit | copyComplete | serverReplenish | packetTake | hoodPlace |
    placementReserve | groupLeave | gangKill | watchdogExpire | drainComplete | drainLimitExpire | saveComplete |
    saveIncomplete | sliceExpire | remoteLaunchRequest | ethRxFrame | ethTxFrame | enable | teardown | signal | start |
    drain | save | restore | exportImage | importImage | sgig | sgmx | sgcp | lsrv | rbind | rbindHopRequest |
    rbindHopTimeout | runbind | rmsync | trreplay | frzero | retire | errinj | ttcommit | ttcommitShadowRequest |
    ttcommitTimeout | timetableTakeEffect | ringstep | rotate | lcadv | rbadv | mrext | tbset | fqcfgWrite | fqheadWrite |
    lqcfgWrite | queueTailWrite | erptrTailWrite | heatWrite | registerWrite | hostSelWrite | hostDataRead | hostDataWrite |
    hostExecWrite | refreshFrame | scrubReturn | scrubRepair | linkSlot | drawerCommandExecute | flitReceive | handBack |
    wavelengthTrained | wavelengthRejoin | wlthrWindowEnd | linkDown | linkDownTimeout | linkTrainDone | heatTakeEffect |
    rotateTakeEffect | settleEnd | monUpdate | powerOn | wipeDone | pcieEnumeration | resetRequest | thermalTrip |
    temperatureSample | functionLevelReset | getVersion | getCapabilities | negotiateAlgorithms | getDigests |
    getCertificate | challenge | getMeasurements | spdmUnsupportedRequest | ctxevtTime | powerLoss =>
    exact absurd rfl h
  all_goals exact ⟨_, fun _ => rfl⟩

/-! ### A thread in its handler -/

/-- Two records of one thread that differ in what an issue that has not come about leaves: its place in the program, what it
waits for and what it counts. -/
def SameButRun (a b : Thread) : Prop :=
  b = { a with pc := b.pc, las := b.las, wait := b.wait, issued := b.issued, bad := b.bad, hire := b.hire, tag := b.tag }

theorem sameButRun_unadvance (i : Instr) (th : Thread) : SameButRun th (unadvance th (advance i th)) := rfl

/-- A thread that can take a trap can take it with such a record too. -/
theorem canTrap_congr {s s' : State} {a b : Thread} (hs : OnlyThreads s s') (h : SameButRun a b) :
    canTrap s' b ↔ canTrap s a := by
  rw [hs, h]; exact .rfl

/-- Entering the handler says the same of the records before the issue. -/
theorem enters_congr {s s' t : State} {k : Nat} {a b : Thread} {x : Trap} (hs : OnlyThreads s s') (ho : OthersKept s s' k)
    (h : SameButRun a b) (he : Enters s' t k b x) : Enters s t k a x := by
  obtain ⟨u, hu, ⟨hd, hy⟩, hk, hv, hp, ha, hf, hl, hw, h0, h1⟩ := he
  rw [h] at hv hp ha hf
  rw [hs] at hd hy
  refine ⟨u, hu, ⟨hd, hy⟩, fun j hj => (hk j hj).trans (ho j hj), hv, hp, ha, hf, hl, hw, ?_, ?_⟩
  · rw [hs, h] at h0; exact h0
  · rw [hs, h] at h1; exact h1

theorem onlyThreads_modThread (s : State) (k : Nat) (f : Thread → Thread) : OnlyThreads s (s.modThread k f) := rfl
theorem othersKept_modThread (s : State) (k : Nat) (f : Thread → Thread) : OthersKept s (s.modThread k f) k := fun j hj => by
  rw [State.lookup_modThread, if_neg hj]

/-- A user trap in a thread that can take it (R257). -/
theorem takeUserTrap_enters {s : State} {k : Nat} {th : Thread} (x : Trap) (hk : lookup s.threads k = some th)
    (hc : canTrap s th) (hu : s.priv th.ctx = 0) : Enters s (s.takeUserTrap k x) k th x := by
  obtain ⟨-, hc, -⟩ := hc
  obtain ⟨hh, hn⟩ := hc hu
  have ht : s.takeUserTrap k x = s.setThread k
      { th with trap := x, hand := true, pc := (s.pktOf th).handler, las := [], wait := .none } := by
    simp only [State.takeUserTrap, State.thread_of_lookup hk, hn, hh, decide_false, Bool.or_self, Bool.false_eq_true, if_false]
  rw [ht]
  refine ⟨_, (State.lookup_setThread ..).trans (if_pos rfl), ⟨rfl, rfl⟩, fun j hj => by rw [State.lookup_setThread, if_neg hj],
    rfl, rfl, rfl, rfl, rfl, rfl, fun _ => ⟨rfl, rfl, rfl, rfl⟩, fun hp => absurd hu hp⟩

/-- A supervisor trap in a thread that can take it (R287). -/
theorem takeSupervisorTrap_enters {s : State} {k : Nat} {th : Thread} (x : Trap) (hk : lookup s.threads k = some th)
    (hc : canTrap s th) (hu : s.priv th.ctx ≠ 0) : Enters s (s.takeSupervisorTrap k x) k th x := by
  obtain ⟨-, -, hc⟩ := hc
  obtain ⟨hv, hn⟩ := hc hu
  have ht : s.takeSupervisorTrap k x = s.setThread k
      { th with sup := { th.sup with trap := x, inTrap := true }, pc := s.reg 0x1002 th.ctx, las := [], wait := .none } := by
    simp only [State.takeSupervisorTrap, State.thread_of_lookup hk, hn, hv, decide_false, Bool.or_self, Bool.false_eq_true,
      if_false]
  rw [ht]
  refine ⟨_, (State.lookup_setThread ..).trans (if_pos rfl), ⟨rfl, rfl⟩, fun j hj => by rw [State.lookup_setThread, if_neg hj],
    rfl, rfl, rfl, rfl, rfl, rfl, fun hp => absurd hp hu, fun _ => ⟨rfl, rfl, rfl, rfl, rfl⟩⟩

/-- A trap taken by a thread that can take it (R257, R287). -/
theorem takeTrap_enters {s : State} {k : Nat} {th : Thread} (x : Trap) (hk : lookup s.threads k = some th)
    (hc : canTrap s th) : Enters s (s.takeTrap k x) k th x := by
  have main {s' : State} {u : Thread} (hs : OnlyThreads s s') (ho : OthersKept s s' k) (hu : SameButRun th u)
      (hl : lookup s'.threads k = some u) :
      Enters s (if u.hidx ≠ 0 then s'.takeHelperTrap k x
        else if s'.priv u.ctx = 0 then s'.takeUserTrap k x else s'.takeSupervisorTrap k x) k th x := by
    have hc' := (canTrap_congr hs hu).2 hc
    refine enters_congr hs ho hu ?_
    rw [if_neg (not_not.2 hc'.1)]
    split
    · exact takeUserTrap_enters x hl hc' ‹_›
    · exact takeSupervisorTrap_enters x hl hc' ‹_›
  unfold State.takeTrap
  by_cases hf : x.cause = causeHelperF
  · have hl : lookup (s.modThread k fun th => { th with hire := none }).threads k = some { th with hire := none } := by
      rw [State.lookup_modThread, if_pos rfl, hk]; rfl
    simp only [if_pos hf, hl]
    exact main (u := { th with hire := none }) (onlyThreads_modThread ..) (othersKept_modThread _ _ _) rfl hl
  · simp only [if_neg hf, hk]
    exact main rfl (fun _ _ => rfl) rfl hk

/-- The end of the issue changes the thread's tag alone. -/
theorem endIssue_enters {s s0 t : State} {k : Nat} {th : Thread} {x : Trap} (hcur : s0.cur = [k]) (h : Enters s t k th x)
    (size : Nat) (left trapped : List Nat) (ran : Bool) : Enters s (endIssue s0 t size left trapped ran) k th x := by
  obtain ⟨u, hu, ⟨hd, hy⟩, hk, hv, hp, ha, hf, hl, hw, h0, h1⟩ := h
  obtain ⟨e, -, eo, et⟩ := endIssue_spec s0 t size left trapped ran
  obtain ⟨tag, e1⟩ := et k u hu
  refine ⟨_, e1, ⟨by rw [e, ← hd], by rw [e, ← hy]⟩, fun j hj => (eo j (by simpa [hcur] using hj)).trans (hk j hj),
    hv, hp, ha, hf, hl, hw, h0, h1⟩

/-- An instruction after which a thread is in its handler traps in it. -/
theorem takesTrap_of_enters {i : Instr} {s t : State} {k : Nat} {th : Thread} {c : BitVec 8} {v : DWord} {x : Word}
    (h : exec i s = .next t) (he : Enters s t k th ⟨c, th.pc, v, x⟩) : TakesTrap i s k th c v x := by
  obtain ⟨u, hu⟩ := he
  exact ⟨t, u, h, hu⟩

/-! ### The issue of one thread that traps before the instruction, or passes it -/

/-- A trap found before the instruction executes: the thread takes it where it stands (R139, R142, R246). -/
theorem issue_preTrap {i : Instr} {s : State} {k : Nat} {th : Thread} {c : BitVec 8} {v : DWord} {x : Word} (body : Body)
    (hcur : s.cur = [k]) (hk : lookup s.threads k = some th) (ha : th.active i.head = true)
    (hp : preTrap s i k th = some (c, v, x)) :
    issue i body s = .next (endIssue s
      (((s.modThread k (advance i)).modThread k (unadvance th)).takeTrap k ⟨c, th.pc, v, x⟩) i.size [] [k] true) := by
  have ht := State.thread_of_lookup hk
  have hl : (lookup (s.modThread k (advance i)).threads k).isNone = false := by simp [State.lookup_modThread, hk]
  simp only [issue, hcur, List.filter_cons, List.filter_nil, ht, ha, hp, if_true, Option.isNone_some, Bool.false_eq_true,
    if_false, List.any_nil, Bool.and_false, badReader, List.find?_nil, List.foldl_cons, List.foldl_nil, runLane, hl, guarded]
  rfl

/-- The guard leaves the one thread out: it passes the instruction (R135). -/
theorem issue_passed {i : Instr} {s : State} {k : Nat} {th : Thread} (body : Body) (hcur : s.cur = [k])
    (hk : lookup s.threads k = some th) (ha : th.active i.head = false) :
    issue i body s = .next (endIssue s (s.modThread k (advance i)) i.size [] [] true) := by
  have ht := State.thread_of_lookup hk
  simp only [issue, hcur, List.filter_cons, List.filter_nil, ht, ha, Bool.false_eq_true,
    if_false, List.any_nil, Bool.and_false, badReader, List.find?_nil, List.foldl_cons, List.foldl_nil, List.isEmpty_nil,
    if_true]
  rfl

/-- A thread of the fragment at hand that has executed its instruction before is of the one tag. -/
theorem begunTag_single {s : State} {th : Thread} {k tag : Nat} (h : s.begunTag th [k] = some tag) :
    (s.thread k).tag = tag := by
  obtain ⟨e, he, rfl⟩ := Option.map_eq_some_iff.1 h
  have := List.find?_some he
  simp only [List.any_cons, List.any_nil, Bool.or_false, Bool.and_eq_true, beq_iff_eq] at this
  exact this.2

/-- The end of the issue of one thread that has passed the instruction: no fragment splits. -/
theorem endIssue_passed {s t : State} {k size : Nat} {th u : Thread} (hcur : s.cur = [k]) (hk : lookup s.threads k = some th)
    (hu : lookup t.threads k = some u) (hpc : u.pc = th.pc + BitVec.ofNat 64 size) (hw : u.wait = .none) (htag : u.tag = th.tag) :
    endIssue s t size [] [] true = settle s t true := by
  have ht := State.thread_of_lookup hk
  have hkey : splitKey (th.pc + BitVec.ofNat 64 size) [] [] k u = (th.pc + BitVec.ofNat 64 size, .none) := by
    simp [splitKey, hw, hpc]
  have hb : (s.begunTag th [k]).getD th.tag = th.tag := by
    cases h : s.begunTag th [k] with
    | none => rfl
    | some tag => rw [← ht]; exact (begunTag_single h).symm
  unfold endIssue
  simp only [hcur, List.headD_cons, ht, if_true, hb]
  congr 1
  simp only [retag, hu, ht, htag, ne_eq, not_true, if_false, hkey]
  cases h : s.begunTag th [k] with
  | none => simp [splitPart]
  | some tag =>
    have : tag = th.tag := by rw [h] at hb; exact hb
    simp [splitPart, this]

end Sys2Proof.Machine

/-!
Entry to the handlers, traps of helpers, and the checks before execution (O48; R33, R135, R139, R142, R246, R251, R257, R258, R287,
R288). The state in which helpers have stopped is described up to what HSYNC and HJOIN count (`Thread.unsynced`); the checks before
execution are one equation (`preTrap_eq`).
-/
namespace Sys2Proof.Machine
open Sys2Proof.Safety Sys2Proof.Terms

/-! ### Helpers that stop (R251) -/

/-- What a HIRE holds beside the count of HSYNC. -/
def HireState.unsynced (h : HireState) : HireState := { h with arrived := [], phase := 0 }
/-- A thread's record but for what HSYNC and HJOIN change as helpers end: its wait, and the count of its HIRE. -/
def Thread.unsynced (th : Thread) : Thread := { th with wait := .none, hire := th.hire.map HireState.unsynced }

theorem lookup_modThread_unsynced {s : State} {k : Nat} {f : Thread → Thread}
    (h : ∀ th, lookup s.threads k = some th → (f th).unsynced = th.unsynced) (j : Nat) :
    (lookup (s.modThread k f).threads j).map Thread.unsynced = (lookup s.threads j).map Thread.unsynced := by
  rw [State.lookup_modThread]
  split
  · next hj =>
    subst hj
    cases hl : lookup s.threads j with
    | none => rfl
    | some th => exact congrArg some (h th hl)
  · rfl

/-- HSYNC's release changes no more than waits and the count of the HIRE (R249). -/
theorem releaseHsync_unsynced (s : State) (rk j : Nat) :
    (lookup (s.releaseHsync rk).threads j).map Thread.unsynced = (lookup s.threads j).map Thread.unsynced := by
  unfold State.releaseHsync
  split
  · rfl
  · next h hh =>
    split
    · rw [lookup_foldl_modThread (f := fun th => { th with wait := .none }) (fun _ => rfl) (rk + ·)]
      have hm := lookup_modThread_unsynced (s := s) (k := rk)
        (f := fun th => { th with hire := some { h with arrived := [], phase := h.phase + 1 } })
        (fun th hl => by rw [State.thread_of_lookup hl] at hh; simp only [Thread.unsynced, hh]; rfl) j
      split
      · rw [Option.map_map, ← hm]; rfl
      · exact hm
    · rfl

/-- The outstanding accesses of a thread are read off its record but for waits and counts. -/
theorem pend_of_unsynced {s t : State} {j : Nat}
    (h : (lookup t.threads j).map Thread.unsynced = (lookup s.threads j).map Thread.unsynced) :
    (t.thread j).pend = (s.thread j).pend := by
  have e (u : State) : (u.thread j).pend = (((lookup u.threads j).map Thread.unsynced).getD Thread.zero).pend := by
    unfold State.thread lookupD
    cases lookup u.threads j <;> rfl
  rw [e t, e s, h]

/-- A HIRE without a helper. -/
def HireState.without (h : HireState) (i : Nat) : HireState := { h with live := h.live.filter (· != i) }

/-- A recruiter's record after the end of a helper: the HIRE lives without it (R248). -/
theorem endHelper_recruiter {s : State} {rk i : Nat} {r : Thread} {h : HireState} (hi : i ≠ 0)
    (hr : (lookup s.threads rk).map Thread.unsynced = some (Thread.unsynced { r with hire := some h })) :
    (lookup (s.endHelper rk i).threads rk).map Thread.unsynced =
      some (Thread.unsynced { r with hire := some (h.without i) }) := by
  obtain ⟨u, hu, hn⟩ := Option.map_eq_some_iff.1 hr
  obtain ⟨y, hy, hyn⟩ : ∃ y, u.hire = some y ∧ y.unsynced = h.unsynced :=
    Option.map_eq_some_iff.1 (congrArg Thread.hire hn)
  have hd : lookup (del s.threads (rk + i)) rk = some u := by rw [lookup_del_other _ (by omega), hu]
  unfold State.endHelper
  simp only [State.thread_of_lookup hu, hy]
  rw [releaseHsync_unsynced, State.lookup_modThread, if_pos rfl, hd]
  have hw : (y.without i).unsynced = (h.without i).unsynced := congrArg (HireState.without · i) hyn
  refine congrArg some (?_ : { u.unsynced with hire := some (y.without i).unsynced } = _)
  rw [hn, hw]
  rfl

/-- The end of a helper without accesses outstanding changes no thread's outstanding accesses. -/
theorem endHelper_pend {s : State} {rk i : Nat} (hp : (s.thread (rk + i)).pend = 0) (k : Nat) :
    ((s.endHelper rk i).thread k).pend = (s.thread k).pend := by
  have hd : (State.thread { s with threads := del s.threads (rk + i) } k).pend = (s.thread k).pend := by
    by_cases hk : k = rk + i
    · subst hk; rw [hp]; simp [State.thread, lookupD, Thread.zero]
    · simp [State.thread, lookupD, lookup_del_other _ hk]
  unfold State.endHelper
  split
  · exact hd
  · rw [pend_of_unsynced (releaseHsync_unsynced ..), ← hd]
    simp only [State.thread, lookupD, State.lookup_modThread]
    split
    · cases lookup (del s.threads (rk + i)) k <;> rfl
    · rfl

/-- A helper that is stopped: its recruiter's HIRE lives without it once no access of it is outstanding (R102, R251). -/
theorem stopHelper_recruiter {s : State} {rk i : Nat} {r : Thread} {h : HireState} (hi : i ≠ 0)
    (hr : (lookup s.threads rk).map Thread.unsynced = some (Thread.unsynced { r with hire := some h })) :
    (lookup (s.stopHelper rk i).threads rk).map Thread.unsynced =
      some (Thread.unsynced { r with hire := some (if (s.thread (rk + i)).pend = 0 then h.without i else h) }) := by
  unfold State.stopHelper
  split
  · exact endHelper_recruiter hi hr
  · rw [releaseHsync_unsynced, State.lookup_modThread, if_neg (by omega), hr]

theorem stopHelper_pend (s : State) (rk i k : Nat) : ((s.stopHelper rk i).thread k).pend = (s.thread k).pend := by
  unfold State.stopHelper
  split
  · exact endHelper_pend ‹_› k
  · rw [pend_of_unsynced (releaseHsync_unsynced ..)]
    simp only [State.thread, lookupD, State.lookup_modThread]
    split
    · cases lookup s.threads k <;> rfl
    · rfl

/-- Of some helpers that are stopped, those without accesses outstanding leave the HIRE (R102, R251). -/
theorem foldl_stopHelper_recruiter {rk : Nat} {r : Thread} (l : List Nat) (h0 : 0 ∉ l) {s : State} {h : HireState}
    (hr : (lookup s.threads rk).map Thread.unsynced = some (Thread.unsynced { r with hire := some h })) :
    (lookup (l.foldl (fun s i => s.stopHelper rk i) s).threads rk).map Thread.unsynced = some (Thread.unsynced { r with
      hire := some { h with live := h.live.filter fun j => !(l.contains j && decide ((s.thread (rk + j)).pend = 0)) } }) := by
  induction l generalizing s h with
  | nil => simpa using hr
  | cons i l ih =>
    rw [List.mem_cons, not_or] at h0
    have hs := ih h0.2 (stopHelper_recruiter (Ne.symm h0.1) hr)
    simp only [List.foldl_cons, hs, stopHelper_pend]
    congr 4
    split
    · next hp =>
      simp only [HireState.without, List.filter_filter]
      congr 1
      refine List.filter_congr fun j _ => ?_
      by_cases hj : j = i
      · subst hj; simp [hp]
      · simp [hj]
    · next hp =>
      congr 1
      refine List.filter_congr fun j _ => ?_
      by_cases hj : j = i
      · subst hj; simp [hp]
      · simp [hj]

/-- The first trap of a helper whose HIRE has had none: its recruiter's HJOIN will find it, the HIRE's contributions and flags are
gone, and of the helpers those with an access outstanding are left (R251). -/
theorem takeHelperTrap_recruiter {s : State} {k : Nat} {th r : Thread} {hs : HireState} (x : Trap)
    (hk : lookup s.threads k = some th) (hr : lookup s.threads (k - th.hidx) = some r) (hh : r.hire = some hs)
    (h0 : 0 ∉ hs.live) (ht : hs.trapped = none) :
    (lookup (s.takeHelperTrap k x).threads (k - th.hidx)).map Thread.unsynced = some (Thread.unsynced { r with
      hire := some { hs with
        trapped := some (th.hidx, x.cause), contrib := [], flags := 0
        live := hs.live.filter fun j => decide ((s.thread (k - th.hidx + j)).pend ≠ 0) } }) := by
  let y : HireState := { hs with trapped := some (th.hidx, x.cause), contrib := [], flags := 0 }
  obtain ⟨f, hfr, hfp, he⟩ : ∃ f : Thread → Thread, f r = { r with hire := some y } ∧ (∀ u, (f u).pend = u.pend) ∧
      s.takeHelperTrap k x = (s.modThread (k - th.hidx) f).stopHelpers (k - th.hidx) := by
    refine ⟨fun r => { r with hire := r.hire.map fun h =>
      { h with trapped := some (h.trapped.getD (th.hidx, x.cause)), contrib := [], flags := 0 } }, ?_, fun _ => rfl, ?_⟩
    · simp only [hh, Option.map_some, ht, Option.getD_none, y]
    · simp only [State.takeHelperTrap, State.thread_of_lookup hk]
  have hl : lookup (s.modThread (k - th.hidx) f).threads (k - th.hidx) = some { r with hire := some y } := by
    rw [State.lookup_modThread, if_pos rfl, hr, Option.map_some, hfr]
  have hp (j : Nat) : ((s.modThread (k - th.hidx) f).thread j).pend = (s.thread j).pend := by
    simp only [State.thread, lookupD, State.lookup_modThread]
    split
    · cases h : lookup s.threads j with
      | none => rfl
      | some u => exact hfp u
    · rfl
  rw [he]
  unfold State.stopHelpers
  simp only [State.thread_of_lookup hl]
  rw [foldl_stopHelper_recruiter hs.live h0 (congrArg (Option.map _) hl)]
  simp only [hp, y]
  congr 5
  exact List.filter_congr fun j hj => by simp [hj]

/-- The trap of a helper is kept in its recruiter's HIRE, whatever its cause (R251). -/
theorem takeTrap_of_helper {s : State} {k : Nat} {th r : Thread} {hs : HireState} (x : Trap) (hk : lookup s.threads k = some th)
    (hi : th.hidx ≠ 0) (hle : th.hidx ≤ k) (hr : lookup s.threads (k - th.hidx) = some r) (hh : r.hire = some hs)
    (h0 : 0 ∉ hs.live) (ht : hs.trapped = none) :
    ∃ u y, lookup (s.takeTrap k x).threads (k - th.hidx) = some u ∧ u.hire = some y ∧ y.trapped = some (th.hidx, x.cause) ∧
      y.live = hs.live.filter (fun j => (s.thread (k - th.hidx + j)).pend ≠ 0) ∧ y.contrib = [] ∧ y.flags = 0 ∧
      u.v = r.v ∧ u.p = r.p ∧ u.trap = r.trap := by
  obtain ⟨s', th', hk', hi', hr', hp, he⟩ : ∃ (s' : State) (th' : Thread), lookup s'.threads k = some th' ∧ th'.hidx = th.hidx ∧
      lookup s'.threads (k - th.hidx) = some r ∧ (∀ j, (s'.thread j).pend = (s.thread j).pend) ∧
      s.takeTrap k x = s'.takeHelperTrap k x := by
    by_cases hc : x.cause = causeHelperF
    · have hl : lookup (s.modThread k fun th => { th with hire := none }).threads k = some { th with hire := none } := by
        rw [State.lookup_modThread, if_pos rfl, hk]; rfl
      refine ⟨s.modThread k fun th => { th with hire := none }, _, hl, rfl, ?_, fun j => ?_, ?_⟩
      · rw [State.lookup_modThread, if_neg (by omega), hr]
      · simp only [State.thread, lookupD, State.lookup_modThread]
        split
        · cases lookup s.threads j <;> rfl
        · rfl
      · simp only [State.takeTrap, if_pos hc, hl, ne_eq, hi, not_false_eq_true, if_true]
    · exact ⟨s, th, hk, rfl, hr, fun _ => rfl, by simp only [State.takeTrap, if_neg hc, hk, ne_eq, hi, not_false_eq_true, if_true]⟩
  have hm := takeHelperTrap_recruiter x hk' (hi' ▸ hr') hh h0 ht
  rw [hi', ← he] at hm
  obtain ⟨u, hu, hn⟩ := Option.map_eq_some_iff.1 hm
  obtain ⟨y, hy, hyn⟩ := Option.map_eq_some_iff.1 (congrArg Thread.hire hn)
  refine ⟨u, y, hu, hy, congrArg HireState.trapped hyn, (congrArg HireState.live hyn).trans ?_, congrArg HireState.contrib hyn,
    congrArg HireState.flags hyn, ?_, ?_, ?_⟩
  · simp only [hp]
    rfl
  · exact (congrArg Thread.v hn :)
  · exact (congrArg Thread.p hn :)
  · exact (congrArg Thread.trap hn :)

/-! ### The context fault (R291) -/

/-- STATE of a register word is what it was set to, and the other fields' setting leaves it (R290). -/
theorem bits_state (x : DWord) (v n : Nat) : bits (setBits (setBits x 63 61 v) 55 48 n) 63 61 = v % 8 := by
  have := x.isLt
  simp only [bits, setBits, BitVec.toNat_ofNat, Nat.reducePow, Nat.reduceAdd, Nat.reduceSub] at *
  omega

/-- FCLASS of a register word is what it was set to (R290). -/
theorem part_fclass (x : DWord) (n : Nat) : (setBits x 55 48 n).toNat / 2 ^ 48 % 256 = n % 256 := by
  have := x.isLt
  simp only [setBits, BitVec.toNat_ofNat, Nat.reducePow, Nat.reduceAdd, Nat.reduceSub] at *
  omega


/-- An event raised in the overseers of a context leaves all registers but CTXEV, and every thread (R290). -/
theorem raiseEvent_frame (s : State) (ctx bit : Nat) : (s.raiseEvent ctx bit).threads = s.threads ∧
    ∀ i j, i ≠ 0x1005 → j < 4294967296 → (s.raiseEvent ctx bit).reg i j = s.reg i j := by
  have hb : ∀ c ∈ s.overseers ctx, c < 4294967296 := by
    intro c hc
    obtain ⟨e, -, rfl⟩ := List.mem_map.1 hc
    exact Nat.mod_lt _ (by decide)
  unfold State.raiseEvent
  generalize s.overseers ctx = l at hb
  induction l generalizing s with
  | nil => exact ⟨rfl, fun _ _ _ _ => rfl⟩
  | cons c l ih =>
    obtain ⟨h1, h2⟩ := ih (s.setFld 0x1005 c bit bit 1) fun c hc => hb c (List.mem_cons_of_mem _ hc)
    refine ⟨by rw [List.foldl_cons, h1, State.setFld_threads], fun i j hi hj => ?_⟩
    rw [List.foldl_cons, h2 i j hi hj, reg_setFld_other _ _ _ _ hi hj (hb c (List.mem_cons_self ..))]

/-- The wipe of a context takes the threads of its groups, and no register (R8, R291). -/
theorem wipeContext_frame (s : State) (ctx : Nat) (window : Bool) :
    (s.wipeContext ctx window).threads = keep (fun k _ => !((s.group (k / 32768)).ctx == ctx && (lookup s.groups (k / 32768)).isSome)) s.threads ∧
    (s.wipeContext ctx window).sys = s.sys := by
  have zero (t : State) (sg : Nat) : (t.zeroWindow sg).threads = t.threads ∧ (t.zeroWindow sg).sys = t.sys := by
    unfold State.zeroWindow
    generalize (List.range (t.fld 0x4001 sg 41 32)).map (t.fld 0x4001 sg 9 0 + ·) = l
    refine List.foldlRecOn l _ (motive := fun u : State => u.threads = t.threads ∧ u.sys = t.sys) ⟨rfl, rfl⟩ fun u hu x _ => ?_
    split <;> exact hu
  unfold State.wipeContext
  split
  · exact ⟨rfl, rfl⟩
  · exact zero _ _

/-- A context fault leaves the context FAULTED with its class, and none of its threads (R290, R291). -/
theorem contextFault_effect {s : State} {c n : Nat} (hc : c < 65536) (hn : n < 256) (h0 : s.ctxState c ≠ 0)
    (h6 : s.ctxState c ≠ 6) : (s.contextFault c n).ctxState c = 6 ∧ ((s.contextFault c n).reg 0x1003 c).toNat / 2 ^ 48 % 256 = n ∧
      ∀ k g, lookup s.groups (k / 32768) = some g → g.ctx = c → lookup (s.contextFault c n).threads k = none := by
  obtain ⟨wt, -⟩ := wipeContext_frame s c true
  have he : s.contextFault c n = (((s.wipeContext c true).setCtxState c 6).setFld 0x1003 c 55 48 n).raiseEvent c 3 := by
    simp only [State.contextFault, h0, h6, decide_false, Bool.or_self, Bool.false_eq_true, if_false, State.raiseCstate]
  obtain ⟨rt, rr⟩ := raiseEvent_frame (((s.wipeContext c true).setCtxState c 6).setFld 0x1003 c 55 48 n) c 3
  have hr : (s.contextFault c n).reg 0x1003 c = setBits (setBits ((s.wipeContext c true).reg 0x1003 c) 63 61 6) 55 48 n := by
    rw [he, rr 0x1003 c (by decide) (by omega), reg_setFld_same, State.setCtxState, reg_setFld_same]
  refine ⟨?_, ?_, fun k g hg hgc => ?_⟩
  · rw [State.ctxState, State.fld, hr, bits_state]
  · rw [hr, part_fclass, Nat.mod_eq_of_lt hn]
  · rw [he, rt, State.setFld_threads, State.setCtxState, State.setFld_threads, wt]
    exact lookup_keep_none (fun _ => by simp [State.group, lookupD, hg, hgc]) _

/-! ### Checks before an instruction executes (R139, R142, R246) -/

/-- The opcodes of the list of R169 are those the model forbids to helpers. -/
theorem helperBad_iff (op : BitVec 8) : helperBad op = true ↔ notForHelpers op.toNat := by
  unfold notForHelpers; revert op; decide

/-- The opcodes of the list of R143, and FSTAT, raise no LA_VIOL in the model. -/
theorem laExempt_iff (i : Instr) : laExempt i = true ↔ noLaViol i.raw.op.toNat := by
  have h : ∀ op : BitVec 8, (endsLa op || op == 0x73) = true ↔ noLaViol op.toNat := by unfold noLaViol; decide
  exact h _

/-- An operand is in range in a thread unless it is one that no instruction may name. -/
theorem operand_ok_iff (s : State) (th : Thread) (o : Operand) :
    (o.static && o.inRange (s.nRegs th) (s.nAcc th)) = true ↔ ¬BadOperand s th o := by
  cases o <;> simp [Operand.static, Operand.inRange, BadOperand, or_iff_not_imp_left]

/-- What preTrap answers behind the checks of helpers, level and operands, by the clash it finds: LA_VIOL before SNAP_WR. -/
def clashTrap (i : Instr) (th : Thread) : Option (DWord × RegRef) → Option (BitVec 8 × DWord × Word)
  | some (pc, r) => some (causeLaViol, pc, refCode r)
  | none => (snapWrite i th).map fun n => (causeSnapWr, BitVec.ofNat 64 n, 0)

theorem clashTrap_some (i : Instr) (th : Thread) (pc : DWord) (r : RegRef) :
    clashTrap i th (some (pc, r)) = some (causeLaViol, pc, refCode r) := rfl
theorem clashTrap_none (i : Instr) (th : Thread) : clashTrap i th none =
    (snapWrite i th).map fun n => (causeSnapWr, BitVec.ofNat 64 n, 0) := rfl

/-- The clash of R142, but for the instructions that raise no LA_VIOL. -/
def clashOf (i : Instr) (th : Thread) : Option (DWord × RegRef) := if laExempt i then none else laClash i th

/-- The operands of an instruction are in range in a thread, and so is its window (R37, R241). -/
def namesOk (s : State) (i : Instr) (k : Nat) (th : Thread) : Bool :=
  ((i.reads ++ i.writes ++ i.names).all fun o => o.static && o.inRange (s.nRegs th) (s.nAcc th)) &&
    windowRange i (s.nRegs th) (openWin s k th)

theorem preTrap_eq (s : State) (i : Instr) (k : Nat) (th : Thread) : preTrap s i k th =
    if th.hidx ≠ 0 && helperBad i.raw.op then some (causeIllegal, Instr.tval i, 9)
    else if 0xF0 ≤ i.raw.op && decide (s.priv th.ctx = 0) then some (causePriv, Instr.tval i, 0)
    else if !namesOk s i k th then some (causeIllegal, Instr.tval i, 8)
    else clashTrap i th (clashOf i th) := by
  unfold preTrap namesOk
  rw [Bool.not_and]
  rfl

/-- PRIV at user level, in a thread that is no helper (R139). -/
theorem preTrap_priv {s : State} {i : Instr} {k : Nat} {th : Thread} (hop : 0xF0 ≤ i.raw.op) (hi : th.hidx = 0)
    (hp : s.priv th.ctx = 0) : preTrap s i k th = some (causePriv, Instr.tval i, 0) := by
  rw [preTrap_eq, decide_eq_true hop]
  simp [hi, hp]

/-- An opcode forbidden to helpers, in a helper (R169). -/
theorem preTrap_helper {s : State} {i : Instr} {k : Nat} {th : Thread} (hi : th.hidx ≠ 0) (hop : notForHelpers i.raw.op.toNat) :
    preTrap s i k th = some (causeIllegal, Instr.tval i, 9) := by
  rw [preTrap_eq]
  simp [hi, (helperBad_iff _).2 hop]

/-- An operand out of range, where no check before it fails (R139). -/
theorem preTrap_badOperand {s : State} {i : Instr} {k : Nat} {th : Thread} {o : Operand}
    (hh : th.hidx ≠ 0 → ¬notForHelpers i.raw.op.toNat) (hp : 0xF0 ≤ i.raw.op → s.priv th.ctx ≠ 0)
    (ho : o ∈ i.reads ++ i.writes ++ i.names) (hb : BadOperand s th o) :
    preTrap s i k th = some (causeIllegal, Instr.tval i, 8) := by
  have h1 : (decide (th.hidx ≠ 0) && helperBad i.raw.op) = false := by
    rw [← Bool.not_eq_true, Bool.and_eq_true, decide_eq_true_iff, helperBad_iff]
    exact fun h => hh h.1 h.2
  have h2 : (decide (0xF0 ≤ i.raw.op) && decide (s.priv th.ctx = 0)) = false := by
    rw [← Bool.not_eq_true, Bool.and_eq_true, decide_eq_true_iff, decide_eq_true_iff]
    exact fun h => hp h.1 h.2
  have h3 : namesOk s i k th = false := by
    unfold namesOk
    rw [Bool.and_eq_false_iff, List.all_eq_false]
    exact .inl ⟨o, ho, fun h => (operand_ok_iff s th o).1 h hb⟩
  rw [preTrap_eq, h1, h2, h3]
  rfl

/-- Where the checks before LA_VIOL find nothing, LA_VIOL and SNAP_WR decide; those checks look at neither windows nor HIRE. -/
theorem preTrap_eq_clashTrap {s : State} {i : Instr} {k : Nat} {th : Thread}
    (h : preTrap s i k { th with las := [], hire := none } = none) : preTrap s i k th = clashTrap i th (clashOf i th) := by
  rw [preTrap_eq] at h ⊢
  have hn : namesOk s i k { th with las := [], hire := none } = namesOk s i k th := rfl
  rw [hn] at h
  split at h
  · cases h
  split at h
  · cases h
  split at h
  · cases h
  rw [if_neg ‹_›, if_neg ‹_›, if_neg ‹_›]

/-- A clash is through a register by which the instruction breaks the window. -/
theorem breaks_of_windowClash {i : Instr} {w : LaWin} {r : RegRef} (h : windowClash i w = some r) : breaks i w r := by
  unfold windowClash at h
  split at h
  · next e =>
    cases h
    exact .inl ⟨List.mem_of_find?_eq_some e, by simpa using List.find?_some e⟩
  · exact .inr ⟨List.mem_of_find?_eq_some h, by simpa using List.find?_some h⟩

/-- Without a clash the instruction breaks the window through no register. -/
theorem not_breaks_of_windowClash {i : Instr} {w : LaWin} (h : windowClash i w = none) (r : RegRef) : ¬breaks i w r := by
  unfold windowClash at h
  split at h
  · cases h
  · next e =>
    rintro (⟨hr, hd⟩ | ⟨hr, hd⟩)
    · exact List.find?_eq_none.1 e r hr (by simpa using hd)
    · exact List.find?_eq_none.1 h r hr (by simpa using hd)

/-- TAUX names a register as R142 has it. -/
theorem refCode_eq (r : RegRef) : refCode r = BitVec.ofNat 32 (auxOf r) := by
  obtain ⟨cls, n⟩ := r
  cases cls <;> rfl

/-- LA_VIOL through the one register by which the instruction breaks the one window (R142). -/
theorem clashTrap_breaks {i : Instr} {th : Thread} {w : LaWin} {r : RegRef} (hw : th.las = [w]) (hx : ¬noLaViol i.raw.op.toNat)
    (hb : breaks i w r) (hu : ∀ q, breaks i w q → q = r) : clashTrap i th (clashOf i th) = some (3, w.pc, BitVec.ofNat 32 (auxOf r)) := by
  have hc : windowClash i w = some r := by
    cases h : windowClash i w with
    | none => exact absurd hb (not_breaks_of_windowClash h r)
    | some q => rw [hu q (breaks_of_windowClash h)]
  have hx' : ¬laExempt i = true := by rw [laExempt_iff]; exact hx
  have hl : clashOf i th = some (w.pc, r) := by
    rw [clashOf, if_neg hx', laClash, hw, List.findSome?_cons, hc, Option.map_some]
  rw [hl, clashTrap_some, refCode_eq]
  rfl

/-- Without a HIRE no register is a snapshot (R246). -/
theorem snapWrite_closed {i : Instr} {th : Thread} (h : th.hire = none) : snapWrite i th = none := by
  unfold snapWrite
  split
  · rfl
  · next e => rw [h] at e; cases e

/-- No trap where the instruction breaks no window, or raises no LA_VIOL, and no HIRE is open (R142, R143, R182). -/
theorem clashTrap_unbroken {i : Instr} {th : Thread} {w : LaWin} (hw : th.las = [w]) (hh : th.hire = none)
    (hx : noLaViol i.raw.op.toNat ∨ ∀ q, ¬breaks i w q) : clashTrap i th (clashOf i th) = none := by
  have hl : clashOf i th = none := by
    rcases hx with hx | hx
    · rw [clashOf, if_pos ((laExempt_iff i).2 hx)]
    · have hc : windowClash i w = none := by
        cases h : windowClash i w with
        | none => rfl
        | some q => exact absurd (breaks_of_windowClash h) (hx q)
      simp [clashOf, laClash, hw, hc]
  rw [hl, clashTrap_none, snapWrite_closed hh]
  rfl

/-- SNAP_WR with the lowest snapshot register that the instruction writes (R246). -/
theorem clashTrap_snapWrite {i : Instr} {th : Thread} {hs : HireState} {n : Nat} (hw : th.las = []) (hh : th.hire = some hs)
    (hi : th.hidx = 0) (hop : i.raw.op ≠ 0xE1) (hn : n < hs.win) (hr : (⟨.vec, n⟩ : RegRef) ∈ Instr.writeRefs i)
    (hmin : ∀ m, (⟨.vec, m⟩ : RegRef) ∈ Instr.writeRefs i → n ≤ m) : clashTrap i th (clashOf i th) = some (6, BitVec.ofNat 64 n, 0) := by
  have hl : clashOf i th = none := by simp [clashOf, laClash, hw]
  have hs' : snapWrite i th = some n := by
    have hop' : (i.raw.op == 0xE1) = false := beq_eq_false_iff_ne.2 hop
    rw [snapWrite, hh]
    dsimp only
    rw [hop', decide_eq_false (not_not.2 hi), Bool.or_self, if_neg Bool.false_ne_true, List.min?_eq_some_iff]
    refine ⟨List.mem_map.2 ⟨⟨.vec, n⟩, List.mem_filter.2 ⟨hr, by simp [hn]⟩, rfl⟩, fun m hm => ?_⟩
    obtain ⟨⟨cls, m'⟩, hq, rfl⟩ := List.mem_map.1 hm
    obtain ⟨hq, hc⟩ := List.mem_filter.1 hq
    obtain rfl : cls = .vec := by simpa using (Bool.and_eq_true_iff.1 hc).1
    exact hmin m' hq
  rw [hl, clashTrap_none, hs']
  rfl

/-! ### Entry events (R33, R252, R257, R287) -/

/-- The entry of a helper, whatever the handler: the trap stops the helpers of its HIRE (R252). -/
theorem enterTrap_helper {s : State} {k : Nat} {th : Thread} (hk : lookup s.threads k = some th) (hi : th.hidx ≠ 0) (sup : Bool)
    (x : Trap) : s.enterTrap sup k x = s.takeHelperTrap k x := by
  simp only [State.enterTrap, hk, ne_eq, hi, not_false_eq_true, if_true]

/-- The entry of a thread with accesses outstanding waits for them (R257, R287). -/
theorem enterTrap_waits {s : State} {k : Nat} {th : Thread} (hk : lookup s.threads k = some th) (hi : th.hidx = 0)
    (hp : th.pend ≠ 0) (sup : Bool) (x : Trap) :
    s.enterTrap sup k x = s.setThread k { th with wait := .entry sup x } := by
  simp only [State.enterTrap, hk, ne_eq, hi, not_true, if_false, hp, not_false_eq_true, if_true]

/-- A thread as a fragment of its own (R33). -/
def apart (s : State) (k : Nat) (th : Thread) : State := (s.setThread k { th with tag := s.fresh }).bump

theorem enterTrap_now {s : State} {k : Nat} {th : Thread} (hk : lookup s.threads k = some th) (hi : th.hidx = 0)
    (hp : th.pend = 0) (sup : Bool) (x : Trap) : s.enterTrap sup k x =
      if sup then (apart s k th).takeSupervisorTrap k x else (apart s k th).takeUserTrap k x := by
  simp only [State.enterTrap, apart, hk, ne_eq, hi, not_true, if_false, hp]

theorem lookup_apart (s : State) (k : Nat) (th : Thread) : lookup (apart s k th).threads k = some { th with tag := s.fresh } :=
  (State.lookup_setThread ..).trans (if_pos rfl)
theorem othersKept_apart (s : State) (k : Nat) (th : Thread) : OthersKept s (apart s k th) k := fun _ hj =>
  (State.lookup_setThread ..).trans (if_neg hj)

/-- The entry of a thread that can take the trap puts it into its handler (R257, R287). -/
theorem enterTrap_enters {s : State} {k : Nat} {th : Thread} (hk : lookup s.threads k = some th) (hc : canTrap s th)
    (hp : th.pend = 0) {sup : Bool} (hs : sup = true ↔ s.priv th.ctx ≠ 0) (x : Trap) : Enters s (s.enterTrap sup k x) k th x := by
  have ha : OnlyThreads s (apart s k th) := rfl
  have hc' := (canTrap_congr ha (b := { th with tag := s.fresh }) rfl).2 hc
  rw [enterTrap_now hk hc.1 hp]
  refine enters_congr ha (othersKept_apart s k th) (b := { th with tag := s.fresh }) rfl ?_
  split
  · exact takeSupervisorTrap_enters x (lookup_apart s k th) hc' (hs.1 ‹_›)
  · exact takeUserTrap_enters x (lookup_apart s k th) hc' (not_not.1 fun h => ‹¬_› (hs.2 h))

/-- Without a handler, or in it already, a user's entry is a context fault (R257, R258). -/
theorem enterTrap_user_fault {s : State} {k : Nat} {th : Thread} (hk : lookup s.threads k = some th) (hi : th.hidx = 0)
    (hp : th.pend = 0) (hf : (s.pktOf th).handler = 0 ∨ th.hand = true) (x : Trap) :
    s.enterTrap false k x = (apart s k th).contextFault th.ctx 1 := by
  have hh : ((apart s k th).pktOf { th with tag := s.fresh }).handler = (s.pktOf th).handler := rfl
  rw [enterTrap_now hk hi hp]
  simp only [Bool.false_eq_true, if_false, State.takeUserTrap, State.thread_of_lookup (lookup_apart s k th), hh]
  rw [if_pos (by simpa using hf)]

/-- Without CTXVEC, or in trap state already, a supervisor's entry is a context fault (R287, R288). -/
theorem enterTrap_supervisor_fault {s : State} {k : Nat} {th : Thread} (hk : lookup s.threads k = some th) (hi : th.hidx = 0)
    (hp : th.pend = 0) (hf : s.reg 0x1002 th.ctx = 0 ∨ th.sup.inTrap = true) (x : Trap) :
    s.enterTrap true k x = (apart s k th).contextFault th.ctx 1 := by
  have hh : (apart s k th).reg 0x1002 th.ctx = s.reg 0x1002 th.ctx := rfl
  rw [enterTrap_now hk hi hp]
  simp only [if_true, State.takeSupervisorTrap, State.thread_of_lookup (lookup_apart s k th), hh]
  rw [if_pos (by simpa using hf)]

/-- A thread that the guard leaves out passes an instruction (R135). -/
theorem exec_passed {i : Instr} {s : State} {k : Nat} {th : Thread} (hw : i.raw.len ≠ 3) (hc : s.cur = [k])
    (hk : lookup s.threads k = some th) (ha : th.active i.head = false) :
    ∃ t, exec i s = .next t ∧ OnlyThreads s t ∧ OthersKept s t k ∧ lookup t.threads k = some (advance i th) := by
  obtain ⟨body, hb⟩ := exec_eq_issue i hw
  have hl : lookup (s.modThread k (advance i)).threads k = some (advance i th) := by
    rw [State.lookup_modThread, if_pos rfl, hk]; rfl
  obtain ⟨ho, -, hother, -⟩ := endIssue_spec s (s.modThread k (advance i)) i.size [] [] true
  refine ⟨_, (hb s).trans (issue_passed body hc hk ha), ho, fun j hj => ?_, ?_⟩
  · rw [hother j (by simpa [hc] using hj), othersKept_modThread s k _ j hj]
  · rw [endIssue_passed hc hk hl rfl rfl rfl, settle_threads, hl]

/-- A trap found before an instruction executes in the one thread at hand is taken (R139). -/
theorem exec_preTrap {i : Instr} {s : State} {k : Nat} {th : Thread} {c : BitVec 8} {v : DWord} {x : Word} (hw : i.raw.len ≠ 3)
    (hc : s.cur = [k]) (hk : lookup s.threads k = some th) (ha : th.active i.head = true) (ht : canTrap s th)
    (hp : preTrap s i k th = some (c, v, x)) : TakesTrap i s k th c v x := by
  obtain ⟨body, hb⟩ := exec_eq_issue i hw
  refine takesTrap_of_enters ((hb s).trans (issue_preTrap body hc hk ha hp)) (endIssue_enters hc ?_ ..)
  have hs : OnlyThreads s ((s.modThread k (advance i)).modThread k (unadvance th)) := rfl
  have hl : lookup ((s.modThread k (advance i)).modThread k (unadvance th)).threads k = some (unadvance th (advance i th)) := by
    rw [State.lookup_modThread, if_pos rfl, State.lookup_modThread, if_pos rfl, hk]; rfl
  refine enters_congr hs (fun j hj => ?_) (sameButRun_unadvance i th)
    (takeTrap_enters _ hl ((canTrap_congr hs (sameButRun_unadvance i th)).2 ht))
  rw [othersKept_modThread _ k _ j hj, othersKept_modThread s k _ j hj]

/-- Settles O48: the entry events by `enterTrap_enters` and its faults, the helper's trap by `takeTrap_of_helper`, the checks before
an instruction by `preTrap_eq` and its cases, and their traps by `exec_preTrap`. -/
theorem trapEntry : Obligations.TrapEntry := by
  have user (k : Nat) (x : Trap) (s : State) : exec (.userTrapEntry k x) s = .next (s.enterTrap false k x) := rfl
  have supervisor (k : Nat) (x : Trap) (s : State) : exec (.supervisorTrapEntry k x) s = .next (s.enterTrap true k x) := rfl
  refine ⟨fun s k th x hk => ⟨fun hi => ?_, fun hi hp => ?_⟩, fun s k th x hk hi hp => ?_, ?_, ?_, ?_, ?_, ?_, ?_⟩
  · rw [user, supervisor, enterTrap_helper hk hi, enterTrap_helper hk hi]
    exact ⟨rfl, rfl⟩
  · rw [user, supervisor, enterTrap_waits hk hi hp, enterTrap_waits hk hi hp]
    exact ⟨rfl, rfl⟩
  · refine ⟨fun h0 => ⟨fun hh hn => ⟨_, user .., ?_⟩, fun hf => ?_⟩, fun h1 => ⟨fun hv hn => ⟨_, supervisor .., ?_⟩, fun hf => ?_⟩⟩
    · exact enterTrap_enters hk ⟨hi, fun _ => ⟨hh, hn⟩, fun h => absurd h0 h⟩ hp (by simp [h0]) x
    · rw [user, enterTrap_user_fault hk hi hp hf]; rfl
    · exact enterTrap_enters hk ⟨hi, fun h => absurd h h1, fun _ => ⟨hv, hn⟩⟩ hp (by simp [h1]) x
    · rw [supervisor, enterTrap_supervisor_fault hk hi hp hf]; rfl
  · exact fun s c n hc _ hn h0 h6 => contextFault_effect hc hn h0 h6
  · exact fun s k th r x hs hk hi hle hr hh h0 ht => takeTrap_of_helper x hk hi hle hr hh h0 ht
  · exact fun i s k th c v x hw hc hk ha ht hp => exec_preTrap hw hc hk ha ht hp
  · exact fun i s k th _ hop hi hp => preTrap_priv hop hi hp
  · refine fun i s k th _ => ⟨preTrap_helper, fun hh hp ⟨o, ho, hb⟩ => preTrap_badOperand hh hp ho hb, fun hn => ?_⟩
    rw [preTrap_eq_clashTrap hn]
    exact ⟨fun w r => clashTrap_breaks, fun w => clashTrap_unbroken,
      fun hs n hl hh hi hop hw hr hm => clashTrap_snapWrite hl hh hi hop hw hr hm⟩
  · exact fun i s k th hw hc hk ha => exec_passed hw hc hk ha

end Sys2Proof.Machine

/-!
A step is exec of what the block at the fragment's pc decodes to, or its trap (O49; R31, R129 to R131, R139, R140): fetchIssue's checks
in their order (`fetchIssue_block`), and the trap of each in a fragment of one thread.
-/
namespace Sys2Proof.Machine
open Sys2Proof.Safety Sys2Proof.Terms

/-! ### Steps: fetch, decode and the traps before an instruction -/

/-- Where nothing is armed, nothing strikes (R369). -/
theorem struckBy_nothing_armed {s : State} (h : s.inject = []) (o : Host.Outcome State Fault Refusal) : struckBy s o = o := by
  cases o with
  | next t => simp [struckBy, State.strike, h]
  | _ => rfl

/-- The step of a package with power whose fragment at hand issues nothing. -/
theorem step_stay {s t : State} (hp : s.power.on = true) (hi : s.inject = []) (hc : s.cur ≠ []) (h : s.fetchIssue = .stay t) :
    step s = .next t := by
  obtain ⟨k, ks, hc⟩ := List.exists_cons_of_ne_nil hc
  simp only [step, cleanStep, hp, if_true, hc, h, struckBy_nothing_armed hi]

/-- The checks of fetchIssue behind a fetched block (R129, R139, R140), on the fields at the fragment's pc. -/
theorem fetchIssue_block {s s1 : State} {k : Nat} {ks : List Nat} {th : Thread} {b : Bytes} (hc : s.cur = k :: ks)
    (hk : lookup s.threads k = some th) (ha : th.pc.toNat % 4 = 0) (hg : th.pc.toNat < 2 ^ 57)
    (hb : s.fetchBlock th th.pc = .ok s1 b) :
    let x := fieldsAt b th.pc
    let v : DWord := BitVec.ofNat 64 (leNat ((b.drop (th.pc.toNat % 32)).take 8))
    s.fetchIssue =
      if x.len = 3 then .stay (s1.trapAll causeIllegal v 1)
      else if 32 < th.pc.toNat % 32 + (8 + 4 * x.len.toNat) then .stay (s1.trapAll causeFetchXb th.pc 0)
      else if !x.head.gOk then .stay (s1.trapAll causeIllegal v 2)
      else match x.decode with
        | .ok i => .run s1 i
        | .error code => .stay (s1.rejectAll x code v) := by
  have hg' : ¬2 ^ 57 ≤ th.pc.toNat := Nat.not_le.2 hg
  simp only [State.fetchIssue, hc, State.thread_of_lookup hk, ha, ne_eq, not_true, if_false, hg', hb]
  rfl

/-- A guard field is one of 0 to 95 or 127 (R135, R139). -/
theorem gOk_iff (x : Raw) : x.head.gOk = true ↔ x.g.toNat < 96 ∨ x.g = 127 := by
  rw [Head.gOk, Bool.or_eq_true, decide_eq_true_iff, beq_iff_eq]; rfl

/-- A trap that every thread of the fragment takes, in a fragment of one (R139). -/
theorem trapAll_enters {s : State} {k : Nat} {th : Thread} (hc : s.cur = [k]) (hk : lookup s.threads k = some th)
    (ht : canTrap s th) (c : BitVec 8) (v : DWord) (x : Word) : Enters s (s.trapAll c v x) k th ⟨c, th.pc, v, x⟩ := by
  have he : s.trapAll c v x = endIssue s (s.takeTrap k ⟨c, th.pc, v, x⟩) 0 [] [k] true := by
    simp only [State.trapAll, hc, List.map_cons, List.map_nil, State.thread_of_lookup hk]
    rfl
  rw [he]
  exact endIssue_enters hc (takeTrap_enters _ hk ht) ..

/-- The instruction that does not decode traps in the one thread, if the guard makes it active (R139, R140). -/
theorem rejectAll_enters {s : State} {k n : Nat} {th : Thread} {x : Raw} (hc : s.cur = [k]) (hk : lookup s.threads k = some th)
    (ht : canTrap s th) (ha : th.active x.head = true) (hp : n = 3 ∨ n = 4 ∨ x.op.toNat < 0xF0 ∨ s.priv th.ctx ≠ 0) (v : DWord) :
    Enters s (s.rejectAll x n v) k th ⟨causeIllegal, th.pc, v, BitVec.ofNat 32 n⟩ := by
  have hr : s.rejectTrap x n v th = (causeIllegal, v, BitVec.ofNat 32 n) := by
    unfold State.rejectTrap
    split
    · rfl
    · next h34 =>
      have hop : (0xF0 ≤ x.op && decide (s.priv th.ctx = 0)) = false := by
        simp only [Bool.or_eq_true, decide_eq_true_eq, not_or] at h34
        rcases hp with h | h | h | h
        · exact absurd h h34.1
        · exact absurd h h34.2
        · have : ¬0xF0 ≤ x.op := by rw [BitVec.le_def]; exact Nat.not_le.2 h
          rw [decide_eq_false this, Bool.false_and]
        · simp [h]
      simp only [ht.1, ne_eq, not_true, decide_false, Bool.false_and, Bool.false_eq_true, if_false, hop]
  have he : s.rejectAll x n v = endIssue s (s.takeTrap k ⟨causeIllegal, th.pc, v, BitVec.ofNat 32 n⟩) (lenBytes x.len) [] [k] true := by
    simp only [State.rejectAll, hc, List.filter_cons, List.filter_nil, State.thread_of_lookup hk, ha, if_true, List.map_cons,
      List.map_nil, hr, List.contains_eq_mem, List.mem_singleton, decide_true, Bool.not_true, Bool.false_eq_true, if_false,
      List.foldl_nil]
    rfl
  rw [he]
  exact endIssue_enters hc (takeTrap_enters _ hk ht) ..

/-- The instruction that does not decode is passed by the one thread, if the guard leaves it out (R33, R139). -/
theorem rejectAll_passed {s : State} {k n : Nat} {th : Thread} {x : Raw} (hc : s.cur = [k]) (hk : lookup s.threads k = some th)
    (ha : th.active x.head = false) (v : DWord) : ∃ u, lookup (s.rejectAll x n v).threads k = some u ∧
      SameRegs u { th with pc := th.pc + BitVec.ofNat 64 (8 + 4 * x.len.toNat) } := by
  obtain ⟨f, hf, he⟩ : ∃ f : Thread → Thread, SameRegs (f th) { th with pc := th.pc + BitVec.ofNat 64 (8 + 4 * x.len.toNat) } ∧
      s.rejectAll x n v = endIssue s (s.modThread k f) (lenBytes x.len) [] [] true := by
    refine ⟨fun th => { th with pc := th.pc + BitVec.ofNat 64 (lenBytes x.len), las := laTick th.las, issued := th.issued + 1 },
      ⟨rfl, rfl, rfl, rfl, rfl, rfl, rfl, rfl, rfl, rfl⟩, ?_⟩
    simp only [State.rejectAll, hc, List.filter_cons, List.filter_nil, State.thread_of_lookup hk, ha, Bool.false_eq_true, if_false,
      List.map_nil]
    rfl
  obtain ⟨-, -, -, ht⟩ := endIssue_spec s (s.modThread k f) (lenBytes x.len) [] [] true
  obtain ⟨tag, hu⟩ := ht k (f th) (by rw [State.lookup_modThread, if_pos rfl, hk]; rfl)
  exact ⟨tagged (f th) tag, he ▸ hu, hf⟩

/-- A step runs what the block at the fragment's pc decodes to (R129 to R131). -/
theorem step_decoded {s s1 : State} {k : Nat} {ks : List Nat} {th : Thread} {b : Bytes} {i : Instr} (hp : s.power.on = true)
    (hc : s.cur = k :: ks) (hk : lookup s.threads k = some th) (ha : th.pc.toNat % 4 = 0) (hg : th.pc.toNat < 2 ^ 57)
    (hb : s.fetchBlock th th.pc = .ok s1 b) (hl : (fieldsAt b th.pc).len ≠ 3)
    (hx : th.pc.toNat % 32 + 8 + 4 * (fieldsAt b th.pc).len.toNat ≤ 32)
    (hn : (fieldsAt b th.pc).g.toNat < 96 ∨ (fieldsAt b th.pc).g = 127) (hd : (fieldsAt b th.pc).decode = .ok i) :
    step s = struckBy s (exec i s1) := by
  have hf : s.fetchIssue = .run s1 i := by
    rw [fetchIssue_block hc hk ha hg hb, if_neg hl, if_neg (by omega), (gOk_iff _).2 hn, hd]
    rfl
  simp only [step, cleanStep, hp, if_true, hc, hf]

/-- The traps of R139 that come before the fetch and behind it, in a fragment of one thread. -/
theorem step_fetch_traps {s : State} {k : Nat} {th : Thread} (hp : s.power.on = true) (hi : s.inject = []) (hc : s.cur = [k])
    (hk : lookup s.threads k = some th) (ht : canTrap s th) :
    (th.pc.toNat % 4 ≠ 0 → ∃ t, step s = .next t ∧ Enters s t k th ⟨causeMisalign, th.pc, th.pc, 0⟩) ∧
    (th.pc.toNat % 4 = 0 → 2 ^ 57 ≤ th.pc.toNat → ∃ t, step s = .next t ∧ Enters s t k th ⟨causeAddr, th.pc, th.pc, 0⟩) := by
  have hne : s.cur ≠ [] := by simp [hc]
  refine ⟨fun ha => ⟨_, step_stay hp hi hne ?_, trapAll_enters hc hk ht ..⟩,
    fun ha hg => ⟨_, step_stay hp hi hne ?_, trapAll_enters hc hk ht ..⟩⟩
  · simp only [State.fetchIssue, hc, State.thread_of_lookup hk, ne_eq, ha, not_false_eq_true, if_true]
  · simp only [State.fetchIssue, hc, State.thread_of_lookup hk, ne_eq, ha, not_true, if_false, hg, if_true]

/-- Settles O49, from what fetchIssue issues: `fetchIssue_block` behind the fetch, `step_fetch_traps` before it. -/
theorem stepRunsDecoded : Obligations.StepRunsDecoded := by
  refine ⟨?_, ?_, ?_⟩
  · intro s s1 k ks th b i hp hc hk ha hg hb x hl hx hn hd
    have h := step_decoded hp hc hk ha hg hb hl hx hn hd
    exact ⟨h, fun hi => h.trans (struckBy_nothing_armed hi _)⟩
  · intro s k th hp hi hc hk ht
    have hne : s.cur ≠ [] := by simp [hc]
    obtain ⟨h1, h2⟩ := step_fetch_traps hp hi hc hk ht
    refine ⟨h1, h2, ?_⟩
    intro s1 b ha hg hb hth hcur ht1 x v cross named
    have hf := fetchIssue_block hc hk ha hg hb
    have hc1 : s1.cur = [k] := hcur.trans hc
    have hk1 : lookup s1.threads k = some th := by rw [hth, hk]
    have cross_iff : 32 < th.pc.toNat % 32 + (8 + 4 * x.len.toNat) ↔ cross := by simp only [cross, Nat.add_assoc]
    refine ⟨fun hl => ?_, fun hl hx => ?_, fun hl hx hn => ?_, fun n hl hx hn hd => ?_⟩
    · exact ⟨_, step_stay hp hi hne (hf.trans (if_pos hl)), trapAll_enters hc1 hk1 ht1 ..⟩
    · exact ⟨_, step_stay hp hi hne (by rw [hf, if_neg hl, if_pos (cross_iff.2 hx)]), trapAll_enters hc1 hk1 ht1 ..⟩
    · have hg' : x.head.gOk = false := Bool.eq_false_iff.2 fun h => hn ((gOk_iff x).1 h)
      exact ⟨_, step_stay hp hi hne (by rw [hf, if_neg hl, if_neg (cross_iff.not.2 hx), hg']; rfl), trapAll_enters hc1 hk1 ht1 ..⟩
    · have hs : s.fetchIssue = .stay (s1.rejectAll x n v) := by
        rw [hf, if_neg hl, if_neg (cross_iff.not.2 hx), (gOk_iff x).2 hn, hd]; rfl
      refine ⟨fun hact hcode => ⟨_, step_stay hp hi hne hs, rejectAll_enters hc1 hk1 ht1 hact hcode v⟩, fun hact => ?_⟩
      obtain ⟨u, hu⟩ := rejectAll_passed (n := n) hc1 hk1 hact v
      exact ⟨_, u, step_stay hp hi hne hs, hu⟩
  · intro s i rest hb hi
    refine ⟨fun hp hc => ?_, fun b hp he => ?_, fun hn hp => ?_⟩
    · simp only [step, cleanStep, hp, if_true, hc, hb, struckBy_nothing_armed hi]
    · subst he
      simp only [step, cleanStep, hp, Bool.false_eq_true, if_false, hb, isPowerOn, if_true, struckBy_nothing_armed hi]
    · have hn' : isPowerOn i = false := by
        unfold isPowerOn
        split
        · exact absurd rfl (hn _)
        · rfl
      simp only [step, cleanStep, hp, Bool.false_eq_true, if_false, hb, hn', struckBy_nothing_armed hi]

end Sys2Proof.Machine

/-!
Launches (R326 to R332): a remote launch request that is dropped, and the frame of registers that O57 asks of the drop.
-/
namespace Sys2Proof.Machine
open Sys2Proof.Safety Sys2Proof.Terms

/-! ### Dropped remote launch requests (R331, R332) -/

/-- The table of registers has one key for a register and its instance, and a number of an instance from 2^32 up meets the
keys of the indices above: instance 0x102 · 2^32 + n of 0x5103 is the drop counter n of 0x5205. -/
theorem reg_tail_alias (s : State) (n : Nat) : s.reg 0x5103 (0x102 * 4294967296 + n) = s.reg 0x5205 n := by
  have hk : sysKey 0x5103 (0x102 * 4294967296 + n) = sysKey 0x5205 n := by unfold sysKey; omega
  rw [State.reg, hk]
  rfl

/-- No step meets Drops: its last clause asks of the drop counter, as an instance of 0x5103, to stay, and its first to be
raised. -/
theorem not_drops (i : Instr) (s : State) (n : Nat) : ¬Drops i s n := by
  rintro ⟨t, -, raised, -, -, -, kept⟩
  have h := kept (0x102 * 4294967296 + n)
  rw [reg_tail_alias, reg_tail_alias] at h
  rw [h] at raised
  unfold part at raised
  omega

/-- Port 0 takes remote launch requests, and no entry has a key. -/
def openPort : State := State.reset.setReg 0x5200 0 0x8000000000000000

theorem openPort_noEntry (key : Nat) : openPort.rlEntry key = none := by
  have hr (e : Nat) (he : e < 256) : openPort.reg 0x5201 e = 0 := by
    rw [openPort, State.reg_setReg _ _ _ _ _ _ (State.sysKey_inj (by omega) (by decide)), if_neg (by omega)]
    rfl
  refine List.find?_eq_none.2 fun e he => ?_
  rw [State.fld, hr e (List.mem_range.1 he)]
  simp [bits]

/-- Refutes O57: a request with an unknown key is dropped at the open port, but Drops says of every number q that instance q of
0x5103 stays as it was, and among these is the counter of the drop (`not_drops`). With q below 2^32 the clause would say what
R331 means. -/
theorem not_launchEvents : ¬ Obligations.LaunchEvents := by
  rintro ⟨-, -, -, -, -, -, -, remote, -⟩
  obtain ⟨-, taken⟩ := remote openPort 0 [] (by decide)
  have hopen : (openPort.reg 0x5200 0).getLsbD 63 = true := by rw [openPort, reg_setReg_same]; decide
  exact not_drops _ _ _ ((taken hopen).1 (openPort_noEntry _))

end Sys2Proof.Machine

/-!
Hampers and draws (R27, R28): when a hamper ages, which one a core draws, the threads a draw takes and where it puts them.
-/
namespace Sys2Proof.Machine
open Sys2Proof.Safety Sys2Proof.Terms

/-! ### Tables (more) -/

theorem mem_of_lookup {α : Type} {c : Cells α} {k : Nat} {x : α} (h : lookup c k = some x) : (k, x) ∈ c := by
  induction c with
  | nil => cases h
  | cons e l ih =>
    obtain ⟨j, y⟩ := e
    unfold lookup at h
    split at h
    · next hj => cases h; subst hj; exact List.mem_cons_self ..
    · exact List.mem_cons_of_mem _ (ih h)

theorem lookup_mapValues {α β : Type} (f : Nat → α → β) (c : Cells α) (k : Nat) :
    lookup (mapValues f c) k = (lookup c k).map (f k) := by
  induction c with
  | nil => rfl
  | cons e l ih =>
    obtain ⟨j, y⟩ := e
    have hm : mapValues f ((j, y) :: l) = (j, f j y) :: mapValues f l := rfl
    rw [hm, lookup, lookup]
    split
    · next hj => subst hj; rfl
    · exact ih

theorem lookup_adjust {α : Type} (c : Cells α) (k j : Nat) (f : α → α) :
    lookup (adjust c k f) j = if j = k then (lookup c k).map f else lookup c j := by
  unfold adjust
  cases h : lookup c k with
  | none => by_cases hj : j = k <;> simp [hj, h]
  | some x => exact lookup_put ..

/-- A core's structures behind a change. -/
theorem core_modCore (s : State) (c : Nat) (f : CoreState → CoreState) : (s.modCore c f).core c = f (s.core c) := by
  simp [State.core, State.modCore, lookupD_putD]

/-! ### Hampers that age (R27) -/

/-- The least filing time of a hamper, where a thread is filed. -/
theorem hamperOldest_le {h : Hamper} {x : Nat × Int} (hx : x ∈ h.ths) : State.hamperOldest h ≤ x.2 ∧ ∃ y ∈ h.ths, State.hamperOldest h = y.2 := by
  have hm : x.2 ∈ h.ths.map Prod.snd := List.mem_map_of_mem hx
  obtain ⟨m, he⟩ := Option.isSome_iff_exists.1 (List.isSome_min?_of_mem hm)
  have hs := List.min?_eq_some_iff.1 he
  have ho : State.hamperOldest h = m := by rw [State.hamperOldest, he]; rfl
  obtain ⟨y, hy, hy'⟩ := List.mem_map.1 hs.1
  exact ⟨ho ▸ hs.2 _ hm, y, hy, ho.trans hy'.symm⟩

/-- A hamper is due when it is not aged and one of its threads has waited 256 cycles (R27). -/
theorem ageDue_iff (s : State) (h : Hamper) : s.ageDue h = true ↔ h.aged = false ∧ ∃ x ∈ h.ths, x.2 + 256 ≤ s.clk := by
  unfold State.ageDue
  simp only [Bool.and_eq_true, Bool.not_eq_true', decide_eq_true_iff, List.isEmpty_eq_false_iff_exists_mem, and_assoc]
  refine and_congr_right fun _ => ⟨fun ⟨⟨x, hx⟩, hd⟩ => ?_, fun ⟨x, hx, hd⟩ => ⟨⟨x, hx⟩, ?_⟩⟩
  · obtain ⟨-, y, hy, he⟩ := hamperOldest_le hx
    exact ⟨y, hy, he ▸ hd⟩
  · have := (hamperOldest_le hx).1
    omega

/-- A hamper that HAMPER_AGED makes aged (R27). -/
def agedHamper (s : State) (h : Hamper) : Hamper :=
  { h with aged := true, madeAt := if s.hamperFull h || h.forced then h.madeAt else s.clk }

/-- HAMPER_AGED: a hamper that is due becomes aged, and nothing else changes (R27). -/
theorem ageHamper_due {s : State} {core e : Nat} {h : Hamper} (hl : lookup (s.core core).hampers e = some h)
    (hd : s.ageDue h = true) :
    s.ageHamper core e = s.modCore core fun c => { c with hampers := put c.hampers e (agedHamper s h) } := by
  simp only [State.ageHamper, hl, hd, Bool.not_true, Bool.false_eq_true, if_false, agedHamper]

theorem ageHamper_not_due {s : State} {core e : Nat} {h : Hamper} (hl : lookup (s.core core).hampers e = some h)
    (hd : s.ageDue h = false) : s.ageHamper core e = s := by
  simp only [State.ageHamper, hl, hd, Bool.not_false, if_true]

/-! ### Which hamper is drawn (R27) -/

theorem drawable_iff (s : State) (h : Hamper) : s.drawable h = true ↔ mayDraw s h := by
  simp only [State.drawable, State.hamperFull, mayDraw, Bool.and_eq_true, Bool.or_eq_true, decide_eq_true_iff, List.all_eq_true,
    List.mem_range, List.any_eq_true, beq_iff_eq, or_assoc]
  exact .rfl

/-- Only one entry of a table without double keys passes a test. -/
theorem filter_single {α : Type} {c : Cells α} (hn : (keysOf c).Nodup) {k : Nat} {x : α} (h : lookup c k = some x)
    {p : Nat × α → Bool} (hp : p (k, x) = true) (ho : ∀ e ∈ c, e.1 ≠ k → p e = false) : c.filter p = [(k, x)] := by
  induction c with
  | nil => cases h
  | cons e l ih =>
    obtain ⟨j, y⟩ := e
    obtain ⟨hj, hl⟩ := List.nodup_cons.1 hn
    unfold lookup at h
    split at h
    · next hjk =>
      cases h
      subst hjk
      have hno (e : Nat × α) (he : e ∈ l) : ¬p e = true := by
        have hej : e.1 ≠ j := fun q => hj (q ▸ (List.mem_map_of_mem (f := Prod.fst) he : e.1 ∈ l.map Prod.fst))
        rw [ho e (List.mem_cons_of_mem _ he) hej]
        decide
      rw [List.filter_cons, if_pos hp, List.filter_eq_nil_iff.2 hno]
    · next hjk =>
      rw [List.filter_cons, ho _ (List.mem_cons_self ..) hjk]
      exact ih hl h fun e he => ho e (List.mem_cons_of_mem _ he)

/-- A core draws nothing twice in a cycle, and nothing when no hamper may be drawn (R27). -/
theorem drawNext_none {s : State} {core : Nat}
    (h : (s.core core).lastDraw = some s.clk ∨ ∀ e ∈ (s.core core).hampers, ¬mayDraw s e.2) : s.drawNext core = s := by
  have hc : s.drawChoice core = none := by
    unfold State.drawChoice
    split
    · rfl
    · next hl =>
      rw [List.filter_eq_nil_iff.2 fun e he => (drawable_iff s e.2).not.2 ((h.resolve_left hl) e he)]
      rfl
  simp only [State.drawNext, hc]

/-- A core draws the one hamper that may be drawn (R27). -/
theorem drawNext_only {s : State} {core e : Nat} {h : Hamper} (hn : (keysOf (s.core core).hampers).Nodup)
    (hl : lookup (s.core core).hampers e = some h) (hm : mayDraw s h) (hd : (s.core core).lastDraw ≠ some s.clk)
    (ho : ∀ x ∈ (s.core core).hampers, x.1 ≠ e → ¬mayDraw s x.2) : s.drawNext core = s.drawHamper core e h := by
  have hc : s.drawChoice core = some (e, h) := by
    unfold State.drawChoice
    rw [if_neg hd, filter_single hn hl ((drawable_iff s h).2 hm) fun x hx hk =>
      Bool.eq_false_iff.2 ((drawable_iff s x.2).not.2 (ho x hx hk))]
    rfl
  simp only [State.drawNext, hc]

/-! ### The threads a draw takes (R28) -/

/-- Threads of a hamper with a home lane. -/
def ofLane (s : State) (h : Hamper) (l : Nat) : List (Nat × Int) := h.ths.filter fun t => homeOfThread s t.1 == l
/-- A thread is filed no later than any of a list, and no tie has a lower key. -/
def firstAmong (ths : List (Nat × Int)) (t : Nat × Int) : Bool :=
  ths.all fun u => decide (t.2 < u.2) || (t.2 == u.2 && decide (t.1 ≤ u.1))

theorem drawLane_eq (s : State) (h : Hamper) (l : Nat) : s.drawLane h l = (ofLane s h l).find? (firstAmong (ofLane s h l)) := rfl

theorem mem_ofLane {s : State} {h : Hamper} {l : Nat} {x : Nat × Int} : x ∈ ofLane s h l ↔ x ∈ h.ths ∧ homeOfThread s x.1 = l := by
  rw [ofLane, List.mem_filter, beq_iff_eq]

theorem firstAmong_iff {s : State} {h : Hamper} {x : Nat × Int} :
    firstAmong (ofLane s h (homeOfThread s x.1)) x = true ↔ firstOfLane s h x := by
  simp only [firstAmong, firstOfLane, List.all_eq_true, mem_ofLane, Bool.or_eq_true, Bool.and_eq_true, decide_eq_true_iff,
    beq_iff_eq, and_imp]

/-- A draw takes for a lane the thread that is the first of it. -/
theorem drawLane_iff {s : State} {h : Hamper} {l : Nat} {x : Nat × Int} :
    s.drawLane h l = some x ↔ x ∈ h.ths ∧ homeOfThread s x.1 = l ∧ firstOfLane s h x := by
  rw [drawLane_eq]
  constructor
  · intro hx
    obtain ⟨hm, rfl⟩ := mem_ofLane.1 (List.mem_of_find?_eq_some hx)
    exact ⟨hm, rfl, firstAmong_iff.1 (List.find?_some hx)⟩
  · rintro ⟨hx, rfl, hf⟩
    have hm : x ∈ ofLane s h (homeOfThread s x.1) := mem_ofLane.2 ⟨hx, rfl⟩
    cases hd : (ofLane s h (homeOfThread s x.1)).find? (firstAmong (ofLane s h (homeOfThread s x.1))) with
    | none => exact absurd (firstAmong_iff.2 hf) (List.find?_eq_none.1 hd x hm)
    | some y =>
      obtain ⟨hy, hyl⟩ := mem_ofLane.1 (List.mem_of_find?_eq_some hd)
      have hyf := List.find?_some hd
      rw [← hyl, firstAmong_iff] at hyf
      have h1 := hf y hy hyl
      have h2 := hyf x hx hyl.symm
      rw [show y = x from Prod.ext (by omega) (by omega)]

/-- Lanes and threads of a draw (R28). -/
def drawn (s : State) (h : Hamper) : List (Nat × Nat) := (List.range 32).filterMap fun l => (s.drawLane h l).map fun t => (l, t.1)

theorem homeOfThread_lt (s : State) (k : Nat) : homeOfThread s k < 32 := by unfold homeOfThread; split <;> omega

theorem mem_drawn {s : State} {h : Hamper} {e : Nat × Nat} :
    e ∈ drawn s h ↔ ∃ x ∈ h.ths, firstOfLane s h x ∧ e = (homeOfThread s x.1, x.1) := by
  simp only [drawn, List.mem_filterMap, List.mem_range, Option.map_eq_some_iff]
  constructor
  · rintro ⟨l, -, x, hx, rfl⟩
    obtain ⟨hm, rfl, hf⟩ := drawLane_iff.1 hx
    exact ⟨x, hm, hf, rfl⟩
  · rintro ⟨x, hx, hf, rfl⟩
    exact ⟨_, homeOfThread_lt s x.1, x, drawLane_iff.2 ⟨hx, rfl, hf⟩, rfl⟩

/-- Of threads filed once each, a draw takes those that are the first of their lanes. -/
theorem mem_drawn_keys {s : State} {h : Hamper} (hn : (h.ths.map Prod.fst).Nodup) {x : Nat × Int} (hx : x ∈ h.ths) :
    x.1 ∈ (drawn s h).map Prod.snd ↔ firstOfLane s h x := by
  simp only [List.mem_map, mem_drawn]
  constructor
  · rintro ⟨e, ⟨y, hy, hf, rfl⟩, he⟩
    rwa [← List.inj_on_of_nodup_map hn hy hx he]
  · exact fun hf => ⟨_, ⟨x, hx, hf, rfl⟩, rfl⟩

/-- A draw takes a thread once. -/
theorem drawn_keys_nodup (s : State) (h : Hamper) : ((drawn s h).map Prod.snd).Nodup := by
  have hl : (drawn s h).map Prod.snd = (List.range 32).filterMap fun l => (s.drawLane h l).map Prod.fst := by
    simp only [drawn, List.map_filterMap, Option.map_map]
    rfl
  rw [hl]
  refine List.nodup_range.filterMap fun a b k ha hb => ?_
  obtain ⟨x, hx, rfl⟩ := Option.map_eq_some_iff.1 ha
  obtain ⟨y, hy, he⟩ := Option.map_eq_some_iff.1 hb
  rw [← (drawLane_iff.1 hx).2.1, ← (drawLane_iff.1 hy).2.1, he]

/-! ### A draw into the lowest slot (R28) -/

theorem mem_insertNat {x y : Nat} {l : List Nat} (h : y ∈ insertNat x l) : y = x ∨ y ∈ l := by
  induction l with
  | nil => exact .inl (List.mem_singleton.1 h)
  | cons z l ih =>
    unfold insertNat at h
    split at h
    · exact List.mem_cons.1 h
    · rcases List.mem_cons.1 h with rfl | h
      · exact .inr (List.mem_cons_self ..)
      · exact (ih h).imp_right (List.mem_cons_of_mem _)

theorem mem_sortNat {y : Nat} {l : List Nat} (h : y ∈ sortNat l) : y ∈ l := by
  induction l with
  | nil => exact h
  | cons x l ih => exact List.mem_cons.2 ((mem_insertNat h).imp_right ih)

/-- The least of some numbers comes first in rising order. -/
theorem sortNat_cons_least {x : Nat} {l : List Nat} (h : ∀ y ∈ l, x ≤ y) : sortNat (x :: l) = x :: sortNat l := by
  change insertNat x (sortNat l) = _
  cases hs : sortNat l with
  | nil => rfl
  | cons z m =>
    have hz : z ∈ sortNat l := hs ▸ List.mem_cons_self ..
    rw [insertNat, if_pos (h z (mem_sortNat hz))]

/-- No helper stands in a slot. -/
def noHelperAt (s : State) (core sl : Nat) : Prop :=
  ∀ x ∈ s.threads, x.2.core = core → x.2.slot = sl → x.2.status = .live → x.2.hidx = 0

theorem clearLane_of_noHelper {s : State} {core sl : Nat} (h : noHelperAt s core sl) (l : Nat) : s.clearLane core sl l = s := by
  have hn : s.threads.find? (fun e => e.2.core == core && e.2.slot == sl && e.2.lane == l && e.2.status == .live && e.2.hidx != 0) = none := by
    simp only [List.find?_eq_none, Bool.and_eq_true, beq_iff_eq, bne_iff_ne, not_and, not_not]
    exact fun x hx ⟨⟨⟨hc, hs⟩, _⟩, hv⟩ => h x hx hc hs hv
  simp only [State.clearLane, hn]

/-- A thread placed in a lane of a slot, at the hamper's target (R28). -/
def placed (sl lane tag : Nat) (target : DWord) (th : Thread) : Thread :=
  { th with status := .live, slot := sl, lane := lane, tag := tag, pc := target }

/-- Placing threads that are no helpers, in a slot without helpers, changes these threads and nothing else. -/
theorem foldl_placeDrawn (core sl tag : Nat) (target : DWord) (lane : Nat → Nat) (ks : List Nat) (s : State) (hs : noHelperAt s core sl)
    (hk : ∀ k ∈ ks, ∃ th, lookup s.threads k = some th ∧ th.hidx = 0) :
    ks.foldl (fun t k => t.placeDrawn core sl (lane k) k tag target) s =
      ks.foldl (fun t k => t.modThread k (placed sl (lane k) tag target)) s := by
  induction ks generalizing s with
  | nil => rfl
  | cons k ks ih =>
    obtain ⟨th, hl, h0⟩ := hk k (List.mem_cons_self ..)
    have hp : s.placeDrawn core sl (lane k) k tag target = s.modThread k (placed sl (lane k) tag target) := by
      rw [State.placeDrawn, clearLane_of_noHelper hs]; rfl
    rw [List.foldl_cons, List.foldl_cons, hp]
    refine ih _ (fun x hx hc hsl hv => ?_) fun j hj => ?_
    · rw [State.modThread, adjust, hl] at hx
      rcases mem_put hx with rfl | hx
      · exact h0
      · exact hs x hx hc hsl hv
    · obtain ⟨u, hu, hu0⟩ := hk j (List.mem_cons_of_mem _ hj)
      rw [State.lookup_modThread]
      split
      · exact ⟨placed sl (lane k) tag target u, congrArg (Option.map _) hu, hu0⟩
      · exact ⟨u, hu, hu0⟩

/-- Threads that a draw leaves in the hamper. -/
def undrawn (s : State) (h : Hamper) : List (Nat × Int) := h.ths.filter fun t => !(drawn s h).any fun x => x.2 == t.1

theorem mem_undrawn {s : State} {h : Hamper} (hn : (h.ths.map Prod.fst).Nodup) {x : Nat × Int} :
    x ∈ undrawn s h ↔ x ∈ h.ths ∧ ¬firstOfLane s h x := by
  rw [undrawn, List.mem_filter]
  refine and_congr_right fun hx => ?_
  rw [← mem_drawn_keys hn hx, Bool.not_eq_true', ← Bool.not_eq_true, List.any_eq_true, List.mem_map]
  simp only [beq_iff_eq]

/-- A core's structures after a draw of a hamper. -/
def coreDrawn (s : State) (e : Nat) (h : Hamper) (c : CoreState) : CoreState :=
  State.keepFreed { c with
    lastDraw := some s.clk
    hampers := (if (undrawn s h).isEmpty then del c.hampers e
      else put c.hampers e { h with ths := undrawn s h, aged := false }) } (if (undrawn s h).isEmpty then [e] else [])

@[simp] theorem coreDrawn_lastDraw (s : State) (e : Nat) (h : Hamper) (c : CoreState) : (coreDrawn s e h c).lastDraw = some s.clk := rfl

theorem coreDrawn_none {s : State} {h : Hamper} (hu : undrawn s h = []) (e : Nat) (c : CoreState) : lookup (coreDrawn s e h c).hampers e = none := by
  simp [coreDrawn, State.keepFreed, hu]

theorem coreDrawn_some {s : State} {h : Hamper} (hu : undrawn s h ≠ []) (e : Nat) (c : CoreState) :
    lookup (coreDrawn s e h c).hampers e = some { h with ths := undrawn s h, aged := false } := by
  simp [coreDrawn, State.keepFreed, hu]

/-- The wave that a draw makes in a slot. -/
def drawnWave (s : State) (core sl : Nat) (h : Hamper) : Wave :=
  let act := (s.activeWaves core (igOf sl)).filter fun w => w.1 != sl
  ⟨h.gid, s.clk, decide (act.length < 8), s.clk, s.clk, []⟩

/-- A state before the threads of a draw take their lanes: the hamper is drawn and the wave made. -/
def readyForDrawn (s : State) (core e sl : Nat) (h : Hamper) : State :=
  let s1 := s.modCore core (coreDrawn s e h)
  { s1 with waves := put s1.waves (State.waveKey core sl) (drawnWave s1 core sl h) }

/-- A draw places its threads together in the lowest slot, where that is vacant (R28). -/
theorem drawHamper_vacant {s : State} {core e sl : Nat} {h : Hamper} {rest : List Nat} (hs : (s.group h.gid).slots = sl :: rest)
    (hr : ∀ x ∈ rest, sl ≤ x) (hv : s.slotVacant core sl = true) :
    s.drawHamper core e h =
      let t := (drawn s h).foldl (fun t x => t.placeDrawn core sl x.1 x.2 s.fresh h.target) (readyForDrawn s core e sl h)
      { t with fresh := t.fresh + 64 } := by
  have hf : (sortNat (s.group h.gid).slots).find? (fun sl => s.slotVacant core sl) = some sl := by
    rw [hs, sortNat_cons_least hr, List.find?_cons_of_pos hv]
  simp only [State.drawHamper, hf]
  rfl

/-- Each drawn thread comes with its home lane. -/
theorem drawn_eq_map (s : State) (h : Hamper) : drawn s h = ((drawn s h).map Prod.snd).map fun k => (homeOfThread s k, k) := by
  rw [List.map_map]
  refine (List.map_id (drawn s h)).symm.trans (List.map_congr_left fun e he => ?_)
  obtain ⟨x, -, -, rfl⟩ := mem_drawn.1 he
  rfl

/-- A draw into a vacant slot (R28): the core, the waves and the threads it leaves. -/
theorem drawHamper_effect {s : State} {core e sl : Nat} {h : Hamper} {rest : List Nat} (hs : (s.group h.gid).slots = sl :: rest)
    (hr : ∀ x ∈ rest, sl ≤ x) (hv : ∀ x ∈ s.threads, x.2.core = core → x.2.slot = sl → x.2.hidx = 0 ∧ x.2.status ≠ .live)
    (hk : ∀ k ∈ (drawn s h).map Prod.snd, ∃ th, lookup s.threads k = some th ∧ th.hidx = 0) :
    Kept s (s.drawHamper core e h) ∧ (s.drawHamper core e h).cores = (s.modCore core (coreDrawn s e h)).cores ∧
      (s.drawHamper core e h).waves = (readyForDrawn s core e sl h).waves ∧
      ∀ k, lookup (s.drawHamper core e h).threads k = if k ∈ (drawn s h).map Prod.snd
        then (lookup s.threads k).map (placed sl (homeOfThread s k) s.fresh h.target) else lookup s.threads k := by
  have vacant : s.slotVacant core sl = true := by
    simp only [State.slotVacant, Bool.not_eq_true', List.any_eq_false, Bool.and_eq_true, beq_iff_eq, not_and]
    exact fun x hx ⟨⟨hc, hsl⟩, hlive⟩ => absurd hlive (hv x hx hc hsl).2
  have noHelper : noHelperAt (readyForDrawn s core e sl h) core sl := fun x hx hc hsl _ => (hv x hx hc hsl).1
  have placing : (drawn s h).foldl (fun t x => t.placeDrawn core sl x.1 x.2 s.fresh h.target) (readyForDrawn s core e sl h) =
      ((drawn s h).map Prod.snd).foldl (fun t k => t.modThread k (placed sl (homeOfThread s k) s.fresh h.target))
        (readyForDrawn s core e sl h) := by
    rw [← foldl_placeDrawn core sl s.fresh h.target (homeOfThread s) _ _ noHelper hk]
    conv_lhs => rw [drawn_eq_map, List.foldl_map]
  obtain ⟨frame, threads⟩ := foldl_modThread (fun k => placed sl (homeOfThread s k) s.fresh h.target) _
    (readyForDrawn s core e sl h) (drawn_keys_nodup s h)
  rw [drawHamper_vacant hs hr vacant]
  simp only
  rw [placing]
  exact ⟨⟨(congrArg State.drawer frame :), (congrArg State.sys frame :)⟩, (congrArg State.cores frame :),
    (congrArg State.waves frame :), threads⟩

end Sys2Proof.Machine

/-!
Waves, naps, servers and events (R32, R171, R290, R299, R304), and the schedule's events assembled from them.
-/
namespace Sys2Proof.Machine
open Sys2Proof.Safety Sys2Proof.Terms

/-! ### Waves of an issue group (R31, R32) -/

theorem mem_distinct {x : Nat} {l : List Nat} : x ∈ State.distinct l ↔ x ∈ l := by
  induction l with
  | nil => exact .rfl
  | cons y l ih =>
    simp only [State.distinct, List.mem_cons, List.mem_filter, ih, bne_iff_ne, ne_eq]
    tauto

theorem mem_igWaves {s : State} {core ig : Nat} {e : Nat × Wave} :
    e ∈ s.igWaves core ig ↔ 16 * ig ≤ e.1 ∧ e.1 < 16 * ig + 16 ∧ lookup s.waves (State.waveKey core e.1) = some e.2 := by
  simp only [State.igWaves, List.mem_filterMap, List.mem_range, Option.map_eq_some_iff]
  constructor
  · rintro ⟨i, hi, w, hw, rfl⟩
    exact ⟨by simp, by simpa using hi, hw⟩
  · rintro ⟨hl, hu, hw⟩
    have he : 16 * ig + (e.1 - 16 * ig) = e.1 := by omega
    exact ⟨e.1 - 16 * ig, by omega, e.2, by rw [he]; exact hw, Prod.ext he rfl⟩

theorem igWaves_rising (s : State) (core ig : Nat) : (s.igWaves core ig).Pairwise fun a b => a.1 < b.1 := by
  refine List.Pairwise.filterMap _ (fun i j hij a ha b hb => ?_) List.pairwise_lt_range
  obtain ⟨v, -, rfl⟩ := Option.map_eq_some_iff.1 ha
  obtain ⟨w, -, rfl⟩ := Option.map_eq_some_iff.1 hb
  exact Nat.add_lt_add_left hij _

theorem mem_activeWaves {s : State} {core ig sl : Nat} {w : Wave} : (sl, w) ∈ s.activeWaves core ig ↔ activeAt s core ig sl w := by
  simp only [State.activeWaves, List.mem_filter, mem_igWaves, activeAt, Bool.and_eq_true, Bool.not_eq_true',
    List.isEmpty_eq_false_iff, and_assoc]

/-- The ready pending waves of an issue group (R32). -/
def pendingWaves (s : State) (core ig : Nat) : List (Nat × Wave) :=
  (s.igWaves core ig).filter fun w => !w.2.active && s.waveReady core w.1

theorem nextPending_eq (s : State) (core ig : Nat) : s.nextPending core ig = State.oldest (pendingWaves s core ig) := rfl

theorem mem_pendingWaves {s : State} {core ig sl : Nat} {w : Wave} : (sl, w) ∈ pendingWaves s core ig ↔ pendingReady s core ig sl w := by
  simp only [pendingWaves, List.mem_filter, mem_igWaves, pendingReady, Bool.and_eq_true, Bool.not_eq_true', and_assoc]

theorem activeWaves_length (s : State) (core ig : Nat) : (s.activeWaves core ig).length = activeCount s core ig := by
  rw [State.activeWaves, State.igWaves, List.filter_filterMap, List.length_filterMap_eq_countP, List.countP_eq_length_filter, activeCount]
  refine congrArg List.length (List.filter_congr fun i _ => ?_)
  cases lookup s.waves (State.waveKey core (16 * ig + i)) with
  | none => rfl
  | some w => cases hw : w.active && !(s.waveThreads core (16 * ig + i)).isEmpty <;> simp [hw]

theorem mem_of_oldest {l : List (Nat × Wave)} {p : Nat × Wave} (h : State.oldest l = some p) : p ∈ l := by
  induction l generalizing p with
  | nil => cases h
  | cons x l ih =>
    rw [State.oldest] at h
    split at h
    · cases h; exact List.mem_cons_self ..
    · next y hy =>
      split at h <;> cases h
      · exact List.mem_cons_of_mem _ (ih hy)
      · exact List.mem_cons_self ..

/-- Of waves in rising slots the oldest is the one of least age, of several the one in the lowest slot (R31). -/
theorem oldest_of_least {l : List (Nat × Wave)} (hl : l.Pairwise fun a b => a.1 < b.1) {p : Nat × Wave} (hp : p ∈ l)
    (ho : ∀ q ∈ l, p.2.age < q.2.age ∨ (p.2.age = q.2.age ∧ p.1 ≤ q.1)) : State.oldest l = some p := by
  induction l with
  | nil => cases hp
  | cons x l ih =>
    obtain ⟨hx, hl⟩ := List.pairwise_cons.1 hl
    rw [State.oldest]
    rcases List.mem_cons.1 hp with rfl | hp
    · split
      · rfl
      · next y hy =>
        have := ho y (List.mem_cons_of_mem _ (mem_of_oldest hy))
        exact if_neg (by omega)
    · have older : p.2.age < x.2.age := by
        have := ho x (List.mem_cons_self ..)
        have := hx p hp
        omega
      rw [ih hl hp fun q hq => ho q (List.mem_cons_of_mem _ hq)]
      exact if_pos older

theorem nextPending_none {s : State} {core ig : Nat} (h : ∀ sl w, ¬pendingReady s core ig sl w) : s.nextPending core ig = none := by
  have hn : pendingWaves s core ig = [] := List.eq_nil_iff_forall_not_mem.2 fun e he => h e.1 e.2 (mem_pendingWaves.1 he)
  rw [nextPending_eq, hn]
  rfl

theorem nextPending_some {s : State} {core ig slot : Nat} {w : Wave} (h : pendingReady s core ig slot w)
    (ho : ∀ sl v, pendingReady s core ig sl v → w.age < v.age ∨ (w.age = v.age ∧ slot ≤ sl)) :
    s.nextPending core ig = some (slot, w) :=
  oldest_of_least ((igWaves_rising s core ig).filter _) (mem_pendingWaves.2 h) fun q hq => ho q.1 q.2 (mem_pendingWaves.1 hq)

/-! ### Waves held by long-latency events (R32) -/

theorem heldLong_iff (s : State) (k : Nat) : s.heldLong k = true ↔ longHeld s k (s.thread k) := by
  unfold State.heldLong longHeld
  cases (s.thread k).wait <;> simp

theorem waveHeld_iff (s : State) (core slot : Nat) : s.waveHeld core slot = true ↔ allHeld s core slot := by
  simp only [State.waveHeld, State.waveTags, List.all_eq_true, mem_distinct, List.mem_map, forall_exists_index, and_imp,
    forall_apply_eq_imp_iff₂, Bool.and_eq_true, Bool.not_eq_true', List.any_eq_true, heldLong_iff, allHeld]

/-- The held active wave in the lowest slot is the one found (R32; log 60). -/
theorem find_held {s : State} {core ig sl : Nat} {v : Wave} (h : activeAt s core ig sl v) (hh : allHeld s core sl)
    (ho : ∀ j u, activeAt s core ig j u → allHeld s core j → sl ≤ j) :
    (s.activeWaves core ig).find? (fun w => s.waveHeld core w.1) = some (sl, v) := by
  have rising : (s.activeWaves core ig).Pairwise fun a b => a.1 < b.1 := (igWaves_rising s core ig).filter _
  obtain ⟨before, after, he⟩ := List.append_of_mem (mem_activeWaves.2 h)
  rw [he] at rising
  refine List.find?_eq_some_iff_append.2 ⟨(waveHeld_iff ..).2 hh, before, after, he, fun e hb => ?_⟩
  have below : e.1 < sl := (List.pairwise_append.1 rising).2.2 e hb _ (List.mem_cons_self ..)
  have active : activeAt s core ig e.1 e.2 := mem_activeWaves.1 (he ▸ List.mem_append_left _ hb)
  rw [Bool.not_eq_true', ← Bool.not_eq_true, waveHeld_iff]
  exact fun hj => absurd (ho _ _ active hj) (by omega)

/-! ### The exchange of an issue group (R32) -/

theorem waveKey_inj {core a b : Nat} (h : State.waveKey core a = State.waveKey core b) : a = b := by
  unfold State.waveKey at h; omega

theorem lookup_setActive (s : State) (core slot j : Nat) (b : Bool) (since : Nat) :
    lookup (s.setActive core slot b since).waves j = if j = State.waveKey core slot
      then (lookup s.waves (State.waveKey core slot)).map fun w => { w with active := b, since := since } else lookup s.waves j :=
  lookup_adjust ..

theorem exchangeIg_none {s : State} {core ig : Nat} (h : s.nextPending core ig = none) : s.exchangeIg core ig = s := by
  simp only [State.exchangeIg, h]

section Exchange
variable {s : State} {core ig slot : Nat} {w : Wave}

/-- The oldest ready pending wave enters an active set of fewer than 8. -/
theorem exchangeIg_enter (h : s.nextPending core ig = some (slot, w)) (hc : activeCount s core ig < 8) :
    s.exchangeIg core ig = s.setActive core slot true s.clk := by
  simp only [State.exchangeIg, h, activeWaves_length, if_pos hc]

/-- The oldest ready pending wave takes the place of a held one. -/
theorem exchangeIg_swap (h : s.nextPending core ig = some (slot, w)) (hc : 8 ≤ activeCount s core ig) {sl : Nat} {v : Wave}
    (hf : (s.activeWaves core ig).find? (fun w => s.waveHeld core w.1) = some (sl, v)) :
    s.exchangeIg core ig = s.swapWaves core sl slot := by
  simp only [State.exchangeIg, h, activeWaves_length, if_neg (Nat.not_lt.2 hc), hf]

/-- A full active set of which no wave is held, or has had its turn, stays. -/
theorem exchangeIg_full (hc : 8 ≤ activeCount s core ig) (hf : ∀ sl v, activeAt s core ig sl v → ¬allHeld s core sl)
    (ho : s.overdue core ig = none) : s.exchangeIg core ig = s := by
  have hn : (s.activeWaves core ig).find? (fun w => s.waveHeld core w.1) = none := by
    refine List.find?_eq_none.2 fun e he => ?_
    rw [waveHeld_iff]
    exact hf e.1 e.2 (mem_activeWaves.1 he)
  cases h : s.nextPending core ig with
  | none => exact exchangeIg_none h
  | some p => simp only [State.exchangeIg, h, activeWaves_length, if_neg (Nat.not_lt.2 hc), hn, ho]

/-- The waves after an exchange of one slot's wave for another's. -/
theorem lookup_swapWaves {out : Nat} {v : Wave} (hne : out ≠ slot) (hv : lookup s.waves (State.waveKey core out) = some v)
    (hw : lookup s.waves (State.waveKey core slot) = some w) :
    lookup (s.swapWaves core out slot).waves (State.waveKey core slot) = some { w with active := true, since := s.clk + 1 } ∧
      lookup (s.swapWaves core out slot).waves (State.waveKey core out) = some { v with active := false, since := s.clk } ∧
      ∀ j, j ≠ State.waveKey core slot → j ≠ State.waveKey core out → lookup (s.swapWaves core out slot).waves j = lookup s.waves j := by
  have hk : State.waveKey core slot ≠ State.waveKey core out := fun h => hne (waveKey_inj h).symm
  refine ⟨?_, ?_, fun j hs ho => ?_⟩
  · rw [State.swapWaves, lookup_setActive, if_pos rfl, lookup_setActive, if_neg hk, hw]; rfl
  · rw [State.swapWaves, lookup_setActive, if_neg hk.symm, lookup_setActive, if_pos rfl, hv]; rfl
  · rw [State.swapWaves, lookup_setActive, if_neg hs, lookup_setActive, if_neg ho]

end Exchange

/-! ### The end of a NAP (R171) -/

/-- A thread whose NAP is over at a cycle goes on. -/
def napOver (clk : Nat) (th : Thread) : Thread :=
  match th.wait with
  | .nap c => if c ≤ clk then { th with wait := .none } else th
  | _ => th

theorem expireNap_eq (s : State) (core slot tag : Nat) :
    s.expireNap core slot tag = (s.fragment core slot tag).foldl (fun t k => t.modThread k (napOver s.clk)) s := rfl

theorem napOver_past {clk c : Nat} {th : Thread} (hw : th.wait = .nap c) (hc : c ≤ clk) : napOver clk th = { th with wait := .none } := by
  simp only [napOver, hw, if_pos hc]

theorem napOver_future {clk c : Nat} {th : Thread} (hw : th.wait = .nap c) (hc : clk < c) : napOver clk th = th := by
  simp only [napOver, hw, if_neg (Nat.not_le.2 hc)]

theorem napOver_napOver (clk : Nat) (th : Thread) : napOver clk (napOver clk th) = napOver clk th := by
  cases hw : th.wait with
  | nap c =>
    by_cases hc : c ≤ clk
    · rw [napOver_past hw hc]; rfl
    · rw [napOver_future hw (Nat.not_le.1 hc), napOver_future hw (Nat.not_le.1 hc)]
  | _ => simp only [napOver, hw]

/-- Changing some threads keeps the drawer and the registers. -/
theorem foldl_modThread_kept (f : Thread → Thread) (ks : List Nat) (s : State) : Kept s (ks.foldl (fun t k => t.modThread k f) s) := by
  induction ks generalizing s with
  | nil => exact ⟨rfl, rfl⟩
  | cons k ks ih => exact ih (s.modThread k f)

/-- A live thread of a slot is in the fragment of its tag (R21). -/
theorem mem_fragment {s : State} {k : Nat} {th : Thread} (h : lookup s.threads k = some th) (hv : th.status = .live) (hl : th.lane < 32) :
    k ∈ s.fragment th.core th.slot th.tag := by
  have hk : s.thread k = th := State.thread_of_lookup h
  have hm : k ∈ s.waveThreads th.core th.slot :=
    List.mem_map.2 ⟨(k, th), List.mem_filter.2 ⟨mem_of_lookup h, by simp [hv]⟩, rfl⟩
  simp only [State.fragment, List.mem_flatMap, List.mem_range, List.mem_filter, hk, beq_iff_eq]
  exact ⟨th.lane, hl, ⟨hm, trivial⟩, rfl⟩

theorem lookup_expireNap (s : State) (core slot tag k : Nat) : lookup (s.expireNap core slot tag).threads k =
    if k ∈ s.fragment core slot tag then (lookup s.threads k).map (napOver s.clk) else lookup s.threads k := by
  have h := lookup_foldl_modThread (napOver_napOver s.clk) id (s.fragment core slot tag) s k
  rwa [List.map_id] at h

/-! ### Replenishment of a server (R304) -/

theorem lookup_putD_other {α : Type} [DecidableEq α] (d : α) (c : Cells α) {k j : Nat} (x : α) (h : j ≠ k) :
    lookup (putD d c k x) j = lookup c j := by
  unfold putD
  split
  · exact lookup_del_other c h
  · exact lookup_put_other c x h

/-- What a held server becomes at its deadline (R304). -/
def replenished (s : State) (k : SrvKey) : Server :=
  { s.srv k with
    q := (s.srv k).q + (s.srvQ k : Int), d := ((s.srv k).d + s.srvT k) % 2 ^ 48
    held := decide ((s.srv k).q + (s.srvQ k : Int) ≤ 0) }

theorem srvQ_eq (s : State) (k : SrvKey) : s.srvQ k = (s.srvReg k).toNat % 2 ^ 24 := by
  rw [State.srvQ, bits, pow_zero, Nat.div_one]

theorem srvT_eq (s : State) (k : SrvKey) : s.srvT k = (s.srvReg k).toNat / 2 ^ 24 % 2 ^ 24 := rfl

theorem replenish_due {s : State} {k : SrvKey} (hi : s.srvInstalled k = true) (hh : (s.srv k).held = true)
    (hd : (s.srv k).d ≤ s.tick) : s.replenish k = s.setSrv k (replenished s k) := by
  simp only [State.replenish, hi, hh, decide_eq_false (Nat.not_lt.2 hd), Bool.not_true, Bool.or_false, Bool.false_eq_true, if_false,
    Server.renew, Nat.cast_one, one_mul, replenished]

theorem replenish_not_due {s : State} {k : SrvKey} (h : (s.srv k).held = false ∨ s.tick < (s.srv k).d) : s.replenish k = s := by
  have hc : (!s.srvInstalled k || !(s.srv k).held || decide (s.tick < (s.srv k).d)) = true := by
    rcases h with h | h <;> simp [h]
  simp only [State.replenish, hc, if_true]

/-- A thread that waits to try again goes on. -/
def retryWoken (th : Thread) : Thread := if th.wait = .retry then { th with wait := .none } else th

theorem lookup_wakeRetry (s : State) (j : Nat) : lookup s.wakeRetry.threads j =
    (lookup s.threads j).map retryWoken :=
  lookup_mapValues (fun _ => retryWoken) s.threads j

/-! ### Events of a context (R290, R299) -/

/-- A thread of a context that waits for an event which has come goes on. -/
def eventWoken (ev : BitVec 5) (c : Nat) (th : Thread) : Thread :=
  match th.wait with
  | .event m => if th.ctx == c && ev &&& m != 0 then { th with wait := .none } else th
  | _ => th

theorem lookup_wakeEvents (s : State) (c k : Nat) :
    lookup (s.wakeEvents c).threads k = (lookup s.threads k).map (eventWoken (s.events c) c) :=
  lookup_mapValues (fun _ => eventWoken (s.events c) c) s.threads k

theorem eventWoken_come {ev m : BitVec 5} {c : Nat} {th : Thread} (hw : th.wait = .event m) (hc : th.ctx = c) (he : ev &&& m ≠ 0) :
    eventWoken ev c th = { th with wait := .none } := by
  have come : (th.ctx == c && ev &&& m != 0) = true :=
    Bool.and_eq_true_iff.2 ⟨beq_iff_eq.2 hc, bne_iff_ne.2 he⟩
  simp only [eventWoken, hw, come, if_true]

theorem eventWoken_other {ev : BitVec 5} {c : Nat} {th : Thread}
    (h : (∀ m, th.wait ≠ .event m) ∨ th.ctx ≠ c ∨ ∀ m, th.wait = .event m → ev &&& m = 0) : eventWoken ev c th = th := by
  cases hw : th.wait with
  | event m =>
    have hn : ¬(th.ctx = c ∧ ev &&& m ≠ 0) := by
      rintro ⟨hc, he⟩
      rcases h with h | h | h
      · exact h m hw
      · exact h hc
      · exact he (h m hw)
    simpa [eventWoken, hw] using fun hc he => absurd ⟨hc, he⟩ hn
  | _ => simp only [eventWoken, hw]

/-- A context's TIME event has come when the tick has reached CTXEVT (R290). -/
theorem events_time {s : State} {c : Nat} (h : (s.reg 0x1006 c).toNat ≤ s.tick) : (s.events c).getLsbD 2 = true := by
  simp [State.events, h]

/-! ### O54, clause by clause -/

theorem hamperAged_ages {s : State} {core e : Nat} {h : Hamper} (hl : lookup (s.core core).hampers e = some h)
    (ha : h.aged = false) (hx : ∃ x ∈ h.ths, x.2 + 256 ≤ s.clk) : ∃ t g, exec (.hamperAged core e) s = .next t ∧ Kept s t ∧
      t.threads = s.threads ∧ lookup (t.core core).hampers e = some g ∧ g.aged = true ∧ g.ths = h.ths ∧ g.target = h.target ∧
      g.gid = h.gid ∧ g.forced = h.forced := by
  have hd := ageHamper_due hl ((ageDue_iff s h).2 ⟨ha, hx⟩)
  refine ⟨s.ageHamper core e, agedHamper s h, rfl, ?_⟩
  rw [hd, core_modCore, lookup_put_same]
  exact ⟨⟨rfl, rfl⟩, rfl, rfl, rfl, rfl, rfl, rfl, rfl⟩

theorem hamperAged_waits {s : State} {core e : Nat} {h : Hamper} (hl : lookup (s.core core).hampers e = some h)
    (hx : ∀ x ∈ h.ths, s.clk < x.2 + 256) : exec (.hamperAged core e) s = .next s := by
  have hd : s.ageDue h = false := Bool.eq_false_iff.2 fun hd => by
    obtain ⟨-, x, hm, hle⟩ := (ageDue_iff s h).1 hd
    have := hx x hm
    omega
  exact congrArg _ (ageHamper_not_due hl hd)

/-- HAMPER_DRAW of the one hamper that may be drawn, into a vacant lowest slot (R27, R28). -/
theorem hamperDraw_draws {s : State} {core e sl : Nat} {rest : List Nat} {h : Hamper} (hn : (keysOf (s.core core).hampers).Nodup)
    (hl : lookup (s.core core).hampers e = some h) (hm : mayDraw s h) (hd : (s.core core).lastDraw ≠ some s.clk)
    (ho : ∀ x ∈ (s.core core).hampers, x.1 ≠ e → ¬mayDraw s x.2) (hs : (s.group h.gid).slots = sl :: rest)
    (hr : ∀ x ∈ rest, sl ≤ x) (hu : (h.ths.map Prod.fst).Nodup)
    (hv : ∀ x ∈ s.threads, x.2.core = core → x.2.slot = sl → x.2.hidx = 0 ∧ x.2.status ≠ .live)
    (hk : ∀ x ∈ h.ths, ∃ th, lookup s.threads x.1 = some th ∧ th.hidx = 0) :
    ∃ t w, exec (.hamperDraw core) s = .next t ∧ Kept s t ∧ (t.core core).lastDraw = some s.clk ∧
      lookup t.waves (State.waveKey core sl) = some w ∧ w.gid = h.gid ∧
      (∀ x ∈ h.ths, ∀ th, lookup s.threads x.1 = some th →
        (firstOfLane s h x → lookup t.threads x.1 = some (placed sl (homeOfThread s x.1) s.fresh h.target th)) ∧
        (¬firstOfLane s h x → lookup t.threads x.1 = some th)) ∧
      ((∀ x ∈ h.ths, firstOfLane s h x) → lookup (t.core core).hampers e = none) ∧
      ((∃ x ∈ h.ths, ¬firstOfLane s h x) → ∃ g, lookup (t.core core).hampers e = some g ∧ g.target = h.target ∧ g.gid = h.gid ∧
        ∀ x, x ∈ g.ths ↔ x ∈ h.ths ∧ ¬firstOfLane s h x) := by
  have filed : ∀ k ∈ (drawn s h).map Prod.snd, ∃ th, lookup s.threads k = some th ∧ th.hidx = 0 := by
    intro k hk'
    obtain ⟨_, he, rfl⟩ := List.mem_map.1 hk'
    obtain ⟨x, hx, -, rfl⟩ := mem_drawn.1 he
    exact hk x hx
  obtain ⟨kept, cores, waves, threads⟩ := drawHamper_effect (e := e) hs hr hv filed
  have core_after : (s.drawHamper core e h).core core = coreDrawn s e h (s.core core) := by
    rw [State.core, cores]; exact core_modCore ..
  refine ⟨s.drawHamper core e h, drawnWave (s.modCore core (coreDrawn s e h)) core sl h, congrArg _ (drawNext_only hn hl hm hd ho),
    kept, ?_, ?_, rfl, fun x hx th hth => ?_, fun hf => ?_, fun ⟨x, hx, hf⟩ => ?_⟩
  · rw [core_after, coreDrawn_lastDraw]
  · rw [waves]; exact lookup_put_same ..
  · rw [threads, hth]
    exact ⟨fun hf => if_pos ((mem_drawn_keys hu hx).2 hf), fun hf => if_neg fun hd => hf ((mem_drawn_keys hu hx).1 hd)⟩
  · rw [core_after]
    exact coreDrawn_none (List.eq_nil_iff_forall_not_mem.2 fun x hx =>
      ((mem_undrawn hu).1 hx).2 (hf x ((mem_undrawn hu).1 hx).1)) ..
  · rw [core_after]
    exact ⟨_, coreDrawn_some (List.ne_nil_of_mem ((mem_undrawn hu).2 ⟨hx, hf⟩)) .., rfl, rfl, fun x => mem_undrawn hu⟩

/-- WAVE_EXCHANGE with an oldest ready pending wave (R32; log 60). -/
theorem waveExchange_oldest {s : State} {core ig slot : Nat} {w : Wave} (h : pendingReady s core ig slot w)
    (ho : ∀ sl v, pendingReady s core ig sl v → w.age < v.age ∨ (w.age = v.age ∧ slot ≤ sl)) :
    (activeCount s core ig < 8 → ∃ t, exec (.waveExchange core ig) s = .next t ∧ t.threads = s.threads ∧
      lookup t.waves (State.waveKey core slot) = some { w with active := true, since := s.clk } ∧
      ∀ j, j ≠ State.waveKey core slot → lookup t.waves j = lookup s.waves j) ∧
    (∀ sl v, 8 ≤ activeCount s core ig → activeAt s core ig sl v → allHeld s core sl →
      (∀ j u, activeAt s core ig j u → allHeld s core j → sl ≤ j) → ∃ t,
      exec (.waveExchange core ig) s = .next t ∧ t.threads = s.threads ∧
      lookup t.waves (State.waveKey core slot) = some { w with active := true, since := s.clk + 1 } ∧
      lookup t.waves (State.waveKey core sl) = some { v with active := false, since := s.clk } ∧
      ∀ j, j ≠ State.waveKey core slot → j ≠ State.waveKey core sl → lookup t.waves j = lookup s.waves j) := by
  have next := nextPending_some h ho
  obtain ⟨-, -, found, pending, -⟩ := h
  refine ⟨fun hc => ⟨s.setActive core slot true s.clk, congrArg _ (exchangeIg_enter next hc), rfl, ?_, fun j hj => ?_⟩,
    fun sl v hc active held lowest => ⟨s.swapWaves core sl slot,
      congrArg _ (exchangeIg_swap next hc (find_held active held lowest)), rfl, ?_⟩⟩
  · rw [lookup_setActive, if_pos rfl, found]; rfl
  · rw [lookup_setActive, if_neg hj]
  · obtain ⟨-, -, foundOut, isActive, -⟩ := active
    have hne : sl ≠ slot := by
      rintro rfl
      rw [found] at foundOut
      cases foundOut
      rw [pending] at isActive
      cases isActive
    exact lookup_swapWaves hne foundOut found

theorem napExpire_effect (s : State) (core slot tag : Nat) : ∃ t, exec (.napExpire core slot tag) s = .next t ∧ Kept s t ∧
    ∀ k th, lookup s.threads k = some th →
      (∀ c, th.core = core → th.slot = slot → th.tag = tag → th.status = .live → th.lane < 32 → th.wait = .nap c → c ≤ s.clk →
        lookup t.threads k = some { th with wait := .none }) ∧
      (∀ c, th.wait = .nap c → s.clk < c → lookup t.threads k = some th) := by
  refine ⟨s.expireNap core slot tag, rfl, foldl_modThread_kept .., fun k th hth => ⟨?_, fun c hw hc => ?_⟩⟩
  · rintro c rfl rfl rfl hv hlane hw hc
    rw [lookup_expireNap, if_pos (mem_fragment hth hv hlane), hth, Option.map_some, napOver_past hw hc]
  · rw [lookup_expireNap, hth, Option.map_some, napOver_future hw hc, ite_self]

theorem serverReplenish_due {s : State} {k : SrvKey} (hi : s.srvInstalled k = true) (hh : (s.srv k).held = true)
    (hd : (s.srv k).d ≤ s.tick) : ∃ t, exec (.serverReplenish k) s = .next t ∧ Kept s t ∧ t.srv k = replenished s k ∧
      (∀ j, j ≠ srvNat k → lookup t.servers j = lookup s.servers j) ∧
      ∀ j th, lookup s.threads j = some th → lookup t.threads j = some (retryWoken th) := by
  refine ⟨(s.setSrv k (replenished s k)).wakeRetry, ?_, ⟨rfl, rfl⟩, ?_, fun j hj => lookup_putD_other _ _ _ hj, fun j th hth => ?_⟩
  · rw [← replenish_due hi hh hd]; rfl
  · exact (lookupD_putD ..).trans (if_pos rfl)
  · rw [lookup_wakeRetry]; exact congrArg (Option.map retryWoken) hth

theorem serverReplenish_not_due {s : State} {k : SrvKey} (h : (s.srv k).held = false ∨ s.tick < (s.srv k).d) :
    ∃ t, exec (.serverReplenish k) s = .next t ∧ t.servers = s.servers ∧ Kept s t := by
  refine ⟨s.wakeRetry, ?_, rfl, rfl, rfl⟩
  conv_rhs => rw [← replenish_not_due h]
  rfl

/-- Settles O54, each event by what it makes of the tables of hampers, waves, servers and threads. -/
theorem scheduleEvents : Obligations.ScheduleEvents := by
  unfold Obligations.ScheduleEvents
  refine ⟨fun s core e h hl => ⟨hamperAged_ages hl, hamperAged_waits hl⟩, fun s core h => congrArg _ (drawNext_none h),
    fun s core e sl rest h hn hl hm hd _ ho hs hr hu hv hk => hamperDraw_draws hn hl hm hd ho hs hr hu hv hk,
    fun s core ig h => congrArg _ (exchangeIg_none (nextPending_none h)),
    fun s core ig slot w h ho => ⟨(waveExchange_oldest h ho).1, (waveExchange_oldest h ho).2,
      fun hc hf hover => congrArg _ (exchangeIg_full hc hf hover)⟩,
    napExpire_effect, fun s k => ⟨fun hi hh hd => ?_, serverReplenish_not_due⟩, fun s c => ⟨events_time, s.wakeEvents c, rfl, ⟨rfl, rfl⟩,
      fun k th hth => ⟨fun m hw hc he => ?_, fun h => ?_⟩⟩⟩
  · rw [← srvQ_eq, ← srvT_eq]
    exact serverReplenish_due hi hh hd
  · rw [lookup_wakeEvents, hth, Option.map_some, eventWoken_come hw hc he]
  · rw [lookup_wakeEvents, hth, Option.map_some, eventWoken_other h]

end Sys2Proof.Machine

/-!
The register file (O9; R37, R40, R41): what each read gives behind each write of Operands.lean.
-/
namespace Sys2Proof.Machine

/-- Bit n of a word whose bits from k up under a mask are set anew. -/
theorem getLsbD_insert (p m x : BitVec 96) (k : Nat) {n : Nat} (hn : n < 96) :
    ((p &&& ~~~(m <<< k)) ||| (x <<< k)).getLsbD n =
      if k ≤ n then (p.getLsbD n && !m.getLsbD (n - k)) || x.getLsbD (n - k) else p.getLsbD n := by
  simp only [BitVec.getLsbD_or, BitVec.getLsbD_and, BitVec.getLsbD_not, BitVec.getLsbD_shiftLeft, hn, decide_true, Bool.true_and]
  rcases Nat.lt_or_ge n k with h | h
  · simp [h, Nat.not_le.2 h]
  · simp [h, Nat.not_lt.2 h]

namespace Thread

section
variable (th : Thread) (d r : Reg) (b : Bool)

/-! ### Vector registers, pairs and quads (R37) -/

@[simp] theorem rvn_wvn (n m : Nat) (x : Word) : (th.wvn n x).rvn m = if m = n then x else th.rvn m :=
  lookupD_putD 0 th.v n m x

theorem rv_wv (x : Word) : (th.wv d x).rv r = if r = d then x else th.rv r := by
  have h : (th.wv d x).rv r = if r.toNat = d.toNat then x else th.rv r := th.rvn_wvn d.toNat r.toNat x
  rw [h]
  simp only [BitVec.toNat_inj]

theorem rvn_ww_other (y : DWord) {n : Nat} (h0 : n ≠ d.toNat) (h1 : n ≠ d.toNat + 1) : (th.ww d y).rvn n = th.rvn n := by
  simp [ww, h0, h1]

theorem rw_ww (y : DWord) : (th.ww d y).rw d = y := by
  have h : (th.ww d y).rw d = y.extractLsb' 32 32 ++ y.extractLsb' 0 32 := by simp [rw, ww]
  rw [h, BitVec.extractLsb'_append_extractLsb'_eq_extractLsb' (by rfl)]
  exact BitVec.extractLsb'_eq_self

theorem rvn_wx_other (z : BitVec 128) {n : Nat} (h : ¬(d.toNat ≤ n ∧ n < d.toNat + 4)) : (th.wx d z).rvn n = th.rvn n := by
  have h0 : n ≠ d.toNat := by omega
  have h1 : n ≠ d.toNat + 1 := by omega
  have h2 : n ≠ d.toNat + 2 := by omega
  have h3 : n ≠ d.toNat + 3 := by omega
  simp [wx, h0, h1, h2, h3]

theorem rx_wx (z : BitVec 128) : (th.wx d z).rx d = z := by
  have h : (th.wx d z).rx d =
      z.extractLsb' 96 32 ++ z.extractLsb' 64 32 ++ z.extractLsb' 32 32 ++ z.extractLsb' 0 32 := by simp [rx, wx]
  rw [h, BitVec.extractLsb'_append_extractLsb'_eq_extractLsb' (by rfl),
    BitVec.extractLsb'_append_extractLsb'_eq_extractLsb' (by rfl), BitVec.extractLsb'_append_extractLsb'_eq_extractLsb' (by rfl)]
  exact BitVec.extractLsb'_eq_self

/-! ### Predicates (R40, R164) -/

theorem rp_pT : th.rp 127 = true := if_pos rfl
theorem wp_pT : th.wp 127 b = th := if_pos rfl
theorem rp_of_ne {r : Reg} (h : r ≠ 127) : th.rp r = th.p.getLsbD r.toNat := if_neg h

/-- A written predicate other than pT changes its own bit alone; a number past p95 names none. -/
theorem getLsbD_wp {d : Reg} (hd : d ≠ 127) {n : Nat} (hn : n < 96) :
    (th.wp d b).p.getLsbD n = if n = d.toNat then b else th.p.getLsbD n := by
  have hw : th.wp d b = { th with p := (th.p &&& ~~~(1#96 <<< d.toNat)) ||| ((b1 b).zeroExtend 96 <<< d.toNat) } := if_neg hd
  have hb : ((b1 b).zeroExtend 96).getLsbD (n - d.toNat) = (decide (n - d.toNat = 0) && b) := by
    cases b <;> simp [b1, Bool.and_comm]
  rw [hw, getLsbD_insert _ _ _ _ hn, hb, BitVec.getLsbD_one]
  rcases Nat.lt_trichotomy n d.toNat with h | h | h
  · rw [if_neg (by omega), if_neg h.ne]
  · simp [h]
  · simp [h.le, h.ne', Nat.sub_ne_zero_of_lt h]

theorem rp_wp_same {d : Reg} (hd : d.toNat < 96) : (th.wp d b).rp d = b := by
  have h : d ≠ 127 := by rintro rfl; exact absurd hd (by decide)
  rw [rp_of_ne _ h, getLsbD_wp _ _ h hd, if_pos rfl]

theorem rp_wp_other {d r : Reg} (hne : r ≠ d) (hr : r.toNat < 96) : (th.wp d b).rp r = th.rp r := by
  by_cases hd : d = 127
  · rw [hd, wp_pT]
  · have h : r ≠ 127 := by rintro rfl; exact absurd hr (by decide)
    rw [rp_of_ne _ h, rp_of_ne _ h, getLsbD_wp _ _ hd hr, if_neg fun e => hne (BitVec.eq_of_toNat_eq e)]

theorem getLsbD_wpg (x : Word) {n : Nat} (hn : n < 96) : (th.wpg d x).p.getLsbD n =
    if d.toNat ≤ n ∧ n < d.toNat + 32 then x.getLsbD (n - d.toNat) else th.p.getLsbD n := by
  have hm : (0xFFFFFFFF#96).getLsbD (n - d.toNat) = decide (n - d.toNat < 32) := by
    rw [BitVec.getLsbD_ofNat, show 0xFFFFFFFF = 2 ^ 32 - 1 from rfl, Nat.testBit_two_pow_sub_one]
    simp; omega
  have hx : (x.zeroExtend 96).getLsbD (n - d.toNat) = x.getLsbD (n - d.toNat) := by
    rw [BitVec.getLsbD_setWidth, decide_eq_true (by omega), Bool.true_and]
  rw [wpg, getLsbD_insert _ _ _ _ hn, hm, hx]
  by_cases h : d.toNat ≤ n ∧ n < d.toNat + 32
  · have : n - d.toNat < 32 := by omega
    simp [h, this]
  · rw [if_neg h]
    split
    · rw [BitVec.getLsbD_of_ge x (n - d.toNat) (by omega), decide_eq_false (by omega)]
      simp
    · rfl

theorem rpg_eq_extract (a : Reg) : th.rpg a = th.p.extractLsb' a.toNat 32 := by
  ext i hi
  simp [rpg]
end

/-! ### Accumulators (R41) -/

section
variable (th : Thread) (d r : Reg)

/-- An element reads back what was written, and a write reaches no other element. -/
theorem ra_wa (x : Word) {n m : Nat} (hn : n < 16) (hm : m < 16) :
    (th.wa d n x).ra r m = if r = d ∧ m = n then x else th.ra r m := by
  have h : (th.wa d n x).ra r m = if 16 * r.toNat + m = 16 * d.toNat + n then x else th.ra r m := lookupD_putD ..
  have hk : 16 * r.toNat + m = 16 * d.toNat + n ↔ r = d ∧ m = n := by
    rw [← BitVec.toNat_inj]; omega
  simp only [h, hk]

/-- Elements written from e up. -/
theorem ra_warow {l : List Word} {e m : Nat} (hl : e + l.length ≤ 16) (hm : m < 16) : (th.warow d e l).ra r m =
    if r = d ∧ e ≤ m ∧ m < e + l.length then l.getD (m - e) 0 else th.ra r m := by
  induction l generalizing th e with
  | nil =>
    rw [if_neg (by rw [List.length_nil]; omega)]
    rfl
  | cons x l ih =>
    rw [List.length_cons] at hl ⊢
    rw [show th.warow d e (x :: l) = (th.wa d e x).warow d (e + 1) l from rfl, ih _ (by omega), ra_wa _ _ _ _ (by omega) hm]
    by_cases hr : r = d
    · simp only [hr, true_and]
      rcases Nat.lt_trichotomy m e with h | rfl | h
      · rw [if_neg (by omega), if_neg (by omega), if_neg (by omega)]
      · rw [if_neg (by omega), if_pos rfl, if_pos (by omega), Nat.sub_self, List.getD_cons_zero]
      · obtain ⟨j, rfl⟩ : ∃ j, m = e + 1 + j := ⟨m - (e + 1), by omega⟩
        rw [if_neg (c := e + 1 + j = e) (by omega), Nat.add_sub_cancel_left, Nat.add_assoc e 1 j, Nat.add_sub_cancel_left,
          Nat.add_comm 1 j, List.getD_cons_succ]
        exact if_congr (by omega) rfl rfl
    · simp only [hr, false_and, if_false]

theorem ra_warow_zero {l : List Word} {m : Nat} (hl : l.length = 16) (hm : m < 16) :
    (th.warow d 0 l).ra r m = if r = d then l.getD m 0 else th.ra r m := by
  have hx : r = d ∧ 0 ≤ m ∧ m < 0 + l.length ↔ r = d := ⟨fun h => h.1, fun h => ⟨h, by omega, by omega⟩⟩
  rw [ra_warow _ _ _ (by omega) hm, Nat.sub_zero]
  simp only [hx]
end

end Thread

/-- Settles O9, clause by clause from the rules of the register file. -/
theorem registerFile : Obligations.RegisterFile := fun th d r x y z b =>
  ⟨th.rv_wv d r x, th.rw_ww d y, fun _ => th.rvn_ww_other d y, th.rx_wx d z, fun _ => th.rvn_wx_other d z, th.rp_pT, th.wp_pT b,
    th.rp_wp_same b, th.rp_wp_other b, fun _ _ => th.getLsbD_wpg d x⟩

end Sys2Proof.Machine

/-!
Instructions that rewrite their own threads (O8, O36; R41, R44, R47, R164, R165, R225, R226).
-/
namespace Sys2Proof.Machine
open Sys2Proof.Safety Sys2Proof.Terms

/-- An instruction whose body changes its thread by a function of the state before and of the thread is a rewrite by that function,
in whatever words the function is given. -/
theorem rewrites_of_exec {i : Instr} (f : State → Nat → Thread → Thread) {g : State → Nat → Thread → Thread}
    (he : ∀ s, exec i s = issue i (onThread fun env k => f env.before k) s) (hg : ∀ s k th, f s k th = g s k th) :
    Rewrites i g := by
  obtain rfl : f = g := funext fun s => funext fun k => funext fun th => hg s k th
  intro s hs
  rw [he]
  exact issue_onThread hs _

/-! ### Identity (R44, R165) -/

/-- The issue cycles left, as a 64-bit value, are those of the table of R44. -/
theorem srvqValue_toNat (s : State) (th : Thread) : BitVec.ofNat 64 (srvqValue s th).toNat =
    if s.srvInstalled (s.igKey th.ctx th.core th.slot) then
      BitVec.ofNat 64 ((s.srv (s.igKey th.ctx th.core th.slot)).q.toNat % 4294967296) else 0xFFFFFFFF := by
  unfold srvqValue
  dsimp only
  split
  · rw [BitVec.toNat_ofNat]
  · rfl

/-- The ID values are the rows of the table of R44. -/
theorem idValue_eq_ident (s : State) (th : Thread) {code : BitVec 8} (h : code.toNat ≤ 17) :
    idValue s th code = ((ident s th).lookup code.toNat).getD 0 := by
  unfold idValue
  generalize code.toNat = n at h
  match n, h with
  | 11, _ =>
    change BitVec.ofNat 64 (s.fld 0xB001 0 6 0) = BitVec.ofNat 64 ((s.reg 0xB001 0).toNat % 128)
    rw [State.fld, bits, Nat.pow_zero, Nat.div_one]
    rfl
  | 14, _ => exact srvqValue_toNat s th
  | 16, _ =>
    change BitVec.ofNat 64 (s.pktOf th).prot.toNat = if (s.pktOf th).prot then 1 else 0
    cases (s.pktOf th).prot <;> rfl
  | 0, _ | 1, _ | 2, _ | 3, _ | 4, _ | 5, _ | 6, _ | 7, _ | 8, _ | 9, _ | 10, _ | 12, _ | 13, _ | 15, _ | 17, _ => rfl
  | n + 18, h => omega

/-- Settles O8: each body is a function of the thread, and GETID's value is a row of R44's table (`idValue_eq_ident`). -/
theorem predicateMoveAndIdentityResults : Obligations.PredicateMoveAndIdentityResults := by
  intro h d a
  refine ⟨?_, ?_, ?_, ?_, fun code hc => ?_⟩
  · exact rewrites_of_exec (fun _ _ th => th.wv d (th.rpg a)) (fun _ => rfl) fun _ _ th => by rw [th.rpg_eq_extract]
  · exact rewrites_of_exec (fun _ _ th => th.wv d (boolWord (th.rp a))) (fun _ => rfl) fun _ _ _ => rfl
  · exact rewrites_of_exec (fun _ _ th => th.wpg d (th.rv a)) (fun _ => rfl) fun _ _ _ => rfl
  · refine rewrites_of_exec (fun _ _ th => th.wp d (th.rv a != 0)) (fun _ => rfl) fun _ _ th => ?_
    have hne : (th.rv a != 0) = decide (th.rv a ≠ 0) := by rw [Bool.eq_iff_iff, bne_iff_ne, decide_eq_true_iff]
    rw [hne]
  · refine rewrites_of_exec (fun s _ th => th.wvw (code == 12 || code == 13) d (idValue s th code)) (fun _ => rfl) fun s _ th => ?_
    rw [idValue_eq_ident s th hc]
    simp [Thread.wvw]

/-! ### Accumulators (R225, R226) -/

/-- The elements of an accumulator, each changed by a function. -/
theorem rarow_map {α : Type} (th : Thread) (a : Reg) (f : Word → α) :
    (th.rarow a).map f = (List.range 16).map fun n => f (th.ra a n) := by
  rw [Thread.rarow, List.map_map]; rfl

/-- The elements of an accumulator, gathered lowest first. -/
theorem rarow_foldl {α : Type} (th : Thread) (a : Reg) (f : α → Word → α) (x : α) :
    (th.rarow a).foldl f x = (List.range 16).foldl (fun y n => f y (th.ra a n)) x := by
  rw [Thread.rarow, List.foldl_map]

/-- Settles O36: the accumulator file by `ra_wa` and `ra_warow_zero`, each instruction as a function of its thread. -/
theorem accumulatorResults : Obligations.AccumulatorResults := by
  intro h md d a b e
  refine ⟨fun th x r n m => th.ra_wa d r x, fun th l r m => th.ra_warow_zero d r, ?_, ?_, ?_, ?_⟩
  · exact rewrites_of_exec (fun _ _ th => th.warow d 0 (List.replicate 16 0)) (fun _ => rfl) fun _ _ _ => rfl
  · exact rewrites_of_exec (fun _ _ th => th.wv d (th.ra a e.toNat)) (fun _ => rfl) fun _ _ _ => rfl
  · exact rewrites_of_exec (fun _ _ th => th.wa d e.toNat (th.rv a)) (fun _ => rfl) fun _ _ _ => rfl
  · refine rewrites_of_exec (fun _ _ th =>
      let r (x : Word) : Nat × Flags := fMul .f32 md x.toNat (th.rv b).toNat
      (th.warow d 0 ((th.rarow a).map fun x => BitVec.ofNat 32 (r x).1)).raise ((th.rarow a).foldl (fun f x => f ||| (r x).2) 0))
      (fun _ => rfl) fun _ _ th => ?_
    dsimp only
    rw [rarow_map, rarow_foldl]
    rfl

end Sys2Proof.Machine

/-!
HJOIN (O42; R43, R112, R250, R251): the tree that combines the contributions, and what each branch of the body leaves of the one
thread at hand.
-/
namespace Sys2Proof.Machine
open Sys2Proof.Safety Sys2Proof.Terms

/-! ### The tree (R112) -/

theorem node_eq (comb : Word → Word → Word × BitVec 5) (a b : Option (Word × BitVec 5)) :
    node comb a b = nodeAll comb a b := by
  cases a <;> cases b <;> rfl

/-- One level of the tree over the slots of a list folds neighbours together. -/
theorem treeLevel_range (comb : Word → Word → Word × BitVec 5) (f : Nat → Option (Word × BitVec 5)) (n : Nat) :
    treeLevel comb ((List.range (2 * n)).map f) = (List.range n).map fun i => node comb (f (2 * i)) (f (2 * i + 1)) := by
  induction n generalizing f with
  | zero => rfl
  | succ n ih =>
    have hl : (List.range (2 * (n + 1))).map f = f 0 :: f 1 :: (List.range (2 * n)).map fun i => f (i + 2) := by
      rw [Nat.mul_succ, List.range_succ_eq_map, List.range_succ_eq_map]
      simp
    rw [hl, treeLevel, ih, List.range_succ_eq_map]
    simp [Nat.mul_succ, Nat.add_right_comm]

/-- Level k of the tree of R112 over all slots. -/
def treeStep (comb : Word → Word → Word × BitVec 5) (y : Nat → Option (Word × BitVec 5)) (k : Nat) :
    Nat → Option (Word × BitVec 5) :=
  fun i => if i % 2 ^ (k + 1) = 0 then nodeAll comb (y i) (y (i + 2 ^ k)) else y i

theorem tree_eq_foldl (comb : Word → Word → Word × BitVec 5) (n : Nat) (y : Nat → Option (Word × BitVec 5)) :
    tree comb n y = (List.range' 0 n).foldl (treeStep comb) y := by
  rw [← List.range_eq_range']
  rfl

/-- The list holds every 2^k-th slot: the root of its tree is slot 0 behind the levels from k up. -/
theorem treeRoot_eq_foldl (comb : Word → Word → Word × BitVec 5) (n k : Nat) (y : Nat → Option (Word × BitVec 5)) :
    treeRoot comb n ((List.range (2 ^ n)).map fun i => y (i * 2 ^ k)) = (List.range' k n).foldl (treeStep comb) y 0 := by
  induction n generalizing k y with
  | zero => simp [treeRoot]
  | succ n ih =>
    have hl : treeLevel comb ((List.range (2 ^ (n + 1))).map fun i => y (i * 2 ^ k)) =
        (List.range (2 ^ n)).map fun i => treeStep comb y k (i * 2 ^ (k + 1)) := by
      rw [Nat.pow_succ', treeLevel_range]
      refine List.map_congr_left fun i _ => ?_
      have h0 : 2 * i * 2 ^ k = i * 2 ^ (k + 1) := by ring
      have h1 : (2 * i + 1) * 2 ^ k = i * 2 ^ (k + 1) + 2 ^ k := by ring
      rw [treeStep, if_pos (Nat.mul_mod_left ..), node_eq, h0, h1]
    rw [treeRoot, hl, ih, List.range'_succ, List.foldl_cons]

/-- The root of the list's tree is slot 0 of the tree of R112. -/
theorem treeRoot_eq_tree (comb : Word → Word → Word × BitVec 5) (n : Nat) (y : Nat → Option (Word × BitVec 5)) :
    treeRoot comb n ((List.range (2 ^ n)).map y) = tree comb n y 0 := by
  have h := treeRoot_eq_foldl comb n 0 y
  simp only [pow_zero, mul_one] at h
  rw [h, tree_eq_foldl]

/-! ### The combination (R189, R241, R250) -/

theorem extTy_s32 (x : Word) : extTy .s32 x.toNat = num .s32 x := by
  rw [extTy_signed _ _ rfl]
  exact (BitVec.toInt_eq_toNat_bmod x).symm

theorem narrowTy_s32 (y : Int) : narrowTy .s32 y = word .s32 y := by
  rw [narrowTy_signed _ _ rfl]
  exact ofInt_of_emod (Int.bmod_emod ..)

/-- The words the reductions of a HIRE make of two numbers are those of R189. -/
theorem reduceInt_s32 (op : RedOp) (a b : Word) : (reduceInt op .s32 false a b, (0 : Flags)) = combine op .s32 false .rn a b := by
  cases op
  case and | or | xor => rfl
  case add => simp only [reduceInt, aluAdd, narrowSat, satTy, Bool.false_eq_true, if_false, extTy_s32, narrowTy_s32]; rfl
  case min => simp only [reduceInt, aluMin, extTy_s32, narrowTy_s32]; rfl
  case max => simp only [reduceInt, aluMax, extTy_s32, narrowTy_s32]; rfl

/-- The reduction that a COMB code names is the one R241 gives it. -/
theorem combWord_eq_combine (comb : Comb) : combWord comb = combine (combOf comb).1 (combOf comb).2 false .rn := by
  cases comb
  case addF32 | and | or | xor => rfl
  all_goals exact funext fun a => funext fun b => reduceInt_s32 _ a b

/-- Slot j of the tree of HJOIN: the recruiter's own word, then the helpers' contributions (R250). -/
def hireSlot (own : Word) (contrib : Cells Word) (j : Nat) : Option (Word × BitVec 5) :=
  if j = 0 then some (own, 0) else if j < 32 then (lookup contrib j).map fun w => (w, 0) else none

theorem combined_eq_tree (comb : Comb) (own : Word) (contrib : Cells Word) : combined comb own contrib =
    (tree (combine (combOf comb).1 (combOf comb).2 false .rn) 5 (hireSlot own contrib) 0).getD (own, 0) := by
  rw [← treeRoot_eq_tree, ← combWord_eq_combine]
  unfold combined
  refine congrArg (fun l => (treeRoot (combWord comb) 5 l).getD (own, 0)) (List.map_congr_left fun j hj => ?_)
  rw [hireSlot, if_pos (List.mem_range.1 hj)]

/-! ### One thread alone, by what its body answers -/

theorem settle_onlyThreads (s0 s : State) (ran : Bool) : OnlyThreads s (settle s0 s ran) := by
  unfold OnlyThreads; rw [settle_eq]

section
variable {i : Instr} {s : State} {k : Nat} {th : Thread} {body : Body}

theorem thread_advanced (h : Alone i s k th) : (s.modThread k (advance i)).thread k = advance i th :=
  State.thread_of_lookup (by rw [State.lookup_modThread, if_pos rfl, h.here]; rfl)

/-- The one thread is changed behind the instruction. -/
theorem exec_done_alone (h : Alone i s k th) (he : exec i s = issue i body s) (f : Thread → Thread)
    (hb : body ⟨s, [k], ordersLanes i.raw.op⟩ k (s.modThread k (advance i)) =
      .done ((s.modThread k (advance i)).modThread k f)) :
    ∃ t, exec i s = .next t ∧ OnlyThreads s t ∧ OthersKept s t k ∧ lookup t.threads k = some (f (advance i th)) := by
  refine ⟨_, he.trans (issue_done h body hb), settle_onlyThreads s _ true, fun j hj => ?_, ?_⟩
  · rw [settle_threads, othersKept_modThread _ k _ j hj, othersKept_modThread s k _ j hj]
  · rw [settle_threads, State.lookup_modThread, if_pos rfl, State.lookup_modThread, if_pos rfl, h.here]; rfl

/-- The one thread waits at the instruction. -/
theorem exec_hold_alone (h : Alone i s k th) (he : exec i s = issue i body s) {w : Wait}
    (hb : body ⟨s, [k], ordersLanes i.raw.op⟩ k (s.modThread k (advance i)) = .hold (s.modThread k (advance i)) w) :
    ∃ t u, exec i s = .next t ∧ lookup t.threads k = some u ∧ OnlyThreads s t ∧ OthersKept s t k ∧
      SameRegs u { th with wait := w } ∧ u.hire = th.hire := by
  refine ⟨_, { unadvance th (advance i th) with wait := w, since := s.clk }, he.trans (issue_hold h body hb), ?_,
    settle_onlyThreads s _ _, fun j hj => ?_, ⟨rfl, rfl, rfl, rfl, rfl, rfl, rfl, rfl, rfl, rfl⟩, rfl⟩
  · rw [settle_threads, State.lookup_modThread, if_pos rfl, State.lookup_modThread, if_pos rfl, h.here]; rfl
  · rw [settle_threads, othersKept_modThread _ k _ j hj, othersKept_modThread s k _ j hj]

/-- The one thread traps at the instruction. -/
theorem exec_trap_alone (h : Alone i s k th) (he : exec i s = issue i body s) (hc : canTrap s th) {c : BitVec 8} {v : DWord}
    {x : Word} (hb : body ⟨s, [k], ordersLanes i.raw.op⟩ k (s.modThread k (advance i)) = .trap c v x) :
    TakesTrap i s k th c v x := by
  have hs : OnlyThreads s ((s.modThread k (advance i)).modThread k (unadvance th)) := rfl
  have hl : lookup ((s.modThread k (advance i)).modThread k (unadvance th)).threads k = some (unadvance th (advance i th)) := by
    rw [State.lookup_modThread, if_pos rfl, State.lookup_modThread, if_pos rfl, h.here]; rfl
  refine takesTrap_of_enters (he.trans (issue_trap h body hb)) ?_
  rw [← endIssue_alone h _ i.size [] [] true]
  refine endIssue_enters h.cur (enters_congr hs (fun j hj => ?_) (sameButRun_unadvance i th)
    (takeTrap_enters _ hl ((canTrap_congr hs (sameButRun_unadvance i th)).2 hc))) ..
  rw [othersKept_modThread _ k _ j hj, othersKept_modThread s k _ j hj]
end

/-! ### The body of HJOIN -/

/-- What HJOIN makes of its thread when all helpers of the HIRE are gone and none has trapped (R43, R250): the combined value
is r. -/
def joined (d a : Reg) (x : HireState) (r : Word × BitVec 5) (t : Thread) : Thread :=
  let w := ((flagged { t with hire := none } x.flags).wv d (BitVec.ofNat 32 (doneMask x.done))).wp a
    (decide (doneMask x.done = 2 ^ (x.g + 1) - 2))
  if x.comb = .none then w else flagged (w.wv x.c r.1) r.2

section
variable {s : State} {k : Nat} {x : HireState} (d a b : Reg) (env : Env)

theorem hjoinBody_closed (hh : (s.thread k).hire = none) :
    hjoinBody d a b env k s = .done (s.modThread k fun t => (t.wv d 0).wp a false) := by
  simp only [hjoinBody, hh]

theorem hjoinBody_live (hh : (s.thread k).hire = some x) (hl : x.live ≠ []) : hjoinBody d a b env k s = .hold s .hjoin := by
  have hl' : x.live.isEmpty = false := List.isEmpty_eq_false_iff.2 hl
  simp only [hjoinBody, hh, hl', Bool.not_false, if_true]

theorem hjoinBody_trapped (hh : (s.thread k).hire = some x) (hl : x.live = []) {t : Nat × BitVec 8} (ht : x.trapped = some t) :
    hjoinBody d a b env k s = .trap causeHelperF (BitVec.ofNat 64 t.1) (t.2.zeroExtend 32) := by
  simp only [hjoinBody, hh, hl, ht, List.isEmpty_nil, Bool.not_true, Bool.false_eq_true, if_false]

theorem hjoinBody_joined (hh : (s.thread k).hire = some x) (hl : x.live = []) (ht : x.trapped = none) :
    hjoinBody d a b env k s =
      .done (s.modThread k (joined d a x (combined x.comb ((env.before.thread k).rv b) x.contrib))) := by
  simp only [hjoinBody, hh, hl, ht, List.isEmpty_nil, Bool.not_true, Bool.false_eq_true, if_false]
  rfl
end

/-- Settles O42: one branch of the body for each clause, and the tree of the last by `combined_eq_tree`. -/
theorem hjoin : Obligations.Hjoin := by
  intro h d a b s k th i al
  have he : exec i s = issue i (hjoinBody d a b) s := rfl
  have hi : ((s.modThread k (advance i)).thread k).hire = th.hire := by rw [thread_advanced al]; rfl
  refine ⟨fun hh => exec_done_alone al he _ (hjoinBody_closed d a b _ (hi.trans hh)), fun x hx => ?_⟩
  have hx' := hi.trans hx
  refine ⟨fun hl => ?_, fun n e hl ht hc => ?_, fun hl ht => ?_⟩
  · rw [← hx]
    exact exec_hold_alone al he (hjoinBody_live d a b _ hx' hl)
  · exact exec_trap_alone al he hc (hjoinBody_trapped d a b _ hx' hl ht)
  · have hj := exec_done_alone al he _ (hjoinBody_joined d a b _ hx' hl ht)
    rw [State.thread_of_lookup al.here, combined_eq_tree] at hj
    exact hj

end Sys2Proof.Machine

/-!
Bytes as numbers, and the address of a memory operand (R10, R11, R146).
-/
namespace Sys2Proof.Machine
open Sys2Proof.Safety Sys2Proof.Terms

/-! ### Bytes as numbers (R10, R11) -/

theorem ofBytes_lt (b : Bytes) : ofBytes b < 256 ^ b.length := by
  induction b with
  | nil => simp [ofBytes]
  | cons x l ih =>
    have := x.isLt
    rw [ofBytes, List.length_cons, Nat.pow_succ]
    omega

@[simp] theorem toBytes_length (n x : Nat) : (toBytes n x).length = n := by
  induction n generalizing x with
  | zero => rfl
  | succ n ih => rw [toBytes, List.length_cons, ih]

theorem ofBytes_toBytes (n x : Nat) : ofBytes (toBytes n x) = x % 256 ^ n := by
  induction n generalizing x with
  | zero => simp [toBytes, ofBytes, Nat.mod_one]
  | succ n ih => rw [toBytes, ofBytes, ih, Nat.pow_succ', Nat.mod_mul, BitVec.toNat_ofNat]

/-- Bytes of one length are those of their number. -/
theorem ofBytes_injective {a b : Bytes} (hl : a.length = b.length) (h : ofBytes a = ofBytes b) : a = b := by
  induction a generalizing b with
  | nil => exact (List.length_eq_zero_iff.1 hl.symm).symm
  | cons x a ih =>
    obtain _ | ⟨y, b⟩ := b
    · cases hl
    · have hx := x.isLt
      have hy := y.isLt
      simp only [ofBytes] at h
      rw [ih (by simpa using hl) (by omega), BitVec.eq_of_toNat_eq (x := x) (y := y) (by omega)]

/-- A number's bytes are some given ones where it is their number, cut to their length. -/
theorem toBytes_eq_iff {n : Nat} {b : Bytes} (h : b.length = n) (x : Nat) : toBytes n x = b ↔ ofBytes b = x % 256 ^ n :=
  ⟨fun e => by rw [← e, ofBytes_toBytes], fun e => ofBytes_injective (by simp [h]) (by rw [ofBytes_toBytes, e])⟩

/-- The number of bytes read off a function of their place. -/
theorem ofBytes_eq_sum (b : Bytes) (f : Nat → Byte) (h : ∀ j, j < b.length → b.getD j 0 = f j) :
    ((List.range b.length).map fun j => (f j).toNat * 256 ^ j).sum = ofBytes b := by
  induction b generalizing f with
  | nil => rfl
  | cons x l ih =>
    have h0 : x = f 0 := h 0 (by simp)
    have hs := ih (fun j => f (j + 1)) fun j hj => by simpa using h (j + 1) (by simpa using hj)
    rw [List.length_cons, List.range_succ_eq_map, ofBytes, ← hs, h0, ← List.sum_map_mul_left]
    simp [Function.comp_def, Nat.pow_succ', Nat.mul_left_comm]

theorem leNumber_eq_ofBytes (b : Bytes) : leNumber b = ofBytes b := ofBytes_eq_sum b _ fun _ _ => rfl

theorem getD_read (m : Store) (a n j : Nat) (h : j < n) : (m.read a n).getD j 0 = m.byte (a + j) := by
  induction n generalizing a j with
  | zero => cases h
  | succ n ih =>
    rw [Store.read]
    cases j with
    | zero => rfl
    | succ j => rw [List.getD_cons_succ, ih _ _ (by omega)]; congr 1; omega

/-! ### The address of a memory operand (R146) -/

/-- An aperture's base beside the low half of an address. -/
theorem or_setWidth_eq_append {base : DWord} {hi : Word} (h : base.toNat = hi.toNat <<< 32) (low : Word) :
    base ||| low.setWidth 64 = hi ++ low := by
  have hl : low.toNat < 2 ^ 64 := low.isLt.trans (by decide)
  apply BitVec.eq_of_toNat_eq
  rw [BitVec.toNat_append, BitVec.toNat_or, BitVec.toNat_setWidth, Nat.mod_eq_of_lt hl, h]

theorem ea_eq_address (th : Thread) (am : Am) (a : Reg) (off : DWord) : th.ea am a off = address th am a off := by
  have low : off.extractLsb' 0 32 = off.setWidth 32 := (BitVec.setWidth_eq_extractLsb' (by decide)).symm
  cases am with
  | pair => rfl
  | slice | core | dsp =>
    simp only [Thread.ea, low]
    exact or_setWidth_eq_append (by decide) _

theorem offOf_eq_offset (off : Off) : offOf off = offset off := by cases off <;> rfl
theorem offW_eq_offset (off : BitVec 32) : offW off = offset (.long off) := rfl
theorem atomBytes_eq_atomLen (ty : Ty) : State.atomBytes ty = atomLen ty := rfl

end Sys2Proof.Machine

/-!
The apertures of the address space and the checks of an access (O20; R52, R53).
-/
namespace Sys2Proof.Machine
open Sys2Proof.Safety Sys2Proof.Terms

/-! ### Apertures (R52) -/

/-- The aperture decode with its conditions as propositions on the address. -/
theorem spaceOf_eq (a : DWord) : spaceOf a =
    if a.toNat < 2 ^ 57 then .global a.toNat
    else if a.toNat / 2 ^ 60 = 8 then .domain (a.toNat / 2 ^ 53 % 128) (a.toNat % 2 ^ 53)
    else if 0xC000000000000000 ≤ a.toNat ∧ a.toNat < 0xC000000000001000 then .slice (a.toNat % 2 ^ 12)
    else if 0xD000000000000000 ≤ a.toNat ∧ a.toNat < 0xD000000000100000 then .core (a.toNat % 2 ^ 20)
    else if 0xE000000000000000 ≤ a.toNat ∧ a.toNat < 0xE000000002000000 then .hood (a.toNat / 2 ^ 20 % 32) (a.toNat % 2 ^ 20)
    else if 0xF000000000000000 ≤ a.toNat ∧ a.toNat < 0xF000000004000000 then .dsp (a.toNat % 2 ^ 26)
    else if 0xFF00000000000000 ≤ a.toNat ∧ a.toNat < 0xFF00000004000000 then
      .window (a.toNat / 2 ^ 21 % 32) (a.toNat / 2 ^ 10 % 2048) (a.toNat % 2 ^ 10)
    else .bad := by
  have hx := a.isLt
  unfold spaceOf
  simp only [Bool.and_eq_true, decide_eq_true_eq]
  simp only [nb, Nat.reducePow, Nat.reduceAdd, Nat.reduceSub, Nat.div_one] at hx ⊢
  generalize a.toNat = x at hx ⊢
  refine if_congr .rfl rfl (if_congr (by omega) rfl (if_congr (by omega) rfl (if_congr (by omega) rfl (if_congr (by omega) rfl
    (if_congr (by omega) rfl (if_congr (by omega) rfl rfl))))))

section
variable {a : DWord} {off : Nat}

theorem spaceOf_global (h : a.toNat < 2 ^ 57) : spaceOf a = .global a.toNat := by
  rw [spaceOf_eq, if_pos h]

theorem spaceOf_domain (h : a.toNat / 2 ^ 60 = 8) : spaceOf a = .domain (a.toNat / 2 ^ 53 % 128) (a.toNat % 2 ^ 53) := by
  rw [spaceOf_eq, if_neg (by omega), if_pos h]

theorem spaceOf_slice (ho : off < 4096) (h : a.toNat = 0xC000000000000000 + off) : spaceOf a = .slice off := by
  rw [spaceOf_eq, if_neg (by omega), if_neg (by omega), if_pos (by omega)]
  congr 1; omega

theorem spaceOf_core (ho : off < 2 ^ 20) (h : a.toNat = 0xD000000000000000 + off) : spaceOf a = .core off := by
  rw [spaceOf_eq, if_neg (by omega), if_neg (by omega), if_neg (by omega), if_pos (by omega)]
  congr 1; omega

theorem spaceOf_hood {m : Nat} (hm : m < 32) (ho : off < 2 ^ 20) (h : a.toNat = 0xE000000000000000 + m * 2 ^ 20 + off) :
    spaceOf a = .hood m off := by
  rw [spaceOf_eq, if_neg (by omega), if_neg (by omega), if_neg (by omega), if_neg (by omega), if_pos (by omega)]
  congr 1 <;> omega

theorem spaceOf_dsp (ho : off < 2 ^ 26) (h : a.toNat = 0xF000000000000000 + off) : spaceOf a = .dsp off := by
  rw [spaceOf_eq, if_neg (by omega), if_neg (by omega), if_neg (by omega), if_neg (by omega), if_neg (by omega), if_pos (by omega)]
  congr 1; omega

theorem spaceOf_window {m t b : Nat} (hm : m < 32) (ht : t < 2048) (hb : b < 1024)
    (h : a.toNat = 0xFF00000000000000 + m * 2 ^ 21 + t * 2 ^ 10 + b) : spaceOf a = .window m t b := by
  rw [spaceOf_eq, if_neg (by omega), if_neg (by omega), if_neg (by omega), if_neg (by omega), if_neg (by omega),
    if_neg (by omega), if_pos (by omega)]
  congr 1 <;> omega
end

/-! ### The checks of an access (R53) -/

/-- The alignment check of R53 and then the bound `ok` of the storage. -/
def checkedLoc (a : DWord) (align : Nat) (ok : Prop) [Decidable ok] (l : Loc) : Except (BitVec 8) Loc :=
  if a.toNat % align ≠ 0 then .error causeMisalign else if ok then .ok l else .error causeScrBound

section
variable {s : State} {th : Thread} {k : Nat} {a : DWord} {n align : Nat} {atomic wide : Bool} {off va pkg m t b : Nat}

/-- A field that starts at bit 0 is a remainder. -/
theorem fld_low (s : State) (idx inst hi : Nat) : s.fld idx inst hi 0 = (s.reg idx inst).toNat % 2 ^ (hi + 1) := by
  simp [State.fld, bits]

/-- A field of one bit. -/
theorem fld_bit (s : State) (idx inst b : Nat) : s.fld idx inst b b = 1 ↔ (s.reg idx inst).getLsbD b = true := by
  simp [State.fld, bits, BitVec.getLsbD, Nat.testBit, Nat.shiftRight_eq_div_pow, Nat.and_comm 1]

theorem access_bad (h : spaceOf a = .bad) : s.access th k a n align atomic wide = .error causeAddr := by
  simp only [State.access, h]

theorem access_global (h : spaceOf a = .global va) :
    s.access th k a n align atomic wide = checkedLoc a align True (.global va) := by
  simp [State.access, h, checkedLoc]

theorem access_slice (h : spaceOf a = .slice off) : s.access th k a n align atomic wide =
    checkedLoc a align (off + n ≤ (s.pktOf th).slice) (.slice (k - th.hidx) off) := by
  simp [State.access, h, checkedLoc]

theorem access_core (h : spaceOf a = .core off) : s.access th k a n align atomic wide =
    checkedLoc a align (off + n ≤ (s.pktOf th).scratch) (.alloc th.gid off) := by
  simp [State.access, h, checkedLoc]

theorem access_hood (h : spaceOf a = .hood m off) : s.access th k a n align atomic wide =
    checkedLoc a align (m < s.ngr (s.group th.gid).hood ∧ off + n ≤ (s.pktOf th).scratch)
      (.alloc ((s.memberOf (s.group th.gid).hood m).getD th.gid) off) := by
  simp [State.access, h, checkedLoc]

theorem access_dsp (h : spaceOf a = .dsp off) : s.access th k a n align atomic wide =
    checkedLoc a align (off + n ≤ 65536 * s.fld 0x4001 (s.sgrpOf th.ctx) 41 32)
      (.dsp (State.dieOf th.core) (65536 * s.fld 0x4001 (s.sgrpOf th.ctx) 9 0 + off)) := by
  simp [State.access, h, checkedLoc]

theorem access_window_refused (h : spaceOf a = .window m t b) (hr : atomic = true ∨ wide = true) :
    s.access th k a n align atomic wide = .error causeAddr := by
  simp [State.access, h, hr]

theorem access_window (h : spaceOf a = .window m t b) {g : Nat} (hg : s.memberOf (s.group th.gid).hood m = some g) :
    s.access th k a n align false false =
      checkedLoc a align (m < s.ngr (s.group th.gid).hood ∧ t < (s.group g).n ∧ b + n ≤ 4 * (s.pktOf th).regs)
        (.regs (threadKey g t 0) b) := by
  simp [State.access, h, hg, checkedLoc, and_assoc]

theorem access_domain_refused (h : spaceOf a = .domain pkg va) (hr : wide = true ∨ s.domainOk th.ctx pkg = false) :
    s.access th k a n align atomic wide = .error causeAddr := by
  simp [State.access, h, hr]

theorem access_domain (h : spaceOf a = .domain pkg va) (hd : s.domainOk th.ctx pkg = true) :
    s.access th k a n align atomic false = checkedLoc a align True (if pkg = s.pkgId then .own va else .peer pkg va) := by
  simp [State.access, h, hd, checkedLoc]

/-- A context reaches its own package, and another over a route within its fabric group (R53, R315, R390). -/
theorem domainOk_iff (s : State) (ctx pkg : Nat) : s.domainOk ctx pkg = true ↔ pkg = s.pkgId ∨
    (lookup s.routes (s.sgrpOf ctx * 128 + pkg)).isSome = true ∧ (s.reg 0x9101 (s.sgrpOf ctx)).getLsbD 63 = true := by
  simp [State.domainOk, fld_bit, State.routeKey]
end

/-- Settles O20: each aperture by its decode (`spaceOf_eq`) and then by the checks of its storage. -/
theorem apertureChecks : Obligations.ApertureChecks := by
  intro s th k a n align atomic wide
  have own : (s.reg 0xB001 0).toNat % 128 = s.pkgId := (fld_low s 0xB001 0 6).symm
  refine ⟨fun h => access_global (spaceOf_global h), fun h hr => ?_, fun h hw hp => ?_, fun h hw hp hr hf => ?_,
    fun off ho h => access_slice (spaceOf_slice ho h), fun off ho h => access_core (spaceOf_core ho h),
    fun m off hm ho h => ⟨fun g hg => ?_, fun hn => ?_⟩, fun off ho h => ?_,
    fun m t b hm ht hb h => ⟨access_window_refused (spaceOf_window hm ht hb h), fun hat hw g hg => ?_⟩,
    fun h0 h1 h2 h3 h4 h5 h6 => access_bad ?_⟩
  · refine access_domain_refused (spaceOf_domain h) (hr.imp_right fun ⟨hp, hr⟩ => ?_)
    rw [Bool.eq_false_iff, ne_eq, domainOk_iff, ← own]
    rintro (e | ⟨hl, hf⟩)
    · exact hp e
    · rcases hr with hr | hr
      · rw [hl] at hr; cases hr
      · rw [hf] at hr; cases hr
  · subst hw
    rw [own] at hp
    have hd := (domainOk_iff s th.ctx _).2 (.inl hp)
    exact (access_domain (spaceOf_domain h) hd).trans (by rw [if_pos hp]; rfl)
  · subst hw
    rw [own] at hp
    have hd := (domainOk_iff s th.ctx _).2 (.inr ⟨hr, hf⟩)
    exact (access_domain (spaceOf_domain h) hd).trans (by rw [if_neg hp]; rfl)
  · exact (access_hood (spaceOf_hood hm ho h)).trans (by rw [hg]; rfl)
  · exact (access_hood (spaceOf_hood hm ho h)).trans (by simp [checkedLoc, Nat.not_lt.2 hn])
  · rw [access_dsp (spaceOf_dsp ho h), fld_low]; rfl
  · subst hat hw
    exact access_window (spaceOf_window hm ht hb h) hg
  · rw [spaceOf_eq, if_neg (by omega), if_neg h1, if_neg h2, if_neg h3, if_neg h4, if_neg h5, if_neg h6]

end Sys2Proof.Machine

/-!
Memory instructions whose access is refused (O25; R53).
-/
namespace Sys2Proof.Machine
open Sys2Proof.Safety Sys2Proof.Terms

section
variable {env : Env} {k : Nat} {s : State} {th : Thread} {e : BitVec 8} (h : env.before.thread k = th)
include h

theorem loadBody_trap (ord : Ord) (sc : Scope) (sz : LdSz) (d a : Reg) (am : Am) (off : Off)
    (he : s.access th k (address th am a (offset off)) sz.bytes sz.bytes false false = .error e) :
    loadBody ord sc sz d a am off env k s = .trap e (address th am a (offset off)) 0 := by
  simp only [loadBody, h, offOf_eq_offset, ea_eq_address, he]

theorem storeBody_trap (ord : Ord) (sc : Scope) (sz : StSz) (d a : Reg) (am : Am) (off : Off)
    (he : s.access th k (address th am a (offset off)) sz.bytes sz.bytes false false = .error e) :
    storeBody ord sc sz d a am off env k s = .trap e (address th am a (offset off)) 0 := by
  simp only [storeBody, h, offOf_eq_offset, ea_eq_address, he]

theorem counterBody_trap (sc : Scope) (d a : Reg) (am : Am) (off : Off)
    (he : s.access th k (address th am a (offset off)) 8 8 false false = .error e) :
    counterBody sc d a am off env k s = .trap e (address th am a (offset off)) 0 := by
  simp only [counterBody, h, offOf_eq_offset, ea_eq_address, he]

theorem atomicBody_trap (ord : Ord) (sc : Scope) (op : Aop) (ty : Ty) (dest : Dest) (a : Reg) (am : Am) (c : Reg) (off : BitVec 32)
    (he : s.access th k (address th am a (offset (.long off))) (atomLen ty) (atomLen ty) true false = .error e) :
    atomicBody ord sc op ty dest a am c off env k s = .trap e (address th am a (offset (.long off))) 0 := by
  simp only [atomicBody, h, offW_eq_offset, atomBytes_eq_atomLen, ea_eq_address, he]

theorem acasBody_trap (ord : Ord) (sc : Scope) (ty : Ty) (d : Reg) (ps : BitVec 7) (a : Reg) (am : Am) (c n : Reg) (off : BitVec 32)
    (he : s.access th k (address th am a (offset (.long off))) (atomLen ty) (atomLen ty) true false = .error e) :
    acasBody ord sc ty d ps a am c n off env k s = .trap e (address th am a (offset (.long off))) 0 := by
  simp only [acasBody, h, offW_eq_offset, atomBytes_eq_atomLen, ea_eq_address, he]
end

theorem exec_load (h : Head) (ord : Ord) (sc : Scope) (sz : LdSz) (d a : Reg) (am : Am) (off : Off) (s : State) :
    exec (load h ord sc sz d a am off) s = issue (load h ord sc sz d a am off) (loadBody ord sc sz d a am off) s := by
  cases off <;> rfl

theorem exec_store (h : Head) (ord : Ord) (sc : Scope) (sz : StSz) (d a : Reg) (am : Am) (off : Off) (s : State) :
    exec (store h ord sc sz d a am off) s = issue (store h ord sc sz d a am off) (storeBody ord sc sz d a am off) s := by
  cases off <;> rfl

/-- Settles O25: each body ends with the trap of its access, which the one thread at hand takes (`exec_trap_alone`). -/
theorem accessTraps : Obligations.AccessTraps := by
  intro h ord sc lz sz op ty d a c n ps am off off32 s k th e hc
  refine ⟨fun al he => ?_, fun al he => ?_, fun al he => ?_, fun he => ⟨fun al => ?_, fun al => ?_, fun al => ?_⟩⟩ <;>
    have hb := State.thread_of_lookup al.here
  · exact exec_trap_alone al (exec_load ..) hc (loadBody_trap hb ord sc lz d a am off he)
  · exact exec_trap_alone al (exec_store ..) hc (storeBody_trap hb ord sc sz d a am off he)
  · exact exec_trap_alone al rfl hc (counterBody_trap hb sc d a am off he)
  · exact exec_trap_alone al rfl hc (atomicBody_trap hb ord sc op ty _ a am c off32 he)
  · exact exec_trap_alone al rfl hc (atomicBody_trap hb ord sc op ty _ a am c off32 he)
  · exact exec_trap_alone al rfl hc (acasBody_trap hb ord sc ty d ps a am c n off32 he)

end Sys2Proof.Machine

/-!
Accesses to this package's memory through the domain aperture (O24; R52, R60 to R62): the address that their requests carry.
-/
namespace Sys2Proof.Machine
open Sys2Proof.Safety Sys2Proof.Terms

/-- A request through the domain aperture for this package keeps the address that the thread named, aperture and package with it;
`reqVa` takes its address within the package where it is used (R52, R62). -/
theorem request_own (s : State) (k : Nat) (b : Thread) (va : DWord) (addr n : Nat) (op : ReqOp) (dest : Dest) :
    (lookup (s.request k b va (.own addr) n op dest).reqs s.fresh).map MemReq.va = some va := by
  have h : lookup (s.request k b va (.own addr) n op dest).reqs s.fresh = some _ := lookup_put_same ..
  rw [h]
  simp

theorem loadBody_own {env : Env} {k : Nat} {s : State} {th : Thread} (h : env.before.thread k = th) (sc : Scope) (sz : LdSz)
    (d a : Reg) (am : Am) (off : Off) {addr : Nat}
    (ha : s.access th k (address th am a (offset off)) sz.bytes sz.bytes false false = .ok (.own addr)) :
    loadBody .rlx sc sz d a am off env k s =
      .done (s.request k th (address th am a (offset off)) (.own addr) sz.bytes .load (.load d sz)) := by
  simp only [loadBody, h, offOf_eq_offset, ea_eq_address, ha]
  rfl

/-- The request that a relaxed load of this package's own memory leaves names the address that the thread named. -/
theorem load_own_asks {s : State} {k : Nat} {th : Thread} (h : Head) (sc : Scope) (sz : LdSz) (d a : Reg) (am : Am) (off : Off)
    {addr : Nat} (al : Alone (load h .rlx sc sz d a am off) s k th)
    (ha : s.access th k (address th am a (offset off)) sz.bytes sz.bytes false false = .ok (.own addr)) :
    ∃ t, exec (load h .rlx sc sz d a am off) s = .next t ∧
      (lookup t.reqs s.fresh).map MemReq.va = some (address th am a (offset off)) := by
  have hb := loadBody_own (env := ⟨s, [k], ordersLanes (load h .rlx sc sz d a am off).raw.op⟩)
    (s := s.modThread k (advance (load h .rlx sc sz d a am off))) (State.thread_of_lookup al.here) sc sz d a am off ha
  refine ⟨_, (exec_load ..).trans (issue_done al _ hb), ?_⟩
  rw [settle_eq]
  exact request_own _ k th _ addr ..

/-- A thread with the address 0x2000 of its own package, through the domain aperture, in w4. -/
def ownAsker : Thread := Thread.zero.ww 4 0x8000000000002000

/-- That thread alone at hand. -/
def ownAskerAlone : State :=
  { State.reset with threads := [(0, ownAsker)], cur := [0], launches := [(0, { Launch.zero with pkt := State.placedPacket })] }

/-- LD.B32 v2, [w4], behind no guard. -/
def ownLoad : Instr := load ⟨127, false, 0⟩ .rlx .none .b32 2 4 .pair (.short 0)

theorem ownLoad_alone : Alone ownLoad ownAskerAlone 0 ownAsker where
  cur := rfl
  here := rfl
  active := by decide
  clear := by decide
  whole := by decide
  sound := by decide
  entire := by decide

theorem ownLoad_access : ownAskerAlone.access ownAsker 0 (address ownAsker .pair 4 (offset (.short 0))) 4 4 false false =
    .ok (.own 0x2000) := by decide

/-- Refutes O24: the request of `ownLoad` carries the address that the thread named, 0x8000000000002000 (`load_own_asks`), while
Asks, by `remoteVa`, wants 0x2000, the address within the package. The model keeps the whole address, as it does for a peer
package, and takes the address within the package from it with `reqVa`. -/
theorem not_remoteAccesses : ¬ Obligations.RemoteAccesses := by
  intro h
  obtain ⟨t, he, hva⟩ := load_own_asks _ _ _ _ _ _ _ ownLoad_alone ownLoad_access
  obtain ⟨asks, -⟩ := h ⟨127, false, 0⟩ .rlx .none .b32 .b32 .add .z32 2 4 0 0 0 .pair (.short 0) 0 ownAskerAlone 0 ownAsker
    (.own 0x2000) 0x2000
  obtain ⟨t', u, q, he', -, -, -, hq, -, -, -, hqva, -⟩ := asks ownLoad_alone ownLoad_access rfl nofun
  obtain rfl := Host.Outcome.next.inj (he.symm.trans he')
  rw [hq, Option.map_some, hqva] at hva
  exact absurd (Option.some.inj hva) (by decide)

end Sys2Proof.Machine

/-!
Answers of memory (O27; R60, R95, R102, R195, R199, R200, R227, R360).
-/
namespace Sys2Proof.Machine
open Sys2Proof.Safety Sys2Proof.Terms

/-! ### What an answer writes (R195, R199, R200, R227) -/

section
variable (th : Thread) (d : Reg)

theorem loadInto_eq_landed (sz : LdSz) (b : Bytes) : State.loadInto th sz d b = landed th sz d (leNumber b) := by
  rw [leNumber_eq_ofBytes]
  have signed (n : Nat) : BitVec.ofInt 32 ((ofBytes b : Int).bmod (2 ^ n)) = (BitVec.ofNat n (ofBytes b)).signExtend 32 := by
    rw [BitVec.signExtend, BitVec.toInt_ofNat']
  have plain (n : Nat) : BitVec.ofNat 32 (ofBytes b % 2 ^ n) = (BitVec.ofNat n (ofBytes b)).zeroExtend 32 := by
    apply BitVec.eq_of_toNat_eq
    simp
  cases sz with
  | s8 => exact congrArg (th.wv d) ((congrArg _ (extTy_signed .s8 (ofBytes b) rfl)).trans (signed 8))
  | s16 => exact congrArg (th.wv d) ((congrArg _ (extTy_signed .s16 (ofBytes b) rfl)).trans (signed 16))
  | z8 => exact congrArg (th.wv d) (plain 8)
  | z16 => exact congrArg (th.wv d) (plain 16)
  | b32 | b64 | b128 => rfl

theorem wvw_ofNat (wide : Bool) (x : Nat) : th.wvw wide d (BitVec.ofNat 64 x) = putNum th wide d x := by
  have h : (BitVec.ofNat 64 x).extractLsb' 0 32 = BitVec.ofNat 32 x := by
    apply BitVec.eq_of_toNat_eq
    simp
  rw [Thread.wvw, putNum, h]

/-- Elements written to an accumulator change the accumulators alone. -/
theorem warow_eq (e : Nat) (l : List Word) : th.warow d e l = { th with a := (th.warow d e l).a } := by
  induction l generalizing th e with
  | nil => rfl
  | cons x l ih => rw [Thread.warow, ih]; rfl
end

/-- Two records that are of one helper, or of one thread, at one point of its life. -/
def SameLife (a b : Thread) : Prop := b.hidx = a.hidx ∧ b.status = a.status

theorem sameLife_landed (th : Thread) (sz : LdSz) (d : Reg) (x : Nat) : SameLife th (landed th sz d x) := by
  cases sz <;> simp [SameLife, landed, Thread.wv, Thread.ww, Thread.wx, Thread.wvn]

theorem sameLife_putNum (th : Thread) (wide : Bool) (d : Reg) (x : Nat) : SameLife th (putNum th wide d x) := by
  cases wide <;> simp [SameLife, putNum, Thread.wv, Thread.ww, Thread.wvn]

theorem sameLife_wp {a b : Thread} (h : SameLife a b) (r : Reg) (x : Bool) : SameLife a (b.wp r x) := by
  unfold Thread.wp
  split <;> exact h

/-! ### An answer at its thread (R60, R95, R102, R360) -/

theorem clockRelease_eq (s : State) (ctx : Nat) : s.clockRelease ctx = { s with clocks := (s.clockRelease ctx).clocks } := by
  unfold State.clockRelease
  dsimp only
  split <;> rfl

/-- Only a helper that has been stopped ends with an answer (R102). -/
theorem endStopped_of_lives {s : State} {k : Nat} (h : (s.thread k).hidx = 0 ∨ (s.thread k).status ≠ .exited) :
    s.endStopped k = s := by
  unfold State.endStopped
  rcases h with h | h <;> simp [h]

/-- Changing threads one after another leaves all else. -/
theorem foldl_modThread_eq {α : Type} (key : α → Nat) (f : Thread → Thread) (l : List α) (s : State) :
    l.foldl (fun t x => t.modThread (key x) f) s =
      { s with threads := (l.foldl (fun t x => t.modThread (key x) f) s).threads } := by
  induction l generalizing s with
  | nil => rfl
  | cons x l ih => rw [List.foldl_cons, ih]; rfl

theorem releaseHsync_eq (s : State) (rk : Nat) : s.releaseHsync rk = { s with threads := (s.releaseHsync rk).threads } := by
  unfold State.releaseHsync
  split
  · rfl
  · split
    · rw [foldl_modThread_eq (rk + ·)]; rfl
    · rfl

/-- A helper that ends is gone, and threads alone have changed (R248). -/
theorem endHelper_gone (s : State) (rk : Nat) {i : Nat} (hi : i ≠ 0) :
    s.endHelper rk i = { s with threads := (s.endHelper rk i).threads } ∧
      lookup (s.endHelper rk i).threads (rk + i) = none := by
  unfold State.endHelper
  split
  · exact ⟨rfl, lookup_del_same ..⟩
  · dsimp only
    refine ⟨by rw [releaseHsync_eq]; rfl, ?_⟩
    rw [← Option.map_eq_none_iff (f := Thread.unsynced), releaseHsync_unsynced, State.lookup_modThread, if_neg (by omega),
      lookup_del_same]
    rfl

/-- The last answer of a stopped helper ends it (R102). -/
theorem endStopped_gone {s : State} {k : Nat} (hi : (s.thread k).hidx ≠ 0) (hk : (s.thread k).hidx ≤ k)
    (hs : (s.thread k).status = .exited) (hp : (s.thread k).pend = 0) :
    s.endStopped k = { s with threads := (s.endStopped k).threads } ∧ lookup (s.endStopped k).threads k = none := by
  have he : s.endStopped k = s.endHelper (k - (s.thread k).hidx) (s.thread k).hidx := by simp [State.endStopped, hi, hs, hp]
  have h := endHelper_gone s (k - (s.thread k).hidx) hi
  rw [Nat.sub_add_cancel hk] at h
  rwa [he]

/-- A thread with one request fewer outstanding. -/
def oneAnswered (th : Thread) : Thread := { th with pend := th.pend - 1 }

section
variable {s : State} {tag : Nat} {q : MemReq} {th : Thread} {data : Bytes} {f : Thread → Thread}

theorem takeResponse_poison (hq : lookup s.reqs tag = some q) (hd : ∀ id n at_, q.dest ≠ .copy id n at_) :
    s.takeResponse tag data true = { s with reqs := del s.reqs tag }.killGang q.th 1 q.va q.pc := by
  cases h : q.dest with
  | copy id n at_ => exact absurd h (hd id n at_)
  | none | load | old | acas | acc | counter | zero => simp only [State.takeResponse, hq, h]; rfl

/-- An answer that is no copy's: the thread has one request fewer, and then `answerThread` writes it. -/
theorem takeResponse_ok (hq : lookup s.reqs tag = some q) (hd : ∀ id n at_, q.dest ≠ .copy id n at_) :
    s.takeResponse tag data false =
      let u := ({ s with reqs := del s.reqs tag }.modThread q.th oneAnswered).answerThread q data
      (if q.release then u.clockRelease q.ctx else u).endStopped q.th := by
  cases h : q.dest with
  | copy id n at_ => exact absurd h (hd id n at_)
  | none | load | old | acas | acc | counter | zero => simp only [State.takeResponse, hq, h]; rfl

/-- The state behind an answer that changes its thread by f, before the end of a stopped helper. -/
theorem memoryResponse_answers (hq : lookup s.reqs tag = some q) (ht : lookup s.threads q.th = some th)
    (hd : ∀ id n at_, q.dest ≠ .copy id n at_) (hf : ∀ t, Changes f q.th t (.done (t.answerThread q data))) :
    ∃ v, exec (.memoryResponse tag data false) s = .next (v.endStopped q.th) ∧
      lookup v.threads q.th = some (f (oneAnswered th)) ∧ lookup v.reqs tag = none ∧ Kept s v ∧ OthersKept s v q.th := by
  let t : State := { s with reqs := del s.reqs tag }.modThread q.th oneAnswered
  obtain ⟨u, hu, he, hl⟩ := hf t
  obtain rfl := Lane.done.inj hu
  obtain ⟨v, hx, hv⟩ : ∃ v : State, exec (.memoryResponse tag data false) s = .next (v.endStopped q.th) ∧
      v = { t.answerThread q data with clocks := v.clocks } := by
    refine ⟨_, congrArg Host.Outcome.next (takeResponse_ok hq hd), ?_⟩
    dsimp only
    split
    · exact clockRelease_eq ..
    · rfl
  refine ⟨v, hx, ?_⟩
  rw [hv]
  refine ⟨?_, ?_, ?_, fun j hj => ?_⟩
  · rw [hl, if_pos rfl, State.lookup_modThread, if_pos rfl, ht]; rfl
  · rw [he]; exact lookup_del_same ..
  · rw [he]; exact ⟨rfl, rfl⟩
  · rw [hl, if_neg hj, State.lookup_modThread, if_neg hj]

/-- An answer to a thread that has not been stopped. -/
theorem memoryResponse_lands (hq : lookup s.reqs tag = some q) (ht : lookup s.threads q.th = some th)
    (hd : ∀ id n at_, q.dest ≠ .copy id n at_) (hf : ∀ t, Changes f q.th t (.done (t.answerThread q data)))
    (hs : SameLife (oneAnswered th) (f (oneAnswered th))) (hl : th.hidx = 0 ∨ th.status ≠ .exited) :
    ∃ t, exec (.memoryResponse tag data false) s = .next t ∧ lookup t.threads q.th = some (f (oneAnswered th)) ∧
      lookup t.reqs tag = none ∧ Kept s t ∧ OthersKept s t q.th := by
  obtain ⟨v, he, hv, h⟩ := memoryResponse_answers hq ht hd hf
  rw [endStopped_of_lives (by rw [State.thread_of_lookup hv, hs.1, hs.2]; exact hl)] at he
  exact ⟨v, he, hv, h⟩
end

/-- Settles O27: `answerThread` of each destination is a change of the one thread, which `memoryResponse_lands` follows to the end
of the answer; the last answer of a stopped helper by `endStopped_gone`. -/
theorem responsesLand : Obligations.ResponsesLand := by
  intro s tag q th data hq ht
  dsimp only
  refine ⟨fun hn lives => ?_, fun hn hi hk hs hp => ?_, fun d sz hd _ lives => ?_, fun d n hd _ _ lives => ?_,
    fun d n ps ty c y hd ho hl _ lives => ?_, fun d piece hd hl hp lives => ?_, fun hd => ?_⟩
  · exact memoryResponse_lands hq ht (by simp [hn]) (fun t => by simp only [State.answerThread, hn]; exact changes_id ..)
      ⟨rfl, rfl⟩ lives
  · obtain ⟨v, he, hv, -, hk', -⟩ := memoryResponse_answers hq ht (data := data) (by simp [hn])
      (fun t => by simp only [State.answerThread, hn]; exact changes_id ..)
    have hth := State.thread_of_lookup hv
    obtain ⟨e, hg⟩ := endStopped_gone (s := v) (k := q.th) (by rw [hth]; exact hi) (by rw [hth]; exact hk)
      (by rw [hth]; exact hs) (by rw [hth]; simp [oneAnswered, hp])
    exact ⟨_, he, hg, by rw [e]; exact hk'⟩
  · refine memoryResponse_lands (f := fun t => landed t sz d (leNumber data)) hq ht (by simp [hd]) (fun t => ?_)
      (sameLife_landed ..) lives
    simp only [State.answerThread, hd, loadInto_eq_landed]
    exact changes_modThread ..
  · refine memoryResponse_lands (f := fun t => putNum t (decide (n = 8)) d (leNumber data)) hq ht (by simp [hd]) (fun t => ?_)
      (sameLife_putNum ..) lives
    simp only [State.answerThread, hd, wvw_ofNat, ← leNumber_eq_ofBytes, beq_eq_decide]
    exact changes_modThread ..
  · have hok : (toBytes n c.toNat == data) = decide (leNumber data = c.toNat % 256 ^ n) := by
      rw [leNumber_eq_ofBytes, Bool.eq_iff_iff, beq_iff_eq, decide_eq_true_iff, toBytes_eq_iff hl]
    refine memoryResponse_lands (f := fun t => (putNum t (decide (n = 8)) d (leNumber data)).wp (ps.zeroExtend 8)
      (decide (leNumber data = c.toNat % 256 ^ n))) hq ht (by simp [hd]) (fun t => ?_)
      (sameLife_wp (sameLife_putNum ..) ..) lives
    simp only [State.answerThread, hd, ho, wvw_ofNat, ← leNumber_eq_ofBytes, hok, beq_eq_decide]
    exact changes_modThread ..
  · let elems : List Word := (List.range 4).map fun i => BitVec.ofNat 32 (ofBytes ((data.drop (4 * i)).take 4))
    obtain ⟨t, he, hu, -, hk, ho⟩ := memoryResponse_lands (data := data) (f := fun t => t.warow d (4 * piece) elems) hq ht
      (by simp [hd]) (fun t => by simp only [State.answerThread, hd]; exact changes_modThread ..)
      (by rw [warow_eq]; exact ⟨rfl, rfl⟩) lives
    refine ⟨t, _, he, hu, by rw [warow_eq]; rfl, by rw [warow_eq]; rfl, by rw [warow_eq]; rfl, hk, ho, fun r e h16 => ?_⟩
    have hlen : elems.length = 4 := by simp [elems]
    rw [Thread.ra_warow _ _ _ (by omega) h16, hlen]
    split
    · next hin =>
      have hj : e - 4 * piece < 4 := by omega
      simp [elems, List.getD_eq_getElem?_getD, hj, leNumber_eq_ofBytes]
    · rfl
  · refine ⟨_, congrArg Host.Outcome.next (takeResponse_poison hq hd), rfl, ?_⟩
    simp [State.killGang, State.post, State.thread, lookupD, ht, State.group]

end Sys2Proof.Machine

/-!
Requests at the home slices (O26; R61, R64, R198, R200, R321, R373). Threads and routers are followed through a service as one
value, `State.apart`: one lemma per function, in the order of the model's files.
-/
namespace Sys2Proof.Machine
open Sys2Proof.Safety Sys2Proof.Terms

/-! ### What the home slices leave alone -/

/-- The threads and the outputs of the routers: no access to memory changes them. -/
def State.apart (s : State) : Cells Thread × Cells RouterOut := (s.threads, s.routers)

namespace State
section
variable (s : State)

theorem injected_apart (pa n : Nat) : (s.injected pa n).apart = s.apart := by
  unfold injected
  split <;> rfl

theorem drawerWrite_apart (pa : Nat) (b : Bytes) : (s.drawerWrite pa b).apart = s.apart := by
  rw [drawerWrite, injected_apart]; rfl

theorem checkLine_apart (pa : Nat) : (s.checkLine pa).apart = s.apart := by
  unfold checkLine
  split <;> rfl

theorem checkTag_apart {asid va : Nat} {l : Leaf} {t : State} (h : s.checkTag asid va l = .ok t) : t.apart = s.apart := by
  unfold checkTag at h
  dsimp only at h
  split at h
  · split at h <;> cases h
    exact drawerWrite_apart ..
  · split at h <;> cases h
    rfl

theorem tcFill_apart (die part asid : Nat) (l : Leaf) : (s.tcFill die part asid l).apart = s.apart := by
  unfold tcFill
  dsimp only
  split <;> rfl

theorem walkChecked_apart (part : Nat) (renamed : Bool) (asid va : Nat) :
    (s.walkChecked part renamed asid va).1.apart = s.apart := by
  unfold walkChecked
  split
  · rfl
  · exact List.foldlRecOn (motive := fun t : State => t.apart = s.apart) _ _ rfl fun t ht pa _ => (checkLine_apart t pa).trans ht

theorem writeBack_apart (l : Line) : (s.writeBack l).apart = s.apart := by
  unfold writeBack
  split
  · rfl
  · have h := s.drawerWrite_apart l.pa (l.read 0 128)
    dsimp only
    split <;> exact h

theorem askDrawer_apart (ctx pa tag : Nat) (f : Flit) (undo : Bytes) (bad : Bool) :
    (s.askDrawer ctx pa tag f undo bad).apart = s.apart := rfl

theorem cleanLine_apart (ctx : Nat) (l : Line) : (s.cleanLine ctx l).apart = s.apart := by
  unfold cleanLine
  split
  · rw [askDrawer_apart]
    exact s.writeBack_apart l
  · rfl

theorem evictL2_apart (ctx k : Nat) : (s.evictL2 ctx k).apart = s.apart := by
  unfold evictL2
  split
  · next l _ =>
    rw [← s.cleanLine_apart ctx l]
    rfl
  · rfl

theorem fillL2_apart (come : Bool) (ctx : Nat) (n : Named) (lf : Leaf) : (s.fillL2 come ctx n lf).1.apart = s.apart := by
  unfold fillL2
  extract_lets line pa l s0
  have h0 : s0.apart = s.apart := by
    simp only [s0]
    split
    · rfl
    · exact checkLine_apart ..
  split
  · exact (evictL2_apart ..).trans h0
  · exact h0

/-- The walk and the check of its leaf's tag are looked at apart, as in `translate_keeps`. -/
theorem translate_apart (ctx : Nat) (n : Named) (needR needW : Bool) :
    (s.translate ctx n needR needW).1.apart = s.apart := by
  unfold translate
  extract_lets die part lacks checked walked
  have hc (t : State) (l : Leaf) (c : Bool) : (checked t l c).1.apart = t.apart := by
    unfold checked
    split
    · rfl
    split
    · exact checkLine_apart ..
    cases e : (t.checkLine (t.tagAddr (l.pa / 4096))).checkTag n.asid n.va l with
    | ok t' =>
      have ht := (checkTag_apart _ e).trans (checkLine_apart ..)
      cases c
      · exact (tcFill_apart ..).trans ht
      · exact ht
    | error f => rfl
  obtain ⟨w, ew⟩ : ∃ w, walked = w := ⟨_, rfl⟩
  rw [ew]
  have hw : w.1.apart = s.apart := by
    have e := s.walkChecked_apart part n.renamed n.asid n.va
    unfold walked at ew
    revert ew e
    rcases s.walkChecked part n.renamed n.asid n.va with ⟨t, l | f | -⟩ <;> rintro rfl e
    · exact (hc t l false).trans e
    all_goals exact e
  rcases s.cachedLeaf die part n.renamed n.asid n.va with _ | ⟨e, l⟩
  · exact hw
  · change (if lacks l then w else checked (s.tcTouch e) l true).1.apart = s.apart
    split
    · exact hw
    · exact hc (s.tcTouch e) l true

/-- An access that a home slice serves. -/
theorem serveWith_apart {come : Bool} {a : Access} {t : State} {l : Line} (h : s.serveWith come a = .ok t l) :
    t.apart = s.apart := by
  unfold serveWith at h
  extract_lets n at h
  split at h
  · cases h
  split at h
  · cases h
  split at h
  · next k l' _ =>
    obtain ⟨x, hx⟩ : ∃ x : State, (if s.ownsWay a.ctx (k % 32) then
      { s.setL2 k { l' with stamp := s.stamp } with stamp := s.stamp + 1 } else s) = x := ⟨_, rfl⟩
    have h1 : x.apart = s.apart := by
      rw [← hx]
      split <;> rfl
    rw [hx] at h
    dsimp only at h
    split at h
    · rw [← (Served.ok.inj h).1]; exact h1
    · have ht := x.translate_apart a.ctx n (a.needR && !l'.r) (a.needW && !l'.w)
      split at h <;> rename_i e
      · rw [e] at ht
        rw [← (Served.ok.inj h).1]
        exact ht.trans h1
      all_goals exact nomatch h
  · have ht := s.translate_apart a.ctx n a.needR a.needW
    split at h <;> rename_i e
    · rw [e] at ht
      rw [← (Served.ok.inj h).1]
      exact (fillL2_apart ..).trans ht
    all_goals exact nomatch h

theorem writeLine_apart (ctx va : Nat) (l : Line) (b : Bytes) : (s.writeLine ctx va l b).apart = s.apart := by
  unfold writeLine
  dsimp only
  split
  · rfl
  · exact cleanLine_apart ..

theorem performReq_apart (ctx va n : Nat) (op : ReqOp) (l : Line) : (s.performReq ctx va n op l).1.apart = s.apart := by
  cases op with
  | load => rfl
  | store b => exact writeLine_apart ..
  | atomic o ty x =>
    unfold performReq
    dsimp only
    split
    · rfl
    · exact writeLine_apart ..
  | acas ty c x =>
    unfold performReq
    dsimp only
    split
    · rfl
    · split
      · exact writeLine_apart ..
      · rfl

/-- A fill of an L1 changes the L1s and the stamp. -/
theorem fillL1_eq (core ctx va : Nat) (l : Line) : s.fillL1 core ctx va l =
    { s with l1 := (s.fillL1 core ctx va l).l1, stamp := (s.fillL1 core ctx va l).stamp } := by
  unfold fillL1
  dsimp only
  split
  · rfl
  · split <;> rfl

/-- So does what stands in the requester's L1 behind the service of its request (R61, R347). -/
theorem l1After_eq (before : State) (r : MemReq) (l : Line) : s.l1After before r l =
    { s with l1 := (s.l1After before r l).l1, stamp := (s.l1After before r l).stamp } := by
  unfold l1After
  split
  · rfl
  · split
    · exact fillL1_eq ..
    · split
      · split <;> rfl
      · rfl
    · rfl

theorem l1After_apart (before : State) (r : MemReq) (l : Line) : (s.l1After before r l).apart = s.apart := by
  rw [l1After_eq]; rfl

theorem l1After_l2 (before : State) (r : MemReq) (l : Line) : (s.l1After before r l).l2 = s.l2 := by
  rw [l1After_eq]
end
end State

/-! ### Bytes of a line (R61, R64) -/

section
variable (l : Line) (o n : Nat)

theorem lineByte_write (b : Bytes) (j : Nat) : lineByte (l.write o b) j =
    if o ≤ j ∧ j < o + b.length then b.getD (j - o) 0 else lineByte l j := byte_write ⟨l.data, []⟩ o j b

theorem getD_lineRead {j : Nat} (h : j < n) : (l.read o n).getD j 0 = lineByte l (o + j) := getD_read ⟨l.data, []⟩ o n j h

theorem lineRead_length : (l.read o n).length = n := read_length ..

theorem lineNumber_eq_ofBytes : lineNumber l o n = ofBytes (l.read o n) := by
  have h := ofBytes_eq_sum (l.read o n) (fun j => lineByte l (o + j)) fun j hj =>
    getD_lineRead l o n (by rwa [lineRead_length] at hj)
  rwa [lineRead_length] at h

theorem lineNumber_write (b : Bytes) : lineNumber (l.write o b) o b.length = ofBytes b :=
  ofBytes_eq_sum b _ fun j hj => by rw [lineByte_write, if_pos ⟨by omega, by omega⟩, Nat.add_sub_cancel_left]
end

/-- A line found in a set stands in its way. -/
theorem lookup_of_l2Find {s : State} {asid line key : Nat} {l : Line} (h : s.l2Find asid line = some (key, l)) :
    lookup s.l2 key = some l := by
  obtain ⟨w, -, hw⟩ := List.exists_of_findSome?_eq_some h
  split at hw
  · next e =>
    split at hw <;> cases hw
    exact e
  · cases hw

section
variable {s : State} {l cur : Line} {key : Nat} (hf : s.l2Find l.asid l.cline = some (key, cur)) (ctx va : Nat) (b : Bytes)
include hf

/-- A write to a line that stands in a way: the copies go, and the bytes land in the way (R61, R64). -/
theorem writeLine_held : s.writeLine ctx va l b = (s.dropL1 l.asid l.cline).setL2 key (cur.write (va % 128) b) := by
  have hd : (s.dropL1 l.asid l.cline).l2Find l.asid l.cline = some (key, cur) := hf
  simp only [State.writeLine, hd]

theorem lookup_writeLine : lookup (s.writeLine ctx va l b).l2 key = some (cur.write (va % 128) b) := by
  rw [writeLine_held hf]
  exact lookup_put_same ..

theorem noCopies_writeLine : noCopies (s.writeLine ctx va l b) l := by
  rw [writeLine_held hf]
  intro e he
  simpa [imp_iff_not_or] using (List.mem_filter.1 he).2
end

/-- A line written in its way is overwritten with the number of the bytes. -/
theorem overwritten_of_write {t : State} {key o n x : Nat} {cur : Line} {b : Bytes}
    (h : lookup t.l2 key = some (cur.write o b)) (hn : b.length = n) (hx : ofBytes b = x % 256 ^ n) :
    Overwritten t key cur o n x := by
  subst hn
  exact ⟨_, h, rfl, (lineNumber_write ..).trans hx, fun j hj => by rw [lineByte_write, if_neg hj]⟩

/-! ### The new value of an atomic (R198) -/

/-- A number of an integer type of atomics, signed or not, as the comparison of R198 reads it. -/
def atomInt (ty : Ty) (y : Nat) : Int :=
  let w := if ty.wide then 64 else 32
  if ty = .s32 ∨ ty = .s64 then (if 2 ^ (w - 1) ≤ y then (y : Int) - 2 ^ w else y) else y

theorem extTy_eq_atomInt {ty : Ty} (h : ty = .s32 ∨ ty = .z32 ∨ ty = .s64 ∨ ty = .z64) {y : Nat} (hy : y < 256 ^ atomLen ty) :
    extTy ty y = atomInt ty y := by
  rcases h with rfl | rfl | rfl | rfl <;> simp [atomLen, Ty.wide] at hy <;>
    simp [extTy, tyBits, Ty.signed, atomInt, Ty.wide, Nat.mod_eq_of_lt hy]

theorem atomNew_eq_newValue {op : Aop} {ty : Ty} (h : atomType op ty) {old : Nat} {x : DWord} (ho : old < 256 ^ atomLen ty)
    (hx : x.toNat < 256 ^ atomLen ty) : (State.atomNew op ty (BitVec.ofNat 64 old) x).toNat % 256 ^ atomLen ty =
      newValue op ty old x.toNat % 256 ^ atomLen ty := by
  have hn : 256 ^ atomLen ty ≤ 2 ^ 64 := by
    unfold atomLen
    split <;> decide
  have hold : (BitVec.ofNat 64 old).toNat = old := by rw [BitVec.toNat_ofNat, Nat.mod_eq_of_lt (ho.trans_le hn)]
  have float (y : Nat) : (BitVec.ofNat 64 y).toNat % 256 ^ atomLen .f32 = y % 256 ^ atomLen .f32 := by
    rw [BitVec.toNat_ofNat]
    exact Nat.mod_mod_of_dvd _ (by decide)
  have low {y : Nat} (hy : y < 256 ^ atomLen .f32) : y % 4294967296 = y := Nat.mod_eq_of_lt hy
  cases op with
  | add =>
    rcases h with rfl | rfl | rfl | rfl | rfl
    case inr.inr.inr.inr => simp only [State.atomNew, newValue, if_true, float, hold, faddAtomic, low ho, low hx]
    all_goals simp [State.atomNew, newValue, Ty.wide, atomLen]
  | min | max =>
    by_cases hf : ty = .f32
    · subst hf
      simp only [State.atomNew, newValue, if_true, float, hold, low ho, low hx]
    · have hi : ty = .s32 ∨ ty = .z32 ∨ ty = .s64 ∨ ty = .z64 := by simpa [atomType, hf] using h
      simp only [State.atomNew, newValue, if_neg hf, hold, extTy_eq_atomInt hi ho, extTy_eq_atomInt hi hx, apply_ite BitVec.toNat]
      rfl
  | and | or | xor => simp [State.atomNew, newValue, hold]
  | exch => rfl
  | inc =>
    obtain rfl : ty = .z32 := h
    have hx' : x.toNat < 4294967296 := hx
    simp only [State.atomNew, newValue, hold]
    split
    · rfl
    · have h1 : (BitVec.ofNat 64 old + 1).toNat = (old + 1) % 2 ^ 64 := by rw [BitVec.toNat_add, hold]; rfl
      rw [h1, Nat.mod_eq_of_lt (a := old + 1) (by omega)]
  | dec =>
    obtain rfl : ty = .z32 := h
    have hz : BitVec.ofNat 64 old = 0 ↔ old = 0 := by rw [← BitVec.toNat_inj, hold]; rfl
    simp only [State.atomNew, newValue, hold, Bool.or_eq_true, decide_eq_true_eq, hz]
    split
    · rfl
    · next hn =>
      have h1 : (1 : DWord) ≤ BitVec.ofNat 64 old := by
        rw [BitVec.le_def, hold]
        exact Nat.one_le_iff_ne_zero.2 fun e => hn (.inl e)
      rw [BitVec.toNat_sub_of_le h1, hold]
      rfl

/-! ### A request at its home slice (R61, R64, R198, R200, R321, R373) -/

section
variable {s : State} {tag : Nat} {q : MemReq} (hq : lookup s.reqs tag = some q)
include hq

theorem serveRequest_waits (hf : q.fill = some false) : s.serveRequest tag = s := by
  simp [State.serveRequest, hq, hf]

variable (hs : q.served = false) (hl : q.link = none)
include hs hl

theorem serveRequest_asks {pa : Nat} (hf : q.fill = none) (hm : s.missPa (State.accessOf q) = some pa) :
    s.serveRequest tag = { s.askRead q.ctx pa tag with reqs := put s.reqs tag { q with fill := some false } } := by
  simp [State.serveRequest, hq, hs, hl, hf, hm]

theorem serveRequest_serves {s1 : State} {l : Line} (hf : q.fill ≠ some false)
    (hm : q.fill = none → s.missPa (State.accessOf q) = none)
    (ho : s.serveWith q.fill.isSome (State.accessOf q) = .ok s1 l) :
    s.serveRequest tag =
      let p := s1.performReq q.ctx (State.reqVa q) q.size q.op l
      let s2 := p.1.l1After s q l
      { s2 with reqs := put s2.reqs tag { q with served := true } }.sendPacket (coreOut q.core) vcResponse
        (s.sliceOf q.ctx (State.reqVa q)) q.size (.response (.memoryResponse tag p.2.1 p.2.2)) := by
  have hn : (if q.fill.isNone then s.missPa (State.accessOf q) else none) = none := by
    split
    · exact hm (Option.isNone_iff_eq_none.1 ‹_›)
    · rfl
  have hw : (q.served || q.link.isSome || q.fill == some false) = false := by simp [hs, hl, hf]
  simp only [State.serveRequest, hq, hw, hn, ho]
  rfl
end

theorem link_modLink (s : State) (l : LinkId) (f : LinkState → LinkState) : (s.modLink l f).link l = f (s.link l) := by
  simp [State.modLink, State.link, lookupD_putD]

theorem sendPacket_queued (s : State) (o vc input n : Nat) (item : NetItem) : ∃ p,
    ((s.sendPacket o vc input n item).router o).queue = (s.router o).queue ++ [p] ∧ p.vc = vc ∧ p.item = item :=
  ⟨⟨vc, input, flitsOf n, s.slotNow, false, item⟩, by simp [State.sendPacket, State.router, lookupD_putD], rfl, rfl⟩

/-- An atomic or an ACAS leaves nothing in the requester's L1. -/
theorem l1After_of_atomic (s before : State) {r : MemReq} (l : Line) (hl : r.op ≠ .load) (hs : ∀ d, r.op ≠ .store d) :
    s.l1After before r l = s := by
  unfold State.l1After
  split
  · rfl
  · split
    · exact absurd ‹_› hl
    · exact absurd ‹_› (hs _)
    · rfl

/-- A read of a line waits for a slot of the link that its address names (R302, R372). -/
theorem askRead_queued (s : State) (ctx pa tag : Nat) : ∃ x,
    ((s.askRead ctx pa tag).link ⟨false, s.channelOf pa⟩).queue = (s.link ⟨false, s.channelOf pa⟩).queue ++ [x] ∧ x.ctx = ctx ∧
      x.tag = tag ∧ x.flit.cmd.toNat / 2 ^ 124 = 1 ∧ x.flit.cmd.toNat % 2 ^ 35 = s.channelOff (pa / 128 * 128) % 2 ^ 35 := by
  refine ⟨_, congrArg LinkState.queue (link_modLink ..), rfl, rfl, ?_⟩
  simp only [State.lineFlit, Txn.new, BitVec.toNat_ofNat, Bool.toNat_false]
  generalize s.channelOff (pa / 128 * 128) = c
  omega

section
variable (s : State) (ctx va n : Nat) {l : Line}

theorem performReq_load : s.performReq ctx va n .load l = (s, l.read (va % 128) n, l.poison) := rfl

theorem performReq_store (b : Bytes) : s.performReq ctx va n (.store b) l = (s.writeLine ctx va l b, [], false) := rfl

theorem performReq_atomic (op : Aop) (ty : Ty) (x : DWord) (hp : l.poison = false) : s.performReq ctx va n (.atomic op ty x) l =
    (s.writeLine ctx va l (toBytes n (State.atomNew op ty (BitVec.ofNat 64 (ofBytes (l.read (va % 128) n))) x).toNat),
      l.read (va % 128) n, false) := by
  simp [State.performReq, hp]

theorem performReq_acas (ty : Ty) (c x : DWord) (hp : l.poison = false) : s.performReq ctx va n (.acas ty c x) l =
    (if lineNumber l (va % 128) n = c.toNat % 256 ^ n then s.writeLine ctx va l (toBytes n x.toNat) else s,
      l.read (va % 128) n, false) := by
  have he : toBytes n c.toNat = l.read (va % 128) n ↔ lineNumber l (va % 128) n = c.toNat % 256 ^ n := by
    rw [toBytes_eq_iff (lineRead_length ..), lineNumber_eq_ofBytes]
  simp only [State.performReq, hp, he, Bool.false_eq_true, if_false]
  split <;> rfl
end

/-- What the service of a request leaves, by what its operation makes of the line. -/
theorem exec_homeSlice_serves {s s1 u : State} {tag : Nat} {q : MemReq} {l : Line} {data : Bytes} (hq : lookup s.reqs tag = some q)
    (hs : q.served = false) (hl : q.link = none) (hf : q.fill ≠ some false)
    (hm : q.fill = none → s.missPa (State.accessOf q) = none)
    (ho : s.serveWith q.fill.isSome (State.accessOf q) = .ok s1 l)
    (hp : s1.performReq q.ctx (within53 q) q.size q.op l = (u, data, false)) :
    ∃ t, exec (.homeSliceRequest tag) s = .next t ∧ lookup t.reqs tag = some { q with served := true } ∧ t.threads = s.threads ∧
      (∃ p, (t.router (256 + q.core)).queue = (s.router (256 + q.core)).queue ++ [p] ∧ p.vc = 1 ∧
        p.item = .response (.memoryResponse tag data false)) ∧ t.l2 = u.l2 ∧ t.l1 = (u.l1After s q l).l1 := by
  have ha : (u.l1After s q l).apart = s.apart := by
    have hu := s1.performReq_apart q.ctx (within53 q) q.size q.op l
    rw [hp] at hu
    exact (State.l1After_apart ..).trans (hu.trans (State.serveWith_apart s ho))
  obtain ⟨ht, hr⟩ := Prod.mk.inj ha
  have e := serveRequest_serves hq hs hl hf hm ho
  rw [show State.reqVa q = within53 q from rfl, hp] at e
  let v : State := { u.l1After s q l with reqs := put (u.l1After s q l).reqs tag { q with served := true } }
  have hv : v.router (coreOut q.core) = s.router (coreOut q.core) := congrArg (lookupD RouterOut.zero · (coreOut q.core)) hr
  obtain ⟨p, hp⟩ := sendPacket_queued v (coreOut q.core) vcResponse (s.sliceOf q.ctx (within53 q)) q.size
    (.response (.memoryResponse tag data false))
  rw [hv] at hp
  exact ⟨_, congrArg Host.Outcome.next e, lookup_put_same .., ht, ⟨p, hp⟩, State.l1After_l2 .., rfl⟩

/-- Settles O26: what is left of a service by `exec_homeSlice_serves`, from what `performReq` makes of the line for each
operation. -/
theorem homeSliceAnswers : Obligations.HomeSliceAnswers := by
  intro s tag q hq hs hl
  dsimp only
  refine ⟨fun pa hf hm => ?_, fun hf => congrArg Host.Outcome.next (serveRequest_waits hq hf), fun s1 l hf hm ho hp => ?_⟩
  · obtain ⟨x, h⟩ := askRead_queued s q.ctx pa tag
    exact ⟨_, x, congrArg Host.Outcome.next (serveRequest_asks hq hs hl hf hm), lookup_put_same .., rfl, h⟩
  have answer (j : Nat) (hj : j < q.size) := getD_lineRead l (within53 q % 128) q.size hj
  have serves {u : State} {data : Bytes} := exec_homeSlice_serves (u := u) (data := data) hq hs hl hf hm ho
  generalize ({ q with served := true } : MemReq) = q' at serves ⊢
  cases hop : q.op with
  | load =>
    obtain ⟨t, he, hr, ht, ⟨p, hp1, hp2, hp3⟩, h2, -⟩ := serves (by rw [hop, performReq_load, hp])
    refine ⟨t, he, hr, ht, ⟨_, p, hp1, hp2, hp3, lineRead_length .., answer⟩, fun key cur hk => ?_⟩
    exact (congrArg (lookup · key) h2).trans (lookup_of_l2Find hk)
  | store d =>
    obtain ⟨t, he, hr, ht, ⟨p, hp1, hp2, hp3⟩, h2, -⟩ := serves (by rw [hop, performReq_store])
    refine ⟨t, he, hr, ht, ⟨_, p, hp1, hp2, hp3, rfl⟩, fun key cur hk => ?_⟩
    have hd : ofBytes d = leNumber d % 256 ^ d.length := by rw [leNumber_eq_ofBytes, Nat.mod_eq_of_lt (ofBytes_lt d)]
    exact overwritten_of_write (h2 ▸ lookup_writeLine hk ..) rfl hd
  | atomic op ty x =>
    obtain ⟨t, he, hr, ht, ⟨p, hp1, hp2, hp3⟩, h2, h1⟩ := serves (by rw [hop, performReq_atomic _ _ _ _ _ _ _ hp])
    rw [l1After_of_atomic _ _ _ (by simp [hop]) (by simp [hop])] at h1
    refine ⟨t, he, hr, ht, ⟨_, p, hp1, hp2, hp3, lineRead_length .., answer⟩,
      fun key cur hk hty hn hx => ⟨?_, fun e hm => ?_⟩⟩
    · refine overwritten_of_write (h2 ▸ lookup_writeLine hk ..) (toBytes_length ..) ?_
      have hold := ofBytes_lt (l.read (within53 q % 128) q.size)
      rw [lineRead_length] at hold
      rw [ofBytes_toBytes, lineNumber_eq_ofBytes]
      rw [hn] at hx hold ⊢
      exact atomNew_eq_newValue hty hold hx
    · exact noCopies_writeLine hk _ _ _ e (h1 ▸ hm)
  | acas ty c x =>
    obtain ⟨t, he, hr, ht, ⟨p, hp1, hp2, hp3⟩, h2, h1⟩ := serves (by rw [hop, performReq_acas _ _ _ _ _ _ _ hp])
    rw [l1After_of_atomic _ _ _ (by simp [hop]) (by simp [hop])] at h1
    refine ⟨t, he, hr, ht, ⟨_, p, hp1, hp2, hp3, lineRead_length .., answer⟩, fun key cur hk _ => ?_⟩
    split
    · next heq =>
      rw [if_pos heq] at h1 h2
      exact ⟨overwritten_of_write (h2 ▸ lookup_writeLine hk ..) (toBytes_length ..) (ofBytes_toBytes ..),
        fun e hm => noCopies_writeLine hk _ _ _ e (h1 ▸ hm)⟩
    · next hne =>
      rw [if_neg hne] at h2
      exact (congrArg (lookup · key) h2).trans (lookup_of_l2Find hk)

end Sys2Proof.Machine

/-!
What an issue and the updates of barriers and cores leave, and membership in tables behind writes: what the obligations on barriers
and subscriptions read off a state (R79, R204 to R206, R211 to R213).
-/
namespace Sys2Proof.Machine
open Sys2Proof.Safety Sys2Proof.Terms

/-! ### The end of an issue: parts that it leaves -/

section
variable (s0 s : State) (ran : Bool)
@[simp] theorem settle_cores : (settle s0 s ran).cores = s.cores := by rw [settle_eq]
@[simp] theorem settle_streams : (settle s0 s ran).streams = s.streams := by rw [settle_eq]
@[simp] theorem settle_inbox : (settle s0 s ran).inbox = s.inbox := by rw [settle_eq]
@[simp] theorem barrier_settle (g n : Nat) : (settle s0 s ran).barrier g n = s.barrier g n := by rw [settle_eq]; rfl
@[simp] theorem hood_settle (h : Nat) : (settle s0 s ran).hood h = s.hood h := by rw [settle_eq]; rfl
@[simp] theorem core_settle (c : Nat) : (settle s0 s ran).core c = s.core c := by rw [settle_eq]; rfl
end

theorem kept_trans {s t u : State} (h : Kept s t) (g : Kept t u) : Kept s u := ⟨g.1.trans h.1, g.2.trans h.2⟩
theorem othersKept_trans {s t u : State} {k : Nat} (h : OthersKept s t k) (g : OthersKept t u k) : OthersKept s u k :=
  fun j hj => (g j hj).trans (h j hj)
theorem othersKept_of_threads {s t : State} (h : t.threads = s.threads) (k : Nat) : OthersKept s t k := fun _ _ => by rw [h]
theorem kept_of_onlyThreads {s t : State} (h : OnlyThreads s t) : Kept s t := by rw [h]; exact ⟨rfl, rfl⟩
theorem kept_settle (s0 s : State) (ran : Bool) : Kept s (settle s0 s ran) := kept_of_onlyThreads (settle_onlyThreads ..)
theorem othersKept_settle (s0 s : State) (ran : Bool) (k : Nat) : OthersKept s (settle s0 s ran) k :=
  othersKept_of_threads (settle_threads ..) k

/-- The thread behind an instruction, changed by its body. -/
theorem lookup_advanced_modThread {i : Instr} {s : State} {k : Nat} {th : Thread} (h : Alone i s k th) (f : Thread → Thread) :
    lookup ((s.modThread k (advance i)).modThread k f).threads k = some (f (advance i th)) := by
  rw [State.lookup_modThread, if_pos rfl, State.lookup_modThread, if_pos rfl, h.here]; rfl

/-- An instruction that only lets the one thread pass. -/
theorem exec_pass_alone {i : Instr} {body : Body} {s : State} {k : Nat} {th : Thread} (h : Alone i s k th)
    (he : exec i s = issue i body s)
    (hb : body ⟨s, [k], ordersLanes i.raw.op⟩ k (s.modThread k (advance i)) = .done (s.modThread k (advance i))) :
    ∃ t, exec i s = .next t ∧ OnlyThreads s t ∧ OthersKept s t k ∧ lookup t.threads k = some (advance i th) := by
  refine ⟨_, he.trans (issue_done h body hb), settle_onlyThreads s _ true, ?_, ?_⟩
  · exact othersKept_trans (othersKept_modThread s k _) (othersKept_settle s _ true k)
  · rw [settle_threads, State.lookup_modThread, if_pos rfl, h.here]; rfl

/-- An instruction that is held in the one thread at hand, when its body has changed other parts of the state. -/
theorem exec_hold_behind {i : Instr} {body : Body} {s s' : State} {k : Nat} {th : Thread} {w : Wait} (h : Alone i s k th)
    (he : exec i s = issue i body s)
    (hb : body ⟨s, [k], ordersLanes i.raw.op⟩ k (s.modThread k (advance i)) = .hold s' w)
    (ht : s'.threads = (s.modThread k (advance i)).threads) :
    ∃ t u, exec i s = .next t ∧ lookup t.threads k = some u ∧ OthersKept s t k ∧ Kept s' t ∧
      SameRegs u { th with wait := w } ∧ t.cores = s'.cores ∧ t.streams = s'.streams := by
  refine ⟨_, { unadvance th (advance i th) with wait := w, since := s.clk }, he.trans (issue_hold h body hb), ?_, fun j hj => ?_,
    ?_, ⟨rfl, rfl, rfl, rfl, rfl, rfl, rfl, rfl, rfl, rfl⟩, settle_cores .., settle_streams ..⟩
  · rw [settle_threads, State.lookup_modThread, if_pos rfl, ht, State.lookup_modThread, if_pos rfl, h.here]; rfl
  · rw [settle_threads, othersKept_modThread s' k _ j hj, ht, othersKept_modThread s k _ j hj]
  · exact kept_trans (kept_of_onlyThreads (onlyThreads_modThread s' k _)) (kept_settle ..)

/-! ### Tables behind writes -/

theorem lookupD_of_lookup {α : Type} {d x : α} {c : Cells α} {k : Nat} (h : lookup c k = some x) : lookupD d c k = x := by
  rw [lookupD, h]; rfl

theorem lookupD_adjust {α : Type} (d : α) {c : Cells α} {k : Nat} (f : α → α) (h : lookup c k ≠ none) :
    lookupD d (adjust c k f) k = f (lookupD d c k) := by
  obtain ⟨x, hx⟩ := Option.ne_none_iff_exists'.1 h
  rw [lookupD_of_lookup hx]
  exact lookupD_of_lookup (by rw [lookup_adjust, if_pos rfl, hx]; rfl)

theorem lookup_adjust_present {α : Type} {c : Cells α} {k : Nat} (f : α → α) (h : lookup c k ≠ none) :
    lookup (adjust c k f) k ≠ none := by
  rw [lookup_adjust, if_pos rfl]; simpa using h

theorem group_modGroup {s : State} {g : Nat} (f : Group → Group) (h : lookup s.groups g ≠ none) :
    (s.modGroup g f).group g = f (s.group g) := lookupD_adjust _ f h
theorem hood_modHood {s : State} {hd : Nat} (f : Hood → Hood) (h : lookup s.hoods hd ≠ none) :
    (s.modHood hd f).hood hd = f (s.hood hd) := lookupD_adjust _ f h
theorem core_modCore_eq (s : State) (c j : Nat) (f : CoreState → CoreState) :
    (s.modCore c f).core j = if j = c then f (s.core j) else s.core j := by
  rw [State.core, State.modCore, lookupD_putD]
  split
  · next h => rw [h]
  · rfl

/-- A write leaves every entry but the one it sets. -/
theorem mem_put_or {α : Type} {c : Cells α} {e : Nat × α} (h : e ∈ c) (k : Nat) (x : α) :
    e ∈ put c k x ∨ e.1 = k ∧ lookup c k = some e.2 := by
  induction c with
  | nil => cases h
  | cons a l ih =>
    obtain ⟨j, y⟩ := a
    rw [put, lookup]
    by_cases hk : k < j
    · rw [if_pos hk]; exact .inl (List.mem_cons_of_mem _ h)
    rw [if_neg hk]
    by_cases hj : j = k
    · rw [if_pos hj, if_pos hj]
      rcases List.mem_cons.1 h with rfl | h
      · exact .inr ⟨hj, rfl⟩
      · exact .inl (List.mem_cons_of_mem _ h)
    · rw [if_neg hj, if_neg hj]
      rcases List.mem_cons.1 h with rfl | h
      · exact .inl (List.mem_cons_self ..)
      · exact (ih h).imp_left (List.mem_cons_of_mem _)

/-! ### Free slots of a table -/

theorem freeFrom_some {α : Type} {c : Cells α} {n k e : Nat} (h : freeFrom c n k = some e) :
    k ≤ e ∧ e < k + n ∧ lookup c e = none := by
  induction n generalizing k with
  | zero => cases h
  | succ n ih =>
    rw [freeFrom] at h
    split at h
    · next hk => cases h; exact ⟨le_rfl, by omega, Option.isNone_iff_eq_none.1 hk⟩
    · obtain ⟨h1, h2, h3⟩ := ih h
      exact ⟨by omega, by omega, h3⟩

theorem freeFrom_none {α : Type} {c : Cells α} {n k : Nat} (h : freeFrom c n k = none) {e : Nat} (h1 : k ≤ e) (h2 : e < k + n) :
    lookup c e ≠ none := by
  induction n generalizing k with
  | zero => omega
  | succ n ih =>
    rw [freeFrom] at h
    split at h
    · cases h
    · next hk =>
      rcases Nat.eq_or_lt_of_le h1 with rfl | h1
      · exact fun q => hk (by rw [q]; rfl)
      · exact ih h h1 (by omega)

/-- No slot is found where every one is taken. -/
theorem freeFrom_none_iff {α : Type} {c : Cells α} {n : Nat} : freeFrom c n 0 = none ↔ ∀ e, e < n → lookup c e ≠ none := by
  refine ⟨fun h e he => freeFrom_none h (Nat.zero_le e) (by omega), fun h => Option.eq_none_iff_forall_ne_some.2 fun e he => ?_⟩
  obtain ⟨-, hn, hl⟩ := freeFrom_some he
  exact h e (by omega) hl

/-- A table of fewer entries than slots has a free slot. -/
theorem freeFrom_of_length {α : Type} {c : Cells α} {n : Nat} (h : c.length < n) : ∃ e, freeFrom c n 0 = some e := by
  refine Option.ne_none_iff_exists'.1 fun hn => ?_
  have hs : List.range n ⊆ keysOf c := fun e he => by
    obtain ⟨x, hx⟩ := Option.ne_none_iff_exists'.1 (freeFrom_none_iff.1 hn e (List.mem_range.1 he))
    exact List.mem_map.2 ⟨_, mem_of_lookup hx, rfl⟩
  have hl := (List.nodup_range.subperm hs).length_le
  rw [List.length_range, keysOf, List.length_map] at hl
  omega

/-! ### The participants of a barrier (R204) -/

/-- Two records of a thread of one group that are both participants or both not. -/
def SameSeat (a b : Thread) : Prop := b.gid = a.gid ∧ b.hidx = a.hidx ∧ b.status = a.status

theorem sameSeat_advance (i : Instr) (th : Thread) : SameSeat th (advance i th) := ⟨rfl, rfl, rfl⟩
theorem sameSeat_wait (w : Wait) (th : Thread) : SameSeat th { th with wait := w } := ⟨rfl, rfl, rfl⟩
theorem sameSeat_wv (d : Reg) (x : Word) (th : Thread) : SameSeat th (th.wv d x) := ⟨rfl, rfl, rfl⟩

theorem mem_participants {s : State} {gid p : Nat} : p ∈ s.participants gid ↔
    ∃ x, (p, x) ∈ s.threads ∧ x.gid = gid ∧ x.hidx = 0 ∧ x.status ≠ .exited := by
  simp [State.participants, and_assoc]

theorem participants_of_threads {s t : State} (h : t.threads = s.threads) (gid : Nat) : t.participants gid = s.participants gid := by
  rw [State.participants, h]; rfl

/-- A change of a thread that keeps its seat keeps the participants. -/
theorem mem_participants_modThread {f : Thread → Thread} (hf : ∀ th, SameSeat th (f th)) (s : State) (k gid p : Nat) :
    p ∈ (s.modThread k f).participants gid ↔ p ∈ s.participants gid := by
  cases hk : lookup s.threads k with
  | none => rw [State.modThread, adjust, hk]
  | some th =>
    rw [mem_participants, mem_participants, State.threads_modThread hk]
    obtain ⟨hg, hi, hs⟩ := hf th
    constructor
    · rintro ⟨x, hx, hp⟩
      rcases mem_put hx with e | hx
      · cases e; exact ⟨th, mem_of_lookup hk, by rwa [hg, hi, hs] at hp⟩
      · exact ⟨x, hx, hp⟩
    · rintro ⟨x, hx, hp⟩
      rcases mem_put_or hx k (f th) with hx | ⟨rfl, e⟩
      · exact ⟨x, hx, hp⟩
      · cases hk.symm.trans e
        exact ⟨f x, mem_of_lookup (lookup_put_same ..), by rwa [hg, hi, hs]⟩

/-! ### The release of threads that wait together (R23, R206) -/

/-- A released thread, in the fragment of a tag. -/
def releasedAs (tag : Nat) (th : Thread) : Thread := { th with wait := .none, tag := tag }

theorem sameRegs_released (tag : Nat) (th : Thread) : SameRegs (releasedAs tag th) { th with wait := .none } :=
  ⟨rfl, rfl, rfl, rfl, rfl, rfl, rfl, rfl, rfl, rfl⟩

/-- The first thread is released, and then the others. -/
theorem joinReleased_cons (s : State) (k : Nat) (ks : List Nat) (seen : List (Nat × Nat × DWord × Nat)) : ∃ tag n seen',
    s.joinReleased (k :: ks) seen = State.joinReleased { s.modThread k (releasedAs tag) with fresh := n } ks seen' := by
  rw [State.joinReleased]
  split
  · exact ⟨_, s.fresh, _, rfl⟩
  · exact ⟨_, s.fresh + 1, _, rfl⟩

/-- A release changes threads and draws fresh tags, and nothing else. -/
theorem joinReleased_eq (s : State) (ks : List Nat) (seen : List (Nat × Nat × DWord × Nat)) : s.joinReleased ks seen =
    { s with threads := (s.joinReleased ks seen).threads, fresh := (s.joinReleased ks seen).fresh } := by
  induction ks generalizing s seen with
  | nil => rfl
  | cons k ks ih =>
    obtain ⟨tag, n, seen', e⟩ := joinReleased_cons s k ks seen
    rw [e, ih]; rfl

theorem lookup_joinReleased_other {ks : List Nat} {j : Nat} (hj : j ∉ ks) (s : State) (seen : List (Nat × Nat × DWord × Nat)) :
    lookup (s.joinReleased ks seen).threads j = lookup s.threads j := by
  induction ks generalizing s seen with
  | nil => rfl
  | cons k ks ih =>
    obtain ⟨tag, n, seen', e⟩ := joinReleased_cons s k ks seen
    rw [e, ih (fun q => hj (List.mem_cons_of_mem _ q))]
    exact (State.lookup_modThread ..).trans (if_neg fun q => hj (by simp [q]))

theorem lookup_joinReleased {ks : List Nat} {j : Nat} {x : Thread} {s : State} (hj : j ∈ ks) (hx : lookup s.threads j = some x)
    (seen : List (Nat × Nat × DWord × Nat)) : ∃ tag, lookup (s.joinReleased ks seen).threads j = some (releasedAs tag x) := by
  induction ks generalizing s seen x with
  | nil => cases hj
  | cons k ks ih =>
    obtain ⟨tag, n, seen', e⟩ := joinReleased_cons s k ks seen
    rw [e]
    by_cases hk : j = k
    · subst hk
      have h1 : lookup (s.modThread j (releasedAs tag)).threads j = some (releasedAs tag x) := by
        rw [State.lookup_modThread, if_pos rfl, hx]; rfl
      by_cases hm : j ∈ ks
      · exact ih (s := { s.modThread j (releasedAs tag) with fresh := n }) hm h1 seen'
      · exact ⟨tag, (lookup_joinReleased_other hm ..).trans h1⟩
    · have h1 : lookup (s.modThread k (releasedAs tag)).threads j = some x := by
        rw [State.lookup_modThread, if_neg hk, hx]
      exact ih (s := { s.modThread k (releasedAs tag) with fresh := n }) ((List.mem_cons.1 hj).resolve_left hk) h1 seen'

/-- A thread that is released or already waits for nothing sees nothing else of the release. -/
theorem joinReleased_sameRegs {ks : List Nat} {j : Nat} {x : Thread} {s : State} (hx : lookup s.threads j = some x)
    (hj : j ∈ ks ∨ x.wait = .none) (seen : List (Nat × Nat × DWord × Nat)) :
    ∃ u, lookup (s.joinReleased ks seen).threads j = some u ∧ SameRegs u { x with wait := .none } := by
  by_cases hm : j ∈ ks
  · obtain ⟨tag, hu⟩ := lookup_joinReleased hm hx seen
    exact ⟨_, hu, sameRegs_released tag x⟩
  · refine ⟨x, (lookup_joinReleased_other hm ..).trans hx, ?_⟩
    have hw := hj.resolve_left hm
    exact ⟨rfl, rfl, rfl, rfl, rfl, rfl, rfl, rfl, rfl, hw⟩

/-! ### Streams behind a flush (R76) -/

/-- The updates of a stream that are not applied yet. -/
def pendingOf (x : Stream) : List Update := x.basket ++ x.sent.flatten

/-- A stream whose open basket has been sent. -/
def flushed (x : Stream) : Stream := if x.basket.isEmpty then x else { x with basket := [], sent := x.sent ++ [x.basket] }

theorem basket_flushed (x : Stream) : (flushed x).basket = [] := by
  unfold flushed
  split
  · exact List.isEmpty_iff.1 ‹_›
  · rfl

theorem mem_pendingOf_flushed {x : Stream} {u : Update} : u ∈ pendingOf (flushed x) ↔ u ∈ pendingOf x := by
  unfold flushed
  split
  · exact .rfl
  · simp [pendingOf, or_comm]

namespace State

theorem streamKey_div {pub sub : Nat} (h : sub < 1024) : streamKey pub sub / 1024 = pub := by unfold streamKey; omega
theorem streamKey_mod {pub sub : Nat} (h : sub < 1024) : streamKey pub sub % 1024 = sub := by unfold streamKey; omega

theorem stream_setStream (s : State) (pub sub : Nat) (x : Stream) : (s.setStream pub sub x).stream pub sub = x := by
  rw [stream, setStream, lookupD_putD, if_pos rfl]

/-- A flush finds nothing open, or sends the open basket of its stream. -/
theorem flushStream_cases (s : State) (pub sub : Nat) :
    s.flushStream pub sub = s ∧ (s.stream pub sub).basket = [] ∨ ∃ x, lookup s.streams (streamKey pub sub) = some x ∧
      x.basket ≠ [] ∧ s.flushStream pub sub = { s with streams := put s.streams (streamKey pub sub) (flushed x) } := by
  unfold flushStream
  by_cases hb : (s.stream pub sub).basket.isEmpty = true
  · exact .inl ⟨if_pos hb, List.isEmpty_iff.1 hb⟩
  · cases hl : lookup s.streams (streamKey pub sub) with
    | none => exact absurd (by rw [stream, lookupD, hl]; rfl) hb
    | some x =>
      have hx : s.stream pub sub = x := lookupD_of_lookup hl
      rw [hx] at hb ⊢
      have hne : ({ x with basket := [], sent := x.sent ++ [x.basket] } : Stream) ≠ noStream := by simp [noStream]
      exact .inr ⟨x, rfl, by simpa using hb, by rw [flushed, if_neg hb, if_neg hb, setStream, putD, if_neg hne]⟩

theorem lookup_flushStream (s : State) (pub sub key : Nat) : lookup (s.flushStream pub sub).streams key =
    if key = streamKey pub sub then (lookup s.streams key).map flushed else lookup s.streams key := by
  rcases flushStream_cases s pub sub with ⟨e, hb⟩ | ⟨x, hl, -, e⟩
  · rw [e]
    split
    · next hk =>
      subst hk
      cases hl : lookup s.streams (streamKey pub sub) with
      | none => rfl
      | some x =>
        have hx : s.stream pub sub = x := lookupD_of_lookup hl
        rw [hx] at hb
        exact congrArg some (if_pos (List.isEmpty_iff.2 hb)).symm
    · rfl
  · rw [e, lookup_put]
    split
    · next hk => rw [hk, hl]; rfl
    · rfl

theorem stream_flushStream (s : State) (pub sub a b : Nat) : (s.flushStream pub sub).stream a b =
    if streamKey a b = streamKey pub sub then flushed (s.stream a b) else s.stream a b := by
  rw [stream, lookupD, lookup_flushStream, stream, lookupD]
  split
  · cases lookup s.streams (streamKey a b) <;> rfl
  · rfl

/-- A flush opens no basket. -/
theorem basket_flushStream {s : State} {a b : Nat} (hb : (s.stream a b).basket = []) (pub sub : Nat) :
    ((s.flushStream pub sub).stream a b).basket = [] := by
  rw [stream_flushStream]
  split
  · exact basket_flushed _
  · exact hb

/-- A flush brings no update into a stream. -/
theorem mem_flushStream {s : State} {pub sub : Nat} {e : Nat × Stream} (h : e ∈ (s.flushStream pub sub).streams) :
    ∃ x, (e.1, x) ∈ s.streams ∧ ∀ u ∈ pendingOf e.2, u ∈ pendingOf x := by
  rcases flushStream_cases s pub sub with ⟨e', -⟩ | ⟨x, hl, -, e'⟩
  · rw [e'] at h; exact ⟨e.2, h, fun _ hu => hu⟩
  · rw [e'] at h
    rcases mem_put h with rfl | h
    · exact ⟨x, mem_of_lookup hl, fun _ => mem_pendingOf_flushed.1⟩
    · exact ⟨e.2, h, fun _ hu => hu⟩

/-- A flush changes streams alone. -/
theorem flushStream_eq (s : State) (pub sub : Nat) :
    s.flushStream pub sub = { s with streams := (s.flushStream pub sub).streams } := by
  rcases flushStream_cases s pub sub with ⟨e, -⟩ | ⟨x, -, -, e⟩ <;> rw [e]

theorem core_flushStream (s : State) (pub sub c : Nat) : (s.flushStream pub sub).core c = s.core c := by
  rw [flushStream_eq]; rfl

/-- Updates of a core below a mark are outstanding where one of its streams holds one. -/
theorem updatesBelow_of_lookup {s : State} {key pub mark : Nat} {sub : Option Nat} {x : Stream} {u : Update}
    (h : lookup s.streams key = some x) (hp : key / 1024 = pub) (hs : sub = none ∨ sub = some (key % 1024))
    (hu : u ∈ pendingOf x) (hm : u.seq < mark) : s.updatesBelow pub sub mark = true := by
  refine List.any_eq_true.2 ⟨_, mem_of_lookup h, ?_⟩
  rw [Bool.and_eq_true, Bool.and_eq_true, beq_iff_eq]
  refine ⟨⟨hp, ?_⟩, List.any_eq_true.2 ⟨u, hu, by simpa using hm⟩⟩
  rcases hs with rfl | rfl <;> simp

/-- A core without a stream has no update outstanding. -/
theorem updatesBelow_idle {s : State} {pub : Nat} (h : ∀ e ∈ s.streams, e.1 / 1024 ≠ pub) (sub : Option Nat) (mark : Nat) :
    s.updatesBelow pub sub mark = false := by
  refine List.any_eq_false.2 fun e he => ?_
  simp [h e he]

/-- What the flush of one stream keeps, the flush of a core's streams keeps. -/
theorem flushCore_induction {P : State → Prop} {s : State} (pub : Nat) (h0 : P s)
    (hs : ∀ t sub, sub < 1024 → P t → P (t.flushStream pub sub)) : P (s.flushCore pub) := by
  unfold flushCore
  generalize keysOf s.streams = ks
  induction ks generalizing s with
  | nil => exact h0
  | cons k ks ih =>
    refine ih ?_
    dsimp only
    split
    · exact hs s _ (Nat.mod_lt _ (by decide)) h0
    · exact h0

theorem flushCore_eq (s : State) (pub : Nat) : s.flushCore pub = { s with streams := (s.flushCore pub).streams } :=
  flushCore_induction (P := fun t => t = { s with streams := t.streams }) pub rfl fun t sub _ h => by
    rw [flushStream_eq]
    exact congrArg (fun u : State => { u with streams := (t.flushStream pub sub).streams }) h

theorem core_flushCore (s : State) (pub c : Nat) : (s.flushCore pub).core c = s.core c := by
  rw [flushCore_eq]; rfl

/-- The updates of a stream stay where they are when a core's baskets are flushed. -/
theorem lookup_flushCore {s : State} {key : Nat} {x : Stream} {u : Update} (pub : Nat) (h : lookup s.streams key = some x)
    (hu : u ∈ pendingOf x) : ∃ y, lookup (s.flushCore pub).streams key = some y ∧ u ∈ pendingOf y := by
  refine flushCore_induction (P := fun t => ∃ y, lookup t.streams key = some y ∧ u ∈ pendingOf y) pub ⟨x, h, hu⟩ ?_
  rintro t sub - ⟨y, hy, hm⟩
  rw [lookup_flushStream, hy]
  split
  · exact ⟨_, rfl, mem_pendingOf_flushed.2 hm⟩
  · exact ⟨y, rfl, hm⟩

/-- An update outstanding before the flush of its core is outstanding behind it. -/
theorem updatesBelow_flushCore {s : State} {key pub : Nat} {x : Stream} {u : Update} (h : lookup s.streams key = some x)
    (hp : key / 1024 = pub) (hu : u ∈ pendingOf x) (hm : u.seq < (s.core pub).produced) :
    (s.flushCore pub).updatesBelow pub none (s.core pub).produced = true := by
  obtain ⟨y, hy, hm'⟩ := lookup_flushCore pub h hu
  exact updatesBelow_of_lookup hy hp (.inl rfl) hm' hm

theorem flushCore_idle {s : State} {pub : Nat} (h : ∀ e ∈ s.streams, e.1 / 1024 ≠ pub) : s.flushCore pub = s := by
  have main (ks : List Nat) (hk : ∀ k ∈ ks, k / 1024 ≠ pub) :
      ks.foldl (fun s k => if k / 1024 = pub then s.flushStream pub (k % 1024) else s) s = s := by
    induction ks with
    | nil => rfl
    | cons k ks ih =>
      rw [List.foldl_cons, if_neg (hk k (List.mem_cons_self ..))]
      exact ih fun j hj => hk j (List.mem_cons_of_mem _ hj)
  refine main _ fun k hk => ?_
  obtain ⟨e, he, rfl⟩ := List.mem_map.1 hk
  exact h e he

/-- Behind the flush of a core no basket of it is open. -/
theorem basket_flushCore (s : State) (pub : Nat) {sub : Nat} (hs : sub < 1024) : ((s.flushCore pub).stream pub sub).basket = [] := by
  have main (ks : List Nat) (t : State) (h : streamKey pub sub ∈ ks ∨ (t.stream pub sub).basket = []) :
      ((ks.foldl (fun s k => if k / 1024 = pub then s.flushStream pub (k % 1024) else s) t).stream pub sub).basket = [] := by
    induction ks generalizing t with
    | nil => exact h.resolve_left (List.not_mem_nil)
    | cons k ks ih =>
      refine ih _ ?_
      by_cases hk : streamKey pub sub = k
      · refine .inr ?_
        subst hk
        dsimp only
        rw [if_pos (streamKey_div hs), streamKey_mod hs, stream_flushStream, if_pos rfl]
        exact basket_flushed _
      · refine h.imp (fun m => (List.mem_cons.1 m).resolve_left hk) fun hb => ?_
        dsimp only
        split
        · exact basket_flushStream hb ..
        · exact hb
  refine main (keysOf s.streams) s ?_
  cases hl : lookup s.streams (streamKey pub sub) with
  | none => rw [stream, lookupD, hl]; exact .inr rfl
  | some x => exact .inl (List.mem_map.2 ⟨_, mem_of_lookup hl, rfl⟩)

theorem hoodUpdates_iff (s : State) (hood : Nat) :
    s.hoodUpdates hood = true ↔ ∃ e ∈ s.streams, ∃ u ∈ pendingOf e.2, u.hood = hood := by
  simp only [hoodUpdates, pendingOf, List.any_eq_true, beq_iff_eq]

/-- A flush brings no update of a hood. -/
theorem hoodUpdates_flushCore {s : State} {hood : Nat} (pub : Nat) (h : s.hoodUpdates hood = false) :
    (s.flushCore pub).hoodUpdates hood = false := by
  refine flushCore_induction (P := fun t => t.hoodUpdates hood = false) pub h fun t sub _ ht => ?_
  rw [Bool.eq_false_iff, ne_eq, hoodUpdates_iff] at ht ⊢
  rintro ⟨e, he, u, hu, hh⟩
  obtain ⟨x, hx, hs⟩ := mem_flushStream he
  exact ht ⟨_, hx, u, hs u hu, hh⟩

end State

end Sys2Proof.Machine

/-!
Group barriers and the hood barrier (O30; R79, R204 to R206): an arrival is one update of the barrier and one of the thread
(`arrivedBar`, `arrivedHood`), and the release behind it either waits for a participant or lets all go.
-/
namespace Sys2Proof.Machine
open Sys2Proof.Safety Sys2Proof.Terms

/-! ### Phases (R205) -/

/-- A token's phase has released when the barrier is ahead of it by less than half the numbers. -/
theorem phasePast_iff (p v : Nat) : State.phasePast p v = true ↔
    0 < ((p : Int) - v) % 4294967296 ∧ ((p : Int) - v) % 4294967296 < 2147483648 := by
  simp only [State.phasePast, Bool.and_eq_true, decide_eq_true_eq]
  omega

theorem phasePast_next (p : Nat) : State.phasePast ((p + 1) % 4294967296) p = true := by
  rw [phasePast_iff]; omega

/-- The next phase ends the wait for the present one, at BAR and at BARW. -/
theorem barDone_next {n phase : Nat} {w : Wait} (h : w = .bar n phase ∨ w = .barw n phase) :
    State.barDone n ((phase + 1) % 4294967296) w = true := by
  rcases h with rfl | rfl <;> simp [State.barDone, phasePast_next]

/-! ### Arrival and release at a group barrier (R204, R205) -/

@[simp] theorem barrier_modThread (s : State) (k : Nat) (f : Thread → Thread) (gid n : Nat) :
    (s.modThread k f).barrier gid n = s.barrier gid n := rfl

theorem barrier_setBarrier {s : State} {gid : Nat} (hg : lookup s.groups gid ≠ none) (n : Nat) (b : Barrier) :
    (s.setBarrier gid n b).barrier gid n = b := by
  rw [State.barrier, State.setBarrier, group_modGroup _ hg, lookupD_putD, if_pos rfl]

section
variable {s : State} {gid n k : Nat}

/-- A participant that has not arrived keeps the phase. -/
theorem releaseBar_waits {p : Nat} (hp : p ∈ s.participants gid) (ha : p ∉ (s.barrier gid n).arrived) :
    s.releaseBar gid n = s := by
  refine if_pos ?_
  rw [Bool.or_eq_true, Bool.not_eq_true', List.all_eq_false]
  exact .inr ⟨p, hp, by simpa using ha⟩

/-- The barrier with its next phase begun. -/
def nextPhase (s : State) (gid n : Nat) : State :=
  s.setBarrier gid n ⟨((s.barrier gid n).phase + 1) % 4294967296, []⟩
/-- The participants whose wait the next phase ends. -/
def freedBar (s : State) (gid n : Nat) : List Nat :=
  (s.participants gid).filter fun j => State.barDone n (((s.barrier gid n).phase + 1) % 4294967296) (s.thread j).wait

/-- When every participant has arrived, the next phase begins and lets the waiting ones go. -/
theorem releaseBar_releases (hk : k ∈ s.participants gid) (ha : ∀ p ∈ s.participants gid, p ∈ (s.barrier gid n).arrived) :
    s.releaseBar gid n = (nextPhase s gid n).joinReleased (freedBar s gid n) [] := by
  refine if_neg ?_
  have hne : (s.participants gid).isEmpty = false := List.isEmpty_eq_false_iff.2 (List.ne_nil_of_mem hk)
  simpa [hne] using ha

/-- A participant goes on with the next phase if it waits for the present one, or for nothing. -/
theorem releaseBar_lets_go (hk : k ∈ s.participants gid) (ha : ∀ p ∈ s.participants gid, p ∈ (s.barrier gid n).arrived)
    {p : Nat} {x : Thread} (hp : p ∈ s.participants gid) (hx : lookup s.threads p = some x)
    (hw : x.wait = .bar n (s.barrier gid n).phase ∨ x.wait = .barw n (s.barrier gid n).phase ∨ x.wait = .none) :
    ∃ u, lookup (s.releaseBar gid n).threads p = some u ∧ SameRegs u { x with wait := .none } := by
  rw [releaseBar_releases hk ha]
  refine joinReleased_sameRegs (s := nextPhase s gid n) hx ?_ []
  rcases or_assoc.2 hw with hw | hw
  · refine .inl (List.mem_filter.2 ⟨hp, ?_⟩)
    rw [State.thread_of_lookup hx]
    exact barDone_next hw
  · exact .inr hw

theorem releaseBar_kept (s : State) (gid n : Nat) : Kept s (s.releaseBar gid n) := by
  unfold State.releaseBar
  dsimp only
  split
  · exact ⟨rfl, rfl⟩
  · rw [joinReleased_eq]; exact ⟨rfl, rfl⟩

theorem barrier_releaseBar (hg : lookup s.groups gid ≠ none) (hk : k ∈ s.participants gid)
    (ha : ∀ p ∈ s.participants gid, p ∈ (s.barrier gid n).arrived) :
    (s.releaseBar gid n).barrier gid n = ⟨((s.barrier gid n).phase + 1) % 4294967296, []⟩ := by
  rw [releaseBar_releases hk ha, joinReleased_eq]
  exact barrier_setBarrier hg n _
end

/-! ### BAR and BARA as an arrival -/

/-- Thread k stands behind i and has arrived at barrier n of its group, and f is what i makes of the thread. -/
def arrivedBar (i : Instr) (s : State) (gid n k : Nat) (f : Thread → Thread) : State :=
  ((s.modThread k (advance i)).arriveBar gid n k).modThread k f

section
variable {i : Instr} {s : State} {gid n k : Nat} {f : Thread → Thread}

theorem barrier_arrivedBar (hg : lookup s.groups gid ≠ none) : (arrivedBar i s gid n k f).barrier gid n =
    ⟨(s.barrier gid n).phase, (s.barrier gid n).arrived ++ [k]⟩ :=
  barrier_setBarrier (s := s.modThread k (advance i)) hg n _

theorem mem_participants_arrivedBar (hf : ∀ th, SameSeat th (f th)) (p : Nat) :
    p ∈ (arrivedBar i s gid n k f).participants gid ↔ p ∈ s.participants gid :=
  (mem_participants_modThread hf ((s.modThread k (advance i)).arriveBar gid n k) k gid p).trans
    (mem_participants_modThread (sameSeat_advance i) s k gid p)

theorem groups_arrivedBar_present (hg : lookup s.groups gid ≠ none) : lookup (arrivedBar i s gid n k f).groups gid ≠ none :=
  lookup_adjust_present _ hg

theorem arrivedBar_kept : Kept s (arrivedBar i s gid n k f) := ⟨rfl, rfl⟩

theorem othersKept_arrivedBar : OthersKept s (arrivedBar i s gid n k f) k :=
  othersKept_trans (othersKept_modThread s k (advance i)) (othersKept_modThread ((s.modThread k _).arriveBar gid n k) k f)

theorem lookup_arrivedBar {th : Thread} (h : Alone i s k th) :
    lookup (arrivedBar i s gid n k f).threads k = some (f (advance i th)) := lookup_advanced_modThread h f

/-- With the last participant's arrival all have arrived. -/
theorem arrivedBar_complete (hg : lookup s.groups gid ≠ none) (hf : ∀ th, SameSeat th (f th))
    (hall : ∀ p ∈ s.participants gid, p ≠ k → p ∈ (s.barrier gid n).arrived) :
    ∀ p ∈ (arrivedBar i s gid n k f).participants gid, p ∈ ((arrivedBar i s gid n k f).barrier gid n).arrived := fun p hp => by
  rw [barrier_arrivedBar hg, List.mem_append, List.mem_singleton]
  exact or_iff_not_imp_right.2 (hall p ((mem_participants_arrivedBar hf p).1 hp))
end

section
variable {i : Instr} {body : Body} {s : State} {k n : Nat} {th : Thread} {f : Thread → Thread}

/-- What BAR and BARA share: the thread arrives, and f is what the instruction makes of it. -/
def Arrives (i : Instr) (body : Body) (s : State) (k n : Nat) (th : Thread) (f : Thread → Thread) : Prop :=
  (∀ th, SameSeat th (f th)) ∧ body ⟨s, [k], ordersLanes i.raw.op⟩ k (s.modThread k (advance i)) =
    .done ((arrivedBar i s th.gid n k f).releaseBar th.gid n)

/-- An arrival that is not the last. -/
theorem exec_arrives_waits (h : Alone i s k th) (he : exec i s = issue i body s) (ha : Arrives i body s k n th f)
    (hg : lookup s.groups th.gid ≠ none) (hp : ∃ p ∈ s.participants th.gid, p ≠ k ∧ p ∉ (s.barrier th.gid n).arrived) :
    ∃ t u, exec i s = .next t ∧ lookup t.threads k = some u ∧ OthersKept s t k ∧ Kept s t ∧ u = f (advance i th) ∧
      t.barrier th.gid n = ⟨(s.barrier th.gid n).phase, (s.barrier th.gid n).arrived ++ [k]⟩ := by
  obtain ⟨hf, hb⟩ := ha
  obtain ⟨p, hp, hne, hn⟩ := hp
  rw [releaseBar_waits ((mem_participants_arrivedBar hf p).2 hp) (by simpa [barrier_arrivedBar hg, hne] using hn)] at hb
  refine ⟨_, _, he.trans (issue_done h body hb), ?_, ?_, kept_trans arrivedBar_kept (kept_settle ..), rfl, ?_⟩
  · rw [settle_threads]; exact lookup_arrivedBar h
  · exact othersKept_trans othersKept_arrivedBar (othersKept_settle s _ true k)
  · rw [barrier_settle]; exact barrier_arrivedBar hg

/-- The last arrival: the next phase begins, and those that wait for it go on. -/
theorem exec_arrives_releases (h : Alone i s k th) (he : exec i s = issue i body s) (ha : Arrives i body s k n th f)
    (hg : lookup s.groups th.gid ≠ none) (hk : k ∈ s.participants th.gid)
    (hall : ∀ p ∈ s.participants th.gid, p ≠ k → p ∈ (s.barrier th.gid n).arrived)
    (hw : (f (advance i th)).wait = .bar n (s.barrier th.gid n).phase ∨ (f (advance i th)).wait = .none) :
    ∃ t u, exec i s = .next t ∧ lookup t.threads k = some u ∧ Kept s t ∧ SameRegs u { f (advance i th) with wait := .none } ∧
      t.barrier th.gid n = ⟨((s.barrier th.gid n).phase + 1) % 4294967296, []⟩ ∧
      ∀ p ∈ s.participants th.gid, p ≠ k → ∀ x, lookup s.threads p = some x →
        x.wait = .bar n (s.barrier th.gid n).phase ∨ x.wait = .barw n (s.barrier th.gid n).phase →
        ∃ y, lookup t.threads p = some y ∧ SameRegs y { x with wait := .none } := by
  obtain ⟨hf, hb⟩ := ha
  have hk1 := (mem_participants_arrivedBar (i := i) (n := n) (k := k) hf k).2 hk
  have hall1 := arrivedBar_complete (i := i) hg hf hall
  have goes {p : Nat} {x : Thread} := releaseBar_lets_go hk1 hall1 (p := p) (x := x)
  rw [barrier_arrivedBar hg] at goes
  obtain ⟨u, hu, hr⟩ := goes hk1 (lookup_arrivedBar h) (hw.imp_right .inr)
  refine ⟨_, u, he.trans (issue_done h body hb), ?_,
    kept_trans (kept_trans arrivedBar_kept (releaseBar_kept ..)) (kept_settle ..), hr, ?_, fun p hp hne x hx hx' => ?_⟩
  · rw [settle_threads]; exact hu
  · rw [barrier_settle, barrier_releaseBar (groups_arrivedBar_present hg) hk1 hall1, barrier_arrivedBar hg]
  · rw [settle_threads]
    exact goes ((mem_participants_arrivedBar hf p).2 hp) ((othersKept_arrivedBar p hne).trans hx) (or_assoc.1 (.inl hx'))
end

section
variable {s : State} {k : Nat} {th : Thread} {env : Env}

theorem bar_arrives {h : Head} {n : BitVec 2} (ha : Alone (.bar h false n) s k th) (hn : k ∉ (s.barrier th.gid n.toNat).arrived) :
    Arrives (.bar h false n) (barBody n) s k n.toNat th
      fun t => { t with wait := .bar n.toNat (s.barrier th.gid n.toNat).phase } := by
  refine ⟨fun t => sameSeat_wait _ t, ?_⟩
  simp only [barBody, State.thread_of_lookup ha.here, barrier_modThread]
  exact if_neg (by simpa using hn)

theorem bara_arrives {h : Head} {d : Reg} {n : BitVec 2} (ha : Alone (.bara h d n) s k th)
    (hn : k ∉ (s.barrier th.gid n.toNat).arrived) :
    Arrives (.bara h d n) (baraBody d n) s k n.toNat th fun t => t.wv d (BitVec.ofNat 32 (s.barrier th.gid n.toNat).phase) := by
  refine ⟨fun t => sameSeat_wv .., ?_⟩
  simp only [baraBody, State.thread_of_lookup ha.here, barrier_modThread]
  exact if_neg (by simpa using hn)

/-- A second arrival in a phase waits at the instruction (R205). -/
theorem barBody_again {n : BitVec 2} (hb : env.before.thread k = th) (ha : k ∈ (s.barrier th.gid n.toNat).arrived) :
    barBody n env k s = .hold s (.rearm n.toNat (s.barrier th.gid n.toNat).phase) := by
  rw [barBody, hb]; exact if_pos (by simpa using ha)

theorem baraBody_again {d : Reg} {n : BitVec 2} (hb : env.before.thread k = th)
    (ha : k ∈ (s.barrier th.gid n.toNat).arrived) :
    baraBody d n env k s = .hold s (.rearm n.toNat (s.barrier th.gid n.toNat).phase) := by
  rw [baraBody, hb]; exact if_pos (by simpa using ha)

/-- A thread that has arrived in the phase is held at its instruction. -/
theorem exec_again {i : Instr} {body : Body} {w : Wait} (h : Alone i s k th) (he : exec i s = issue i body s)
    (hb : body ⟨s, [k], ordersLanes i.raw.op⟩ k (s.modThread k (advance i)) = .hold (s.modThread k (advance i)) w) :
    ∃ t u, exec i s = .next t ∧ lookup t.threads k = some u ∧ OthersKept s t k ∧ Kept s t ∧ SameRegs u { th with wait := w } ∧
      t.groups = s.groups := by
  obtain ⟨t, u, e, hu, ho, hk, hr, -⟩ := exec_hold_alone h he hb
  exact ⟨t, u, e, hu, hk, kept_of_onlyThreads ho, hr, by rw [ho]⟩

/-- BARW goes on once its token's phase has released (R205). -/
theorem exec_barw {h : Head} {a : Reg} {n : BitVec 2} (ha : Alone (.barw h a n) s k th) :
    ∃ t, exec (.barw h a n) s = .next t ∧ OnlyThreads s t ∧ OthersKept s t k ∧ lookup t.threads k = some
      (if State.phasePast (s.barrier th.gid n.toNat).phase (th.rv a).toNat then advance (.barw h a n) th
        else { advance (.barw h a n) th with wait := .barw n.toNat (th.rv a).toNat }) := by
  have ht := State.thread_of_lookup ha.here
  split
  · next hp =>
    refine exec_pass_alone ha rfl ?_
    simp only [barwBody, ht]
    exact if_pos hp
  · next hp =>
    refine exec_done_alone ha rfl (fun t => { t with wait := .barw n.toNat (th.rv a).toNat }) ?_
    simp only [barwBody, ht]
    exact if_neg hp
end

/-! ### Arrival and release at the hood barrier (R79, R205) -/

/-- The threads that take part in a hood's barrier. -/
def hoodThreads (s : State) (hd : Nat) : List Nat := (s.hood hd).groups.flatMap s.participants

section
variable {s : State} {hd k : Nat}

/-- A thread of the hood that has not arrived keeps the phase. -/
theorem releaseHood_waits {p : Nat} (hp : p ∈ hoodThreads s hd) (ha : p ∉ (s.hood hd).bar.arrived) : s.releaseHood hd = s := by
  refine if_pos ?_
  rw [Bool.or_eq_true, Bool.or_eq_true, Bool.not_eq_true', List.all_eq_false]
  exact .inl (.inr ⟨p, hp, by simpa using ha⟩)

/-- The hood with its next phase begun. -/
def nextHoodPhase (s : State) (hd : Nat) : State :=
  s.modHood hd fun h => { h with bar := ⟨(h.bar.phase + 1) % 4294967296, []⟩ }
/-- The threads of a hood that wait at its barrier. -/
def freedHood (s : State) (hd : Nat) : List Nat := (hoodThreads s hd).filter fun j => match (s.thread j).wait with
  | .hood _ => true
  | _ => false

/-- When every thread of the hood has arrived and no update of it is left, the next phase begins and lets the waiting ones go. -/
theorem releaseHood_releases (hk : k ∈ hoodThreads s hd) (ha : ∀ p ∈ hoodThreads s hd, p ∈ (s.hood hd).bar.arrived)
    (hu : s.hoodUpdates hd = false) : s.releaseHood hd = (nextHoodPhase s hd).joinReleased (freedHood s hd) [] := by
  refine if_neg ?_
  have hne : ((s.hood hd).groups.flatMap s.participants).isEmpty = false := List.isEmpty_eq_false_iff.2 (List.ne_nil_of_mem hk)
  have hall : ((s.hood hd).groups.flatMap s.participants).all (s.hood hd).bar.arrived.contains = true :=
    List.all_eq_true.2 fun p hp => List.contains_iff_mem.2 (ha p hp)
  simp [hne, hall, hu]

theorem releaseHood_kept (s : State) (hd : Nat) : Kept s (s.releaseHood hd) := by
  unfold State.releaseHood
  dsimp only
  split
  · exact ⟨rfl, rfl⟩
  · rw [joinReleased_eq]; exact ⟨rfl, rfl⟩

/-- A thread of the hood goes on with the next phase if it waits at the hood barrier. -/
theorem releaseHood_lets_go (hk : k ∈ hoodThreads s hd) (ha : ∀ p ∈ hoodThreads s hd, p ∈ (s.hood hd).bar.arrived)
    (hu : s.hoodUpdates hd = false) {p : Nat} {x : Thread} (hp : p ∈ hoodThreads s hd) (hx : lookup s.threads p = some x)
    (hw : ∃ n, x.wait = .hood n) :
    ∃ u, lookup (s.releaseHood hd).threads p = some u ∧ SameRegs u { x with wait := .none } := by
  rw [releaseHood_releases hk ha hu]
  refine joinReleased_sameRegs (s := nextHoodPhase s hd) hx (.inl (List.mem_filter.2 ⟨hp, ?_⟩)) []
  obtain ⟨n, hn⟩ := hw
  rw [State.thread_of_lookup hx, hn]

theorem hood_releaseHood (hh : lookup s.hoods hd ≠ none) (hk : k ∈ hoodThreads s hd)
    (ha : ∀ p ∈ hoodThreads s hd, p ∈ (s.hood hd).bar.arrived) (hu : s.hoodUpdates hd = false) :
    ((s.releaseHood hd).hood hd).bar = ⟨((s.hood hd).bar.phase + 1) % 4294967296, []⟩ := by
  rw [releaseHood_releases hk ha hu, joinReleased_eq]
  exact congrArg Hood.bar (hood_modHood _ hh)
end

/-! ### BAR.H -/

/-- Thread k stands behind i and has arrived at the barrier of its hood: the baskets of its core are flushed, a packet tells the core
`out` of it, and it waits. -/
def arrivedHood (i : Instr) (s : State) (hd core out k : Nat) : State :=
  ((((s.modThread k (advance i)).flushCore core).modHood hd fun h =>
    { h with bar := { h.bar with arrived := h.bar.arrived ++ [k] } }).sendPacket (coreOut out) vcControl core 0 .none).modThread k
      fun th => { th with wait := .hood (s.hood hd).bar.phase }

section
variable {i : Instr} {s : State} {hd core out k : Nat}

theorem arrivedHood_threads : (arrivedHood i s hd core out k).threads =
    ((s.modThread k (advance i)).modThread k fun th => { th with wait := .hood (s.hood hd).bar.phase }).threads := by
  rw [arrivedHood, State.flushCore_eq]; rfl

theorem hood_arrivedHood (hh : lookup s.hoods hd ≠ none) : (arrivedHood i s hd core out k).hood hd =
    { s.hood hd with bar := ⟨(s.hood hd).bar.phase, (s.hood hd).bar.arrived ++ [k]⟩ } := by
  rw [arrivedHood, State.flushCore_eq]; exact hood_modHood _ hh

theorem hoods_arrivedHood_present (hh : lookup s.hoods hd ≠ none) : lookup (arrivedHood i s hd core out k).hoods hd ≠ none := by
  rw [arrivedHood, State.flushCore_eq]; exact lookup_adjust_present _ hh

theorem arrivedHood_kept : Kept s (arrivedHood i s hd core out k) := by
  rw [arrivedHood, State.flushCore_eq]; exact ⟨rfl, rfl⟩

theorem hoodUpdates_arrivedHood (h : s.hoodUpdates hd = false) : (arrivedHood i s hd core out k).hoodUpdates hd = false :=
  State.hoodUpdates_flushCore (s := s.modThread k (advance i)) core h

theorem othersKept_arrivedHood : OthersKept s (arrivedHood i s hd core out k) k := fun j hj => by
  rw [arrivedHood_threads, othersKept_modThread _ k _ j hj, othersKept_modThread s k _ j hj]

theorem lookup_arrivedHood {th : Thread} (ha : Alone i s k th) : lookup (arrivedHood i s hd core out k).threads k =
    some { advance i th with wait := .hood (s.hood hd).bar.phase } := by
  rw [arrivedHood_threads]; exact lookup_advanced_modThread ha _

theorem mem_hoodThreads_arrivedHood (hh : lookup s.hoods hd ≠ none) (p : Nat) :
    p ∈ hoodThreads (arrivedHood i s hd core out k) hd ↔ p ∈ hoodThreads s hd := by
  have hp (g : Nat) : p ∈ (arrivedHood i s hd core out k).participants g ↔ p ∈ s.participants g := by
    rw [participants_of_threads arrivedHood_threads, mem_participants_modThread (sameSeat_wait _),
      mem_participants_modThread (sameSeat_advance i)]
  simp only [hoodThreads, hood_arrivedHood hh, List.mem_flatMap, hp]

/-- With the last thread's arrival every thread of the hood has arrived. -/
theorem arrivedHood_complete (hh : lookup s.hoods hd ≠ none) (hall : ∀ p ∈ hoodThreads s hd, p ≠ k → p ∈ (s.hood hd).bar.arrived) :
    ∀ p ∈ hoodThreads (arrivedHood i s hd core out k) hd, p ∈ ((arrivedHood i s hd core out k).hood hd).bar.arrived := fun p hp => by
  rw [hood_arrivedHood hh, List.mem_append, List.mem_singleton]
  exact or_iff_not_imp_right.2 (hall p ((mem_hoodThreads_arrivedHood hh p).1 hp))
end

section
variable {h : Head} {s : State} {k : Nat} {th : Thread}

/-- BAR.H makes one state: the thread has arrived behind the instruction, and the hood barrier is looked at. -/
theorem exec_barHood (ha : Alone (.bar h true 0) s k th) {hd : Nat} (hhd : (s.group th.gid).hood = hd) :
    ∃ out, exec (.bar h true 0) s =
      .next (settle s ((arrivedHood (.bar h true 0) s hd th.core out k).releaseHood hd) true) := by
  subst hhd
  refine ⟨(s.group ((s.memberOf (s.group th.gid).hood 0).getD th.gid)).core, issue_done ha barHoodBody ?_⟩
  simp only [barHoodBody, State.thread_of_lookup ha.here, arrivedHood]
  rw [State.flushCore_eq]
  rfl

/-- An arrival at the hood barrier that is not the last. -/
theorem exec_barHood_waits (ha : Alone (.bar h true 0) s k th) {hd : Nat} (hhd : (s.group th.gid).hood = hd)
    (hh : lookup s.hoods hd ≠ none) (hp : ∃ p ∈ hoodThreads s hd, p ≠ k ∧ p ∉ (s.hood hd).bar.arrived) :
    ∃ t, exec (.bar h true 0) s = .next t ∧ OthersKept s t k ∧ Kept s t ∧
      lookup t.threads k = some { advance (.bar h true 0) th with wait := .hood (s.hood hd).bar.phase } ∧
      (t.hood hd).bar.arrived = (s.hood hd).bar.arrived ++ [k] := by
  obtain ⟨out, he⟩ := exec_barHood ha hhd
  obtain ⟨p, hp, hne, hn⟩ := hp
  rw [releaseHood_waits ((mem_hoodThreads_arrivedHood hh p).2 hp) (by simpa [hood_arrivedHood hh, hne] using hn)] at he
  refine ⟨_, he, othersKept_trans othersKept_arrivedHood (othersKept_settle s _ true k),
    kept_trans arrivedHood_kept (kept_settle ..), ?_, ?_⟩
  · rw [settle_threads]; exact lookup_arrivedHood ha
  · rw [hood_settle, hood_arrivedHood hh]

/-- The last arrival at the hood barrier, with no update of the hood left. -/
theorem exec_barHood_releases (ha : Alone (.bar h true 0) s k th) {hd : Nat} (hhd : (s.group th.gid).hood = hd)
    (hh : lookup s.hoods hd ≠ none) (hk : k ∈ hoodThreads s hd)
    (hall : ∀ p ∈ hoodThreads s hd, p ≠ k → p ∈ (s.hood hd).bar.arrived) (hu : s.hoodUpdates hd = false) :
    ∃ t u, exec (.bar h true 0) s = .next t ∧ Kept s t ∧ lookup t.threads k = some u ∧
      SameRegs u (advance (.bar h true 0) th) ∧ (t.hood hd).bar = ⟨((s.hood hd).bar.phase + 1) % 4294967296, []⟩ ∧
      ∀ p ∈ hoodThreads s hd, p ≠ k → ∀ x, lookup s.threads p = some x → (∃ n, x.wait = .hood n) →
        ∃ y, lookup t.threads p = some y ∧ SameRegs y { x with wait := .none } := by
  obtain ⟨out, he⟩ := exec_barHood ha hhd
  have hk1 := (mem_hoodThreads_arrivedHood (i := .bar h true 0) (core := th.core) (out := out) (k := k) hh k).2 hk
  have hall1 := arrivedHood_complete (i := .bar h true 0) (core := th.core) (out := out) hh hall
  have hu1 := hoodUpdates_arrivedHood (i := .bar h true 0) (core := th.core) (out := out) (k := k) hu
  obtain ⟨u, hl, hr⟩ := releaseHood_lets_go hk1 hall1 hu1 hk1 (lookup_arrivedHood ha) ⟨_, rfl⟩
  refine ⟨_, u, he, kept_trans (kept_trans arrivedHood_kept (releaseHood_kept ..)) (kept_settle ..), ?_, hr, ?_,
    fun p hp hne x hx hw => ?_⟩
  · rw [settle_threads]; exact hl
  · rw [hood_settle, hood_releaseHood (hoods_arrivedHood_present hh) hk1 hall1 hu1, hood_arrivedHood hh]
  · rw [settle_threads]
    exact releaseHood_lets_go hk1 hall1 hu1 ((mem_hoodThreads_arrivedHood hh p).2 hp) ((othersKept_arrivedHood p hne).trans hx) hw
end

/-- Settles O30, clause by clause: an arrival that waits or releases (`exec_arrives_waits`, `exec_arrives_releases`), a second
arrival, BARW's token, and the hood barrier. -/
theorem barriers : Obligations.Barriers := by
  intro h d a n s k th _ hg
  dsimp only
  refine ⟨fun hn hp => ⟨fun ha => exec_arrives_waits ha rfl (bar_arrives ha hn) hg hp,
      fun ha => exec_arrives_waits ha rfl (bara_arrives ha hn) hg hp⟩,
    fun hn hk hall => ?_, fun hm => ?_, fun ha => ?_, fun ha hp hh => exec_barHood_waits ha rfl hh hp, fun ha hh hk hall hu => ?_⟩
  · rintro i (rfl | rfl) ha
    · obtain ⟨t, u, he, hl, kept, hr, hb, ho⟩ := exec_arrives_releases ha rfl (bar_arrives ha hn) hg hk hall (.inl rfl)
      obtain ⟨hv, hp, -, -, hpc, -, -, -, -, hw⟩ := hr
      exact ⟨t, u, he, hl, kept, hw, hpc, hp, hb, nofun, fun _ => hv, ho⟩
    · obtain ⟨t, u, he, hl, kept, hr, hb, ho⟩ := exec_arrives_releases ha rfl (bara_arrives ha hn) hg hk hall (.inr rfl)
      obtain ⟨hv, hp, -, -, hpc, -, -, -, -, hw⟩ := hr
      refine ⟨t, u, he, hl, kept, hw, hpc, hp, hb, fun _ => ?_, nofun, ho⟩
      rw [Thread.rv, hv]
      exact (Thread.rv_wv ..).trans (if_pos rfl)
  · rintro i (rfl | rfl) ha
    · exact exec_again ha rfl (barBody_again (State.thread_of_lookup ha.here) hm)
    · exact exec_again ha rfl (baraBody_again (State.thread_of_lookup ha.here) hm)
  · obtain ⟨t, he, ho, hk, hl⟩ := exec_barw ha
    refine ⟨t, _, he, hl, ho, hk, ?_⟩
    exact if_congr (phasePast_iff ..) rfl rfl
  · refine exec_barHood_releases ha rfl hh hk hall (Bool.eq_false_iff.2 fun q => ?_)
    obtain ⟨e, he, u, hm, hq⟩ := (State.hoodUpdates_iff ..).1 q
    exact hu e he u hm hq

end Sys2Proof.Machine

/-!
SUBON, SUBOFF, SUBQ and SUBFL (O31; R72, R73, R79, R81, R211 to R213): the status of SUBON's checks as one equation
(`subonCheck_eq`), and for each branch of a body the state it leaves.
-/
namespace Sys2Proof.Machine
open Sys2Proof.Safety Sys2Proof.Terms

/-! ### The checks of SUBON (R72) -/

/-- A region at an offset lies in an allocation of `size` bytes (R71). -/
def Fits (size len o : Nat) : Prop := o % 256 = 0 ∧ len % 256 = 0 ∧ 256 ≤ len ∧ len ≤ 65536 ∧ o + len ≤ size
/-- Member pmem of a group's hood is on the group's core. -/
def OnCore (s : State) (g : Group) (pmem : Nat) : Prop := ∃ p, s.memberOf g.hood pmem = some p ∧ (s.group p).core = g.core
/-- A region of a group meets an inbound entry of the group, or an outbound entry of which it is the source. -/
def Clashes (s : State) (g : Group) (soff len : Nat) : Prop :=
  (∃ e ∈ (s.core g.core).subIn, e.2.hood = g.hood ∧ e.2.smem = g.hpos ∧ soff < e.2.soff + e.2.len ∧ e.2.soff < soff + len) ∨
    ∃ e ∈ (s.core g.core).subOut, e.2.hood = g.hood ∧ e.2.pmem = g.hpos ∧ soff < e.2.poff + e.2.len ∧ e.2.poff < soff + len

theorem regionOk_iff (size len o : Nat) : regionOk size o len = true ↔ Fits size len o := by
  simp [regionOk, Fits, and_assoc]

theorem meetsInbound_iff (s : State) (core hood m off len : Nat) : s.meetsInbound core hood m off len = true ↔
    ∃ e ∈ (s.core core).subIn, e.2.hood = hood ∧ e.2.smem = m ∧ off < e.2.soff + e.2.len ∧ e.2.soff < off + len := by
  simp only [State.meetsInbound, rangesMeet, List.any_eq_true, Bool.and_eq_true, beq_iff_eq, decide_eq_true_eq, and_assoc]

theorem meetsOutbound_iff (s : State) (core hood m off len : Nat) : s.meetsOutbound core hood m off len = true ↔
    ∃ e ∈ (s.core core).subOut, e.2.hood = hood ∧ e.2.pmem = m ∧ off < e.2.poff + e.2.len ∧ e.2.poff < off + len := by
  simp only [State.meetsOutbound, rangesMeet, List.any_eq_true, Bool.and_eq_true, beq_iff_eq, decide_eq_true_eq, and_assoc]

open Classical in
/-- The status of the checks, in their order (R72). -/
theorem subonCheck_eq (s : State) (th : Thread) (soff pmem poff len : Nat) : s.subonCheck th soff pmem poff len =
    if ¬(Fits (s.allocSize th.gid) len soff ∧ Fits (s.allocSize th.gid) len poff) then 6
    else if s.ngr (s.group th.gid).hood ≤ pmem then 4
    else if OnCore s (s.group th.gid) pmem then 5
    else if 16 ≤ (s.core (s.group th.gid).core).subIn.length then 2
    else if Clashes s (s.group th.gid) soff len then 1
    else 0 := by
  refine if_congr ?_ rfl (if_congr .rfl rfl (if_congr ?_ rfl (if_congr .rfl rfl (if_congr ?_ rfl rfl))))
  · rw [Bool.not_eq_true', Bool.eq_false_iff, ne_eq, Bool.and_eq_true, regionOk_iff, regionOk_iff]
  · exact Option.map_eq_some_iff
  · rw [Bool.or_eq_true, meetsInbound_iff, meetsOutbound_iff]; rfl

/-! ### What the updates of SUBOFF leave (R81) -/

/-- An entry is not the one of a group at an offset. -/
def Foreign (g : Group) (off : Nat) (e : SubEntry) : Prop := ¬(e.hood = g.hood ∧ e.smem = g.hpos ∧ e.soff = off)

/-- The entries of a group at an offset are gone from two cores (R81). -/
def subFreed (s : State) (g : Group) (off pub : Nat) : State :=
  (s.modCore g.core fun c =>
    { c with subIn := keep (fun _ e => !(e.hood == g.hood && e.smem == g.hpos && e.soff == off)) c.subIn }).modCore pub fun c =>
    { c with subOut := keep (fun _ e => !(e.hood == g.hood && e.smem == g.hpos && e.soff == off)) c.subOut }

/-- The inbound entry under a key is closed, the outbound one with it, and the stream between their cores is flushed (R81). -/
def subClosing (s : State) (g : Group) (off pub key : Nat) (e : SubEntry) : State :=
  ((s.modCore g.core fun c => { c with subIn := put c.subIn key { e with closed := true } }).modCore pub fun c =>
    { c with subOut := mapValues (fun _ (o : SubEntry) =>
      if o.hood == g.hood && o.smem == g.hpos && o.soff == off then { o with closed := true } else o) c.subOut }).flushStream
    pub g.core

section
variable (s : State) (g : Group) (off pub key : Nat) (e : SubEntry)

/-- No entry of the group at the offset is left on its core, nor on the publisher's. -/
theorem subFreed_entries :
    (∀ x ∈ ((subFreed s g off pub).core g.core).subIn, Foreign g off x.2) ∧
    ∀ x ∈ ((subFreed s g off pub).core pub).subOut, Foreign g off x.2 := by
  have gone {c : Cells SubEntry} {x : Nat × SubEntry}
      (h : x ∈ keep (fun _ e => !(e.hood == g.hood && e.smem == g.hpos && e.soff == off)) c) : Foreign g off x.2 := by
    rintro ⟨h1, h2, h3⟩
    simpa [h1, h2, h3] using (List.mem_filter.1 h).2
  constructor
  · intro x hx
    rw [subFreed, core_modCore_eq] at hx
    split at hx <;> rw [core_modCore_eq, if_pos rfl] at hx <;> exact gone hx
  · intro x hx
    rw [subFreed, core_modCore_eq, if_pos rfl] at hx
    exact gone hx

theorem subClosing_kept : Kept s (subClosing s g off pub key e) := by
  rw [subClosing, State.flushStream_eq]; exact ⟨rfl, rfl⟩
theorem subClosing_threads : (subClosing s g off pub key e).threads = s.threads := by
  rw [subClosing, State.flushStream_eq]; rfl
theorem subClosing_produced (c : Nat) : ((subClosing s g off pub key e).core c).produced = (s.core c).produced := by
  rw [subClosing, State.core_flushStream, core_modCore_eq]
  split <;> rw [core_modCore_eq] <;> split <;> rfl
theorem subClosing_entry : lookup ((subClosing s g off pub key e).core g.core).subIn key = some { e with closed := true } := by
  rw [subClosing, State.core_flushStream, core_modCore_eq]
  split <;> rw [core_modCore_eq, if_pos rfl] <;> exact lookup_put_same ..
theorem subClosing_basket : ((subClosing s g off pub key e).stream pub g.core).basket = [] := by
  rw [subClosing, State.stream_flushStream, if_pos rfl]; exact basket_flushed _
end

/-- An update of the stream that is outstanding stays so (R81). -/
theorem updatesBelow_subClosing {s : State} {g : Group} {off pub key : Nat} {e : SubEntry} {x : Stream} {u : Update}
    (hg : g.core < 1024) (hx : lookup s.streams (State.streamKey pub g.core) = some x) (hu : u ∈ pendingOf x)
    (hs : u.seq < (s.core pub).produced) :
    (subClosing s g off pub key e).updatesBelow pub (some g.core) (s.core pub).produced = true := by
  have hl : lookup (subClosing s g off pub key e).streams (State.streamKey pub g.core) = some (flushed x) := by
    rw [subClosing, State.lookup_flushStream, if_pos rfl]
    exact congrArg (Option.map flushed) hx
  exact State.updatesBelow_of_lookup hl (State.streamKey_div hg) (.inr (by rw [State.streamKey_mod hg]))
    (mem_pendingOf_flushed.2 hu) hs

/-- Where there is no stream, none has an update outstanding. -/
theorem updatesBelow_subClosing_idle {s : State} (h : s.streams = []) (g : Group) (off pub key : Nat) (e : SubEntry)
    (sub : Option Nat) (mark : Nat) : (subClosing s g off pub key e).updatesBelow pub sub mark = false := by
  refine State.updatesBelow_idle (fun x hx => ?_) sub mark
  obtain ⟨y, hy, -⟩ := State.mem_flushStream hx
  have hy : (x.1, y) ∈ s.streams := hy
  rw [h] at hy
  cases hy

/-! ### The bodies, branch by branch -/

/-- The inbound entry that a request of a group reserves, on its core (R73). -/
def reserving (g : Group) (q : SubReq) (x : CoreState) : CoreState :=
  { x with subIn := put x.subIn q.entry ⟨g.hood, g.hpos, q.soff, q.pmem, q.poff, q.len, false, none, false⟩ }
/-- A request is under way: its inbound entry is reserved, and its thread waits (R73). -/
def subAsked (s : State) (g : Group) (q : SubReq) : State :=
  ((s.modCore g.core (reserving g q)).modThread q.th fun t => { t with wait := .subon }).post (.subonRequest q)

theorem subAsked_entry (s : State) (g : Group) (q : SubReq) : lookup ((subAsked s g q).core g.core).subIn q.entry =
    some ⟨g.hood, g.hpos, q.soff, q.pmem, q.poff, q.len, false, none, false⟩ :=
  (congrArg (fun x : CoreState => lookup x.subIn q.entry) (core_modCore s g.core (reserving g q))).trans (lookup_put_same ..)

section
variable {env : Env} {k : Nat} {s : State} {th : Thread} (hb : env.before.thread k = th)
include hb

/-- A check that fails: its code is the status. -/
theorem subonBody_refuses {pr : Bool} {d a b c l : Reg} {code : Nat}
    (hc : s.subonCheck th (th.rv a).toNat (th.rv b).toNat (th.rv c).toNat (th.rv l).toNat = code) (h0 : code ≠ 0) :
    subonBody pr d a b c l env k s = .done (s.modThread k fun t => t.wv d (BitVec.ofNat 32 code)) := by
  simp only [subonBody, hb, hc]
  split
  · exact if_pos h0
  · rfl

/-- No check fails: the entry is reserved and the request posted (R73). -/
theorem subonBody_asks {pr : Bool} {d a b c l : Reg} {e : Nat}
    (hc : s.subonCheck th (th.rv a).toNat (th.rv b).toNat (th.rv c).toNat (th.rv l).toNat = 0)
    (he : freeFrom (s.core (s.group th.gid).core).subIn 16 0 = some e) : subonBody pr d a b c l env k s = .done
      (subAsked s (s.group th.gid) ⟨k, d, th.gid, e, (th.rv a).toNat, (th.rv b).toNat, (th.rv c).toNat, (th.rv l).toNat, pr⟩) := by
  simp only [subonBody, hb, hc, he]
  rfl

theorem suboffBody_drained {d a : Reg} {key : Nat} {e : SubEntry} (hw : th.wait = .drained)
    (he : s.entryAt th.gid (th.rv a).toNat = some (key, e)) : suboffBody d a env k s = .done
      ((subFreed s (s.group th.gid) (th.rv a).toNat (s.pubCore e)).modThread k fun t => t.wv d 0) := by
  simp only [suboffBody, hb, hw, he]
  rfl

theorem suboffBody_none {d a : Reg} (hw : th.wait ≠ .drained) (he : s.inboundAt th.gid (th.rv a).toNat = none) :
    suboffBody d a env k s = .done (s.modThread k fun t => t.wv d 7) := by
  simp only [suboffBody, hb, if_neg hw, he]

/-- SUBOFF of an entry waits while an update of its stream is outstanding, and then goes on. -/
theorem suboffBody_some {d a : Reg} {key : Nat} {e : SubEntry} (hw : th.wait ≠ .drained)
    (he : s.inboundAt th.gid (th.rv a).toNat = some (key, e)) : suboffBody d a env k s =
      if (subClosing s (s.group th.gid) (th.rv a).toNat (s.pubCore e) key e).updatesBelow (s.pubCore e)
          (some (s.group th.gid).core) (s.core (s.pubCore e)).produced then
        .hold (subClosing s (s.group th.gid) (th.rv a).toNat (s.pubCore e) key e)
          (.drain (s.pubCore e) (some (s.group th.gid).core) (s.core (s.pubCore e)).produced)
      else .done ((subFreed (subClosing s (s.group th.gid) (th.rv a).toNat (s.pubCore e) key e) (s.group th.gid) (th.rv a).toNat
        (s.pubCore e)).modThread k fun t => t.wv d 0) := by
  rw [← subClosing_produced s (s.group th.gid) (th.rv a).toNat (s.pubCore e) key e (s.pubCore e)]
  simp only [suboffBody, hb, if_neg hw, he]
  rfl

theorem subqBody_none {d a : Reg} (he : s.entryAt th.gid (th.rv a).toNat = none) :
    subqBody d a env k s = .done (s.modThread k fun t => t.ww d 0) := by
  simp only [subqBody, hb, he]

theorem subqBody_some {d a : Reg} {x : Nat × SubEntry} (he : s.entryAt th.gid (th.rv a).toNat = some x) :
    subqBody d a env k s = .done (s.modThread k fun t => t.ww d (s.subValue x.2)) := by
  simp only [subqBody, hb, he]

theorem subflBody_drained (hw : th.wait = .drained) : subflBody env k s = .done s := by
  simp only [subflBody, hb, if_pos hw]

theorem subflBody_running (hw : th.wait ≠ .drained) : subflBody env k s =
    if (s.flushCore th.core).updatesBelow th.core none (s.core th.core).produced then
      .hold (s.flushCore th.core) (.drain th.core none (s.core th.core).produced)
    else .done (s.flushCore th.core) := by
  simp only [subflBody, hb, if_neg hw, State.core_flushCore]
end

theorem subWord_eq (s : State) (e : SubEntry) : s.subValue e = BitVec.ofNat 64 (subWord e (s.subPending e)) := by
  unfold State.subValue subWord
  cases e.final <;> rfl

/-! ### The instructions -/

section
variable {h : Head} {pr : Bool} {d a b c l : Reg} {s : State} {k : Nat} {th : Thread}

/-- A SUBON whose checks answer a code other than 0 writes it (R211). -/
theorem exec_subon_refuses {code : Nat} (ha : Alone (.subon h pr d a b c l) s k th)
    (hc : s.subonCheck th (th.rv a).toNat (th.rv b).toNat (th.rv c).toNat (th.rv l).toNat = code) (h0 : code ≠ 0) :
    ∃ t, exec (.subon h pr d a b c l) s = .next t ∧ OnlyThreads s t ∧ OthersKept s t k ∧
      lookup t.threads k = some ((advance (.subon h pr d a b c l) th).wv d (BitVec.ofNat 32 code)) :=
  exec_done_alone ha rfl (fun t => t.wv d (BitVec.ofNat 32 code))
    (subonBody_refuses (s := s.modThread k _) (State.thread_of_lookup ha.here) hc h0)

/-- A SUBON whose checks all pass reserves a free inbound entry, posts its request and waits (R73, R211). -/
theorem exec_subon_asks (ha : Alone (.subon h pr d a b c l) s k th)
    (hc : s.subonCheck th (th.rv a).toNat (th.rv b).toNat (th.rv c).toNat (th.rv l).toNat = 0)
    (hl : (s.core (s.group th.gid).core).subIn.length < 16) :
    ∃ t e, exec (.subon h pr d a b c l) s = .next t ∧ e < 16 ∧ lookup (s.core (s.group th.gid).core).subIn e = none ∧ Kept s t ∧
      OthersKept s t k ∧ lookup t.threads k = some { advance (.subon h pr d a b c l) th with wait := .subon } ∧
      lookup (t.core (s.group th.gid).core).subIn e =
        some ⟨(s.group th.gid).hood, (s.group th.gid).hpos, (th.rv a).toNat, (th.rv b).toNat, (th.rv c).toNat, (th.rv l).toNat,
          false, none, false⟩ ∧
      t.inbox = s.inbox ++
        [.subonRequest ⟨k, d, th.gid, e, (th.rv a).toNat, (th.rv b).toNat, (th.rv c).toNat, (th.rv l).toNat, pr⟩] := by
  obtain ⟨e, he⟩ := freeFrom_of_length hl
  obtain ⟨-, h16, hn⟩ := freeFrom_some he
  refine ⟨_, e, issue_done ha _ (subonBody_asks (s := s.modThread k _) (State.thread_of_lookup ha.here) hc he), by omega, hn,
    kept_trans ⟨rfl, rfl⟩ (kept_settle ..), fun j hj => ?_, ?_, ?_, settle_inbox ..⟩
  · rw [settle_threads]
    exact (othersKept_modThread (s.modThread k _) k _ j hj).trans (othersKept_modThread s k _ j hj)
  · rw [settle_threads]; exact lookup_advanced_modThread ha _
  · rw [core_settle]; exact subAsked_entry ..

/-- A SUBOFF that has ended: the status is 0, and the entries of the group at the offset are gone (R81). -/
theorem exec_suboff_ends {s1 : State} {pub : Nat} (ha : Alone (.suboff h d a) s k th) (hk : Kept s s1)
    (ht : s1.threads = (s.modThread k (advance (.suboff h d a))).threads)
    (hb : suboffBody d a ⟨s, [k], ordersLanes (Instr.suboff h d a).raw.op⟩ k (s.modThread k (advance (.suboff h d a))) =
      .done ((subFreed s1 (s.group th.gid) (th.rv a).toNat pub).modThread k fun t => t.wv d 0)) :
    ∃ t, exec (.suboff h d a) s = .next t ∧ lookup t.threads k = some ((advance (.suboff h d a) th).wv d 0) ∧ OthersKept s t k ∧
      Kept s t ∧ (∀ x ∈ (t.core (s.group th.gid).core).subIn, Foreign (s.group th.gid) (th.rv a).toNat x.2) ∧
      ∀ x ∈ (t.core pub).subOut, Foreign (s.group th.gid) (th.rv a).toNat x.2 := by
  obtain ⟨hi, ho⟩ := subFreed_entries s1 (s.group th.gid) (th.rv a).toNat pub
  have hf : (subFreed s1 (s.group th.gid) (th.rv a).toNat pub).threads = s1.threads := rfl
  refine ⟨_, issue_done ha (suboffBody d a) hb, ?_, fun j hj => ?_, kept_trans hk (kept_trans ⟨rfl, rfl⟩ (kept_settle ..)), ?_, ?_⟩
  · rw [settle_threads, State.lookup_modThread, if_pos rfl, hf, ht, State.lookup_modThread, if_pos rfl, ha.here]; rfl
  · rw [settle_threads, othersKept_modThread _ k _ j hj, hf, ht, othersKept_modThread s k _ j hj]
  · rw [core_settle]; exact hi
  · rw [core_settle]; exact ho

/-- An entry that starts at an offset of a group is the group's (R73). -/
theorem of_inboundAt {gid off key : Nat} {e : SubEntry} (he : s.inboundAt gid off = some (key, e)) :
    e.hood = (s.group gid).hood ∧ e.smem = (s.group gid).hpos ∧ e.soff = off := by
  have hf := List.find?_some (Option.filter_eq_some_iff.1 he).1
  simpa [and_assoc] using hf

/-- A SUBOFF with no update outstanding goes on at once (R81). -/
theorem exec_suboff_quiet {key : Nat} {e : SubEntry} (ha : Alone (.suboff h d a) s k th)
    (hw : th.wait ≠ .drained) (he : s.inboundAt th.gid (th.rv a).toNat = some (key, e)) (hs : s.streams = []) :
    ∃ t, exec (.suboff h d a) s = .next t ∧ lookup t.threads k = some ((advance (.suboff h d a) th).wv d 0) ∧ OthersKept s t k ∧
      Kept s t ∧ (∀ x ∈ (t.core (s.group th.gid).core).subIn, Foreign (s.group th.gid) (th.rv a).toNat x.2) ∧
      ∀ x ∈ (t.core (s.pubCore e)).subOut, Foreign (s.group th.gid) (th.rv a).toNat x.2 := by
  refine exec_suboff_ends ha (kept_trans (kept_of_onlyThreads (onlyThreads_modThread ..)) (subClosing_kept ..))
    (subClosing_threads ..) ((suboffBody_some (s := s.modThread k _) (State.thread_of_lookup ha.here) hw he).trans (if_neg ?_))
  exact Bool.eq_false_iff.1 (updatesBelow_subClosing_idle (s := s.modThread k _) hs ..)

/-- A SUBOFF whose updates are not all applied is held with its entry closed and its stream flushed (R81). -/
theorem exec_suboff_waits {key : Nat} {e : SubEntry} {x : Stream} {u : Update} (ha : Alone (.suboff h d a) s k th)
    (hw : th.wait ≠ .drained) (he : s.inboundAt th.gid (th.rv a).toNat = some (key, e)) (hg : (s.group th.gid).core < 1024)
    (hx : lookup s.streams (1024 * s.pubCore e + (s.group th.gid).core) = some x) (hu : u ∈ pendingOf x)
    (hs : u.seq < (s.core (s.pubCore e)).produced) :
    ∃ t w, exec (.suboff h d a) s = .next t ∧ lookup t.threads k = some w ∧ OthersKept s t k ∧ Kept s t ∧
      SameRegs w { th with wait := .drain (s.pubCore e) (some (s.group th.gid).core) (s.core (s.pubCore e)).produced } ∧
      (t.stream (s.pubCore e) (s.group th.gid).core).basket = [] ∧
      lookup (t.core (s.group th.gid).core).subIn key = some { e with closed := true } := by
  have hkey : 1024 * s.pubCore e + (s.group th.gid).core = State.streamKey (s.pubCore e) (s.group th.gid).core := by
    unfold State.streamKey; omega
  rw [hkey] at hx
  obtain ⟨t, w, hex, hl, ho, hk, hr, hc, hst⟩ := exec_hold_behind ha rfl
    ((suboffBody_some (s := s.modThread k _) (State.thread_of_lookup ha.here) hw he).trans
      (if_pos (updatesBelow_subClosing (s := s.modThread k _) hg hx hu hs))) (subClosing_threads ..)
  refine ⟨t, w, hex, hl, ho, kept_trans (subClosing_kept (s.modThread k _) ..) hk, hr, ?_, ?_⟩
  · rw [State.stream, hst]; exact subClosing_basket ..
  · rw [State.core, hc]; exact subClosing_entry ..

/-- SUBFL with nothing to wait for (R213). -/
theorem exec_subfl_passes (ha : Alone (.subfl h) s k th)
    (hw : th.wait = .drained ∨ ∀ e ∈ s.streams, e.1 / 1024 ≠ th.core) : Passes (.subfl h) s k th := by
  have ht := State.thread_of_lookup ha.here
  have hb : subflBody ⟨s, [k], ordersLanes (Instr.subfl h).raw.op⟩ k (s.modThread k (advance (.subfl h))) =
      .done (s.modThread k (advance (.subfl h))) := by
    by_cases hd : th.wait = .drained
    · exact subflBody_drained ht hd
    · have hi := hw.resolve_left hd
      rw [subflBody_running ht hd, State.flushCore_idle (s := s.modThread k _) hi,
        State.updatesBelow_idle (s := s.modThread k _) hi]
      rfl
  obtain ⟨t, he, ho, hk, hl⟩ := exec_pass_alone ha rfl hb
  exact ⟨t, he, hl, hk, by rw [ho], by rw [ho], by rw [ho], by rw [ho]⟩

/-- SUBFL with an update of its core outstanding is held, and the core's baskets are flushed (R213). -/
theorem exec_subfl_waits {key : Nat} {x : Stream} {u : Update} (ha : Alone (.subfl h) s k th) (hw : th.wait ≠ .drained)
    (hx : lookup s.streams key = some x) (hc : key / 1024 = th.core) (hu : u ∈ pendingOf x)
    (hs : u.seq < (s.core th.core).produced) :
    ∃ t w, exec (.subfl h) s = .next t ∧ lookup t.threads k = some w ∧ OthersKept s t k ∧ Kept s t ∧
      SameRegs w { th with wait := .drain th.core none (s.core th.core).produced } ∧
      ∀ sub, sub < 1024 → (t.stream th.core sub).basket = [] := by
  have he := State.flushCore_eq (s.modThread k (advance (.subfl h))) th.core
  obtain ⟨t, w, hex, hl, ho, hk, hr, -, hst⟩ := exec_hold_behind ha rfl
    ((subflBody_running (s := s.modThread k _) (State.thread_of_lookup ha.here) hw).trans
      (if_pos (State.updatesBelow_flushCore (s := s.modThread k _) hx hc hu hs))) (by rw [he])
  refine ⟨t, w, hex, hl, ho, kept_trans ⟨by rw [he]; rfl, by rw [he]; rfl⟩ hk, hr, fun sub hs => ?_⟩
  rw [State.stream, hst]
  exact State.basket_flushCore _ _ hs
end

/-- Settles O31: SUBON by the code of its checks (`subonCheck_eq`), SUBOFF and SUBFL by whether an update is outstanding, SUBQ by the
entry it finds. -/
theorem subscriptions : Obligations.Subscriptions := by
  intro h pr d a b c l s k th
  dsimp only
  refine ⟨fun ha => ?_, fun ha hw => ⟨fun he => ?_, fun key e he hs => ?_, fun key e x u he hg hx hu hq =>
    exec_suboff_waits ha hw he hg hx hu hq⟩, fun ha hw key e he => ?_, fun ha => ?_, exec_subfl_passes,
    fun ha hw key x u hx hc hu hs => exec_subfl_waits ha hw hx hc hu hs⟩
  · have hc := subonCheck_eq s th (th.rv a).toNat (th.rv b).toNat (th.rv c).toNat (th.rv l).toNat
    have writes {code : Nat} := exec_subon_refuses (code := code) ha
    refine ⟨fun h6 => ?_, fun h6 h6' h4 => ?_, fun h6 h6' h4 h5 => ?_, fun h6 h6' h4 h5 h2 => ?_, fun h6 h6' h4 h5 h2 h1 => ?_,
      fun h6 h6' h4 h5 h2 h1 => ?_⟩
    · exact writes (hc.trans (if_pos h6)) (by decide)
    all_goals rw [if_neg (not_not.2 ⟨h6, h6'⟩)] at hc
    · exact writes (hc.trans (if_pos h4)) (by decide)
    all_goals rw [if_neg (Nat.not_le.2 h4)] at hc
    · exact writes (hc.trans (if_pos (c := OnCore ..) h5)) (by decide)
    all_goals rw [if_neg (c := OnCore ..) h5] at hc
    · exact writes (hc.trans (if_pos h2)) (by decide)
    all_goals rw [if_neg (Nat.not_le.2 h2)] at hc
    · exact writes (hc.trans (if_pos (c := Clashes ..) h1)) (by decide)
    · exact exec_subon_asks ha (hc.trans (if_neg (c := Clashes ..) h1)) h2
  · obtain ⟨t, he, ho, -, hl⟩ := exec_done_alone ha rfl (fun t => t.wv d 7)
      (suboffBody_none (s := s.modThread k _) (State.thread_of_lookup ha.here) hw he)
    exact ⟨t, he, ho, hl⟩
  · obtain ⟨t, hex, hl, ho, hk, hi, hu⟩ := exec_suboff_quiet ha hw he hs
    obtain ⟨h1, h2, h3⟩ := of_inboundAt he
    rw [h1, h2, h3]
    exact ⟨t, hex, hl, ho, hk, hi, hu⟩
  · exact exec_suboff_ends (s1 := s.modThread k _) ha ⟨rfl, rfl⟩ rfl
      (suboffBody_drained (s := s.modThread k _) (State.thread_of_lookup ha.here) hw he)
  · cases he : s.entryAt th.gid (th.rv a).toNat with
    | none =>
      obtain ⟨t, hx, ho, hk, hl⟩ := exec_done_alone ha rfl (fun t => t.ww d 0)
        (subqBody_none (s := s.modThread k _) (State.thread_of_lookup ha.here) he)
      exact ⟨t, 0, hx, ho, hk, hl, fun _ => rfl, nofun⟩
    | some y =>
      obtain ⟨t, hx, ho, hk, hl⟩ := exec_done_alone ha rfl (fun t => t.ww d (s.subValue y.2))
        (subqBody_some (s := s.modThread k _) (State.thread_of_lookup ha.here) he)
      refine ⟨t, _, hx, ho, hk, hl, nofun, ?_⟩
      rintro key e ⟨⟩
      exact subWord_eq s e

end Sys2Proof.Machine

/-!
The events of subscriptions (O32; R72, R73, R76, R80, R81): a request at the publisher's core, its reply, a priming read, and a basket
that is sent and applied.
-/
namespace Sys2Proof.Machine
open Sys2Proof.Safety Sys2Proof.Terms

namespace State

/-! ### A request at the publisher's core (R72, R73) -/

section
variable {s : State} {q : SubReq} {p : Nat}

theorem subonArrives_stranger (hm : s.memberOf (s.group q.gid).hood q.pmem = none) :
    s.subonArrives q = s.post (.subonReply q 4) := by
  simp only [subonArrives, hm]

variable (hm : s.memberOf (s.group q.gid).hood q.pmem = some p)
include hm

theorem subonArrives_full (hf : freeFrom (s.core (s.group p).core).subOut 16 0 = none) :
    s.subonArrives q = s.post (.subonReply q 3) := by
  simp only [subonArrives, hm, hf]

theorem subonArrives_clash {e : Nat} (hf : freeFrom (s.core (s.group p).core).subOut 16 0 = some e)
    (hc : s.meetsInbound (s.group p).core (s.group q.gid).hood q.pmem q.poff q.len = true) :
    s.subonArrives q = s.post (.subonReply q 1) := by
  simp only [subonArrives, hm, hf, hc, if_true]

/-- The outbound entry that a request is granted, on the publisher's core (R73, R80). -/
def granting (g : Group) (q : SubReq) (e : Nat) (c : CoreState) : CoreState :=
  { c with subOut := put c.subOut e ⟨g.hood, g.hpos, q.soff, q.pmem, q.poff, q.len, true,
    if q.prime then some (q.len / 128) else none, false⟩ }

theorem subonArrives_granted {e : Nat} (hf : freeFrom (s.core (s.group p).core).subOut 16 0 = some e)
    (hc : s.meetsInbound (s.group p).core (s.group q.gid).hood q.pmem q.poff q.len = false) :
    s.subonArrives q = (s.modCore (s.group p).core (granting (s.group q.gid) q e)).post (.subonReply q 0) := by
  simp only [subonArrives, hm, hf, hc, Bool.false_eq_true, if_false]
  rfl
end

/-! ### The reply (R73, R211) -/

/-- The reply to a request whose tentative entry is there: the entry becomes final or is freed, and the thread goes on. -/
theorem subonEnds_tentative {s : State} {q : SubReq} {status : Nat} {e : SubEntry} (hg : lookup s.groups q.gid ≠ none)
    (he : lookup (s.core (s.group q.gid).core).subIn q.entry = some e) (hf : e.final = false)
    (hm : (e.hood, e.smem, e.soff) = ((s.group q.gid).hood, (s.group q.gid).hpos, q.soff)) :
    ∃ f : CoreState → CoreState, s.subonEnds q status = (s.modCore (s.group q.gid).core f).modThread q.th
        (fun th => { th.wv q.d (BitVec.ofNat 32 status) with wait := .none }) ∧
      lookup (f (s.core (s.group q.gid).core)).subIn q.entry = if status = 0 then some { e with final := true } else none := by
  obtain ⟨h1, h2, h3⟩ : e.hood = (s.group q.gid).hood ∧ e.smem = (s.group q.gid).hpos ∧ e.soff = q.soff := by simpa using hm
  have hmine : (!e.final && e.hood == (s.group q.gid).hood && e.smem == (s.group q.gid).hpos && e.soff == q.soff) = true := by
    simp [hf, h1, h2, h3]
  refine ⟨_, congrArg (modThread · q.th _) (if_neg (by simpa using hg)), ?_⟩
  simp only [he, Option.any_some, hmine, Bool.not_true, Bool.false_eq_true, if_false]
  split
  · rw [lookup_adjust, if_pos rfl, he]; rfl
  · exact lookup_del_same ..

/-! ### An update that enters a stream (R76, R80) -/

/-- An update enters the open basket of its stream in a state that differs in streams alone; then the basket may be sent. -/
theorem addUpdate_cases (s : State) (pub sub : Nat) (u : Update) (alone : Bool) : ∃ (s1 : State) (y : Stream) (n : Nat),
    s1 = { s with streams := s1.streams } ∧ let t := s1.setStream pub sub { y with basket := y.basket ++ [u], since := n }
      (s.addUpdate pub sub u alone = t ∨ s.addUpdate pub sub u alone = t.flushStream pub sub) := by
  have first (c : Bool) : ∃ s1, (if c then s.flushStream pub sub else s) = s1 ∧ s1 = { s with streams := s1.streams } := by
    cases c
    · exact ⟨s, rfl, rfl⟩
    · exact ⟨_, rfl, flushStream_eq ..⟩
  obtain ⟨s1, e, h1⟩ := first (alone || decide (128 < basketBytes (s.stream pub sub).basket + u.data.length) ||
    decide (32 ≤ (s.stream pub sub).basket.length))
  refine ⟨s1, s1.stream pub sub, if (s1.stream pub sub).basket.isEmpty then s.clk else (s1.stream pub sub).since, h1, ?_⟩
  unfold addUpdate
  dsimp only
  rw [e]
  split
  · exact .inr rfl
  · exact .inl rfl

/-- An update that enters a stream changes streams alone. -/
theorem addUpdate_eq (s : State) (pub sub : Nat) (u : Update) (alone : Bool) :
    s.addUpdate pub sub u alone = { s with streams := (s.addUpdate pub sub u alone).streams } := by
  obtain ⟨s1, y, n, h1, e | e⟩ := addUpdate_cases s pub sub u alone
  · rw [e, h1]; rfl
  · rw [e, flushStream_eq, h1]; rfl

/-- An update is in the stream it has entered. -/
theorem mem_addUpdate (s : State) (pub sub : Nat) (u : Update) (alone : Bool) :
    u ∈ pendingOf ((s.addUpdate pub sub u alone).stream pub sub) := by
  obtain ⟨s1, y, n, -, e⟩ := addUpdate_cases s pub sub u alone
  have entered : u ∈ pendingOf ({ y with basket := y.basket ++ [u], since := n } : Stream) := by simp [pendingOf]
  rcases e with e | e
  · rw [e, stream_setStream]; exact entered
  · rw [e, stream_flushStream, if_pos rfl, mem_pendingOf_flushed, stream_setStream]; exact entered

/-- The priming piece that is read when n + 1 are left: bytes of the source in the group p (R80). -/
def primingPiece (s : State) (core p n : Nat) (e : SubEntry) : Update :=
  ⟨e.hood, e.smem, e.soff, e.soff + (e.len - 128 * (n + 1)), (s.group p).alloc.read (e.poff + (e.len - 128 * (n + 1))) 128,
    (s.core core).produced⟩

/-- An outbound entry with n priming pieces left, after one has been read. -/
def primed (entry n : Nat) (e : SubEntry) (c : CoreState) : CoreState :=
  { c with subOut := put c.subOut entry { e with prime := if n = 0 then none else some n }, produced := c.produced + 1 }

theorem primeNext_reads {s : State} {core entry n p g : Nat} {e : SubEntry} (he : lookup (s.core core).subOut entry = some e)
    (hn : e.prime = some (n + 1)) (hp : s.memberOf e.hood e.pmem = some p) (hg : s.memberOf e.hood e.smem = some g) :
    s.primeNext core entry =
      (s.modCore core (primed entry n e)).addUpdate core (s.group g).core (primingPiece s core p n e) false := by
  simp only [primeNext, he, hn, hp, hg]
  rfl

/-- What a priming read leaves: the next piece is in the stream, and the entry counts it (R80). -/
theorem primeNext_effect {s : State} {core entry n p g : Nat} {e : SubEntry} (he : lookup (s.core core).subOut entry = some e)
    (hn : e.prime = some (n + 1)) (hp : s.memberOf e.hood e.pmem = some p) (hg : s.memberOf e.hood e.smem = some g) :
    Kept s (s.primeNext core entry) ∧ (s.primeNext core entry).threads = s.threads ∧ (s.primeNext core entry).groups = s.groups ∧
      lookup ((s.primeNext core entry).core core).subOut entry = some { e with prime := if n = 0 then none else some n } ∧
      primingPiece s core p n e ∈ pendingOf ((s.primeNext core entry).stream core (s.group g).core) := by
  have hx := primeNext_reads he hn hp hg
  have hm := mem_addUpdate (s.modCore core (primed entry n e)) core (s.group g).core (primingPiece s core p n e) false
  have hq := addUpdate_eq (s.modCore core (primed entry n e)) core (s.group g).core (primingPiece s core p n e) false
  rw [← hx] at hm hq
  generalize s.primeNext core entry = t at hm hq
  refine ⟨⟨by rw [hq]; rfl, by rw [hq]; rfl⟩, by rw [hq]; rfl, by rw [hq]; rfl, ?_, hm⟩
  rw [hq]
  exact (congrArg (fun c : CoreState => lookup c.subOut entry) (core_modCore s core (primed entry n e))).trans (lookup_put_same ..)

/-! ### A basket that is applied (R67, R75, R77, R83) -/

theorem chargeBytes_eq (s : State) (k : SrvKey) (n : Nat) :
    s.chargeBytes k n = { s with servers := (s.chargeBytes k n).servers } := by
  unfold chargeBytes
  dsimp only
  split
  · rfl
  · split
    · rfl
    · rw [charge_eq]; rfl

/-- A basket that passes its flush point is charged and goes by the network: servers, streams and routers change. -/
theorem payBasket_eq (s : State) (pub sub : Nat) : ∃ sv str r, s.payBasket pub sub =
    { s with servers := sv, streams := str, routers := r } := by
  have charged (l : List Update) (t : State) : ∃ sv,
      l.foldl (fun (t : State) u => t.chargeBytes (t.cpKey (t.hood u.hood).ctx pub) (4 + u.data.length)) t =
        { t with servers := sv } := by
    induction l generalizing t with
    | nil => exact ⟨_, rfl⟩
    | cons u l ih =>
      obtain ⟨sv, e⟩ := ih (t.chargeBytes (t.cpKey (t.hood u.hood).ctx pub) (4 + u.data.length))
      rw [List.foldl_cons, e, chargeBytes_eq]
      exact ⟨_, rfl⟩
  unfold payBasket
  dsimp only
  obtain ⟨sv, e⟩ := charged ((s.stream pub sub).sent.getD (s.stream pub sub).paid []) s
  rw [e]
  exact ⟨_, _, _, rfl⟩

/-- An update lands in its group's allocation. -/
def updated (u : Update) (x : Group) : Group := { x with alloc := x.alloc.put u.off u.data }

theorem applyBasket_single {s : State} {pub sub g : Nat} {u : Update} (rest : List (List Update))
    (hm : s.memberOf u.hood u.smem = some g)
    (hw : s.mustWait (s.group g).core (.alloc g) u.off (u.off + u.data.length) true = false) : ∃ n,
    s.applyBasket pub sub [u] rest =
      (s.modGroup g (updated u)).setStream pub sub { s.stream pub sub with sent := rest, paid := n } := by
  refine ⟨(s.stream pub sub).paid - 1, ?_⟩
  simp only [applyBasket, applyUpdate, hm, hw, Bool.false_eq_true, if_false]
  rfl

theorem releaseHood_eq (s : State) (hd : Nat) : s.releaseHood hd =
    { s with hoods := (s.releaseHood hd).hoods, threads := (s.releaseHood hd).threads, fresh := (s.releaseHood hd).fresh } := by
  unfold releaseHood
  dsimp only
  split
  · rfl
  · rw [joinReleased_eq]; rfl

/-- Releases of hood barriers change hoods, threads and fresh tags alone. -/
theorem releaseHoods_eq (s : State) : s.releaseHoods =
    { s with hoods := s.releaseHoods.hoods, threads := s.releaseHoods.threads, fresh := s.releaseHoods.fresh } := by
  unfold releaseHoods
  generalize keysOf s.hoods = ks
  induction ks generalizing s with
  | nil => rfl
  | cons k ks ih => rw [List.foldl_cons, ih, releaseHood_eq]

/-- The oldest basket of a stream holds one update, which no scoreboard entry and no server holds: it is applied. -/
theorem applyStream_single {s : State} {pub sub g : Nat} {u : Update} {rest : List (List Update)}
    (hs : (s.stream pub sub).sent = [u] :: rest) (hm : s.memberOf u.hood u.smem = some g)
    (hh : s.heldNow (s.cpKey (s.hood u.hood).ctx pub) = false)
    (hw : s.mustWait (s.group g).core (.alloc g) u.off (u.off + u.data.length) true = false) :
    Kept s (s.applyStream pub sub) ∧ (s.applyStream pub sub).groups = (s.modGroup g (updated u)).groups ∧
      ((s.applyStream pub sub).stream pub sub).sent = rest := by
  have behind (t : State) (x : Stream) : Kept t ((t.setStream pub sub x).wakeDrains.releaseHoods) ∧
      ((t.setStream pub sub x).wakeDrains.releaseHoods).groups = t.groups ∧
      ((t.setStream pub sub x).wakeDrains.releaseHoods).stream pub sub = x := by
    rw [releaseHoods_eq]
    exact ⟨⟨rfl, rfl⟩, rfl, stream_setStream ..⟩
  have paid : ∃ sv str r, (if (s.stream pub sub).paid = 0 then s.payBasket pub sub else s) =
      { s with servers := sv, streams := str, routers := r } := by
    split
    · exact payBasket_eq s pub sub
    · exact ⟨_, _, _, rfl⟩
  have free : ¬((decide ((s.stream pub sub).paid = 0) && s.payHeld pub (s.stream pub sub)) = true) := by
    rw [Bool.and_eq_true, decide_eq_true_eq]
    rintro ⟨h0, hp⟩
    simp [payHeld, hs, h0, hh] at hp
  obtain ⟨sv, str, r, e⟩ := paid
  obtain ⟨n, ha⟩ := applyBasket_single (pub := pub) (sub := sub) (s := { s with servers := sv, streams := str, routers := r })
    rest hm hw
  unfold applyStream
  simp only [hs, if_neg free, e, ha]
  obtain ⟨h1, h2, h3⟩ := behind (modGroup { s with servers := sv, streams := str, routers := r } g (updated u))
    { stream { s with servers := sv, streams := str, routers := r } pub sub with sent := rest, paid := n }
  exact ⟨h1, h2, congrArg Stream.sent h3⟩

end State

/-- Settles O32, event by event. -/
theorem subscriptionEvents : Obligations.SubscriptionEvents := by
  refine ⟨fun s q hm => congrArg Host.Outcome.next (State.subonArrives_stranger hm), fun s q p hm => ?_,
    fun s q status th e ht hg he hf hm => ?_, fun s core entry n p g e he hn hp hg => ?_, fun s pub sub hb => ?_,
    fun s pub sub g u rest hs hm hg hh hw => ?_⟩
  · dsimp only
    refine ⟨fun hf => ?_, fun hf hc => ?_, fun hf hc => ?_⟩
    · exact congrArg Host.Outcome.next (State.subonArrives_full hm (freeFrom_none_iff.2 hf))
    all_goals obtain ⟨e, he⟩ := Option.ne_none_iff_exists'.1 (mt freeFrom_none_iff.1 hf)
    · exact congrArg Host.Outcome.next (State.subonArrives_clash hm he ((meetsInbound_iff ..).2 hc))
    · have hx := State.subonArrives_granted hm he (Bool.eq_false_iff.2 (mt (meetsInbound_iff ..).1 hc))
      obtain ⟨-, h16, hn⟩ := freeFrom_some he
      refine ⟨_, e, congrArg Host.Outcome.next hx, by omega, hn, ?_, rfl, rfl, rfl, rfl⟩
      exact (congrArg (fun c : CoreState => lookup c.subOut e) (core_modCore s _ (State.granting (s.group q.gid) q e))).trans
        (lookup_put_same ..)
  · obtain ⟨f, hs, hl⟩ := State.subonEnds_tentative (status := status) hg he hf hm
    refine ⟨_, congrArg Host.Outcome.next hs, ?_, ⟨rfl, rfl⟩, ?_, ?_⟩
    · exact othersKept_modThread (s.modCore _ f) q.th _
    · rw [State.lookup_modThread, if_pos rfl, State.modCore_threads, ht]; rfl
    · exact (congrArg (fun c : CoreState => lookup c.subIn q.entry) (core_modCore s _ f)).trans hl
  · obtain ⟨hk, ht, hgr, hl, hm⟩ := State.primeNext_effect he hn hp hg
    refine ⟨_, State.primingPiece s core p n e, rfl, hk, ht, hgr, hl, ?_, rfl, read_length .., fun j hj => getD_read _ _ _ _ hj⟩
    simpa [pendingOf] using hm
  · have hx := State.stream_flushStream s pub sub pub sub
    rw [if_pos rfl] at hx
    refine ⟨_, rfl, ?_, ⟨?_, ?_⟩, by rw [hx]; exact basket_flushed _, ?_⟩
    · rw [State.flushStream_eq]
    · rw [State.flushStream_eq]
    · rw [State.flushStream_eq]
    · rw [hx, flushed, if_neg (by simpa using hb)]
  · obtain ⟨hk, hgr, hr⟩ := State.applyStream_single hs hm hh hw
    refine ⟨_, rfl, hk, hr, fun o => ?_⟩
    have hgg : (s.applyStream pub sub).group g = State.updated u (s.group g) := by
      rw [State.group, hgr]; exact group_modGroup _ hg
    rw [hgg]
    exact byte_put ..

end Sys2Proof.Machine

/-!
The figures of the formats (R106): the model's and those of the statements are the same, and a pattern is a sign and a
magnitude whose value is counted in units of the least subnormal number.
-/
namespace Sys2Proof.Machine
open Sys2Proof.Terms

/-! ### The figures of a format -/

theorem fracLen_eq (f : Fmt) : fracLen f = fracBits f := by cases f <;> rfl
theorem two_pow_expLen (f : Fmt) : 2 ^ expLen f = expMax f + 1 := by cases f <;> rfl
theorem expMax_eq (f : Fmt) : expMax f = 2 * expBias f + 1 := by cases f <;> rfl
theorem expBias_pos (f : Fmt) : 0 < expBias f := by cases f <;> decide
theorem fracBits_pos (f : Fmt) : 0 < fracBits f := by cases f <;> decide
theorem fracBits_le (f : Fmt) : fracBits f ≤ 23 := by cases f <;> decide
theorem expBias_eq (f : Fmt) : (2 : ℤ) ^ (expLen f - 1) = expBias f + 1 := by cases f <;> rfl
theorem signBit_eq (f : Fmt) : signBit f = (expMax f + 1) * 2 ^ fracBits f := by cases f <;> rfl
theorem two_pow_fmtWidth (f : Fmt) : 2 ^ fmtWidth f = 2 * signBit f := by cases f <;> rfl
theorem two_pow_expLen_fracLen (f : Fmt) : 2 ^ (expLen f + fracLen f) = signBit f := by cases f <;> rfl
theorem quietPat_eq (f : Fmt) : quietPat f = canonNaN f := by cases f <;> rfl

theorem expOf_eq (f : Fmt) (x : Nat) : expOf f x = expField f x := by
  rw [expOf, expField, two_pow_expLen, fracLen_eq]
theorem fracOf_eq (f : Fmt) (x : Nat) : fracOf f x = fracField f x := by rw [fracOf, fracField, fracLen_eq]
theorem negative_iff (f : Fmt) (x : Nat) : negative f x ↔ signOf f x = true := by
  rw [negative, two_pow_expLen_fracLen, signOf, beq_iff_eq]
theorem zeroPat_eq (f : Fmt) (s : Bool) : zeroPat f s = zeroOf f s := by rw [zeroPat, zeroOf, two_pow_expLen_fracLen]
theorem infPat_eq (f : Fmt) (s : Bool) : infPat f s = infOf f s := by
  rw [infPat, infOf, two_pow_expLen_fracLen, two_pow_expLen, fracLen_eq, Nat.add_sub_cancel]

/-! ### Sign and magnitude -/

/-- The magnitude of a pattern: all its bits but the sign. -/
def magOf (f : Fmt) (x : Nat) : Nat := x % signBit f
/-- The magnitude of infinity, which lies above those of the finite patterns and below those of the NaNs. -/
def infMag (f : Fmt) : Nat := expMax f * 2 ^ fracBits f

theorem infOf_eq (f : Fmt) (s : Bool) : infOf f s = zeroOf f s + infMag f := rfl
theorem signBit_eq_add (f : Fmt) : signBit f = infMag f + 2 ^ fracBits f := by rw [signBit_eq, infMag, Nat.succ_mul]
theorem infMag_lt (f : Fmt) : infMag f < signBit f := by cases f <;> decide
theorem infMag_pos (f : Fmt) : 0 < infMag f := by cases f <;> decide
theorem signBit_pos (f : Fmt) : 0 < signBit f := by cases f <;> decide
theorem signBit_even (f : Fmt) : signBit f % 2 = 0 := by cases f <;> rfl
theorem magOf_lt (f : Fmt) (x : Nat) : magOf f x < signBit f := Nat.mod_lt _ (signBit_pos f)

/-- A pattern of a sign and a magnitude. -/
theorem magOf_add {f : Fmt} {p : Nat} (hp : p < signBit f) (s : Bool) : magOf f (zeroOf f s + p) = p := by
  cases s
  · simp [magOf, zeroOf, Nat.mod_eq_of_lt hp]
  · simp [magOf, zeroOf, Nat.mod_eq_of_lt hp]
theorem signOf_add {f : Fmt} {p : Nat} (hp : p < signBit f) (s : Bool) : signOf f (zeroOf f s + p) = s := by
  cases s
  · simp [signOf, zeroOf, Nat.div_eq_of_lt hp]
  · simp [signOf, zeroOf, Nat.div_eq_of_lt hp, Nat.add_div_left _ (signBit_pos f)]
theorem add_lt_width {f : Fmt} {p : Nat} (hp : p < signBit f) (s : Bool) : zeroOf f s + p < 2 ^ fmtWidth f := by
  rw [two_pow_fmtWidth, zeroOf]
  split <;> omega
theorem zeroOf_even (f : Fmt) (s : Bool) : zeroOf f s % 2 = 0 := by
  rw [zeroOf]
  split
  · exact signBit_even f
  · rfl

/-- Every pattern is one of its sign and its magnitude. -/
theorem eq_sign_mag {f : Fmt} {x : Nat} (hx : x < 2 ^ fmtWidth f) : x = zeroOf f (signOf f x) + magOf f x := by
  rw [two_pow_fmtWidth] at hx
  have hd := Nat.div_add_mod x (signBit f)
  have hlt : x / signBit f < 2 := (Nat.div_lt_iff_lt_mul (signBit_pos f)).2 hx
  unfold zeroOf signOf magOf
  obtain h | h := Nat.le_one_iff_eq_zero_or_eq_one.1 (Nat.le_of_lt_succ hlt)
  · rw [h] at hd ⊢; simpa using hd.symm
  · rw [h] at hd ⊢; simpa using hd.symm

/-- Exponent and fraction are the two parts of the magnitude. -/
theorem expField_eq (f : Fmt) (x : Nat) : expField f x = magOf f x / 2 ^ fracBits f := by
  rw [expField, magOf, signBit_eq, Nat.mul_comm, Nat.mod_mul_right_div_self]
theorem fracField_eq (f : Fmt) (x : Nat) : fracField f x = magOf f x % 2 ^ fracBits f := by
  rw [fracField, magOf, signBit_eq, Nat.mod_mul_left_mod]

theorem expField_le (f : Fmt) (x : Nat) : expField f x ≤ expMax f := Nat.le_of_lt_succ (Nat.mod_lt _ (Nat.succ_pos _))

/-- The exponent field is all ones from the magnitude of infinity up. -/
theorem expField_eq_max_iff (f : Fmt) (x : Nat) : expField f x = expMax f ↔ infMag f ≤ magOf f x := by
  rw [infMag, ← Nat.le_div_iff_mul_le (Nat.two_pow_pos _), ← expField_eq]
  exact ⟨fun h => h.ge, fun h => le_antisymm (expField_le f x) h⟩

theorem finite_iff (f : Fmt) (x : Nat) : finite f x ↔ x < 2 ^ fmtWidth f ∧ magOf f x < infMag f := by
  rw [finite, expOf_eq, two_pow_expLen, Nat.add_sub_cancel, Ne, expField_eq_max_iff, Nat.not_le]

theorem nanPat_iff (f : Fmt) (x : Nat) : nanPat f x ↔ x < 2 ^ fmtWidth f ∧ infMag f < magOf f x := by
  rw [nanPat, expOf_eq, two_pow_expLen, Nat.add_sub_cancel, fracOf_eq, fracField_eq, expField_eq_max_iff]
  have hs := signBit_eq_add f
  have hm := magOf_lt f x
  have hmod : infMag f ≤ magOf f x → magOf f x % 2 ^ fracBits f = magOf f x - infMag f := fun h => by
    obtain ⟨j, hj⟩ := Nat.exists_eq_add_of_le h
    rw [hj, Nat.add_sub_cancel_left, infMag, Nat.mul_add_mod_self_right, Nat.mod_eq_of_lt (by omega)]
  exact and_congr_right fun _ => ⟨fun ⟨h, h'⟩ => by rw [hmod h] at h'; omega, fun h => ⟨h.le, by rw [hmod h.le]; omega⟩⟩

/-! ### Values in units of the least subnormal number -/

/-- The magnitude a magnitude pattern stands for, in units of the least subnormal number. -/
def units (f : Fmt) (p : Nat) : Nat :=
  if p / 2 ^ fracBits f = 0 then p else (2 ^ fracBits f + p % 2 ^ fracBits f) * 2 ^ (p / 2 ^ fracBits f - 1)

/-- Exponent of the least subnormal number of a format. -/
def ulpExp (f : Fmt) : ℤ := 1 - expBias f - fracBits f

/-- The factor of a sign. -/
def sgn (s : Bool) : ℝ := if s then -1 else 1

theorem sgn_mul_self (s : Bool) : sgn s * sgn s = 1 := by cases s <;> simp [sgn]
theorem abs_sgn (s : Bool) : |sgn s| = 1 := by cases s <;> simp [sgn]

/-- A mantissa of at most one bit more than the fraction, scaled by 2^k, where it is normalised or k is 0: its pattern is a sum. -/
theorem units_add {f : Fmt} {k h : Nat} (hh : h ≤ 2 * 2 ^ fracBits f) (hk : k = 0 ∨ 2 ^ fracBits f ≤ h) :
    units f (k * 2 ^ fracBits f + h) = h * 2 ^ k := by
  have hN : 0 < 2 ^ fracBits f := Nat.two_pow_pos _
  unfold units
  generalize 2 ^ fracBits f = N at *
  obtain h1 | h1 | h1 : h < N ∨ (∃ j, h = N + j ∧ j < N) ∨ h = 2 * N := by
    rcases Nat.lt_or_ge h N with h1 | h1
    · exact .inl h1
    · rcases Nat.lt_or_ge h (2 * N) with h2 | h2
      · exact .inr (.inl ⟨h - N, by omega, by omega⟩)
      · exact .inr (.inr (by omega))
  · obtain rfl : k = 0 := by omega
    simp [Nat.div_eq_of_lt h1]
  · obtain ⟨j, rfl, hj⟩ := h1
    have hq : k * N + (N + j) = j + N * (k + 1) := by ring
    rw [hq, Nat.add_mul_div_left _ _ hN, Nat.div_eq_of_lt hj, Nat.add_mul_mod_self_left, Nat.mod_eq_of_lt hj]
    simp
  · have hq : k * N + h = N * (k + 2) := by rw [h1]; ring
    rw [hq, Nat.mul_div_cancel_left _ hN, Nat.mul_mod_right, h1]
    simp [pow_succ]; ring

/-- Infinity is one binade above the largest finite magnitudes. -/
theorem units_infMag (f : Fmt) : units f (infMag f) = 2 ^ fracBits f * 2 ^ (2 * expBias f) := by
  rw [infMag, expMax_eq, Nat.succ_mul]
  exact units_add (by omega) (.inr le_rfl)

/-- Every magnitude has that form, and so has the next one. -/
theorem exists_units (f : Fmt) (p : Nat) : ∃ k h, p = k * 2 ^ fracBits f + h ∧ h < 2 * 2 ^ fracBits f ∧
    (k = 0 ∨ 2 ^ fracBits f ≤ h) := by
  have hN : 0 < 2 ^ fracBits f := Nat.two_pow_pos _
  generalize 2 ^ fracBits f = N at *
  have hd := Nat.div_add_mod p N
  have hm := Nat.mod_lt p hN
  rcases Nat.eq_zero_or_pos (p / N) with h0 | h0
  · exact ⟨0, p, by simp, by rw [h0] at hd; omega, .inl rfl⟩
  · obtain ⟨j, hj⟩ := Nat.exists_eq_add_of_lt h0
    rw [hj] at hd
    exact ⟨j, N + p % N, by rw [← hd]; ring_nf; simp [Nat.add_mod], by omega, .inr (by omega)⟩

theorem units_strictMono (f : Fmt) : StrictMono (units f) := strictMono_nat_of_lt_succ fun p => by
  obtain ⟨k, h, rfl, hh, hk⟩ := exists_units f p
  rw [Nat.add_assoc, units_add hh.le hk, units_add (h := h + 1) hh (by omega)]
  exact Nat.mul_lt_mul_of_pos_right (Nat.lt_succ_self h) (Nat.two_pow_pos k)

@[simp] theorem units_zero (f : Fmt) : units f 0 = 0 := by simp [units]

/-- The two cases of R106 are one number of units. -/
theorem units_eq_cases (f : Fmt) (p : Nat) : (units f p : ℚ) * 2 ^ ulpExp f =
    if p / 2 ^ fracBits f = 0 then ((p % 2 ^ fracBits f : ℕ) : ℚ) * 2 ^ (2 - 2 ^ (expLen f - 1) - fracLen f : ℤ)
    else ((2 ^ fracBits f + p % 2 ^ fracBits f : ℕ) : ℚ) *
      2 ^ (((p / 2 ^ fracBits f : ℕ) : ℤ) + 1 - 2 ^ (expLen f - 1) - fracLen f) := by
  rw [expBias_eq, fracLen_eq, ulpExp, units]
  split
  · next h =>
    rw [Nat.mod_eq_of_lt (by simpa using h), show (2 : ℤ) - (expBias f + 1) = 1 - expBias f by ring]
  · next h =>
    obtain ⟨j, hj⟩ := Nat.exists_eq_succ_of_ne_zero h
    rw [hj, Nat.succ_sub_one, Nat.cast_mul, mul_assoc, Nat.cast_pow, Nat.cast_ofNat, ← zpow_natCast (2 : ℚ) j,
      ← zpow_add₀ (by norm_num : (2 : ℚ) ≠ 0)]
    congr 2
    push_cast
    ring

/-- The value of a pattern from its sign and its magnitude. -/
theorem value_eq (f : Fmt) (x : Nat) :
    (value f x : ℝ) = sgn (signOf f x) * (units f (magOf f x) * 2 ^ ulpExp f) := by
  have hs : x / 2 ^ (expLen f + fracLen f) % 2 = 1 ↔ signOf f x = true := negative_iff f x
  rw [value, expOf_eq, fracOf_eq, expField_eq, fracField_eq, show 2 ^ fracLen f = 2 ^ fracBits f by rw [fracLen_eq], ← units_eq_cases,
    if_congr hs rfl rfl, sgn]
  split <;> push_cast <;> rfl

end Sys2Proof.Machine

/-!
Rounding on the magnitudes of a format (R107): an exact number between two neighbouring magnitudes rounds to one of them, to the
upper one where the mode sends it away from zero.
-/
namespace Sys2Proof.Machine
open Sys2Proof.Terms

/-! ### Values seen from one sign -/

/-- The value of a pattern in units of the least subnormal number, as seen from a sign. -/
noncomputable def seen (f : Fmt) (s : Bool) (z : Nat) : ℝ := sgn s * sgn (signOf f z) * units f (magOf f z)

theorem value_eq_seen (f : Fmt) (s : Bool) (z : Nat) : (value f z : ℝ) = sgn s * (seen f s z * 2 ^ ulpExp f) := by
  rw [value_eq, seen]
  linear_combination -(sgn (signOf f z) * units f (magOf f z) * 2 ^ ulpExp f) * sgn_mul_self s

theorem abs_seen (f : Fmt) (s : Bool) (z : Nat) : |seen f s z| = units f (magOf f z) := by
  rw [seen, abs_mul, abs_mul, abs_sgn, abs_sgn, one_mul, one_mul, Nat.abs_cast]

theorem seen_add {f : Fmt} {p : Nat} (hp : p < signBit f) (s : Bool) : seen f s (zeroOf f s + p) = units f p := by
  rw [seen, signOf_add hp, magOf_add hp, sgn_mul_self, one_mul]

/-- No value lies between two neighbouring magnitudes. -/
theorem seen_gap (f : Fmt) (s : Bool) (z p : Nat) : seen f s z ≤ units f p ∨ (units f (p + 1) : ℝ) ≤ seen f s z := by
  have h0 : (0 : ℝ) ≤ units f (magOf f z) := Nat.cast_nonneg _
  have h1 : (0 : ℝ) ≤ units f p := Nat.cast_nonneg _
  have hs : seen f s z = units f (magOf f z) ∨ seen f s z = -units f (magOf f z) := by
    unfold seen sgn
    cases s <;> cases signOf f z <;> simp
  obtain h | h := hs
  · rw [h, Nat.cast_le, Nat.cast_le, (units_strictMono f).le_iff_le, (units_strictMono f).le_iff_le]
    omega
  · left
    linarith

section
variable (f : Fmt) (s : Bool) (a b : ℝ)

theorem abs_scaled : |sgn s * (a * 2 ^ ulpExp f)| = |a| * 2 ^ ulpExp f := by
  rw [abs_mul, abs_sgn, one_mul, abs_mul, abs_of_pos (zpow_pos two_pos _ : (0 : ℝ) < 2 ^ ulpExp f)]

theorem abs_scaled_sub : |sgn s * (a * 2 ^ ulpExp f) - sgn s * (b * 2 ^ ulpExp f)| = |a - b| * 2 ^ ulpExp f := by
  rw [← mul_sub, ← sub_mul, abs_scaled]

theorem scaled_le_iff : sgn s * (a * 2 ^ ulpExp f) ≤ sgn s * (b * 2 ^ ulpExp f) ↔ if s then b ≤ a else a ≤ b := by
  have hc : (0 : ℝ) < 2 ^ ulpExp f := zpow_pos two_pos _
  cases s <;> simp [sgn, hc]

theorem le_value_iff (z : Nat) : sgn s * (a * 2 ^ ulpExp f) ≤ value f z ↔ if s then seen f s z ≤ a else a ≤ seen f s z := by
  rw [value_eq_seen f s, scaled_le_iff]

theorem value_le_iff (z : Nat) : value f z ≤ sgn s * (a * 2 ^ ulpExp f) ↔ if s then a ≤ seen f s z else seen f s z ≤ a := by
  rw [value_eq_seen f s, scaled_le_iff]

theorem value_le_value_iff (x z : Nat) :
    value f x ≤ value f z ↔ if s then seen f s z ≤ seen f s x else seen f s x ≤ seen f s z := by
  rw [← Rat.cast_le (K := ℝ), value_eq_seen f s x, value_eq_seen f s z, scaled_le_iff]

theorem abs_value (z : Nat) : |(value f z : ℝ)| = |seen f s z| * 2 ^ ulpExp f := by rw [value_eq_seen f s, abs_scaled]
end

/-! ### Rounding between neighbours -/

/-- An exact magnitude of Y units, not below the magnitude p but below the next, is rounded to that next one. -/
def roundsAway (f : Fmt) (md : Rm) (s : Bool) (Y : ℝ) (p : Nat) : Prop :=
  match md with
  | .rn => (units f p + units f (p + 1) : ℝ) < 2 * Y ∨ ((units f p + units f (p + 1) : ℝ) = 2 * Y ∧ p % 2 = 1)
  | .rz => False
  | .rp => s = false ∧ (units f p : ℝ) < Y
  | .rm => s = true ∧ (units f p : ℝ) < Y

/-- A pattern of the sign of the exact number meets what RoundsTo says of every mode. -/
theorem roundsTo_head {f : Fmt} {s : Bool} {r : Nat} {Y : ℝ} (hr : r ≤ infMag f) (hY : 0 < Y) :
    zeroOf f s + r < 2 ^ fmtWidth f ∧ ¬nanPat f (zeroOf f s + r) ∧
      (negative f (zeroOf f s + r) ↔ sgn s * (Y * 2 ^ ulpExp f) < 0) := by
  have hb : r < signBit f := hr.trans_lt (infMag_lt f)
  have hc : (0 : ℝ) < 2 ^ ulpExp f := zpow_pos two_pos _
  refine ⟨add_lt_width hb s, fun h => ?_, ?_⟩
  · have := ((nanPat_iff ..).1 h).2
    rw [magOf_add hb] at this
    omega
  · rw [negative_iff, signOf_add hb]
    cases s
    · simpa [sgn] using (mul_pos hY hc).le
    · simpa [sgn] using mul_pos hY hc

theorem finite_add {f : Fmt} {r : Nat} (hr : r < infMag f) (s : Bool) : finite f (zeroOf f s + r) := by
  have hb : r < signBit f := hr.trans (infMag_lt f)
  rw [finite_iff, magOf_add hb]
  exact ⟨add_lt_width hb s, hr⟩

section
variable {f : Fmt} {md : Rm} {s : Bool} {Y : ℝ} {p r : Nat}

/-- To nearest. -/
theorem nearest_of_bracket (h1 : (units f p : ℝ) ≤ Y) (h2 : Y < units f (p + 1)) (hb : r < signBit f)
    (hup : roundsAway f .rn s Y p → r = p + 1) (hdn : ¬roundsAway f .rn s Y p → r = p) (z : Nat) :
    |Y - seen f s (zeroOf f s + r)| ≤ |Y - seen f s z| ∧
      (|Y - seen f s (zeroOf f s + r)| = |Y - seen f s z| → seen f s z ≠ seen f s (zeroOf f s + r) → r % 2 = 0) := by
  rw [seen_add hb]
  have hz := seen_gap f s z p
  generalize seen f s z = Z at hz ⊢
  by_cases ha : roundsAway f .rn s Y p
  · obtain rfl := hup ha
    rw [abs_of_nonpos (by linarith : Y - (units f (p + 1) : ℝ) ≤ 0)]
    obtain hz | hz := hz
    · rw [abs_of_nonneg (by linarith)]
      obtain ha | ⟨ha, hodd⟩ := ha
      · exact ⟨by linarith, fun he => by linarith⟩
      · exact ⟨by linarith, fun _ _ => by omega⟩
    · rw [abs_of_nonpos (by linarith)]
      exact ⟨by linarith, fun he hne => absurd (by linarith) hne⟩
  · obtain rfl := hdn ha
    obtain ⟨ha, hodd⟩ := not_or.1 ha
    rw [abs_of_nonneg (by linarith : 0 ≤ Y - (units f r : ℝ))]
    obtain hz | hz := hz
    · rw [abs_of_nonneg (by linarith)]
      exact ⟨by linarith, fun he hne => absurd (by linarith) hne⟩
    · rw [abs_of_nonpos (by linarith)]
      refine ⟨by linarith, fun he _ => ?_⟩
      have hne : ¬r % 2 = 1 := fun h => hodd ⟨by linarith, h⟩
      omega

/-- Away from zero. -/
theorem away_of_bracket (h1 : (units f p : ℝ) ≤ Y) (h2 : Y < units f (p + 1)) (hp : p < infMag f) (hb : r < signBit f)
    (hup : (units f p : ℝ) < Y → r = p + 1) (hdn : ¬(units f p : ℝ) < Y → r = p) :
    ((finite f (zeroOf f s + r) ∧ Y ≤ seen f s (zeroOf f s + r)) ∨ zeroOf f s + r = infPat f s) ∧
      ∀ z, Y ≤ seen f s z → seen f s (zeroOf f s + r) ≤ seen f s z := by
  rw [seen_add hb]
  by_cases ha : (units f p : ℝ) < Y
  · obtain rfl := hup ha
    refine ⟨?_, fun z hz => (seen_gap f s z p).resolve_left (by linarith)⟩
    obtain h | h : p + 1 < infMag f ∨ p + 1 = infMag f := by omega
    · exact .inl ⟨finite_add h s, h2.le⟩
    · exact .inr (by rw [infPat_eq, infOf_eq, h])
  · obtain rfl := hdn ha
    exact ⟨.inl ⟨finite_add hp s, by linarith⟩, fun z hz => by linarith⟩

/-- Toward zero. -/
theorem toward_of_bracket (h1 : (units f p : ℝ) ≤ Y) (h2 : Y < units f (p + 1)) (hp : p < infMag f) :
    (finite f (zeroOf f s + p) ∧ seen f s (zeroOf f s + p) ≤ Y) ∧
      ∀ z, seen f s z ≤ Y → seen f s z ≤ seen f s (zeroOf f s + p) := by
  rw [seen_add (hp.trans (infMag_lt f))]
  exact ⟨⟨finite_add hp s, h1⟩, fun z hz => (seen_gap f s z p).resolve_right (by linarith)⟩

/-- Under a mode that sends numbers of sign s away from zero. -/
theorem roundsTo_of_away {x : Nat} (hx : x < 2 ^ fmtWidth f ∧ ¬nanPat f x ∧ (negative f x ↔ sgn s * (Y * 2 ^ ulpExp f) < 0))
    (h : ((finite f x ∧ Y ≤ seen f s x) ∨ x = infPat f s) ∧ ∀ z, finite f z → Y ≤ seen f s z → seen f s x ≤ seen f s z) :
    RoundsTo f (if s then .rm else .rp) (sgn s * (Y * 2 ^ ulpExp f)) x := by
  refine ⟨hx.1, hx.2.1, hx.2.2, ?_⟩
  cases s
  · simpa only [Bool.false_eq_true, if_false, le_value_iff, value_le_value_iff f false] using h
  · simpa only [if_true, value_le_iff, value_le_value_iff f true] using h

/-- Under a directed mode that sends them toward zero. -/
theorem roundsTo_of_toward {x : Nat} (hx : x < 2 ^ fmtWidth f ∧ ¬nanPat f x ∧ (negative f x ↔ sgn s * (Y * 2 ^ ulpExp f) < 0))
    (h : (finite f x ∧ seen f s x ≤ Y) ∧ ∀ z, finite f z → seen f s z ≤ Y → seen f s z ≤ seen f s x) :
    RoundsTo f (if s then .rp else .rm) (sgn s * (Y * 2 ^ ulpExp f)) x := by
  refine ⟨hx.1, hx.2.1, hx.2.2, ?_⟩
  cases s
  · simpa only [Bool.false_eq_true, if_false, value_le_iff, value_le_value_iff f false] using ⟨.inl h.1, h.2⟩
  · simpa only [if_true, le_value_iff, value_le_value_iff f true] using ⟨.inl h.1, h.2⟩

/-- Toward zero under .RZ. -/
theorem roundsTo_rz {x : Nat} (hY : 0 ≤ Y)
    (hx : x < 2 ^ fmtWidth f ∧ ¬nanPat f x ∧ (negative f x ↔ sgn s * (Y * 2 ^ ulpExp f) < 0))
    (h : finite f x ∧ (units f (magOf f x) : ℝ) ≤ Y ∧ ∀ z, finite f z → (units f (magOf f z) : ℝ) ≤ Y → magOf f z ≤ magOf f x) :
    RoundsTo f .rz (sgn s * (Y * 2 ^ ulpExp f)) x := by
  obtain ⟨hf, hle, hz⟩ := h
  have hc : (0 : ℝ) < 2 ^ ulpExp f := zpow_pos two_pos _
  have hle_iff : ∀ z, |(value f z : ℝ)| ≤ |sgn s * (Y * 2 ^ ulpExp f)| ↔ (units f (magOf f z) : ℝ) ≤ Y := fun z => by
    rw [abs_scaled, abs_of_nonneg hY, abs_value f s, abs_seen, mul_le_mul_iff_left₀ hc]
  refine ⟨hx.1, hx.2.1, hx.2.2, hf, (hle_iff x).2 hle, fun z hfz hy => ?_⟩
  rw [← Rat.cast_le (K := ℝ), Rat.cast_abs, Rat.cast_abs, abs_value f s, abs_value f s, abs_seen, abs_seen,
    mul_le_mul_iff_left₀ hc, Nat.cast_le, (units_strictMono f).le_iff_le]
  exact hz z hfz ((hle_iff z).1 hy)

/-- To nearest under .RN. -/
theorem roundsTo_rn {x : Nat} (hx : x < 2 ^ fmtWidth f ∧ ¬nanPat f x ∧ (negative f x ↔ sgn s * (Y * 2 ^ ulpExp f) < 0))
    (h : ∀ z, z < 2 ^ fmtWidth f → ¬nanPat f z → |Y - seen f s x| ≤ |Y - seen f s z| ∧
      (|Y - seen f s x| = |Y - seen f s z| → seen f s z ≠ seen f s x → x % 2 = 0)) :
    RoundsTo f .rn (sgn s * (Y * 2 ^ ulpExp f)) x := by
  have hc : (0 : ℝ) < 2 ^ ulpExp f := zpow_pos two_pos _
  refine ⟨hx.1, hx.2.1, hx.2.2, fun z hw hn => ?_⟩
  rw [value_eq_seen f s, value_eq_seen f s z, abs_scaled_sub, abs_scaled_sub, mul_le_mul_iff_left₀ hc, mul_left_inj' hc.ne']
  refine ⟨(h z hw hn).1, fun he hne => (h z hw hn).2 he fun hs => hne ?_⟩
  rw [← Rat.cast_inj (α := ℝ), value_eq_seen f s, value_eq_seen f s x, hs]

/-- The directed modes, by what they do with numbers of a sign. -/
theorem mode_cases (md : Rm) (s : Bool) : md = .rn ∨ md = .rz ∨ md = (if s then .rm else .rp) ∨ md = if s then .rp else .rm := by
  cases md <;> cases s <;> simp

theorem roundsAway_away : roundsAway f (if s then .rm else .rp) s Y p ↔ (units f p : ℝ) < Y := by cases s <;> simp [roundsAway]
theorem roundsAway_toward : ¬roundsAway f (if s then .rp else .rm) s Y p := by cases s <;> simp [roundsAway]

/-- An exact number between neighbouring magnitudes is rounded to the upper one where it is rounded away from zero, else to the
lower one (R107). -/
theorem roundsTo_of_bracket (hY : 0 < Y) (h1 : (units f p : ℝ) ≤ Y) (h2 : Y < units f (p + 1)) (hp : p < infMag f)
    (hup : roundsAway f md s Y p → r = p + 1) (hdn : ¬roundsAway f md s Y p → r = p) :
    RoundsTo f md (sgn s * (Y * 2 ^ ulpExp f)) (zeroOf f s + r) := by
  have hr : r ≤ infMag f := by
    by_cases h : roundsAway f md s Y p
    · rw [hup h]; exact hp
    · rw [hdn h]; exact hp.le
  have hb : r < signBit f := hr.trans_lt (infMag_lt f)
  have hx := roundsTo_head (s := s) hr hY
  obtain rfl | rfl | rfl | rfl := mode_cases md s
  · refine roundsTo_rn hx fun z _ _ => ?_
    rw [Nat.add_mod, zeroOf_even, Nat.zero_add, Nat.mod_mod]
    exact nearest_of_bracket h1 h2 hb hup hdn z
  · obtain rfl := hdn not_false
    refine roundsTo_rz hY.le hx ⟨finite_add hp s, ?_⟩
    rw [magOf_add hb]
    refine ⟨h1, fun z _ hz => ?_⟩
    have := (units_strictMono f).lt_iff_lt.1 (Nat.cast_lt.1 (hz.trans_lt h2))
    omega
  · rw [roundsAway_away] at hup hdn
    exact roundsTo_of_away hx ((away_of_bracket h1 h2 hp hb hup hdn).imp_right fun h z _ => h z)
  · obtain rfl := hdn roundsAway_toward
    exact roundsTo_of_toward hx ((toward_of_bracket h1 h2 hp).imp_right fun h z _ => h z)

/-! ### Overflow -/

/-- Whether a magnitude beyond the largest finite one becomes an infinity (R107). -/
def toInf (md : Rm) (s : Bool) : Bool :=
  match md with
  | .rn => true
  | .rz => false
  | .rp => !s
  | .rm => s

theorem seen_le_top {z : Nat} (hz : ¬nanPat f z) (hw : z < 2 ^ fmtWidth f) : seen f s z ≤ units f (infMag f) := by
  refine (le_abs_self _).trans ?_
  rw [abs_seen, Nat.cast_le, (units_strictMono f).le_iff_le]
  exact Nat.not_lt.1 fun h => hz ((nanPat_iff f z).2 ⟨hw, h⟩)

theorem seen_le_max {z : Nat} (hz : finite f z) : seen f s z ≤ units f (infMag f - 1) := by
  refine (le_abs_self _).trans ?_
  rw [abs_seen, Nat.cast_le, (units_strictMono f).le_iff_le]
  have := ((finite_iff f z).1 hz).2
  omega

/-- An exact number not below the magnitude next above the largest finite one becomes an infinity, or the largest finite value under
a mode that sends it toward zero (R107). -/
theorem roundsTo_of_overflow (h : (units f (infMag f) : ℝ) ≤ Y) :
    RoundsTo f md (sgn s * (Y * 2 ^ ulpExp f)) (if toInf md s then infOf f s else maxOf f s) := by
  have hpos := infMag_pos f
  have hlt := infMag_lt f
  have hYpos : 0 < Y := (Nat.cast_pos.2 ((units_strictMono f).lt_iff_lt.2 hpos |>.trans_le' (Nat.zero_le _))).trans_le h
  have hinf := roundsTo_head (s := s) (le_refl (infMag f)) hYpos
  have hmx : infMag f - 1 ≤ infMag f := Nat.sub_le ..
  have hmax := roundsTo_head (s := s) hmx hYpos
  have hmaxOf : maxOf f s = zeroOf f s + (infMag f - 1) := by rw [maxOf, infOf_eq]; omega
  have hb : infMag f - 1 < signBit f := by omega
  have hstep : (units f (infMag f - 1) : ℝ) < units f (infMag f) := Nat.cast_lt.2 (units_strictMono f (by omega))
  obtain rfl | rfl | rfl | rfl := mode_cases md s
  · rw [show toInf .rn s = true from rfl, if_pos rfl, infOf_eq]
    refine roundsTo_rn hinf fun z hw hz => ?_
    rw [seen_add hlt]
    have hle := seen_le_top (s := s) hz hw
    rw [abs_of_nonneg (by linarith), abs_of_nonneg (by linarith)]
    exact ⟨by linarith, fun he hne => absurd (by linarith) hne⟩
  · rw [show toInf .rz s = false from rfl, if_neg Bool.false_ne_true, hmaxOf]
    refine roundsTo_rz hYpos.le hmax ⟨finite_add (by omega) s, ?_⟩
    rw [magOf_add hb]
    refine ⟨by linarith, fun z hz _ => ?_⟩
    have := ((finite_iff f z).1 hz).2
    omega
  · rw [show toInf (if s then .rm else .rp) s = true by cases s <;> rfl, if_pos rfl, infOf_eq]
    refine roundsTo_of_away hinf ⟨.inr (by rw [infPat_eq, infOf_eq]), fun z hz hy => ?_⟩
    have := seen_le_max (s := s) hz
    linarith
  · rw [show toInf (if s then .rp else .rm) s = false by cases s <;> rfl, if_neg Bool.false_ne_true, hmaxOf]
    refine roundsTo_of_toward hmax ⟨⟨finite_add (by omega) s, ?_⟩, fun z hz _ => ?_⟩ <;> rw [seen_add hb]
    · linarith
    · exact seen_le_max hz
end

end Sys2Proof.Machine

/-!
The model's rounding (R107): what cutting off low bits does, and that roundTo rounds the exact number its mantissa and exponent
stand for.
-/
namespace Sys2Proof.Machine
open Sys2Proof.Terms

/-! ### Cutting off low bits -/

/-- t, at least h and below h + 1, is rounded to h + 1. -/
def cutsAway (md : Rm) (s : Bool) (t : ℝ) (h : Nat) : Prop :=
  match md with
  | .rn => (2 * h + 1 : ℝ) < 2 * t ∨ ((2 * h + 1 : ℝ) = 2 * t ∧ h % 2 = 1)
  | .rz => False
  | .rp => s = false ∧ (h : ℝ) < t
  | .rm => s = true ∧ (h : ℝ) < t

/-- m · 2^e stands for y: exactly, or as an odd mantissa with a sticky last bit of which at least c bits are cut off. -/
def StandsFor (c : Nat) (m : Nat) (e : ℤ) (y : ℝ) : Prop :=
  y = m * 2 ^ e ∨ (m % 2 = 1 ∧ 2 ^ c ≤ m ∧ |y - m * 2 ^ e| < 2 ^ e)

/-- The bits lo of D that are cut off tell where t lies between hi and hi + 1, even if the last of them is sticky. -/
theorem cut_position {hi lo D : Nat} {t : ℝ} (hlo : lo < D)
    (ht : t * D = hi * D + lo ∨ (lo % 2 = 1 ∧ D % 4 = 0 ∧ |t * D - (hi * D + lo)| < 1)) :
    (hi ≤ t ∧ t < hi + 1) ∧ (D < 2 * lo ↔ (2 * hi + 1 : ℝ) < 2 * t) ∧ (2 * lo = D ↔ (2 * hi + 1 : ℝ) = 2 * t) ∧
      (lo ≠ 0 ↔ (hi : ℝ) < t) := by
  have hD : (0 : ℝ) < D := by exact_mod_cast (Nat.zero_le lo).trans_lt hlo
  have e1 : (hi : ℝ) ≤ t ↔ (hi : ℝ) * D ≤ t * D := (mul_le_mul_iff_left₀ hD).symm
  have e2 : t < hi + 1 ↔ t * D < hi * D + D := by rw [← mul_lt_mul_iff_left₀ hD, add_mul, one_mul]
  have e3 : (2 * hi + 1 : ℝ) < 2 * t ↔ 2 * (hi * D) + D < 2 * (t * D) := by
    rw [← mul_lt_mul_iff_left₀ hD, ← mul_assoc, ← mul_assoc, add_mul, one_mul]
  have e4 : (2 * hi + 1 : ℝ) = 2 * t ↔ 2 * (hi * D) + D = 2 * (t * D) := by
    rw [← mul_left_inj' hD.ne', ← mul_assoc, ← mul_assoc, add_mul, one_mul]
  have e5 : (hi : ℝ) < t ↔ (hi : ℝ) * D < t * D := (mul_lt_mul_iff_left₀ hD).symm
  rw [e1, e2, e3, e4, e5]
  generalize t * D = x at *
  generalize (hi : ℝ) * D = b at *
  have c1 : (lo : ℝ) < D := by exact_mod_cast hlo
  obtain rfl | ⟨hodd, h4, hx⟩ := ht
  · refine ⟨⟨by simp, by linarith⟩, ?_, ?_, ?_⟩
    · rw [← Nat.cast_lt (α := ℝ)]; push_cast; constructor <;> intro h <;> linarith
    · rw [← Nat.cast_inj (R := ℝ)]; push_cast; constructor <;> intro h <;> linarith
    · rw [← Nat.pos_iff_ne_zero, ← Nat.cast_pos (α := ℝ)]; constructor <;> intro h <;> linarith
  · obtain ⟨hx1, hx2⟩ := abs_lt.1 hx
    have h1 : (1 : ℝ) ≤ lo := by exact_mod_cast (by omega : 1 ≤ lo)
    have h2 : (lo : ℝ) + 1 ≤ D := by exact_mod_cast (by omega : lo + 1 ≤ D)
    refine ⟨⟨by linarith, by linarith⟩, ?_, ?_, ?_⟩
    · refine ⟨fun h => ?_, fun h => ?_⟩
      · have : (D : ℝ) + 2 ≤ 2 * lo := by exact_mod_cast (by omega : D + 2 ≤ 2 * lo)
        linarith
      · by_contra hn
        have : 2 * (lo : ℝ) + 2 ≤ D := by exact_mod_cast (by omega : 2 * lo + 2 ≤ D)
        linarith
    · refine ⟨fun h => by omega, fun h => ?_⟩
      obtain hn | hn : D + 2 ≤ 2 * lo ∨ 2 * lo + 2 ≤ D := by omega
      · have : (D : ℝ) + 2 ≤ 2 * lo := by exact_mod_cast hn
        linarith
      · have : 2 * (lo : ℝ) + 2 ≤ D := by exact_mod_cast hn
        linarith
    · exact ⟨fun _ => by linarith, fun _ => by omega⟩

theorem not_cutsAway_self (md : Rm) (s : Bool) (h : Nat) : ¬cutsAway md s (h : ℝ) h := by
  cases md
  · rintro (h | ⟨h, -⟩) <;> linarith
  · exact not_false
  · exact fun h => lt_irrefl _ h.2
  · exact fun h => lt_irrefl _ h.2

/-- The model rounds up by the bits that are cut off as t is rounded away. -/
theorem roundsUp_iff (md : Rm) (s : Bool) {hi lo j : Nat} {t : ℝ} (hgt : 2 ^ j < 2 * lo ↔ (2 * hi + 1 : ℝ) < 2 * t)
    (heq : 2 * lo = 2 ^ j ↔ (2 * hi + 1 : ℝ) = 2 * t) (hne : lo ≠ 0 ↔ (hi : ℝ) < t) :
    roundsUp md s (hi % 2 == 1) lo j = true ↔ cutsAway md s t hi := by
  cases md
  · simp only [roundsUp, cutsAway, Bool.or_eq_true, decide_eq_true_eq, Bool.and_eq_true, beq_iff_eq, hgt, heq]
  · simp [roundsUp, cutsAway]
  · simp only [roundsUp, cutsAway, Bool.and_eq_true, decide_eq_true_eq, hne, Bool.not_eq_true']
  · simp only [roundsUp, cutsAway, Bool.and_eq_true, decide_eq_true_eq, hne]

/-- What cutTo makes of the multiple t of 2^q that its mantissa and exponent stand for. -/
theorem cutTo_spec (md : Rm) (s : Bool) {m : Nat} {e q : ℤ} {t : ℝ}
    (ht : t * 2 ^ q = m * 2 ^ e ∨ (m % 2 = 1 ∧ e + 2 ≤ q ∧ |t * 2 ^ q - m * 2 ^ e| < 2 ^ e)) :
    ∃ h : Nat, (h ≤ t ∧ t < h + 1) ∧ (cutsAway md s t h → (cutTo md s m e q).1 = h + 1) ∧
      (¬cutsAway md s t h → (cutTo md s m e q).1 = h) ∧
      (t * 2 ^ q = m * 2 ^ e → ((cutTo md s m e q).2 = true ↔ (h : ℝ) < t)) := by
  have h2 : (2 : ℝ) ≠ 0 := two_ne_zero
  unfold cutTo
  split
  · next hqe =>
    obtain ⟨j, hj⟩ := Int.eq_ofNat_of_zero_le (sub_nonneg.2 hqe)
    obtain rfl : e = q + j := by linarith
    have htj : t = (m * 2 ^ j : ℕ) := by
      obtain ht | ⟨-, h, -⟩ := ht
      · rw [zpow_add₀ h2, zpow_natCast, ← mul_assoc, mul_right_comm] at ht
        rw [mul_right_cancel₀ (zpow_ne_zero q h2) ht]
        push_cast
        rfl
      · omega
    have hn : ¬cutsAway md s t (m * 2 ^ j) := htj ▸ not_cutsAway_self md s (m * 2 ^ j)
    rw [hj]
    exact ⟨m * 2 ^ j, ⟨htj.ge, by rw [htj]; exact lt_add_one _⟩, fun h => absurd h hn, fun _ => rfl,
      fun _ => by simp [htj]⟩
  · next hqe =>
    obtain ⟨j, hj⟩ := Int.eq_ofNat_of_zero_le (sub_nonneg.2 (le_of_not_ge hqe))
    obtain rfl : q = e + j := by linarith
    have hD : (2 : ℝ) ^ (e + (j : ℤ)) = (2 ^ j : ℕ) * 2 ^ e := by
      rw [zpow_add₀ h2, zpow_natCast, mul_comm]
      push_cast
      rfl
    have he : (0 : ℝ) < 2 ^ e := zpow_pos two_pos e
    rw [hD, ← mul_assoc, mul_left_inj' he.ne', ← sub_mul, abs_mul, abs_of_pos he] at ht
    have hm : (m : ℝ) = (m / 2 ^ j : ℕ) * (2 ^ j : ℕ) + (m % 2 ^ j : ℕ) := by
      exact_mod_cast (Nat.div_add_mod' m (2 ^ j)).symm
    have hdm := Nat.div_add_mod m (2 ^ j)
    have hlo := Nat.mod_lt m (Nat.two_pow_pos j)
    have hlast : e + 2 ≤ e + (j : ℤ) → 2 ^ j % 4 = 0 := fun h => by
      obtain ⟨i, rfl⟩ : ∃ i, j = 2 + i := ⟨j - 2, by omega⟩
      rw [pow_add]
      exact Nat.mul_mod_right ..
    rw [hm] at ht
    obtain ⟨hb, hgt, heq, hne⟩ := cut_position (D := 2 ^ j) hlo (ht.imp_right fun ⟨hodd, hq, hx⟩ =>
      have h4 := hlast hq
      ⟨by
        have : 2 ∣ 2 ^ j * (m / 2 ^ j) := Dvd.dvd.mul_right (by omega) _
        omega, h4, by simpa [he] using hx⟩)
    rw [hj]
    have hup := roundsUp_iff md s hgt heq hne
    refine ⟨m / 2 ^ j, hb, fun h => ?_, fun h => ?_, fun _ => by simpa using hne⟩
    · exact if_pos (hup.2 h)
    · exact if_neg (fun hu => h (hup.1 hu))

/-! ### The rounding of every form -/

/-- Exponent of the leading bit of m · 2^e. -/
def topOf (m : Nat) (e : ℤ) : ℤ := e + bitLen m - 1

theorem bitLen_of_pos {m : Nat} (hm : 0 < m) : bitLen m = Nat.log2 m + 1 := if_neg hm.ne'

/-- The leading bit bounds the number that a mantissa and an exponent stand for. -/
theorem topOf_bounds {c m : Nat} {e : ℤ} {y : ℝ} (hm : 0 < m) (hy : StandsFor c m e y) (hc : 0 < c) :
    2 ^ topOf m e ≤ y ∧ y < 2 ^ (topOf m e + 1) := by
  have h2 : (2 : ℝ) ≠ 0 := two_ne_zero
  have he : (0 : ℝ) < 2 ^ e := zpow_pos two_pos e
  have hlo := Nat.log2_self_le hm.ne'
  have hhi : m < 2 ^ (Nat.log2 m + 1) := Nat.lt_log2_self
  have htop : topOf m e = Nat.log2 m + e := by rw [topOf, bitLen_of_pos hm]; push_cast; ring
  have e1 : (2 : ℝ) ^ topOf m e = (2 ^ Nat.log2 m : ℕ) * 2 ^ e := by rw [htop, zpow_add₀ h2]; norm_cast
  have e2 : (2 : ℝ) ^ (topOf m e + 1) = (2 ^ (Nat.log2 m + 1) : ℕ) * 2 ^ e := by
    rw [htop, add_right_comm, zpow_add₀ h2]; norm_cast
  rw [e1, e2]
  obtain rfl | ⟨hodd, hcm, hx⟩ := hy
  · exact ⟨mul_le_mul_of_nonneg_right (Nat.cast_le.2 hlo) he.le, mul_lt_mul_of_pos_right (Nat.cast_lt.2 hhi) he⟩
  · obtain ⟨x1, x2⟩ := abs_lt.1 hx
    have hl : Nat.log2 m ≠ 0 := fun h => by
      rw [h] at hhi
      have : 2 ^ 1 ≤ 2 ^ c := Nat.pow_le_pow_right two_pos hc
      omega
    obtain ⟨j, hj⟩ := Nat.exists_eq_succ_of_ne_zero hl
    rw [hj] at hlo hhi ⊢
    have g1 : ((2 ^ (j + 1) : ℕ) : ℝ) + 1 ≤ m := by exact_mod_cast (by rw [pow_succ] at *; omega : 2 ^ (j + 1) + 1 ≤ m)
    have g2 : (m : ℝ) + 1 ≤ (2 ^ (j + 1 + 1) : ℕ) := by exact_mod_cast hhi
    have g3 := mul_le_mul_of_nonneg_right g1 he.le
    have g4 := mul_le_mul_of_nonneg_right g2 he.le
    rw [add_mul, one_mul] at g3 g4
    exact ⟨by linarith, by linarith⟩

/-- The exponent of the last bit that a format keeps of m · 2^e. -/
def quantum (f : Fmt) (m : Nat) (e : ℤ) : ℤ := max (topOf m e) (1 - expBias f) - fracBits f

/-- A number below the least normal one is rounded as if the exponent had no lower end, and stays below it (R107). -/
def tinyAfter (f : Fmt) (md : Rm) (s : Bool) (m : Nat) (e : ℤ) : Bool :=
  decide (topOf m e < 1 - expBias f) && !(decide (topOf m e = 1 - expBias f - 1) &&
    decide (2 ^ (fracBits f + 1) ≤ (cutTo md s m e (topOf m e - fracBits f)).1))

/-- The flags of a rounding that does not overflow. -/
def roundFlags (f : Fmt) (md : Rm) (s : Bool) (m : Nat) (e : ℤ) : Flags :=
  (if (cutTo md s m e (quantum f m e)).2 then flagNX else 0) |||
    if (cutTo md s m e (quantum f m e)).2 && tinyAfter f md s m e then flagUF else 0

/-- Exponent and mantissa fields of a result, whether the mantissa is subnormal, normal or carried into the next binade: together they
are a sum, which reaches the pattern of infinity on overflow. -/
theorem fields_eq {N E k m : Nat} (hN : 0 < N) (hE : 1 < E) (hle : m ≤ 2 * N) (hk : k = 0 ∨ N ≤ m) :
    let b := if 2 * N ≤ m then k + 2 else k + 1
    let m1 := if 2 * N ≤ m then m / 2 else m
    (N ≤ m1 ∧ E ≤ b ↔ E * N ≤ k * N + m) ∧ (if N ≤ m1 then b else 0) * N + m1 % N = k * N + m := by
  dsimp only
  have mono : ∀ {i j : Nat}, i * N < j * N ↔ i < j := fun {i j} => Nat.mul_lt_mul_right hN
  have e1 : (k + 1) * N = k * N + N := Nat.succ_mul ..
  have e2 : (k + 2) * N = k * N + 2 * N := Nat.add_mul ..
  obtain h1 | h1 | h1 : m < N ∨ (N ≤ m ∧ m < 2 * N) ∨ m = 2 * N := by omega
  · obtain rfl : k = 0 := by omega
    rw [if_neg (by omega), if_neg (by omega), if_neg (by omega), Nat.mod_eq_of_lt h1]
    have := (mono (i := 1) (j := E)).2 hE
    omega
  · rw [if_neg (by omega), if_neg (by omega), if_pos (by omega), Nat.mod_eq_sub_mod h1.1, Nat.mod_eq_of_lt (by omega), e1]
    have h3 := mono (i := k + 1) (j := E)
    have h4 := mono (i := E) (j := k + 2)
    refine ⟨⟨fun ⟨_, h⟩ => ?_, fun h => ⟨h1.1, ?_⟩⟩, by omega⟩
    · have := Nat.mul_le_mul_right N h
      omega
    · have := h4.1 (by omega)
      omega
  · have hm : m / 2 = N := by omega
    rw [if_pos h1.ge, if_pos h1.ge, hm, if_pos le_rfl, Nat.mod_self, e2]
    refine ⟨⟨fun ⟨_, h⟩ => ?_, fun h => ⟨le_rfl, Nat.le_of_mul_le_mul_right (c := N) (by omega) hN⟩⟩, by omega⟩
    have := Nat.mul_le_mul_right N h
    omega

/-- The result of a rounding, by the exponent k of its last bit above that of the least subnormal number. -/
theorem roundTo_eq (f : Fmt) (md : Rm) (s : Bool) {m k : Nat} {e : ℤ} (hm : m ≠ 0) (hq : quantum f m e = ulpExp f + k)
    (hle : (cutTo md s m e (quantum f m e)).1 ≤ 2 * 2 ^ fracBits f)
    (hk : k = 0 ∨ 2 ^ fracBits f ≤ (cutTo md s m e (quantum f m e)).1) :
    roundTo f md s m e =
      if infMag f ≤ k * 2 ^ fracBits f + (cutTo md s m e (quantum f m e)).1 then
        (if toInf md s then infOf f s else maxOf f s, flagOF ||| flagNX)
      else (zeroOf f s + (k * 2 ^ fracBits f + (cutTo md s m e (quantum f m e)).1), roundFlags f md s m e) := by
  have hE : 1 < expMax f := by cases f <;> decide
  have hb : ulpExp f + fracBits f + expBias f = 1 := by rw [ulpExp]; ring
  have hqd : max (e + (bitLen m : ℤ) - 1) (1 - (expBias f : ℤ)) - (fracBits f : ℤ) = quantum f m e := rfl
  unfold roundTo roundFlags tinyAfter
  dsimp only
  rw [if_neg hm, hqd]
  generalize cutTo md s m e (quantum f m e) = r at *
  obtain ⟨m', ix⟩ := r
  obtain ⟨hover, hbits⟩ := fields_eq (Nat.two_pow_pos _) hE hle hk
  have hbi : (if 2 * 2 ^ fracBits f ≤ m' then ulpExp f + k + 1 else ulpExp f + k) + fracBits f + expBias f =
      ((if 2 * 2 ^ fracBits f ≤ m' then k + 2 else k + 1 : ℕ) : ℤ) := by
    split <;> push_cast <;> linarith
  simp only [pow_succ, Nat.mul_comm _ 2, decide_eq_true_eq, hq, hbi, Bool.and_eq_true, Nat.cast_le, hover, Int.toNat_natCast,
    Nat.add_assoc, hbits]
  rfl

/-- What a rounding of Y units does: Y lies from the magnitude p up, below the next, and goes to the magnitude r, one of the two,
which stands for itself or has overflowed. -/
structure Rounding (f : Fmt) (md : Rm) (s : Bool) (m : Nat) (e : ℤ) (Y : ℝ) (p r : Nat) : Prop where
  lower : (units f p : ℝ) ≤ Y
  upper : Y < units f (p + 1)
  away : roundsAway f md s Y p → r = p + 1
  toward : ¬roundsAway f md s Y p → r = p
  result : roundTo f md s m e = if infMag f ≤ r then (if toInf md s then infOf f s else maxOf f s, flagOF ||| flagNX)
    else (zeroOf f s + r, roundFlags f md s m e)
  inexact : Y * 2 ^ ulpExp f = m * 2 ^ e → ((cutTo md s m e (quantum f m e)).2 = true ↔ (units f p : ℝ) < Y)

/-- Between neighbouring magnitudes of a binade an exact number lies as between neighbouring mantissas. -/
theorem roundsAway_iff {f : Fmt} (md : Rm) (s : Bool) {k h : Nat} (hh : h < 2 * 2 ^ fracBits f) (hk : k = 0 ∨ 2 ^ fracBits f ≤ h)
    (t : ℝ) : roundsAway f md s (t * 2 ^ k) (k * 2 ^ fracBits f + h) ↔ cutsAway md s t h := by
  have hpos : (0 : ℝ) < 2 ^ k := pow_pos two_pos k
  have heven : 2 ^ fracBits f % 2 = 0 := by cases f <;> rfl
  have hpar : (k * 2 ^ fracBits f + h) % 2 = h % 2 := by rw [Nat.add_mod, Nat.mul_mod, heven]; simp
  have h1 : (units f (k * 2 ^ fracBits f + h) : ℝ) = h * 2 ^ k := by rw [units_add hh.le hk]; norm_cast
  have h2 : (units f (k * 2 ^ fracBits f + h + 1) : ℝ) = (h + 1) * 2 ^ k := by
    rw [Nat.add_assoc, units_add (h := h + 1) hh (by omega)]; norm_cast
  have hsum : (h * 2 ^ k + (h + 1) * 2 ^ k : ℝ) = (2 * h + 1) * 2 ^ k := by ring
  cases md
  · simp only [roundsAway, cutsAway, h1, h2, hpar, hsum, ← mul_assoc, mul_lt_mul_iff_left₀ hpos, mul_left_inj' hpos.ne']
  · rfl
  · simp only [roundsAway, cutsAway, h1, mul_lt_mul_iff_left₀ hpos]
  · simp only [roundsAway, cutsAway, h1, mul_lt_mul_iff_left₀ hpos]

/-- The mantissa that a format keeps has at most one bit more than its fraction, and has it unless the exponent is the least one. -/
theorem kept_bounds {f : Fmt} {c m : Nat} {e : ℤ} {t : ℝ} (hm : 0 < m) (hc : 0 < c) (ht : StandsFor c m e (t * 2 ^ quantum f m e)) :
    t < 2 * 2 ^ fracBits f ∧ (quantum f m e ≠ ulpExp f → 2 ^ fracBits f ≤ t) := by
  have h2 : (2 : ℝ) ≠ 0 := two_ne_zero
  obtain ⟨hlo, hhi⟩ := topOf_bounds hm ht hc
  have hpos : (0 : ℝ) < 2 ^ quantum f m e := zpow_pos two_pos _
  have e1 : (2 : ℝ) ^ (fracBits f : ℤ) = 2 ^ fracBits f := zpow_natCast ..
  constructor
  · have h : (2 : ℝ) ^ (topOf m e + 1) ≤ 2 ^ (1 + fracBits f + quantum f m e : ℤ) :=
      zpow_le_zpow_right₀ one_le_two (by unfold quantum; have := le_max_left (topOf m e) (1 - expBias f); linarith)
    rw [zpow_add₀ h2 (1 + _), zpow_add₀ h2 1, zpow_one, e1] at h
    exact lt_of_mul_lt_mul_right (hhi.trans_le h) hpos.le
  · intro hne
    have htop : topOf m e = fracBits f + quantum f m e := by
      unfold quantum at hne ⊢
      obtain h | h := max_choice (topOf m e) (1 - expBias f)
      · rw [h]; ring
      · rw [h] at hne; exact absurd rfl hne
    rw [htop, zpow_add₀ h2, e1] at hlo
    exact le_of_mul_le_mul_right hlo hpos

/-- Every rounding of the model is one (R107). -/
theorem exists_rounding (f : Fmt) (md : Rm) (s : Bool) {m : Nat} {e : ℤ} {Y : ℝ} (hm : 0 < m)
    (hy : StandsFor 26 m e (Y * 2 ^ ulpExp f)) : ∃ p r, Rounding f md s m e Y p r := by
  have h2 : (2 : ℝ) ≠ 0 := two_ne_zero
  obtain ⟨k, hk⟩ : ∃ k : Nat, quantum f m e = ulpExp f + k := by
    have : 0 ≤ quantum f m e - ulpExp f := by
      unfold quantum ulpExp
      have := le_max_right (topOf m e) (1 - expBias f)
      linarith
    obtain ⟨k, hk⟩ := Int.eq_ofNat_of_zero_le this
    exact ⟨k, by linarith⟩
  have hpos : (0 : ℝ) < 2 ^ k := pow_pos two_pos k
  obtain ⟨t, rfl⟩ : ∃ t, Y = t * 2 ^ k := ⟨Y / 2 ^ k, by field_simp⟩
  have hYt : t * 2 ^ k * 2 ^ ulpExp f = t * 2 ^ quantum f m e := by rw [hk, zpow_add₀ h2, zpow_natCast]; ring
  rw [hYt] at hy
  have hcut : t * 2 ^ quantum f m e = m * 2 ^ e ∨
      (m % 2 = 1 ∧ e + 2 ≤ quantum f m e ∧ |t * 2 ^ quantum f m e - m * 2 ^ e| < 2 ^ e) := by
    refine hy.imp_right fun ⟨hodd, hbig, hx⟩ => ⟨hodd, ?_, hx⟩
    have hl : 26 ≤ Nat.log2 m := (Nat.le_log2 hm.ne').2 hbig
    have := le_max_left (topOf m e) (1 - expBias f)
    have := fracBits_le f
    have hb := bitLen_of_pos hm
    unfold quantum topOf at *
    omega
  obtain ⟨h, ⟨hle, hlt⟩, hup, hdn, hix⟩ := cutTo_spec md s hcut
  obtain ⟨hmax, hmin⟩ := kept_bounds hm (by decide) hy
  have hhmax : h < 2 * 2 ^ fracBits f := by
    have : (h : ℝ) < (2 * 2 ^ fracBits f : ℕ) := by push_cast; linarith
    exact_mod_cast this
  have hhmin : k = 0 ∨ 2 ^ fracBits f ≤ h := by
    refine or_iff_not_imp_left.2 fun hk0 => Nat.lt_succ_iff.1 ?_
    have h3 := hmin (by omega)
    have : ((2 ^ fracBits f : ℕ) : ℝ) < (h + 1 : ℕ) := by push_cast; linarith
    exact_mod_cast this
  have hr : (cutTo md s m e (quantum f m e)).1 = h ∨ (cutTo md s m e (quantum f m e)).1 = h + 1 := by
    by_cases ha : cutsAway md s t h
    · exact .inr (hup ha)
    · exact .inl (hdn ha)
  refine ⟨k * 2 ^ fracBits f + h, k * 2 ^ fracBits f + (cutTo md s m e (quantum f m e)).1, ?_, ?_, fun ha => ?_, fun ha => ?_,
    roundTo_eq f md s hm.ne' hk (by omega) (by omega), fun he => ?_⟩
  · rw [units_add hhmax.le hhmin]
    push_cast
    exact mul_le_mul_of_nonneg_right hle hpos.le
  · rw [Nat.add_assoc, units_add (h := h + 1) hhmax (by omega)]
    push_cast
    exact mul_lt_mul_of_pos_right hlt hpos
  · rw [hup ((roundsAway_iff md s hhmax hhmin t).1 ha)]; rfl
  · rw [hdn fun hc => ha ((roundsAway_iff md s hhmax hhmin t).2 hc)]
  · rw [hix (hYt ▸ he), units_add hhmax.le hhmin]
    push_cast
    exact (mul_lt_mul_iff_left₀ hpos).symm

/-- The magnitude a rounding goes to overflows from below only where the mode makes an infinity of it. -/
theorem toInf_of_roundsAway {f : Fmt} {md : Rm} {s : Bool} {Y : ℝ} {p : Nat} (h : roundsAway f md s Y p) : toInf md s = true := by
  cases md
  · rfl
  · exact h.elim
  · exact by rw [toInf, h.1]; rfl
  · exact h.1

theorem Rounding.roundsTo {f : Fmt} {md : Rm} {s : Bool} {m : Nat} {e : ℤ} {Y : ℝ} {p r : Nat} (h : Rounding f md s m e Y p r)
    (hY : 0 < Y) : RoundsTo f md (sgn s * (Y * 2 ^ ulpExp f)) (roundTo f md s m e).1 := by
  obtain ⟨h1, h2, hup, hdn, hres, -⟩ := h
  rw [hres]
  rcases Nat.lt_or_ge p (infMag f) with hp | hp
  · have hround := roundsTo_of_bracket hY h1 h2 hp hup hdn
    split
    · next hr =>
      have ha : roundsAway f md s Y p := by
        by_contra ha
        rw [hdn ha] at hr
        omega
      rw [hup ha] at hr hround
      rw [toInf_of_roundsAway ha, if_pos rfl, infOf_eq, show infMag f = p + 1 by omega]
      exact hround
    · exact hround
  · have hr : infMag f ≤ r := by
      by_cases ha : roundsAway f md s Y p
      · rw [hup ha]; omega
      · rw [hdn ha]; exact hp
    rw [if_pos hr]
    exact roundsTo_of_overflow ((Nat.cast_le.2 ((units_strictMono f).monotone hp)).trans h1)

/-- roundTo rounds the number its mantissa and exponent stand for (R107). -/
theorem roundTo_roundsTo (f : Fmt) (md : Rm) (s : Bool) {m : Nat} {e : ℤ} {y : ℝ} (hm : 0 < m) (hy : StandsFor 26 m e y) :
    RoundsTo f md (sgn s * y) (roundTo f md s m e).1 := by
  have hc : (0 : ℝ) < 2 ^ ulpExp f := zpow_pos two_pos _
  obtain ⟨Y, rfl⟩ : ∃ Y, y = Y * 2 ^ ulpExp f := ⟨y / 2 ^ ulpExp f, by field_simp⟩
  obtain ⟨p, r, h⟩ := exists_rounding f md s hm hy
  have hpos : 0 < Y * 2 ^ ulpExp f := (zpow_pos two_pos _).trans_le (topOf_bounds hm hy (by decide)).1
  exact h.roundsTo (pos_of_mul_pos_left hpos hc.le)

end Sys2Proof.Machine

/-!
The rounding of every arithmetic form and its flags (O13; R47, R107).
-/
namespace Sys2Proof.Machine
open Sys2Proof.Terms

/-! ### The bounds of a format in units of its least subnormal number -/

theorem exact_cast (s : Bool) (m : Nat) (e : ℤ) : ((exact s m e : ℚ) : ℝ) = sgn s * (m * 2 ^ e) := by
  rw [exact, sgn]
  split <;> push_cast <;> rfl

theorem leastNormal_cast (f : Fmt) : ((leastNormal f : ℚ) : ℝ) = 2 ^ fracBits f * 2 ^ ulpExp f := by
  rw [← zpow_natCast, ← zpow_add₀ (two_ne_zero (α := ℝ)), leastNormal, ulpExp, expBias_eq]
  push_cast
  congr 1
  ring

theorem units_normal (f : Fmt) : units f (2 ^ fracBits f) = 2 ^ fracBits f := by
  simpa using units_add (f := f) (k := 0) (h := 2 ^ fracBits f) (by omega) (.inl rfl)

theorem overTop_cast (f : Fmt) : ((overTop f : ℚ) : ℝ) = units f (infMag f) * 2 ^ ulpExp f := by
  have h2 : (2 : ℝ) ≠ 0 := two_ne_zero
  rw [units_infMag, overTop, expBias_eq]
  push_cast
  rw [← zpow_natCast, ← zpow_natCast, ← zpow_add₀ h2, ← zpow_add₀ h2, ulpExp]
  congr 1
  push_cast
  ring

theorem normal_le_max (f : Fmt) : 2 ^ fracBits f ≤ infMag f - 1 := by cases f <;> decide

/-- Y, below N, reaches N when it is rounded over halves. -/
def reachesOverHalves (md : Rm) (s : Bool) (N Y : ℝ) : Prop :=
  match md with
  | .rn => N - 1 / 4 ≤ Y
  | .rz => False
  | .rp => s = false ∧ N - 1 / 2 < Y
  | .rm => s = true ∧ N - 1 / 2 < Y

/-- The exact number ± Y units reaches the least normal magnitude when it is rounded with no lower end of the exponent. -/
theorem reachesNormal_iff {f : Fmt} (md : Rm) {s : Bool} {y : ℚ} {Y : ℝ} (hY : 0 < Y) (hy : (y : ℝ) = sgn s * (Y * 2 ^ ulpExp f)) :
    reachesNormal f md y ↔ reachesOverHalves md s (2 ^ fracBits f) Y := by
  have hc : (0 : ℝ) < 2 ^ ulpExp f := zpow_pos two_pos _
  have habs : |(y : ℝ)| = Y * 2 ^ ulpExp f := by rw [hy, abs_scaled, abs_of_pos hY]
  have hu : ((leastNormal f / 2 ^ (fracLen f + 1) : ℚ) : ℝ) = 1 / 2 * 2 ^ ulpExp f := by
    rw [Rat.cast_div, leastNormal_cast, fracLen_eq]
    push_cast
    rw [pow_succ]
    field_simp
  have hneg : y < 0 ↔ s = true := by
    rw [← Rat.cast_lt_zero (K := ℝ), hy]
    cases s
    · simpa [sgn] using (mul_pos hY hc).le
    · simpa [sgn] using mul_pos hY hc
  have hpos : 0 < y ↔ s = false := by
    rw [← Rat.cast_pos (K := ℝ), hy]
    cases s
    · simpa [sgn] using mul_pos hY hc
    · simpa [sgn] using (mul_pos hY hc).le
  unfold reachesNormal reachesOverHalves
  cases md
  · change leastNormal f - leastNormal f / 2 ^ (fracLen f + 1) / 2 ≤ |y| ↔ _
    rw [← Rat.cast_le (K := ℝ), Rat.cast_sub, Rat.cast_div _ 2, hu, leastNormal_cast, Rat.cast_abs, habs, Rat.cast_ofNat,
      ← mul_le_mul_iff_left₀ hc (b := (2 ^ fracBits f : ℝ) - 1 / 4)]
    ring_nf
  · rfl
  · change 0 < y ∧ leastNormal f - leastNormal f / 2 ^ (fracLen f + 1) < |y| ↔ _
    rw [← Rat.cast_lt (K := ℝ) (q := |y|), Rat.cast_sub, hu, leastNormal_cast, Rat.cast_abs, habs, ← sub_mul, mul_lt_mul_iff_left₀ hc, hpos]
  · change y < 0 ∧ leastNormal f - leastNormal f / 2 ^ (fracLen f + 1) < |y| ↔ _
    rw [← Rat.cast_lt (K := ℝ) (q := |y|), Rat.cast_sub, hu, leastNormal_cast, Rat.cast_abs, habs, ← sub_mul, mul_lt_mul_iff_left₀ hc, hneg]

/-! ### Tininess after rounding -/

/-- The leading bit of a number lies below that of the least normal one where the number does. -/
theorem topOf_lt_iff {f : Fmt} {m : Nat} {e : ℤ} {Y : ℝ} (hm : 0 < m) (hy : Y * 2 ^ ulpExp f = m * 2 ^ e) (j : Nat) :
    topOf m e < ulpExp f + j ↔ Y < 2 ^ j := by
  have hc : (0 : ℝ) < 2 ^ ulpExp f := zpow_pos two_pos _
  obtain ⟨h1, h2⟩ := topOf_bounds (c := 1) hm (.inl hy) one_pos
  have e1 : Y < 2 ^ j ↔ Y * 2 ^ ulpExp f < 2 ^ (ulpExp f + j) := by
    rw [zpow_add₀ two_ne_zero, zpow_natCast, mul_comm (2 ^ ulpExp f), mul_lt_mul_iff_left₀ hc]
  rw [e1]
  constructor
  · exact fun h => h2.trans_le (zpow_le_zpow_right₀ one_le_two h)
  · exact fun h => (zpow_lt_zpow_iff_right₀ one_lt_two).1 (h1.trans_lt h)

/-- Cut to a whole number of halves, Y reaches N from the last of them below it. -/
theorem cutsAway_iff_reachesOverHalves (md : Rm) (s : Bool) {N h : Nat} {Y : ℝ} (h1 : h ≤ 2 * Y) (h2 : 2 * Y < h + 1) (hlt : Y < N) :
    2 * N = h + 1 ∧ cutsAway md s (2 * Y) h ↔ reachesOverHalves md s N Y := by
  have hmax : h < 2 * N := by
    have : (h : ℝ) < (2 * N : ℕ) := by push_cast; linarith
    exact_mod_cast this
  have hlast : (N : ℝ) - 1 / 2 < Y → 2 * N = h + 1 := fun hlo => by
    have h3 : ((2 * N : ℕ) : ℝ) < (h + 2 : ℕ) := by push_cast; linarith
    have := Nat.cast_lt.1 h3
    omega
  have hcast : 2 * N = h + 1 → (2 * N : ℝ) = h + 1 := fun h3 => by exact_mod_cast h3
  cases md
  · refine ⟨fun ⟨h3, h4⟩ => ?_, fun h3 => ?_⟩
    · change _ - _ ≤ _
      have := hcast h3
      obtain h4 | ⟨h4, -⟩ := h4 <;> linarith
    · have h4 : (N : ℝ) - 1 / 4 ≤ Y := h3
      have h5 := hlast (by linarith)
      have := hcast h5
      obtain h6 | h6 := (show (2 * h + 1 : ℝ) ≤ 2 * (2 * Y) by linarith).lt_or_eq
      · exact ⟨h5, .inl h6⟩
      · exact ⟨h5, .inr ⟨h6, by omega⟩⟩
  · exact ⟨fun h3 => h3.2, fun h3 => h3.elim⟩
  · exact ⟨fun ⟨h3, h4, h5⟩ => ⟨h4, by linarith [hcast h3]⟩, fun ⟨h3, h4⟩ => ⟨hlast h4, h3, by linarith [hcast (hlast h4)]⟩⟩
  · exact ⟨fun ⟨h3, h4, h5⟩ => ⟨h4, by linarith [hcast h3]⟩, fun ⟨h3, h4⟩ => ⟨hlast h4, h3, by linarith [hcast (hlast h4)]⟩⟩

/-- Far below N nothing reaches it. -/
theorem not_reachesOverHalves (md : Rm) (s : Bool) {N Y : ℝ} (h : Y ≤ N - 1 / 2) : ¬reachesOverHalves md s N Y := by
  intro hr
  cases md
  · have h3 : N - 1 / 4 ≤ Y := hr
    linarith
  · exact hr
  · linarith [hr.2]
  · linarith [hr.2]

/-- UF's tininess is that of the exact number rounded with no lower end of the exponent. -/
theorem tinyAfter_iff {f : Fmt} (md : Rm) {s : Bool} {m : Nat} {e : ℤ} {y : ℚ} {Y : ℝ} (hm : 0 < m)
    (he : Y * 2 ^ ulpExp f = m * 2 ^ e) (hY : 0 < Y) (hy : (y : ℝ) = sgn s * (Y * 2 ^ ulpExp f)) :
    tinyAfter f md s m e = true ↔ Y < 2 ^ fracBits f ∧ ¬reachesNormal f md y := by
  have hemin : 1 - (expBias f : ℤ) = ulpExp f + fracBits f := by rw [ulpExp]; ring
  obtain ⟨F, hF⟩ := Nat.exists_eq_succ_of_ne_zero (fracBits_pos f).ne'
  have htop := topOf_lt_iff hm he (fracBits f)
  have htop' := topOf_lt_iff hm he F
  have hN : (2 : ℝ) ≤ 2 ^ fracBits f := le_self_pow₀ one_le_two (fracBits_pos f).ne'
  have hhalf : (2 : ℝ) ^ fracBits f = 2 * 2 ^ F := by rw [hF, pow_succ, mul_comm]
  rw [tinyAfter, reachesNormal_iff md hY hy, hemin]
  simp only [Bool.and_eq_true, decide_eq_true_eq, Bool.not_eq_true', htop, Bool.and_eq_false_iff, decide_eq_false_iff_not]
  refine and_congr_right fun hlt => ?_
  by_cases hb : topOf m e = ulpExp f + fracBits f - 1
  · have hq : topOf m e - fracBits f = ulpExp f - 1 := by rw [hb]; ring
    have h2Y : 2 * Y * 2 ^ (ulpExp f - 1) = m * 2 ^ e := by
      rw [← he, zpow_sub₀ two_ne_zero]
      field_simp
    obtain ⟨h, ⟨h1, h2⟩, hup, hdn, -⟩ := cutTo_spec md s (.inl h2Y)
    have hN : ((2 ^ fracBits f : ℕ) : ℝ) = 2 ^ fracBits f := by push_cast; rfl
    have hreach := cutsAway_iff_reachesOverHalves md s h1 h2 (N := 2 ^ fracBits f) (hN ▸ hlt)
    have hmax : h < 2 * 2 ^ fracBits f := by
      have : (h : ℝ) < (2 * 2 ^ fracBits f : ℕ) := by push_cast; linarith
      exact_mod_cast this
    rw [hq, pow_succ, Nat.mul_comm _ 2, or_iff_right (not_not.2 hb), not_iff_not, ← hN, ← hreach]
    by_cases ha : cutsAway md s (2 * Y) h
    · rw [hup ha, and_iff_left ha]; omega
    · rw [hdn ha, iff_false_right (fun hn => ha hn.2)]; omega
  · have hsmall : Y < 2 ^ F := htop'.1 (by have := htop.2 hlt; omega)
    exact iff_of_true (.inl hb) (not_reachesOverHalves md s (by linarith))

/-! ### The flags -/

@[simp] theorem getLsbD_overflow (i : Nat) : (flagOF ||| flagNX).getLsbD i = decide (i = 0 ∨ i = 2) := by
  rcases Nat.lt_or_ge i 5 with h | h
  · interval_cases i <;> rfl
  · rw [BitVec.getLsbD_of_ge _ _ h]
    simp; omega

@[simp] theorem getLsbD_roundFlags (f : Fmt) (md : Rm) (s : Bool) (m : Nat) (e : ℤ) (i : Nat) :
    (roundFlags f md s m e).getLsbD i = ((cutTo md s m e (quantum f m e)).2 && (decide (i = 0) ||
      decide (i = 1) && tinyAfter f md s m e)) := by
  unfold roundFlags
  rcases Nat.lt_or_ge i 5 with h | h
  · cases (cutTo md s m e (quantum f m e)).2 <;> cases tinyAfter f md s m e <;> interval_cases i <;> rfl
  · rw [BitVec.getLsbD_of_ge _ _ h]
    simp; omega

/-! ### Exactness and overflow -/

theorem lt_of_roundsAway {f : Fmt} {md : Rm} {s : Bool} {Y : ℝ} {p : Nat} (h : roundsAway f md s Y p) : (units f p : ℝ) < Y := by
  have hs : (units f p : ℝ) < units f (p + 1) := Nat.cast_lt.2 (units_strictMono f (Nat.lt_succ_self p))
  cases md
  · obtain h | ⟨h, -⟩ := h <;> linarith
  · exact h.elim
  · exact h.2
  · exact h.2

section
variable {f : Fmt} {md : Rm} {s : Bool} {m : Nat} {e : ℤ} {Y : ℝ} {p r : Nat} (h : Rounding f md s m e Y p r)
include h

theorem Rounding.le : p ≤ r ∧ r ≤ p + 1 := by
  by_cases ha : roundsAway f md s Y p
  · rw [h.away ha]; omega
  · rw [h.toward ha]; omega

/-- The magnitude rounded to is the exact one just when the lower neighbour is. -/
theorem Rounding.ne_iff : (units f r : ℝ) ≠ Y ↔ (units f p : ℝ) < Y := by
  by_cases ha : roundsAway f md s Y p
  · rw [h.away ha]
    exact iff_of_true h.upper.ne' (lt_of_roundsAway ha)
  · rw [h.toward ha]
    exact ⟨fun hne => lt_of_le_of_ne h.lower hne, fun hlt => hlt.ne⟩

/-- An overflow to a finite value is of a number beyond the largest one by a whole unit. -/
theorem Rounding.overflowed (hr : infMag f ≤ r) :
    ¬finite f (roundTo f md s m e).1 ∨ (units f (infMag f) : ℝ) ≤ Y := by
  obtain ⟨h1, h2⟩ := h.le
  rcases Nat.lt_or_ge p (infMag f) with hp | hp
  · have ha : roundsAway f md s Y p := by
      by_contra ha
      have := h.toward ha
      omega
    left
    rw [h.result, if_pos hr, if_pos (toInf_of_roundsAway ha), infOf_eq, finite_iff, magOf_add (infMag_lt f)]
    exact fun hf => lt_irrefl _ hf.2
  · exact .inr ((Nat.cast_le.2 ((units_strictMono f).monotone hp)).trans h.lower)

/-- What is left of a number that reaches the least normal magnitude is normal. -/
theorem Rounding.normal {y : ℚ} (hY : 0 < Y) (hy : (y : ℝ) = sgn s * (Y * 2 ^ ulpExp f))
    (hn : (2 ^ fracBits f : ℝ) ≤ Y ∨ reachesNormal f md y) : 2 ^ fracBits f ≤ r := by
  have hcast : (units f (2 ^ fracBits f) : ℝ) = 2 ^ fracBits f := by rw [units_normal]; norm_cast
  have hbig : (2 ^ fracBits f : ℝ) ≤ Y → 2 ^ fracBits f ≤ r := fun hb => by
    have : 2 ^ fracBits f < p + 1 := (units_strictMono f).lt_iff_lt.1 (Nat.cast_lt (α := ℝ).1 (by rw [hcast]; linarith [h.upper]))
    have := h.le.1
    omega
  obtain hn | hn := hn
  · exact hbig hn
  · by_contra hr
    have hlt : Y < 2 ^ fracBits f := lt_of_not_ge fun hb => hr (hbig hb)
    obtain ⟨N, hN⟩ : ∃ N, 2 ^ fracBits f = N + 1 := Nat.exists_eq_succ_of_ne_zero (Nat.two_pow_pos _).ne'
    have hNr : (2 : ℝ) ^ fracBits f = N + 1 := by exact_mod_cast congrArg (Nat.cast (R := ℝ)) hN
    have huN : (units f N : ℝ) = N := by
      have := units_add (f := f) (k := 0) (h := N) (by omega) (.inl rfl)
      rw [Nat.zero_mul, Nat.zero_add] at this
      rw [this]; simp
    have huN1 : (units f (N + 1) : ℝ) = N + 1 := by rw [← hN, hcast, hNr]
    rw [reachesNormal_iff md hY hy, hNr] at hn
    have hgt : (N : ℝ) < Y ∧ roundsAway f md s Y N := by
      unfold roundsAway
      rw [huN, huN1]
      cases md
      · have hn : (N + 1 : ℝ) - 1 / 4 ≤ Y := hn
        exact ⟨by linarith, .inl (by linarith)⟩
      · exact hn.elim
      · exact ⟨by linarith [hn.2], hn.1, by linarith [hn.2]⟩
      · exact ⟨by linarith [hn.2], hn.1, by linarith [hn.2]⟩
    have hp : p = N := by
      have h1 : N < p + 1 := (units_strictMono f).lt_iff_lt.1 (Nat.cast_lt (α := ℝ).1 (by rw [huN]; linarith [h.upper]))
      have h2 : p < N + 1 := (units_strictMono f).lt_iff_lt.1 (Nat.cast_lt (α := ℝ).1 (by rw [huN1]; linarith [h.lower]))
      omega
    rw [h.away (hp ▸ hgt.2), hp, hN] at hr
    exact hr le_rfl
end

theorem magOf_infOf (f : Fmt) (s : Bool) : magOf f (infOf f s) = infMag f := magOf_add (infMag_lt f) s
theorem magOf_maxOf (f : Fmt) (s : Bool) : magOf f (maxOf f s) = infMag f - 1 := by
  have := infMag_pos f
  have := infMag_lt f
  rw [maxOf, infOf_eq, Nat.add_sub_assoc (by omega)]
  exact magOf_add (by omega) s

/-! ### The exact number ± Y units against the bounds of its format -/

section
variable {f : Fmt} {s : Bool} {y : ℚ} {Y : ℝ}

theorem overTop_le_abs_iff (hY : 0 < Y) (hy : (y : ℝ) = sgn s * (Y * 2 ^ ulpExp f)) : overTop f ≤ |y| ↔ (units f (infMag f) : ℝ) ≤ Y := by
  rw [← Rat.cast_le (K := ℝ), overTop_cast, Rat.cast_abs, hy, abs_scaled, abs_of_pos hY, mul_le_mul_iff_left₀ (zpow_pos two_pos _)]

theorem abs_lt_leastNormal_iff (hY : 0 < Y) (hy : (y : ℝ) = sgn s * (Y * 2 ^ ulpExp f)) : |y| < leastNormal f ↔ Y < 2 ^ fracBits f := by
  rw [← Rat.cast_lt (K := ℝ), leastNormal_cast, Rat.cast_abs, hy, abs_scaled, abs_of_pos hY, mul_lt_mul_iff_left₀ (zpow_pos two_pos _)]

theorem abs_value_lt_leastNormal_iff (f : Fmt) (x : Nat) : |value f x| < leastNormal f ↔ magOf f x < 2 ^ fracBits f := by
  have hN : (units f (2 ^ fracBits f) : ℝ) = 2 ^ fracBits f := by rw [units_normal]; norm_cast
  rw [← Rat.cast_lt (K := ℝ), leastNormal_cast, Rat.cast_abs, abs_value f false, abs_seen, mul_lt_mul_iff_left₀ (zpow_pos two_pos _), ← hN,
    Nat.cast_lt, (units_strictMono f).lt_iff_lt]

theorem value_eq_iff_seen (hy : (y : ℝ) = sgn s * (Y * 2 ^ ulpExp f)) (x : Nat) : value f x = y ↔ seen f s x = Y := by
  rw [← Rat.cast_inj (α := ℝ), hy, value_eq_seen f s, mul_right_inj' (by cases s <;> simp [sgn]), mul_left_inj' (zpow_pos two_pos _).ne']
end

/-- Settles O13: the exact number lies between two neighbouring magnitudes, and every clause is read off which of them it goes to. -/
theorem roundingIsExact : Obligations.RoundingIsExact := by
  intro f md s m e hm
  have hc : (0 : ℝ) < 2 ^ ulpExp f := zpow_pos two_pos _
  obtain ⟨Y, he⟩ : ∃ Y, Y * 2 ^ ulpExp f = (m * 2 ^ e : ℝ) := ⟨m * 2 ^ e / 2 ^ ulpExp f, by field_simp⟩
  have hY : 0 < Y := pos_of_mul_pos_left (he ▸ mul_pos (Nat.cast_pos.2 hm) (zpow_pos two_pos e)) hc.le
  have hy : ((exact s m e : ℚ) : ℝ) = sgn s * (Y * 2 ^ ulpExp f) := by rw [exact_cast, he]
  obtain ⟨p, r, h⟩ := exists_rounding f md s hm (.inl he)
  have hvalue := value_eq_iff_seen hy
  have htop := overTop_le_abs_iff hY hy
  have hsmall := abs_lt_leastNormal_iff hY hy
  have hsub := abs_value_lt_leastNormal_iff f
  refine ⟨by rw [hy]; exact h.roundsTo hY, ?_⟩
  have hres := h.result
  rcases Nat.lt_or_ge r (infMag f) with hr | hr
  · rw [if_neg (Nat.not_le.2 hr)] at hres
    have hb : r < signBit f := hr.trans (infMag_lt f)
    have hfin : finite f (zeroOf f s + r) := finite_add hr s
    have htiny := tinyAfter_iff md hm he hY hy
    have hnx : (roundFlags f md s m e).getLsbD 0 = true ↔ (units f r : ℝ) ≠ Y := by
      rw [h.ne_iff, ← h.inexact he, getLsbD_roundFlags]; simp
    have huf : (roundFlags f md s m e).getLsbD 1 = true ↔
        (roundFlags f md s m e).getLsbD 0 = true ∧ Y < 2 ^ fracBits f ∧ ¬reachesNormal f md (exact s m e) := by
      rw [← htiny, getLsbD_roundFlags, getLsbD_roundFlags]; simp
    have hnone : ∀ i, 2 ≤ i → (roundFlags f md s m e).getLsbD i = false := fun i hi => by
      rw [getLsbD_roundFlags, decide_eq_false (by omega), decide_eq_false (by omega)]; simp
    have hlow : Y < units f (infMag f) :=
      h.upper.trans_le (Nat.cast_le.2 ((units_strictMono f).monotone (by have := h.le.1; omega)))
    simp only [hres, hsmall, hsub, hvalue, seen_add hb, magOf_add hb, htop, huf]
    refine ⟨by rw [hnx, and_iff_right hfin], iff_of_false (by rw [hnone 2 le_rfl]; exact Bool.false_ne_true) ?_, trivial,
      fun hx hs => ⟨hx, ?_, ?_⟩, hnone 3 (by decide), hnone 4 (by decide)⟩
    · exact not_or.2 ⟨not_not.2 hfin, not_le.2 hlow⟩
    · by_contra hn
      exact absurd (h.normal hY hy (.inl (le_of_not_gt hn))) (Nat.not_le.2 hs)
    · exact fun hn => absurd (h.normal hY hy (.inr hn)) (Nat.not_le.2 hs)
  · rw [if_pos hr] at hres
    have hover := h.overflowed hr
    have hmax := normal_le_max f
    have hN : (2 ^ fracBits f : ℝ) ≤ Y := by
      have h1 : units f (2 ^ fracBits f) ≤ units f p := (units_strictMono f).monotone (by have := h.le.2; omega)
      rw [units_normal] at h1
      exact le_trans (by exact_mod_cast h1) h.lower
    have hmag : 2 ^ fracBits f ≤ magOf f (if toInf md s then infOf f s else maxOf f s) := by
      split
      · rw [magOf_infOf]; omega
      · rw [magOf_maxOf]; exact hmax
    rw [hres] at hover ⊢
    simp only [getLsbD_overflow, htop, hsmall, hsub, hvalue]
    refine ⟨iff_of_true (by simp) fun ⟨hf, hs⟩ => ?_, iff_of_true (by simp) hover, iff_of_false (by simp) ?_, fun _ hs => ?_, by simp,
      by simp⟩
    · have h1 := seen_le_max (s := s) hf
      have h2 : (units f (infMag f - 1) : ℝ) < units f (infMag f) :=
        Nat.cast_lt.2 (units_strictMono f (by have := infMag_pos f; omega))
      have h3 := hover.resolve_left (not_not.2 hf)
      linarith
    · exact fun hn => absurd hN (not_le.2 hn.2.1)
    · exact absurd hmag (Nat.not_le.2 hs)

end Sys2Proof.Machine

/-!
Finite floating-point arithmetic (O14; R107, R109, R111, R175, R180, R181): what a finite pattern is read as, and that each form
hands the exact result, or one that stands for it, to the rounding.
-/
namespace Sys2Proof.Machine
open Sys2Proof.Terms

/-! ### Readings of patterns (R106) -/

theorem fval_of_nan {f : Fmt} {x : Nat} (h : nanPat f x) : ∃ b, fval f x = .nan b ∧ (b = true ↔ sigPat f x) := by
  have hx : nanPat f x := h
  obtain ⟨-, he, hm⟩ := h
  rw [expOf_eq, two_pow_expLen, Nat.add_sub_cancel] at he
  rw [fracOf_eq] at hm
  refine ⟨_, by unfold fval; rw [if_pos he, if_neg hm], ?_⟩
  rw [sigPat, and_iff_right hx, fracOf_eq, fracLen_eq, beq_iff_eq, Nat.div_eq_zero_iff]
  simp

theorem fval_infOf (f : Fmt) (s : Bool) : fval f (infOf f s) = .inf s := by cases f <;> cases s <;> rfl

/-- A finite pattern is read as a mantissa and an exponent of its value. -/
theorem fval_of_finite {f : Fmt} {x : Nat} (h : finite f x) : ∃ m e, fval f x = .fin (signOf f x) m e ∧
    value f x = exact (signOf f x) m e ∧ m < 2 * 2 ^ fracBits f ∧ ulpExp f ≤ e := by
  have hN : 0 < 2 ^ fracBits f := Nat.two_pow_pos _
  have hm : fracField f x < 2 ^ fracBits f := Nat.mod_lt _ hN
  have hne : expField f x ≠ expMax f := by
    have := h.2
    rwa [expOf_eq, two_pow_expLen, Nat.add_sub_cancel] at this
  have hv : value f x = (if signOf f x then -1 else 1) * (units f (magOf f x) * 2 ^ ulpExp f) := by
    rw [← Rat.cast_inj (α := ℝ), value_eq, sgn]
    split <;> push_cast <;> rfl
  have hu := units_eq_cases f (magOf f x)
  rw [← expField_eq, ← fracField_eq, expBias_eq, fracLen_eq] at hu
  unfold fval
  dsimp only
  rw [if_neg hne]
  by_cases h0 : expField f x = 0
  · rw [if_pos h0] at hu ⊢
    refine ⟨_, _, rfl, ?_, by omega, le_rfl⟩
    rw [hv, hu, exact]
    congr 3
    ring
  · rw [if_neg h0] at hu ⊢
    refine ⟨_, _, rfl, ?_, by omega, by unfold ulpExp; omega⟩
    rw [hv, hu, exact, Nat.add_comm]
    congr 3
    ring

/-- Sign and value of a mantissa and exponent. -/
theorem exact_eq_zero_iff (s : Bool) (m : Nat) (e : ℤ) : exact s m e = 0 ↔ m = 0 := by
  have : (2 : ℚ) ^ e ≠ 0 := zpow_ne_zero e two_ne_zero
  unfold exact
  cases s <;> simp [this]

theorem exact_pos_iff (s : Bool) (m : Nat) (e : ℤ) : 0 < exact s m e ↔ m ≠ 0 ∧ s = false := by
  have h2 : (0 : ℚ) < 2 ^ e := zpow_pos two_pos e
  unfold exact
  cases s
  · simp [h2, Nat.pos_iff_ne_zero]
  · have : (0 : ℚ) ≤ m * 2 ^ e := by positivity
    simpa using this

/-- A form that rounds ± m · 2^e has the sign of its exact result. -/
theorem roundTo_exact (f : Fmt) (md : Rm) (s : Bool) {m : Nat} {e : ℤ} {y : ℚ} (hy : y = exact s m e) (hne : y ≠ 0) :
    RoundsTo f md y (roundTo f md s m e).1 := by
  subst hy
  rw [exact_cast]
  exact roundTo_roundsTo f md s (Nat.pos_of_ne_zero fun h => hne ((exact_eq_zero_iff ..).2 h)) (.inl rfl)

theorem roundTo_zero (f : Fmt) (md : Rm) (s : Bool) (e : ℤ) : roundTo f md s 0 e = (zeroPat f s, 0) := by
  rw [zeroPat_eq]; exact if_pos rfl

/-! ### Sums (R175) -/

/-- An integer times 2^e, by its sign and magnitude. -/
theorem exact_of_int (v : ℤ) (e : ℤ) : exact (decide (v < 0)) v.natAbs e = v * 2 ^ e := by
  unfold exact
  rcases lt_or_ge v 0 with h | h
  · rw [decide_eq_true h, if_pos rfl, ← mul_assoc]
    congr 1
    rw [Nat.cast_natAbs, abs_of_neg h]
    push_cast
    ring
  · rw [decide_eq_false (not_lt.2 h), if_neg Bool.false_ne_true, one_mul, Nat.cast_natAbs, abs_of_nonneg h]

/-- The sum of two numbers over their lesser exponent. -/
def sumInt (s1 : Bool) (m1 : Nat) (e1 : ℤ) (s2 : Bool) (m2 : Nat) (e2 : ℤ) : ℤ :=
  let v1 : ℤ := m1 * 2 ^ (e1 - min e1 e2).toNat
  let v2 : ℤ := m2 * 2 ^ (e2 - min e1 e2).toNat
  (if s1 then -v1 else v1) + (if s2 then -v2 else v2)

theorem scaled_to {e e' : ℤ} (h : e' ≤ e) (s : Bool) (m : Nat) :
    exact s m e = ((if s then -(m * 2 ^ (e - e').toNat) else m * 2 ^ (e - e').toNat : ℤ) : ℚ) * 2 ^ e' := by
  obtain ⟨j, hj⟩ := Int.eq_ofNat_of_zero_le (sub_nonneg.2 h)
  obtain rfl : e = e' + j := by linarith
  rw [exact, zpow_add₀ two_ne_zero, zpow_natCast, hj, Int.toNat_natCast]
  cases s <;> simp <;> ring

theorem sumInt_eq (s1 : Bool) (m1 : Nat) (e1 : ℤ) (s2 : Bool) (m2 : Nat) (e2 : ℤ) :
    exact s1 m1 e1 + exact s2 m2 e2 = sumInt s1 m1 e1 s2 m2 e2 * 2 ^ min e1 e2 := by
  rw [scaled_to (min_le_left e1 e2), scaled_to (min_le_right e1 e2) s2, ← add_mul, ← Int.cast_add]
  rfl

theorem addFin_eq (f : Fmt) (md : Rm) (s1 : Bool) (m1 : Nat) (e1 : ℤ) (s2 : Bool) (m2 : Nat) (e2 : ℤ) :
    addFin f md s1 m1 e1 s2 m2 e2 =
      if sumInt s1 m1 e1 s2 m2 e2 = 0 then (zeroOf f (if s1 = s2 then s1 else md == .rm), 0)
      else roundTo f md (decide (sumInt s1 m1 e1 s2 m2 e2 < 0)) (sumInt s1 m1 e1 s2 m2 e2).natAbs (min e1 e2) := rfl

/-- A sum that is not zero is rounded once. -/
theorem addFin_roundsTo (f : Fmt) (md : Rm) {s1 : Bool} {m1 : Nat} {e1 : ℤ} {s2 : Bool} {m2 : Nat} {e2 : ℤ}
    (h : exact s1 m1 e1 + exact s2 m2 e2 ≠ 0) :
    RoundsTo f md ((exact s1 m1 e1 + exact s2 m2 e2 : ℚ) : ℝ) (addFin f md s1 m1 e1 s2 m2 e2).1 := by
  have hs := sumInt_eq s1 m1 e1 s2 m2 e2
  rw [addFin_eq, if_neg fun h0 => h (by rw [hs, h0]; simp)]
  exact roundTo_exact f md _ (by rw [hs, exact_of_int]) h

/-- A sum that is zero has the sign of R175. -/
theorem addFin_zero (f : Fmt) (md : Rm) {s1 : Bool} {m1 : Nat} {e1 : ℤ} {s2 : Bool} {m2 : Nat} {e2 : ℤ}
    (h : exact s1 m1 e1 + exact s2 m2 e2 = 0) :
    addFin f md s1 m1 e1 s2 m2 e2 = (zeroPat f (if s1 = s2 then s1 else decide (md = .rm)), 0) := by
  rw [sumInt_eq] at h
  have h0 : sumInt s1 m1 e1 s2 m2 e2 = 0 := by
    have := (mul_eq_zero.1 h).resolve_right (zpow_ne_zero _ two_ne_zero)
    exact_mod_cast this
  rw [addFin_eq, if_pos h0, zeroPat_eq]
  rfl

theorem exact_not (s : Bool) (m : Nat) (e : ℤ) : exact (!s) m e = -exact s m e := by cases s <;> simp [exact]
theorem exact_mul (s1 : Bool) (m1 : Nat) (e1 : ℤ) (s2 : Bool) (m2 : Nat) (e2 : ℤ) :
    exact s1 m1 e1 * exact s2 m2 e2 = exact (s1 != s2) (m1 * m2) (e1 + e2) := by
  unfold exact
  rw [zpow_add₀ two_ne_zero]
  cases s1 <;> cases s2 <;> push_cast <;> simp <;> ring

/-! ### Quotients and roots (R175, R181) -/

/-- A mantissa of an integer part and a sticky bit stands for the number cut. -/
theorem standsFor_sticky {c h : Nat} {t : ℝ} {e : ℤ} (h1 : (h : ℝ) ≤ t) (h2 : t < h + 1) (hc : 2 ^ c ≤ h) {b : Prop} [Decidable b]
    (hb : b ↔ (h : ℝ) = t) : StandsFor (c + 1) (2 * h + if b then 0 else 1) e (t * 2 ^ (e + 1)) := by
  have he : (0 : ℝ) < 2 ^ e := zpow_pos two_pos e
  have hy : t * 2 ^ (e + 1) = 2 * t * 2 ^ e := by rw [zpow_add_one₀ two_ne_zero]; ring
  rw [hy]
  by_cases hx : b
  · left
    rw [if_pos hx, ← hb.1 hx]
    push_cast
    ring
  · have hlt : (h : ℝ) < t := lt_of_le_of_ne h1 fun hn => hx (hb.2 hn)
    refine .inr ⟨by rw [if_neg hx]; omega, by rw [if_neg hx, pow_succ]; omega, ?_⟩
    rw [if_neg hx, ← sub_mul, abs_mul, abs_of_pos he]
    push_cast
    have : |2 * t - (2 * h + 1)| < 1 := by rw [abs_lt]; constructor <;> linarith
    exact (mul_lt_iff_lt_one_left he).2 this

/-- Rounding a quotient or root from its integer part and a sticky bit rounds it. -/
theorem roundTo_sticky (f : Fmt) (md : Rm) (s : Bool) {h : Nat} {t : ℝ} {e : ℤ} (h1 : (h : ℝ) ≤ t) (h2 : t < h + 1)
    (hc : 2 ^ 25 ≤ h) {b : Prop} [Decidable b] (hb : b ↔ (h : ℝ) = t) :
    RoundsTo f md (sgn s * (t * 2 ^ (e + 1))) (roundTo f md s (2 * h + if b then 0 else 1) e).1 :=
  roundTo_roundsTo f md s (by omega) (standsFor_sticky h1 h2 hc hb)

theorem lt_two_pow_bitLen (m : Nat) : m < 2 ^ bitLen m := by
  rcases Nat.eq_zero_or_pos m with rfl | hm
  · exact Nat.two_pow_pos _
  · rw [bitLen_of_pos hm]; exact Nat.lt_log2_self

theorem divFin_roundsTo (f : Fmt) (md : Rm) (s : Bool) {m1 m2 : Nat} (e : ℤ) (h1 : m1 ≠ 0) (h2 : m2 ≠ 0) :
    RoundsTo f md (sgn s * (m1 / m2 * 2 ^ e)) (divFin f md s m1 m2 e).1 := by
  have hm2 : (0 : ℝ) < m2 := Nat.cast_pos.2 (Nat.pos_of_ne_zero h2)
  have hlt := lt_two_pow_bitLen m2
  have hy : (m1 / m2 * 2 ^ e : ℝ) =
      (m1 * 2 ^ (64 + bitLen m2) : ℕ) / m2 * 2 ^ (e - (64 + bitLen m2 : ℕ) - 1 + 1) := by
    rw [sub_add_cancel, zpow_sub₀ two_ne_zero, zpow_natCast]
    push_cast
    field_simp
  have hbig : 2 ^ 25 ≤ m1 * 2 ^ (64 + bitLen m2) / m2 := by
    rw [Nat.le_div_iff_mul_le (Nat.pos_of_ne_zero h2), pow_add, ← Nat.mul_assoc]
    exact Nat.mul_le_mul (by omega) hlt.le
  rw [hy]
  unfold divFin
  dsimp only
  generalize m1 * 2 ^ (64 + bitLen m2) = n at hbig ⊢
  refine roundTo_sticky f md s Nat.cast_div_le ?_ hbig ?_
  · rw [div_lt_iff₀ hm2]
    exact_mod_cast Nat.lt_mul_of_div_lt (Nat.lt_succ_self (n / m2)) (Nat.pos_of_ne_zero h2)
  · rw [eq_div_iff hm2.ne']
    have := Nat.div_add_mod' n m2
    constructor
    · intro h0
      exact_mod_cast (by omega : n / m2 * m2 = n)
    · intro h0
      have : n / m2 * m2 = n := by exact_mod_cast h0
      omega

/-- Each step of the integer square root halves the interval in which it lies. -/
theorem isqrtFrom_spec (n x r : Nat) (h1 : r * r ≤ x) (h2 : x < (r + 2 ^ (n + 1)) * (r + 2 ^ (n + 1))) :
    isqrtFrom n x r * isqrtFrom n x r ≤ x ∧ x < (isqrtFrom n x r + 1) * (isqrtFrom n x r + 1) := by
  induction n generalizing r with
  | zero =>
    unfold isqrtFrom
    split
    · next h => exact ⟨h, h2⟩
    · next h => exact ⟨h1, Nat.lt_of_not_le h⟩
  | succ n ih =>
    unfold isqrtFrom
    dsimp only
    have hp : 2 ^ (n + 1 + 1) = 2 ^ (n + 1) + 2 ^ (n + 1) := by rw [pow_succ]; omega
    split
    · next h => exact ih _ h (by rw [Nat.add_assoc, ← hp]; exact h2)
    · next h => exact ih _ h1 (Nat.lt_of_not_le h)

theorem isqrt_spec (x : Nat) : isqrt x * isqrt x ≤ x ∧ x < (isqrt x + 1) * (isqrt x + 1) := by
  refine isqrtFrom_spec _ x 0 (Nat.zero_le _) ?_
  rw [Nat.zero_add, ← pow_add]
  exact (lt_two_pow_bitLen x).trans_le (Nat.pow_le_pow_right two_pos (by omega))

/-- The integer square root of the integer part of x is the integer part of the root of x. -/
theorem isqrt_floor {n : Nat} {x : ℝ} (h1 : (n : ℝ) ≤ x) (h2 : x < n + 1) : (isqrt n : ℝ) ≤ √x ∧ √x < isqrt n + 1 := by
  obtain ⟨g1, g2⟩ := isqrt_spec n
  constructor
  · refine Real.le_sqrt_of_sq_le ?_
    rw [sq]
    exact le_trans (by exact_mod_cast g1) h1
  · rw [Real.sqrt_lt' (by positivity), sq]
    have : (n : ℝ) + 1 ≤ (isqrt n + 1) * (isqrt n + 1) := by exact_mod_cast g2
    linarith

theorem le_isqrt {k n : Nat} (h : k * k ≤ n) : k ≤ isqrt n := by
  by_contra hn
  have := (isqrt_spec n).2
  have := Nat.mul_le_mul (show isqrt n + 1 ≤ k by omega) (show isqrt n + 1 ≤ k by omega)
  omega

theorem sqrt_zpow_even (e : ℤ) : √((2 : ℝ) ^ (2 * e)) = 2 ^ e := by
  rw [mul_comm, zpow_mul, ← Nat.cast_two (R := ℤ), zpow_natCast]
  exact Real.sqrt_sq (zpow_pos two_pos e).le

/-- A root may be taken of a number scaled by an even power of two. -/
theorem sqrt_scaled (x : ℝ) (j : ℤ) (K : Nat) (hx : 0 ≤ x) : √(x * 2 ^ (2 * j)) = √(x * 2 ^ (2 * K)) * 2 ^ (j - K) := by
  have hK : √((2 : ℝ) ^ (2 * K)) = 2 ^ K := by
    rw [mul_comm, pow_mul]
    exact Real.sqrt_sq (by positivity)
  rw [Real.sqrt_mul hx, Real.sqrt_mul hx, sqrt_zpow_even, hK, zpow_sub₀ two_ne_zero, zpow_natCast]
  field_simp

/-- The integer root with its sticky bit, rounded. -/
theorem roundTo_isqrt (f : Fmt) (md : Rm) (e : ℤ) {n : Nat} {x : ℝ} (h1 : (n : ℝ) ≤ x) (h2 : x < n + 1)
    (hbig : 2 ^ 25 ≤ isqrt n) {b : Prop} [Decidable b] (hb : b ↔ (isqrt n : ℝ) * isqrt n = x) :
    RoundsTo f md (√x * 2 ^ (e + 1)) (roundTo f md false (2 * isqrt n + if b then 0 else 1) e).1 := by
  obtain ⟨g1, g2⟩ := isqrt_floor h1 h2
  have := roundTo_sticky f md false g1 g2 hbig (e := e) (b := b) (by
    rw [hb, eq_comm (b := √x), Real.sqrt_eq_iff_mul_self_eq ((Nat.cast_nonneg n).trans h1) (Nat.cast_nonneg _), eq_comm])
  simpa [sgn] using this

theorem sqrtFin_roundsTo (f : Fmt) (md : Rm) {m : Nat} {e : ℤ} (hm : m ≠ 0) (he : e % 2 = 0) :
    RoundsTo f md √(m * 2 ^ e) (sqrtFin f md m e).1 := by
  obtain ⟨j, rfl⟩ : ∃ j, e = 2 * j := ⟨e / 2, by omega⟩
  have hdef : sqrtFin f md m (2 * j) = roundTo f md false
      (2 * isqrt (m * 2 ^ (2 * 64)) + if isqrt (m * 2 ^ (2 * 64)) * isqrt (m * 2 ^ (2 * 64)) = m * 2 ^ (2 * 64) then 0 else 1)
      (2 * j / 2 - (64 : ℕ) - 1) := rfl
  rw [hdef, Int.mul_ediv_cancel_left _ two_ne_zero]
  obtain ⟨K, hK⟩ : ∃ K, K = 64 := ⟨_, rfl⟩
  rw [← hK]
  have hbig : 2 ^ 25 ≤ isqrt (m * 2 ^ (2 * K)) := le_isqrt (by
    rw [two_mul K, pow_add, ← Nat.one_mul (2 ^ 25 * 2 ^ 25)]
    have h25 : 2 ^ 25 ≤ 2 ^ K := Nat.pow_le_pow_right two_pos (by omega)
    exact Nat.mul_le_mul (Nat.pos_of_ne_zero hm) (Nat.mul_le_mul h25 h25))
  have h := roundTo_isqrt f md (j - K - 1) (n := m * 2 ^ (2 * K)) le_rfl (lt_add_one _) hbig
    (b := isqrt (m * 2 ^ (2 * K)) * isqrt (m * 2 ^ (2 * K)) = m * 2 ^ (2 * K)) (by norm_cast)
  rw [sqrt_scaled _ j K (Nat.cast_nonneg m)]
  rw [sub_add_cancel] at h
  exact_mod_cast h

/-- The reciprocal root of m · 2^e, from the root of 2^k / m for k of the parity of e. -/
theorem rsqFin_roundsTo (f : Fmt) (md : Rm) {m k : Nat} {e : ℤ} (hm : m ≠ 0) (hk : (k + e) % 2 = 0) (hbig : 50 + bitLen m ≤ k) :
    RoundsTo f md (1 / √(m * 2 ^ e)) (roundTo f md false
      (2 * isqrt (2 ^ k / m) + if isqrt (2 ^ k / m) * isqrt (2 ^ k / m) * m = 2 ^ k then 0 else 1) (-((k : ℤ) + e) / 2 - 1)).1 := by
  have hpos := Nat.pos_of_ne_zero hm
  have hmr : (0 : ℝ) < m := Nat.cast_pos.2 hpos
  obtain ⟨j, hj⟩ : ∃ j, -((k : ℤ) + e) = 2 * j := ⟨-((k : ℤ) + e) / 2, by omega⟩
  have he : e = -(k + 2 * j) := by linarith
  have hroot : (1 / √(m * 2 ^ e) : ℝ) = √(2 ^ k / m) * 2 ^ (j - 1 + 1) := by
    have hx : (m * 2 ^ e : ℝ)⁻¹ = 2 ^ k / m * 2 ^ (2 * j) := by
      rw [he, zpow_neg, zpow_add₀ two_ne_zero, zpow_natCast]
      field_simp
    rw [one_div, ← Real.sqrt_inv, hx, sqrt_scaled _ j 0 (by positivity)]
    simp
  have hfl1 : ((2 ^ k / m : ℕ) : ℝ) ≤ 2 ^ k / m := by
    have := Nat.cast_div_le (α := ℝ) (m := 2 ^ k) (n := m)
    push_cast at this
    exact this
  have hfl2 : (2 ^ k / m : ℝ) < (2 ^ k / m : ℕ) + 1 := by
    rw [div_lt_iff₀ hmr]
    exact_mod_cast Nat.lt_mul_of_div_lt (Nat.lt_succ_self (2 ^ k / m)) hpos
  rw [hroot, hj, Int.mul_ediv_cancel_left _ two_ne_zero]
  refine roundTo_isqrt f md (j - 1) hfl1 hfl2 (le_isqrt ?_) ?_
  · rw [Nat.le_div_iff_mul_le hpos, ← pow_add]
    calc 2 ^ (25 + 25) * m ≤ 2 ^ 50 * 2 ^ bitLen m := Nat.mul_le_mul_left _ (lt_two_pow_bitLen m).le
      _ = 2 ^ (50 + bitLen m) := (pow_add ..).symm
      _ ≤ 2 ^ k := Nat.pow_le_pow_right two_pos hbig
  · rw [eq_div_iff hmr.ne']
    norm_cast

/-! ### The forms on finite operands -/

/-- A finite pattern of its own format is what it rounds to. -/
theorem roundsTo_self {f : Fmt} {x : Nat} (md : Rm) (h : finite f x) (hne : value f x ≠ 0) : RoundsTo f md (value f x) x := by
  have hx : x < 2 ^ fmtWidth f ∧ magOf f x < infMag f := (finite_iff f x).1 h
  have hc : (0 : ℝ) < 2 ^ ulpExp f := zpow_pos two_pos _
  have hY : (0 : ℝ) < units f (magOf f x) := by
    refine Nat.cast_pos.2 (Nat.pos_of_ne_zero fun h0 => hne ?_)
    rw [← Rat.cast_inj (α := ℝ), value_eq, h0]
    simp
  have := roundsTo_of_bracket (f := f) (md := md) (s := signOf f x) (p := magOf f x) (r := magOf f x) hY le_rfl
    (Nat.cast_lt.2 (units_strictMono f (Nat.lt_succ_self _))) hx.2 (fun ha => absurd (lt_of_roundsAway ha) (lt_irrefl _))
    fun _ => rfl
  rwa [← value_eq, ← eq_sign_mag hx.1] at this

/-- A zero is the zero pattern of its sign. -/
theorem eq_zeroPat {f : Fmt} {x : Nat} (hx : x < 2 ^ fmtWidth f) (h : value f x = 0) : x = zeroPat f (signOf f x) := by
  have h0 : magOf f x = 0 := by
    rw [← Rat.cast_inj (α := ℝ), value_eq, Rat.cast_zero, mul_eq_zero, mul_eq_zero] at h
    have h1 : sgn (signOf f x) ≠ 0 := by cases signOf f x <;> simp [sgn]
    have h2 : units f (magOf f x) = 0 := by
      exact_mod_cast (h.resolve_left h1).resolve_right (zpow_ne_zero _ two_ne_zero)
    by_contra hm
    have := units_strictMono f (Nat.pos_of_ne_zero hm)
    omega
  have := eq_sign_mag hx
  rwa [h0, Nat.add_zero, ← zeroPat_eq] at this

/-- A Boolean that says whether the sign of a pattern is minus is that sign; likewise of a product. -/
theorem eq_signOf {f : Fmt} {x : Nat} {b : Bool} (h : b = true ↔ negative f x) : b = signOf f x :=
  Bool.eq_iff_iff.2 (h.trans (negative_iff f x))
theorem eq_signOf_bne {f : Fmt} {x y : Nat} {b : Bool} (h : b = true ↔ ¬(negative f x ↔ negative f y)) :
    b = (signOf f x != signOf f y) := by
  rw [Bool.eq_iff_iff, h, negative_iff, negative_iff, bne_iff_ne, Ne, ← Bool.eq_iff_iff]

theorem roundInt_roundsTo (g : Fmt) (md : Rm) {v : ℤ} (hv : v ≠ 0) : RoundsTo g md (v : ℝ) (roundInt g md v).1 := by
  rw [roundInt, if_neg hv]
  have h := roundTo_exact g md (decide (v < 0)) (m := v.natAbs) (e := 0) (y := v) (by rw [exact_of_int]; simp) (by exact_mod_cast hv)
  exact_mod_cast h

section
variable {f : Fmt} (md : Rm) {s t : Bool} {m n : Nat} {d e : ℤ}

/-- FDIV and RCP of numbers that are not zero. -/
theorem divVal_roundsTo (hm : exact s m d ≠ 0) (hn : exact t n e ≠ 0) :
    RoundsTo f md ((exact s m d / exact t n e : ℚ) : ℝ) (divVal f md (.fin s m d) (.fin t n e)).1 := by
  rw [Ne, exact_eq_zero_iff] at hm hn
  have h := divFin_roundsTo f md (s != t) (d - e) hm hn
  rw [divVal, if_neg hn, if_neg hm]
  convert h using 1
  rw [Rat.cast_div, exact_cast, exact_cast, zpow_sub₀ two_ne_zero]
  cases s <;> cases t <;> simp [sgn] <;> field_simp

/-- SQRT and RSQ of a number above zero. -/
theorem sqrt_roundsTo {x : Nat} (hx : fval f x = .fin s m e) (hv : value f x = exact s m e) (hpos : 0 < value f x) :
    RoundsTo f md √(value f x) (fSqrt f md x).1 ∧ RoundsTo f md (1 / √(value f x)) (fRsq f md x).1 := by
  obtain ⟨hm, rfl⟩ := (exact_pos_iff ..).1 (hv ▸ hpos)
  have hy : (value f x : ℝ) = m * 2 ^ e := by rw [hv, exact_cast]; simp [sgn]
  rw [fSqrt, fRsq, hx, hy]
  dsimp only
  rw [if_neg hm, if_neg Bool.false_ne_true, if_neg hm, if_neg Bool.false_ne_true]
  refine ⟨?_, rsqFin_roundsTo f md hm ?_ ?_⟩
  · split
    · next he => exact sqrtFin_roundsTo f md hm he
    · next he =>
      have h := sqrtFin_roundsTo f md (m := 2 * m) (e := e - 1) (by omega) (by omega)
      rw [zpow_sub_one₀ two_ne_zero] at h
      convert h using 2
      push_cast
      ring
  · split <;> push_cast <;> omega
  · omega
end

section
variable {f : Fmt} (g : Fmt) (md : Rm) {a b c : Nat} (ha : finite f a)
include ha

theorem fRcp_finite (h : value f a ≠ 0) : RoundsTo f md ((1 / value f a : ℚ) : ℝ) (fRcp f md a).1 := by
  obtain ⟨m, e, fa, va, -⟩ := fval_of_finite ha
  have h1 : exact false 1 0 = 1 := by simp [exact]
  rw [va] at h
  rw [fRcp, fa, va, ← h1]
  exact divVal_roundsTo md (by rw [h1]; exact one_ne_zero) h

theorem fRoots_finite (h : 0 < value f a) :
    RoundsTo f md √(value f a) (fSqrt f md a).1 ∧ RoundsTo f md (1 / √(value f a)) (fRsq f md a).1 := by
  obtain ⟨m, e, fa, va, -⟩ := fval_of_finite ha
  exact sqrt_roundsTo md fa va h

/-- FCVT: a conversion into the same format changes nothing. -/
theorem fConvert_finite : (value f a ≠ 0 → RoundsTo g md (value f a) (fConvert g f md a).1) ∧
    (value f a = 0 → fConvert g f md a = (zeroPat g (signOf f a), 0)) := by
  obtain ⟨m, e, fa, va, -⟩ := fval_of_finite ha
  rw [fConvert, fa]
  dsimp only
  by_cases hg : g = f
  · rw [if_pos hg, hg]
    exact ⟨fun h => roundsTo_self md ha h, fun h => by rw [← eq_zeroPat ha.1 h]⟩
  · rw [if_neg hg]
    refine ⟨fun h => roundTo_exact g md _ va h, fun h => ?_⟩
    rw [va, exact_eq_zero_iff] at h
    rw [h, roundTo_zero]

variable (hb : finite f b)
include hb

theorem fAdd_finite : (value f a + value f b ≠ 0 → RoundsTo f md (value f a + value f b : ℚ) (fAdd f md a b).1) ∧
    (value f a + value f b = 0 →
      fAdd f md a b = (zeroPat f (if signOf f a = signOf f b then signOf f a else decide (md = .rm)), 0)) := by
  obtain ⟨ma, ea, fa, va, -⟩ := fval_of_finite ha
  obtain ⟨mb, eb, fb, vb, -⟩ := fval_of_finite hb
  rw [fAdd, fa, fb, va, vb]
  exact ⟨addFin_roundsTo f md, addFin_zero f md⟩

theorem fSub_finite : (value f a - value f b ≠ 0 → RoundsTo f md (value f a - value f b : ℚ) (fSub f md a b).1) ∧
    (value f a - value f b = 0 →
      fSub f md a b = (zeroPat f (if signOf f a = !signOf f b then signOf f a else decide (md = .rm)), 0)) := by
  obtain ⟨ma, ea, fa, va, -⟩ := fval_of_finite ha
  obtain ⟨mb, eb, fb, vb, -⟩ := fval_of_finite hb
  rw [fSub, fa, fb, va, vb, sub_eq_add_neg, ← exact_not]
  exact ⟨addFin_roundsTo f md, addFin_zero f md⟩

theorem fMul_finite : (value f a * value f b ≠ 0 → RoundsTo f md (value f a * value f b : ℚ) (fMul f md a b).1) ∧
    (value f a * value f b = 0 → fMul f md a b = (zeroPat f (signOf f a != signOf f b), 0)) := by
  obtain ⟨ma, ea, fa, va, -⟩ := fval_of_finite ha
  obtain ⟨mb, eb, fb, vb, -⟩ := fval_of_finite hb
  rw [fMul, fa, fb, va, vb, exact_mul]
  refine ⟨fun h => roundTo_exact f md _ rfl h, fun h => ?_⟩
  rw [mulVal, (exact_eq_zero_iff ..).1 h, roundTo_zero]

theorem fDiv_finite (hne : value f b ≠ 0) : (value f a ≠ 0 → RoundsTo f md (value f a / value f b : ℚ) (fDiv f md a b).1) ∧
    (value f a = 0 → fDiv f md a b = (zeroPat f (signOf f a != signOf f b), 0)) := by
  obtain ⟨ma, ea, fa, va, -⟩ := fval_of_finite ha
  obtain ⟨mb, eb, fb, vb, -⟩ := fval_of_finite hb
  rw [vb] at hne
  rw [fDiv, fa, fb, va, vb]
  refine ⟨fun h => divVal_roundsTo md h hne, fun h => ?_⟩
  rw [divVal, if_neg ((exact_eq_zero_iff ..).not.1 hne), if_pos ((exact_eq_zero_iff ..).1 h), zeroPat_eq]

theorem fFma_finite (hc : finite f c) :
    (value f a * value f b + value f c ≠ 0 → RoundsTo f md (value f a * value f b + value f c : ℚ) (fFma f md a b c).1) ∧
    (value f a * value f b + value f c = 0 → fFma f md a b c = (zeroPat f (if (signOf f a != signOf f b) = signOf f c then
      signOf f a != signOf f b else decide (md = .rm)), 0)) := by
  obtain ⟨ma, ea, fa, va, -⟩ := fval_of_finite ha
  obtain ⟨mb, eb, fb, vb, -⟩ := fval_of_finite hb
  obtain ⟨mc, ec, fc, vc, -⟩ := fval_of_finite hc
  have hfma : fFma f md a b c = addFin f md (signOf f a != signOf f b) (ma * mb) (ea + eb) (signOf f c) mc ec := by
    unfold fFma
    rw [fa, fb, fc]
    rfl
  rw [hfma, va, vb, vc, exact_mul]
  exact ⟨addFin_roundsTo f md, addFin_zero f md⟩
end

/-- Settles O14: each form hands its exact result to addFin, divFin, a root or roundTo, which round it or give R175's zero. -/
theorem finiteArithmeticIsExact : Obligations.FiniteArithmeticIsExact := by
  intro f g md a b c v ha hb hc
  have hadd := fAdd_finite md ha hb
  have hsub := fSub_finite md ha hb
  have hmul := fMul_finite md ha hb
  have hfma := fFma_finite md ha hb hc
  have hcvt := fConvert_finite g md ha
  refine ⟨hadd.1, hsub.1, fun h hs => ?_, fun h hs => ?_, fun sa hsa => ⟨fun h hs => ?_, fun h hs => ?_, fun h => ?_⟩,
    hmul.1, fun h => ⟨signOf f a != signOf f b, ?_, hmul.2 h⟩, hfma.1, fun sp sc hsp hsc => ⟨fun h => ?_, fun h hne => ?_⟩,
    fun h hne => (fDiv_finite md ha hb hne).1 h, fRcp_finite md ha, fun h => (fRoots_finite md ha h).1,
    fun h => (fRoots_finite md ha h).2, roundInt_roundsTo g md, rfl, hcvt.1⟩
  · rw [negative_iff, negative_iff] at hs
    rw [hadd.2 h, if_neg (by rw [Bool.eq_iff_iff, hs]; exact not_iff_self)]
  · rw [negative_iff, negative_iff, ← Bool.eq_iff_iff] at hs
    rw [hsub.2 h, if_neg (by rw [hs]; exact Bool.self_ne_not _)]
  · rw [negative_iff, negative_iff, ← Bool.eq_iff_iff] at hs
    rw [hadd.2 h, if_pos hs, eq_signOf hsa]
  · rw [negative_iff, negative_iff] at hs
    rw [hsub.2 h, if_pos (by rw [Bool.eq_iff_iff, hs, Bool.not_eq_true']; exact iff_of_eq (Bool.not_eq_true _)), eq_signOf hsa]
  · rw [hcvt.2 h, eq_signOf hsa]
  · rw [negative_iff, negative_iff, bne_iff_ne, Ne, Bool.eq_iff_iff]
  · rw [hfma.2 h, eq_signOf_bne hsp, eq_signOf hsc]
  · rw [(fDiv_finite md ha hb hne).2 h, eq_signOf_bne hsp]

end Sys2Proof.Machine

/-!
NaNs, infinities and zeros (O15; R108, R110, R175, R181): what a pattern of each kind is read as, and what each operation makes of
the kinds of its operands.
-/
namespace Sys2Proof.Machine
open Sys2Proof.Terms

/-! ### The kinds of patterns -/

theorem pattern_cases {f : Fmt} {x : Nat} (hx : x < 2 ^ fmtWidth f) : nanPat f x ∨ (∃ s, x = infPat f s) ∨ finite f x := by
  rcases Nat.lt_trichotomy (magOf f x) (infMag f) with h | h | h
  · exact .inr (.inr ((finite_iff f x).2 ⟨hx, h⟩))
  · exact .inr (.inl ⟨signOf f x, by rw [infPat_eq, infOf_eq, ← h]; exact eq_sign_mag hx⟩)
  · exact .inl ((nanPat_iff f x).2 ⟨hx, h⟩)

theorem fval_infPat (f : Fmt) (s : Bool) : fval f (infPat f s) = .inf s := by rw [infPat_eq, fval_infOf]
theorem fval_zeroOf (f : Fmt) (s : Bool) : fval f (zeroOf f s) = .fin s 0 (ulpExp f) := by cases f <;> cases s <;> rfl
theorem fval_zeroPat (f : Fmt) (s : Bool) : fval f (zeroPat f s) = .fin s 0 (ulpExp f) := by rw [zeroPat_eq, fval_zeroOf]

theorem signOf_infPat (f : Fmt) (s : Bool) : signOf f (infPat f s) = s := by
  rw [infPat_eq, infOf_eq, signOf_add (infMag_lt f)]

section
variable {f : Fmt} {x : Nat} (hx : x < 2 ^ fmtWidth f)
include hx

/-- The reading of a pattern tells NaNs and signalling NaNs, infinities and zeros. -/
theorem fval_isNaN_iff : (fval f x).isNaN = true ↔ nanPat f x := by
  obtain h | ⟨s, rfl⟩ | h := pattern_cases hx
  · obtain ⟨b, hb, -⟩ := fval_of_nan h
    exact iff_of_true (by rw [hb]; rfl) h
  · refine iff_of_false (by rw [fval_infPat]; exact Bool.false_ne_true) fun hn => ?_
    rw [nanPat_iff, infPat_eq, magOf_infOf] at hn
    exact lt_irrefl _ hn.2
  · obtain ⟨m, e, hv, -⟩ := fval_of_finite h
    exact iff_of_false (by rw [hv]; exact Bool.false_ne_true) fun hn => h.2 hn.2.1

theorem fval_isSig_iff : (fval f x).isSig = true ↔ sigPat f x := by
  by_cases h : nanPat f x
  · obtain ⟨b, hb, hs⟩ := fval_of_nan h
    rw [hb, ← hs]; rfl
  · refine iff_of_false (fun hs => h ((fval_isNaN_iff hx).1 ?_)) fun hs => h hs.1
    cases hv : fval f x with
    | nan b => rfl
    | inf s => rw [hv] at hs; exact absurd hs Bool.false_ne_true
    | fin s m e => rw [hv] at hs; exact absurd hs Bool.false_ne_true

theorem fval_eq_inf_iff (s : Bool) : fval f x = .inf s ↔ x = infPat f s := by
  refine ⟨fun h => ?_, fun h => by rw [h, fval_infPat]⟩
  obtain hn | ⟨t, rfl⟩ | hf := pattern_cases hx
  · obtain ⟨b, hb, -⟩ := fval_of_nan hn
    rw [hb] at h; nomatch h
  · rw [fval_infPat] at h; rw [FVal.inf.inj h]
  · obtain ⟨m, e, hv, -⟩ := fval_of_finite hf
    rw [hv] at h; nomatch h

theorem fval_eq_zero_iff (s : Bool) : (∃ e, fval f x = .fin s 0 e) ↔ x = zeroPat f s := by
  refine ⟨fun ⟨e, h⟩ => ?_, fun h => ⟨_, by rw [h, fval_zeroPat]⟩⟩
  obtain hn | ⟨t, rfl⟩ | hf := pattern_cases hx
  · obtain ⟨b, hb, -⟩ := fval_of_nan hn
    rw [hb] at h; nomatch h
  · rw [fval_infPat] at h; nomatch h
  · obtain ⟨m, e', hv, hval, -⟩ := fval_of_finite hf
    obtain ⟨hs, rfl, -⟩ := FVal.fin.inj (hv ▸ h)
    rw [← hs]
    exact eq_zeroPat hx (hval.trans ((exact_eq_zero_iff ..).2 rfl))
end

/-! ### NaN operands (R108) -/

/-- A NaN result is the canonical one, and raises NV for a signalling operand. -/
theorem nanRes_flag (f : Fmt) {b : Bool} {p : Prop} (h : b = true ↔ p) :
    ∃ fl : BitVec 5, (fl = 16 ↔ p) ∧ (fl = 16 ∨ fl = 0) ∧ nanRes f b = (quietPat f, fl) := by
  rw [← h, quietPat_eq]
  cases b
  · exact ⟨0, by decide, by decide, rfl⟩
  · exact ⟨16, by decide, by decide, rfl⟩

section
variable (f : Fmt) (md : Rm) {a b : FVal}

theorem addVal_nan (h : a.isNaN = true ∨ b.isNaN = true) : addVal f md a b = nanRes f (a.isSig || b.isSig) := by
  cases a <;> cases b <;> simp [FVal.isNaN] at h <;> simp [addVal, FVal.isSig]
theorem mulVal_nan (h : a.isNaN = true ∨ b.isNaN = true) : mulVal f md a b = nanRes f (a.isSig || b.isSig) := by
  cases a <;> cases b <;> simp [FVal.isNaN] at h <;> simp [mulVal, FVal.isSig]
theorem divVal_nan (h : a.isNaN = true ∨ b.isNaN = true) : divVal f md a b = nanRes f (a.isSig || b.isSig) := by
  cases a <;> cases b <;> simp [FVal.isNaN] at h <;> simp [divVal, FVal.isSig]
end

@[simp] theorem FVal.isNaN_neg (a : FVal) : a.neg.isNaN = a.isNaN := by cases a <;> rfl
@[simp] theorem FVal.isSig_neg (a : FVal) : a.neg.isSig = a.isSig := by cases a <;> rfl

/-- FADD, FSUB, FMUL and FDIV of a NaN. -/
theorem binary_nan {f : Fmt} (md : Rm) {a b : Nat} (ha : a < 2 ^ fmtWidth f) (hb : b < 2 ^ fmtWidth f)
    (h : nanPat f a ∨ nanPat f b) : ∃ fl : BitVec 5, (fl = 16 ↔ sigPat f a ∨ sigPat f b) ∧ (fl = 16 ∨ fl = 0) ∧
      fAdd f md a b = (quietPat f, fl) ∧ fSub f md a b = (quietPat f, fl) ∧ fMul f md a b = (quietPat f, fl) ∧
      fDiv f md a b = (quietPat f, fl) := by
  have hsig : ((fval f a).isSig || (fval f b).isSig) = true ↔ sigPat f a ∨ sigPat f b := by
    rw [Bool.or_eq_true, fval_isSig_iff ha, fval_isSig_iff hb]
  rw [← fval_isNaN_iff ha, ← fval_isNaN_iff hb] at h
  obtain ⟨fl, h1, h2, h3⟩ := nanRes_flag f hsig
  refine ⟨fl, h1, h2, ?_, ?_, ?_, ?_⟩
  · rw [fAdd, addVal_nan f md h, h3]
  · rw [fSub, addVal_nan f md (by rwa [FVal.isNaN_neg]), FVal.isSig_neg, h3]
  · rw [fMul, mulVal_nan f md h, h3]
  · rw [fDiv, divVal_nan f md h, h3]

/-- The forms of one operand of a NaN. -/
theorem unary_nan {f : Fmt} (g : Fmt) (md : Rm) {a : Nat} (h : nanPat f a) : ∃ fl : BitVec 5, (fl = 16 ↔ sigPat f a) ∧
    (fl = 16 ∨ fl = 0) ∧ fRcp f md a = (quietPat f, fl) ∧ fRsq f md a = (quietPat f, fl) ∧ fSqrt f md a = (quietPat f, fl) ∧
      fExp2 f md a = (quietPat f, fl) ∧ fLog2 f md a = (quietPat f, fl) ∧ fRnd f md a = (quietPat f, fl) ∧
      fConvert g f md a = (quietPat g, fl) := by
  obtain ⟨b, hb, hs⟩ := fval_of_nan h
  obtain ⟨fl, h1, h2, h3⟩ := nanRes_flag f hs
  have h4 : nanRes g b = (quietPat g, fl) := by
    rw [nanRes, (Prod.mk.inj h3).2, quietPat_eq]
  refine ⟨fl, h1, h2, ?_⟩
  rw [fRcp, fRsq, fSqrt, fExp2, fLog2, fRnd, fConvert, hb, ← h3, ← h4]
  exact ⟨congrArg (nanRes f) (Bool.or_false b), rfl, rfl, rfl, rfl, rfl, rfl⟩

/-! ### FFMA (R175) -/

/-- A product of zero and an infinity. -/
def zeroTimesInf : FVal → FVal → Bool
  | .inf _, .fin _ m _ => m == 0
  | .fin _ m _, .inf _ => m == 0
  | _, _ => false

/-- FFMA of NaNs or of zero times infinity. -/
theorem fFma_invalid (f : Fmt) (md : Rm) {a b c : Nat}
    (h : ((fval f a).isNaN || (fval f b).isNaN || (fval f c).isNaN || zeroTimesInf (fval f a) (fval f b)) = true) :
    fFma f md a b c =
      nanRes f ((fval f a).isSig || (fval f b).isSig || (fval f c).isSig || zeroTimesInf (fval f a) (fval f b)) := if_pos h

/-- FFMA of an infinite product. -/
theorem fFma_infinite (f : Fmt) (md : Rm) {a b c : Nat} {s t : Bool}
    (h : ((fval f a).isNaN || (fval f b).isNaN || (fval f c).isNaN || zeroTimesInf (fval f a) (fval f b)) = false)
    (hab : (fval f a = .inf s ∧ (fval f b = .inf t ∨ ∃ m e, fval f b = .fin t m e)) ∨
      (fval f b = .inf t ∧ ∃ m e, fval f a = .fin s m e)) :
    fFma f md a b c = addVal f md (.inf (s != t)) (fval f c) := by
  refine (if_neg (c := _ = true) (by rw [Bool.not_eq_true]; exact h)).trans ?_
  obtain ⟨ha, hb | ⟨m, e, hb⟩⟩ | ⟨hb, m, e, ha⟩ := hab <;> rw [ha, hb]

theorem zeroTimesInf_iff {f : Fmt} {a b : Nat} (ha : a < 2 ^ fmtWidth f) (hb : b < 2 ^ fmtWidth f) :
    zeroTimesInf (fval f a) (fval f b) = true ↔
      ∃ x y, (a = infPat f x ∧ b = zeroPat f y) ∨ (a = zeroPat f x ∧ b = infPat f y) := by
  constructor
  · intro h
    unfold zeroTimesInf at h
    split at h
    · next s t m e h1 h2 =>
      obtain rfl := beq_iff_eq.1 h
      exact ⟨s, t, .inl ⟨(fval_eq_inf_iff ha s).1 h1, (fval_eq_zero_iff hb t).1 ⟨e, h2⟩⟩⟩
    · next s m e t h1 h2 =>
      obtain rfl := beq_iff_eq.1 h
      exact ⟨s, t, .inr ⟨(fval_eq_zero_iff ha s).1 ⟨e, h1⟩, (fval_eq_inf_iff hb t).1 h2⟩⟩
    · exact absurd h Bool.false_ne_true
  · rintro ⟨x, y, ⟨rfl, rfl⟩ | ⟨rfl, rfl⟩⟩ <;> rw [fval_infPat, fval_zeroPat] <;> rfl

/-- A pattern that is no NaN is read as an infinity or as a number of its sign. -/
theorem fval_of_not_nan {f : Fmt} {y : Nat} (hy : y < 2 ^ fmtWidth f) (hn : ¬(fval f y).isNaN = true) :
    fval f y = .inf (signOf f y) ∨ ∃ m e, fval f y = .fin (signOf f y) m e := by
  obtain h | ⟨s, h⟩ | h := pattern_cases hy
  · exact absurd ((fval_isNaN_iff hy).2 h) hn
  · rw [h, fval_infPat, signOf_infPat]; exact .inl rfl
  · obtain ⟨m, e, h, -⟩ := fval_of_finite h
    exact .inr ⟨m, e, h⟩

/-- The sum of an infinity and what is no NaN (R175). -/
theorem addVal_inf {f : Fmt} (md : Rm) (s : Bool) {c : Nat} (hc : c < 2 ^ fmtWidth f) (hn : ¬(fval f c).isNaN = true) :
    addVal f md (.inf s) (fval f c) = if c = infPat f !s then (quietPat f, 16) else (infPat f s, 0) := by
  split
  · next h => rw [h, fval_infPat, addVal, if_neg (Bool.self_ne_not _), quietPat_eq]; rfl
  · next h =>
    rw [← fval_eq_inf_iff hc] at h
    rw [infPat_eq]
    cases hv : fval f c with
    | nan y => rw [hv] at hn; exact absurd rfl hn
    | inf t =>
      rw [hv] at h
      rw [addVal, if_pos]
      by_contra hne
      exact h (congrArg FVal.inf (Bool.eq_not_of_ne (Ne.symm hne)))
    | fin t m e => rfl

theorem fFma_special {f : Fmt} (md : Rm) {a b c : Nat} (ha : a < 2 ^ fmtWidth f) (hb : b < 2 ^ fmtWidth f)
    (hc : c < 2 ^ fmtWidth f) :
    let invalid : Prop := ∃ x y, (a = infPat f x ∧ b = zeroPat f y) ∨ (a = zeroPat f x ∧ b = infPat f y)
    let noNaN : Prop := ¬nanPat f a ∧ ¬nanPat f b ∧ ¬nanPat f c
    (¬noNaN ∨ invalid → ∃ fl : BitVec 5, (fl = 16 ↔ sigPat f a ∨ sigPat f b ∨ sigPat f c ∨ invalid) ∧ (fl = 16 ∨ fl = 0) ∧
      fFma f md a b c = (quietPat f, fl)) ∧
    (noNaN → ¬invalid → (∃ x, a = infPat f x ∨ b = infPat f x) → ∀ sp : Bool, (sp = true ↔ ¬(negative f a ↔ negative f b)) →
      fFma f md a b c = if c = infPat f !sp then (quietPat f, 16) else (infPat f sp, 0)) ∧
    (finite f a → finite f b → ∀ x, c = infPat f x → fFma f md a b c = (infPat f x, 0)) := by
  dsimp only
  rw [← zeroTimesInf_iff ha hb, ← fval_isNaN_iff ha, ← fval_isNaN_iff hb, ← fval_isNaN_iff hc, ← fval_isSig_iff ha,
    ← fval_isSig_iff hb, ← fval_isSig_iff hc]
  refine ⟨fun h => ?_, fun ⟨na, nb, nc⟩ hi ⟨x, hx⟩ sp hsp => ?_, fun fa fb x hx => ?_⟩
  · have hn : ((fval f a).isNaN || (fval f b).isNaN || (fval f c).isNaN || zeroTimesInf (fval f a) (fval f b)) = true := by
      simp only [Bool.or_eq_true]
      tauto
    obtain ⟨fl, h1, h2, h3⟩ := nanRes_flag f (b := (fval f a).isSig || (fval f b).isSig || (fval f c).isSig ||
      zeroTimesInf (fval f a) (fval f b)) Iff.rfl
    refine ⟨fl, h1.trans ?_, h2, (fFma_invalid f md hn).trans h3⟩
    simp only [Bool.or_eq_true]
    tauto
  · have hn : ((fval f a).isNaN || (fval f b).isNaN || (fval f c).isNaN || zeroTimesInf (fval f a) (fval f b)) = false := by
      simp only [Bool.or_eq_false_iff]
      simp only [Bool.not_eq_true] at na nb nc hi
      exact ⟨⟨⟨na, nb⟩, nc⟩, hi⟩
    obtain rfl := eq_signOf_bne hsp
    have hinf : fFma f md a b c = addVal f md (.inf (signOf f a != signOf f b)) (fval f c) := by
      refine fFma_infinite f md hn ?_
      obtain rfl | rfl := hx
      · refine .inl ⟨by rw [fval_infPat, signOf_infPat], fval_of_not_nan hb nb⟩
      · rcases fval_of_not_nan ha na with h | h
        · exact .inl ⟨h, fval_of_not_nan hb nb⟩
        · exact .inr ⟨by rw [fval_infPat, signOf_infPat], h⟩
    rw [hinf]
    exact addVal_inf md _ hc nc
  · subst hx
    obtain ⟨ma, ea, va, -⟩ := fval_of_finite fa
    obtain ⟨mb, eb, vb, -⟩ := fval_of_finite fb
    unfold fFma
    rw [va, vb, fval_infPat, infPat_eq]
    rfl

/-! ### Infinities and zeros (R175, R181) -/

/-- Operations of an infinity and a finite number. -/
theorem inf_finite {f : Fmt} (md : Rm) {a : Nat} (ha : finite f a) (x : Bool) :
    fAdd f md (infPat f x) a = (infPat f x, 0) ∧ fAdd f md a (infPat f x) = (infPat f x, 0) ∧
      fSub f md (infPat f x) a = (infPat f x, 0) ∧ fSub f md a (infPat f x) = (infPat f !x, 0) ∧
      ∀ neg : Bool, (neg = true ↔ ¬(negative f a ↔ x = true)) → fDiv f md (infPat f x) a = (infPat f neg, 0) ∧
        (value f a ≠ 0 → fMul f md (infPat f x) a = (infPat f neg, 0) ∧ fMul f md a (infPat f x) = (infPat f neg, 0)) ∧
        (value f a = 0 → fMul f md (infPat f x) a = (quietPat f, 16) ∧ fMul f md a (infPat f x) = (quietPat f, 16)) := by
  obtain ⟨m, e, va, hv, -⟩ := fval_of_finite ha
  rw [fAdd, fAdd, fSub, fSub, fval_infPat, va, hv, infPat_eq, infPat_eq]
  refine ⟨rfl, rfl, rfl, rfl, fun neg hneg => ?_⟩
  have hs : neg = (signOf f a != x) := by
    rw [Bool.eq_iff_iff, hneg, negative_iff, bne_iff_ne, Ne, ← Bool.eq_iff_iff]
  rw [fDiv, fMul, fMul, fval_infOf, va, infPat_eq, quietPat_eq, hs, Ne, exact_eq_zero_iff]
  refine ⟨by rw [divVal, bne_comm], fun h => ⟨?_, ?_⟩, fun h => ⟨if_pos h, if_pos h⟩⟩
  · rw [mulVal, if_neg h, bne_comm]
  · rw [mulVal, if_neg h]

/-- Division of a number that is not zero by a zero or an infinity. -/
theorem div_special {f : Fmt} (md : Rm) {a : Nat} (ha : finite f a) (hne : value f a ≠ 0) {x neg : Bool}
    (hneg : neg = true ↔ ¬(negative f a ↔ x = true)) :
    fDiv f md a (zeroPat f x) = (infPat f neg, 8) ∧ fDiv f md a (infPat f x) = (zeroPat f neg, 0) := by
  obtain ⟨m, e, va, hv, -⟩ := fval_of_finite ha
  have hs : neg = (signOf f a != x) := by
    rw [Bool.eq_iff_iff, hneg, negative_iff, bne_iff_ne, Ne, ← Bool.eq_iff_iff]
  rw [hv, Ne, exact_eq_zero_iff] at hne
  rw [fDiv, fDiv, fval_infPat, fval_zeroPat, va, infPat_eq, zeroPat_eq, hs]
  exact ⟨if_neg hne, rfl⟩

/-- Roots and logarithm of a number below zero. -/
theorem roots_negative {f : Fmt} (md : Rm) {a : Nat} (ha : finite f a) (hlt : value f a < 0) :
    fSqrt f md a = (quietPat f, 16) ∧ fRsq f md a = (quietPat f, 16) ∧ fLog2 f md a = (quietPat f, 16) := by
  obtain ⟨m, e, va, hv, -⟩ := fval_of_finite ha
  have hm : m ≠ 0 := fun h => hlt.ne (hv.trans ((exact_eq_zero_iff ..).2 h))
  have hs : signOf f a = true := by
    by_contra hs
    rw [Bool.not_eq_true] at hs
    exact absurd ((exact_pos_iff ..).2 ⟨hm, hs⟩) (by rw [← hv]; exact hlt.not_gt)
  rw [fSqrt, fRsq, fLog2, va, quietPat_eq, hs]
  exact ⟨(if_neg hm).trans (if_pos rfl), (if_neg hm).trans (if_pos rfl), (if_neg hm).trans (if_pos rfl)⟩

theorem value_oneOf (f : Fmt) : value f (oneOf f) = 1 := by
  obtain ⟨B, hB⟩ := Nat.exists_eq_succ_of_ne_zero (expBias_pos f).ne'
  have hone : oneOf f = zeroOf f false + (B * 2 ^ fracBits f + 2 ^ fracBits f) := by
    rw [oneOf, hB, Nat.succ_mul, zeroOf, if_neg Bool.false_ne_true, Nat.zero_add]
  have hlt : B * 2 ^ fracBits f + 2 ^ fracBits f < signBit f := by
    rw [← Nat.succ_mul, ← hB]; cases f <;> decide
  rw [← Rat.cast_inj (α := ℝ), value_eq_seen f false, hone, seen_add hlt, units_add (by omega) (.inr le_rfl), ulpExp, hB]
  push_cast
  rw [← zpow_natCast, ← zpow_natCast, ← zpow_add₀ two_ne_zero, ← zpow_add₀ two_ne_zero, sgn]
  ring_nf
  simp

/-- Operations of infinities and zeros alone. -/
theorem inf_zero (f : Fmt) (md : Rm) (x : Bool) : fAdd f md (infPat f x) (infPat f x) = (infPat f x, 0) ∧
      fAdd f md (infPat f x) (infPat f !x) = (quietPat f, 16) ∧
      fSub f md (infPat f x) (infPat f x) = (quietPat f, 16) ∧
      fMul f md (infPat f x) (zeroPat f false) = (quietPat f, 16) ∧
      fDiv f md (infPat f x) (infPat f false) = (quietPat f, 16) ∧
      fDiv f md (zeroPat f x) (zeroPat f false) = (quietPat f, 16) ∧
      fRsq f md (zeroPat f x) = (infPat f x, 8) ∧ fRcp f md (zeroPat f x) = (infPat f x, 8) ∧
      fSqrt f md (zeroPat f x) = (zeroPat f x, 0) ∧ fLog2 f md (zeroPat f x) = (infPat f true, 8) ∧
      value f (fExp2 f md (zeroPat f x)).1 = 1 ∧ (fExp2 f md (zeroPat f x)).2 = 0 ∧
      fRcp f md (infPat f x) = (zeroPat f x, 0) := by
  have hexp : fExp2 f md (zeroPat f x) = (oneOf f, 0) := by rw [fExp2, fval_zeroPat]; rfl
  rw [hexp, fAdd, fAdd, fSub, fMul, fDiv, fDiv, fRsq, fRcp, fRcp, fSqrt, fLog2]
  simp only [infPat_eq, zeroPat_eq, quietPat_eq, fval_infOf, fval_zeroOf, FVal.neg, addVal, mulVal, divVal]
  refine ⟨if_pos trivial, if_neg (Bool.self_ne_not x), if_neg (Bool.self_ne_not x), rfl, rfl, rfl, rfl, ?_, rfl, rfl, value_oneOf f, trivial, ?_⟩
  · simp; rfl
  · simp

/-- Settles O15: each clause is read off the kinds of the operands. -/
theorem floatSpecialCases : Obligations.FloatSpecialCases := by
  intro f g md a b ha hb
  refine ⟨binary_nan md ha hb, fun c hc => fFma_special md ha hb hc, fun h => inf_finite md h, fun x y => ?_, unary_nan g md,
    inf_zero f md, fun h hne x neg => div_special md h hne, roots_negative md, ?_⟩
  · rw [fMul, fval_infPat, fval_infPat, infPat_eq]; rfl
  · simp only [fRsq, fSqrt, fExp2, fLog2, infPat_eq, fval_infOf, quietPat_eq]
    exact ⟨rfl, rfl, rfl, rfl, rfl, rfl, rfl, rfl⟩

end Sys2Proof.Machine

/-!
Selection, comparison, rounding to an integer and classes (O16; R111, R176 to R180).
-/
namespace Sys2Proof.Machine
open Sys2Proof.Terms

/-! ### Order of values (R176, R177) -/

theorem value_lt_seen (f : Fmt) (a b : Nat) : value f a < value f b ↔ seen f false a < seen f false b := by
  rw [← not_le, value_le_value_iff f false, if_neg Bool.false_ne_true, not_le]

/-- Values are ordered as their signed magnitudes are. -/
theorem value_lt_iff (f : Fmt) (a b : Nat) : value f a < value f b ↔ cmpKey f a < cmpKey f b := by
  have key : ∀ x, seen f false x = (if signOf f x then -1 else 1) * units f (magOf f x) := fun x => by
    rw [seen]; simp [sgn]
  have hm : ∀ x, cmpKey f x = if signOf f x then -(magOf f x : ℤ) else magOf f x := fun _ => rfl
  have hu := (units_strictMono f)
  rw [value_lt_seen, key, key, hm, hm]
  generalize magOf f a = p
  generalize magOf f b = q
  have hpq : (units f p : ℝ) < units f q ↔ p < q := by rw [Nat.cast_lt, hu.lt_iff_lt]
  have hqp : (units f q : ℝ) < units f p ↔ q < p := by rw [Nat.cast_lt, hu.lt_iff_lt]
  have hz : ∀ n, (units f n : ℝ) = 0 ↔ n = 0 := fun n => by
    rw [Nat.cast_eq_zero]
    exact ⟨fun h => hu.injective (h.trans (units_zero f).symm), fun h => by rw [h, units_zero]⟩
  have h0 : ∀ n, (0 : ℝ) ≤ units f n := fun n => Nat.cast_nonneg _
  cases signOf f a <;> cases signOf f b <;>
    simp only [Bool.false_eq_true, if_true, if_false, one_mul, neg_mul, neg_lt_neg_iff, hpq, hqp, Nat.cast_lt]
  · exact iff_of_false (by have := h0 p; have := h0 q; linarith) (by omega)
  · constructor
    · intro h
      by_contra hn
      obtain ⟨rfl, rfl⟩ : p = 0 ∧ q = 0 := by omega
      simp at h
    · intro h
      have hne : ¬((units f p : ℝ) = 0 ∧ (units f q : ℝ) = 0) := by rw [hz, hz]; omega
      have hp := h0 p
      have hq := h0 q
      by_contra hn
      exact hne ⟨by linarith, by linarith⟩

theorem value_eq_iff (f : Fmt) (a b : Nat) : value f a = value f b ↔ cmpKey f a = cmpKey f b := by
  have h1 := value_lt_iff f a b
  have h2 := value_lt_iff f b a
  rw [eq_iff_le_not_lt, eq_iff_le_not_lt, ← not_lt, h1, h2, not_lt]

theorem value_le_iff_cmpKey (f : Fmt) (a b : Nat) : value f a ≤ value f b ↔ cmpKey f a ≤ cmpKey f b := by
  rw [← not_lt, value_lt_iff, not_lt]

/-- Of two patterns the lesser value comes first, and of equal ones a negative zero. -/
theorem ordKey_lt_or_eq {f : Fmt} {a b : Nat} (ha : a < 2 ^ fmtWidth f) (hb : b < 2 ^ fmtWidth f)
    (h : value f a < value f b ∨ (value f a = value f b ∧ negative f a)) : ordKey f a < ordKey f b ∨ a = b := by
  rw [value_lt_iff, value_eq_iff, negative_iff] at h
  have ho : ∀ x, ordKey f x = if signOf f x then -(magOf f x : ℤ) - 1 else magOf f x := fun _ => rfl
  have hm : ∀ x, cmpKey f x = if signOf f x then -(magOf f x : ℤ) else magOf f x := fun _ => rfl
  rw [hm, hm] at h
  rw [ho, ho]
  have heq : signOf f a = signOf f b → magOf f a = magOf f b → a = b := fun h1 h2 => by
    rw [eq_sign_mag ha, eq_sign_mag hb, h1, h2]
  cases hsa : signOf f a <;> cases hsb : signOf f b <;>
    simp only [hsa, hsb, Bool.false_eq_true, if_true, if_false, and_false, and_true, or_false] at h heq ⊢
  · exact .inl h
  · exact .inl (by omega)
  · exact .inl (by omega)
  · obtain h | h := h
    · exact .inl (by omega)
    · exact .inr (heq trivial (by omega))

/-- An operation raises NV alone, where it raises a flag. -/
theorem nvFlag_iff (b : Bool) : (if b then flagNV else 0) = 16 ↔ b = true := by cases b <;> decide

section
variable {f : Fmt} {a b : Nat} (ha : a < 2 ^ fmtWidth f) (hb : b < 2 ^ fmtWidth f)
include ha hb

/-- FMIN and FMAX of numbers. -/
theorem fMinMax_numbers (na : ¬nanPat f a) (nb : ¬nanPat f b) (mx : Bool) :
    fMinMax f mx a b = (if decide (ordKey f a < ordKey f b) != mx then a else b, 0) := by
  have h1 : (fval f a).isNaN = false := Bool.eq_false_iff.2 fun h => na ((fval_isNaN_iff ha).1 h)
  have h2 : (fval f b).isNaN = false := Bool.eq_false_iff.2 fun h => nb ((fval_isNaN_iff hb).1 h)
  have h3 : (fval f a).isSig = false := Bool.eq_false_iff.2 fun h => na ((fval_isSig_iff ha).1 h).1
  have h4 : (fval f b).isSig = false := Bool.eq_false_iff.2 fun h => nb ((fval_isSig_iff hb).1 h).1
  unfold fMinMax
  dsimp only
  rw [h1, h2, h3, h4]
  cases decide (ordKey f a < ordKey f b) <;> cases mx <;> rfl

theorem fMinMax_ordered (na : ¬nanPat f a) (nb : ¬nanPat f b)
    (h : value f a < value f b ∨ (value f a = value f b ∧ negative f a)) :
    fMinMax f false a b = (a, 0) ∧ fMinMax f false b a = (a, 0) ∧ fMinMax f true a b = (b, 0) ∧ fMinMax f true b a = (b, 0) := by
  rw [fMinMax_numbers ha hb na nb, fMinMax_numbers ha hb na nb, fMinMax_numbers hb ha nb na, fMinMax_numbers hb ha nb na]
  obtain h | rfl := ordKey_lt_or_eq ha hb h
  · rw [decide_eq_true h, decide_eq_false h.not_gt]
    exact ⟨rfl, rfl, rfl, rfl⟩
  · simp

/-- FMIN and FMAX of a NaN and a number, and of two NaNs. -/
theorem fMinMax_nan_number (na : nanPat f a) (nb : ¬nanPat f b) (mx : Bool) :
    (fMinMax f mx a b).1 = b ∧ (fMinMax f mx b a).1 = b ∧ ((fMinMax f mx a b).2 = 16 ↔ sigPat f a) := by
  have h1 : (fval f a).isNaN = true := (fval_isNaN_iff ha).2 na
  have h2 : (fval f b).isNaN = false := Bool.eq_false_iff.2 fun h => nb ((fval_isNaN_iff hb).1 h)
  have h4 : (fval f b).isSig = false := Bool.eq_false_iff.2 fun h => nb ((fval_isSig_iff hb).1 h).1
  unfold fMinMax
  dsimp only
  rw [h1, h2, h4, ← fval_isSig_iff ha, Bool.or_false]
  exact ⟨rfl, rfl, nvFlag_iff _⟩

theorem fMinMax_nans (na : nanPat f a) (nb : nanPat f b) (mx : Bool) : (fMinMax f mx a b).1 = quietPat f := by
  unfold fMinMax
  dsimp only
  rw [(fval_isNaN_iff ha).2 na, (fval_isNaN_iff hb).2 nb, quietPat_eq]
  rfl

/-- A comparison of numbers holds as their values do; an unordered one is true under .NE and .UN alone. -/
theorem fCmp_numbers (cmp : FCmp) (na : ¬nanPat f a) (nb : ¬nanPat f b) :
    ((fCmp f cmp a b).1 = true ↔ holdsNum cmp (value f a) (value f b)) ∧ (fCmp f cmp a b).2 = 0 := by
  have h1 : (fval f a).isNaN = false := Bool.eq_false_iff.2 fun h => na ((fval_isNaN_iff ha).1 h)
  have h2 : (fval f b).isNaN = false := Bool.eq_false_iff.2 fun h => nb ((fval_isNaN_iff hb).1 h)
  have h3 : (fval f a).isSig = false := Bool.eq_false_iff.2 fun h => na ((fval_isSig_iff ha).1 h).1
  have h4 : (fval f b).isSig = false := Bool.eq_false_iff.2 fun h => nb ((fval_isSig_iff hb).1 h).1
  unfold fCmp
  dsimp only
  rw [h1, h2, h3, h4]
  cases cmp <;>
    simp [holdsNum, value_eq_iff, value_lt_iff, value_le_iff_cmpKey]

theorem fCmp_unordered (cmp : FCmp) (h : nanPat f a ∨ nanPat f b) : (fCmp f cmp a b).1 = decide (cmp = .ne ∨ cmp = .un) ∧
    ((fCmp f cmp a b).2 = 16 ↔ sigPat f a ∨ sigPat f b ∨ cmp ∈ [FCmp.lt, .le, .gt, .ge]) := by
  have hun : ((fval f a).isNaN || (fval f b).isNaN) = true := by
    rw [Bool.or_eq_true, fval_isNaN_iff ha, fval_isNaN_iff hb]; exact h
  rw [← or_assoc, ← fval_isSig_iff ha, ← fval_isSig_iff hb, ← Bool.or_eq_true]
  unfold fCmp
  dsimp only
  rw [hun]
  generalize ((fval f a).isSig || (fval f b).isSig) = sig
  cases cmp <;> simp [flagNV]
end

/-! ### Rounding to an integer (R111, R179, R180) -/

theorem intOf_intCast (md : Rm) (n : ℤ) : intOf md n = n := by
  cases md <;> simp [intOf]

/-- To nearest, from the integer part of a number of either sign. -/
theorem intOf_rn {t : ℚ} {h : Nat} (s : Bool) (h1 : (h : ℚ) < t) (h2 : t < h + 1) :
    intOf .rn (if s then -t else t) =
      (if s then -1 else 1) * if (2 * h + 1 : ℚ) < 2 * t ∨ ((2 * h + 1 : ℚ) = 2 * t ∧ h % 2 = 1) then (h + 1 : ℤ) else h := by
  have hfl : ⌊t⌋ = h := Int.floor_eq_iff.2 ⟨by exact_mod_cast h1.le, by exact_mod_cast h2⟩
  have hce : ⌈t⌉ = h + 1 := Int.ceil_eq_iff.2 ⟨by push_cast; linarith, by push_cast; linarith⟩
  unfold intOf
  cases s
  · simp only [Bool.false_eq_true, if_false, hfl, one_mul, Int.cast_natCast]
    rcases lt_trichotomy (t - h) (1 / 2) with g | g | g
    · rw [if_pos g, if_neg (by rintro (k | ⟨k, -⟩) <;> linarith)]
    · rw [if_neg (by linarith), if_neg (by linarith)]
      split
      · next k => rw [if_neg (by rintro (k' | ⟨-, k'⟩) <;> [linarith; omega])]
      · next k => rw [if_pos (.inr ⟨by linarith, by omega⟩)]
    · rw [if_neg (by linarith), if_pos g, if_pos (.inl (by linarith))]
  · simp only [if_true, Int.floor_neg, hce, Int.cast_neg, Int.cast_add, Int.cast_natCast, Int.cast_one]
    rcases lt_trichotomy (t - h) (1 / 2) with g | g | g
    · rw [if_neg (by linarith), if_pos (by linarith), if_neg (by rintro (k | ⟨k, -⟩) <;> linarith)]
      ring
    · rw [if_neg (by linarith), if_neg (by linarith)]
      split
      · next k => rw [if_pos (.inr ⟨by linarith, by omega⟩)]; ring
      · next k =>
        rw [if_neg (by rintro (k' | ⟨-, k'⟩) <;> [linarith; omega])]
        ring
    · rw [if_pos (by linarith), if_pos (.inl (by linarith))]
      ring

/-- The integer a mode rounds to, from the integer part of the magnitude (R111). -/
theorem intOf_of_position (md : Rm) (s : Bool) {t : ℚ} {h r : Nat} (h1 : (h : ℚ) ≤ t) (h2 : t < h + 1)
    (hup : cutsAway md s t h → r = h + 1) (hdn : ¬cutsAway md s t h → r = h) :
    intOf md (if s then -t else t) = if s then -(r : ℤ) else r := by
  have hlt : ((h : ℝ) < (t : ℚ)) ↔ (h : ℚ) < t := by norm_cast
  obtain hlt' | rfl := h1.lt_or_eq
  · have hfl : ⌊t⌋ = h := Int.floor_eq_iff.2 ⟨by exact_mod_cast h1, by exact_mod_cast h2⟩
    have hce : ⌈t⌉ = h + 1 := Int.ceil_eq_iff.2 ⟨by push_cast; linarith, by push_cast; linarith⟩
    have hpos : 0 < t := (Nat.cast_nonneg h).trans_lt hlt'
    cases md
    case rn =>
      have hrn : cutsAway .rn s t h ↔ (2 * h + 1 : ℚ) < 2 * t ∨ ((2 * h + 1 : ℚ) = 2 * t ∧ h % 2 = 1) := by
        unfold cutsAway; norm_cast
      rw [intOf_rn s hlt' h2]
      by_cases ha : cutsAway .rn s t h
      · rw [if_pos (hrn.1 ha), hup ha]; cases s <;> simp
      · rw [if_neg (fun k => ha (hrn.2 k)), hdn ha]; cases s <;> simp
    case rz =>
      rw [hdn not_false]
      cases s
      · exact (if_pos hpos.le).trans hfl
      · exact (if_neg (by simpa using hpos)).trans (by rw [if_pos rfl, if_pos rfl, Int.ceil_neg, hfl])
    case rp =>
      cases s
      · rw [hup ⟨rfl, hlt.2 hlt'⟩]; exact hce
      · rw [hdn fun k => Bool.noConfusion k.1]; exact Int.ceil_neg.trans (by rw [hfl]; rfl)
    case rm =>
      cases s
      · rw [hdn fun k => Bool.noConfusion k.1]; exact hfl
      · rw [hup ⟨rfl, hlt.2 hlt'⟩]; exact Int.floor_neg.trans (by rw [hce]; rfl)
  · have hn : ¬cutsAway md s ((h : ℚ) : ℝ) h := by
      rw [Rat.cast_natCast]
      cases md
      · rintro (k | ⟨k, -⟩) <;> linarith
      · exact not_false
      · exact fun k => lt_irrefl _ k.2
      · exact fun k => lt_irrefl _ k.2
    rw [hdn hn]
    have := intOf_intCast md (if s then -(h : ℤ) else h)
    cases s <;> simpa using this

/-- Cutting a number to its integer part under a mode gives the integer the mode rounds to, and tells whether it is another one. -/
theorem cutTo_intOf (md : Rm) (s : Bool) (m : Nat) (e : ℤ) :
    (if s then -((cutTo md s m e 0).1 : ℤ) else (cutTo md s m e 0).1) = intOf md (exact s m e) ∧
      ((cutTo md s m e 0).2 = true ↔ exact s m e ≠ intOf md (exact s m e)) := by
  have hy : exact s m e = if s then -(m * 2 ^ e : ℚ) else m * 2 ^ e := by unfold exact; cases s <;> simp
  have hcast : ((m * 2 ^ e : ℚ) : ℝ) = m * 2 ^ e := by push_cast; rfl
  obtain ⟨h, ⟨h1, h2⟩, hup, hdn, hix⟩ := cutTo_spec md s (m := m) (e := e) (q := 0) (t := (m * 2 ^ e : ℚ))
    (.inl (by rw [hcast, zpow_zero, mul_one]))
  have hix := hix (by rw [hcast, zpow_zero, mul_one])
  generalize (m * 2 ^ e : ℚ) = t at *
  have g1 : (h : ℚ) ≤ t := by exact_mod_cast h1
  have g2 : t < h + 1 := by exact_mod_cast h2
  have hint := intOf_of_position md s g1 g2 hup hdn
  rw [← hy] at hint
  refine ⟨hint.symm, ?_⟩
  have hr : exact s m e = intOf md (exact s m e) ↔ t = (cutTo md s m e 0).1 := by
    rw [hint, hy]; cases s <;> simp
  rw [hix, Ne, hr]
  constructor
  · intro hlt heq
    have hlt' : (h : ℚ) < t := by exact_mod_cast hlt
    by_cases ha : cutsAway md s t h
    · rw [hup ha] at heq; push_cast at heq; linarith
    · rw [hdn ha] at heq; linarith
  · intro hne
    by_contra hlt
    have heq : (t : ℝ) = h := le_antisymm (not_lt.1 hlt) h1
    refine hne ?_
    rw [hdn fun ha => ?_]
    · exact_mod_cast heq
    · rw [heq] at ha
      cases md
      · obtain k | ⟨k, -⟩ := ha <;> linarith
      · exact ha
      · exact lt_irrefl _ ha.2
      · exact lt_irrefl _ ha.2

/-- The integer part of a number with bits below the point has no more bits than a fraction has, and one. -/
theorem cutTo_le {md : Rm} {s : Bool} {m N : Nat} {e : ℤ} (he : e < 0) (hm : m < 2 * N) : (cutTo md s m e 0).1 ≤ N := by
  obtain ⟨h, ⟨h1, -⟩, hup, hdn, -⟩ := cutTo_spec md s (m := m) (e := e) (q := 0) (t := m * 2 ^ e) (.inl (by rw [zpow_zero, mul_one]))
  have hlt : h < N := by
    have h3 : (2 : ℝ) ^ e ≤ 2 ^ (-1 : ℤ) := zpow_le_zpow_right₀ one_le_two (by omega)
    have h4 : (m : ℝ) < 2 * N := by exact_mod_cast hm
    have h5 : (m : ℝ) * 2 ^ e ≤ m * 2 ^ (-1 : ℤ) := mul_le_mul_of_nonneg_left h3 (Nat.cast_nonneg m)
    rw [zpow_neg_one] at h5
    have : (h : ℝ) < N := by linarith
    exact_mod_cast this
  by_cases ha : cutsAway md s (m * 2 ^ e) h
  · rw [hup ha]; exact hlt
  · rw [hdn ha]; exact hlt.le

/-- A mantissa of a format scaled by a power of two is a magnitude of the format, if it is not too large. -/
theorem exists_units_eq (f : Fmt) (k : Nat) {m : Nat} (hm : m ≤ 2 * 2 ^ fracBits f) : ∃ p, units f p = m * 2 ^ k := by
  induction k generalizing m with
  | zero => exact ⟨m, by simpa using units_add (k := 0) hm (.inl rfl)⟩
  | succ k ih =>
    rcases Nat.lt_or_ge m (2 ^ fracBits f) with h | h
    · obtain ⟨p, hp⟩ := ih (m := 2 * m) (by omega)
      exact ⟨p, by rw [hp, pow_succ]; ring⟩
    · exact ⟨_, units_add hm (.inr h)⟩

/-- A number that is a magnitude of the format is rounded to it. -/
theorem roundTo_of_units {f : Fmt} {m p : Nat} {e : ℤ} (md : Rm) (s : Bool) (hm : 0 < m) (hp : p < infMag f)
    (h : (units f p : ℝ) * 2 ^ ulpExp f = m * 2 ^ e) : (roundTo f md s m e).1 = zeroOf f s + p := by
  obtain ⟨q, r, hr⟩ := exists_rounding f md s (Y := units f p) hm (.inl h)
  have h1 : q ≤ p := (units_strictMono f).le_iff_le.1 (Nat.cast_le.1 hr.lower)
  have h2 : p < q + 1 := (units_strictMono f).lt_iff_lt.1 (Nat.cast_lt.1 hr.upper)
  obtain rfl : q = p := by omega
  have h3 := hr.toward fun ha => lt_irrefl _ (lt_of_roundsAway ha)
  rw [hr.result, h3, if_neg (Nat.not_le.2 hp)]

/-- An integer within the fraction of a format is rounded to itself. -/
theorem value_roundTo_int {f : Fmt} {n : Nat} (md : Rm) (s : Bool) (h0 : 0 < n) (hn : n ≤ 2 ^ fracBits f) :
    value f (roundTo f md s n 0).1 = exact s n 0 ∧ signOf f (roundTo f md s n 0).1 = s := by
  have hB := expBias_pos f
  have hF : fracBits f ≤ expBias f := by cases f <;> decide
  obtain ⟨j, hj⟩ : ∃ j : Nat, ulpExp f = -j := ⟨expBias f + fracBits f - 1, by unfold ulpExp; omega⟩
  obtain ⟨p, hp⟩ := exists_units_eq f j (m := n) (by omega)
  have hval : (units f p : ℝ) * 2 ^ ulpExp f = n * 2 ^ (0 : ℤ) := by
    rw [hp, hj, zpow_neg, zpow_natCast]
    push_cast
    field_simp
  have hlt : p < infMag f := by
    refine (units_strictMono f).lt_iff_lt.1 ?_
    have hpow : 2 ^ j < 2 ^ (2 * expBias f) := Nat.pow_lt_pow_right one_lt_two (by unfold ulpExp at hj; omega)
    rw [hp, units_infMag]
    exact (Nat.mul_le_mul_right _ hn).trans_lt (Nat.mul_lt_mul_of_pos_left hpow (Nat.two_pow_pos _))
  rw [roundTo_of_units md s h0 hlt hval]
  refine ⟨?_, signOf_add (hlt.trans (infMag_lt f)) s⟩
  rw [← Rat.cast_inj (α := ℝ), value_eq_seen f s, seen_add (hlt.trans (infMag_lt f)), hval, exact_cast]

/-- FRND of a finite number (R179). -/
theorem fRnd_finite {f : Fmt} (md : Rm) {a : Nat} (ha : finite f a) :
    value f (fRnd f md a).1 = intOf md (value f a) ∧ (negative f (fRnd f md a).1 ↔ negative f a) ∧ (fRnd f md a).2 = 0 := by
  obtain ⟨m, e, va, hv, hm, -⟩ := fval_of_finite ha
  obtain ⟨hint, -⟩ := cutTo_intOf md (signOf f a) m e
  unfold fRnd
  rw [va]
  dsimp only
  split
  · next he =>
    refine ⟨?_, .rfl, rfl⟩
    obtain ⟨j, rfl⟩ := Int.eq_ofNat_of_zero_le he
    have hz : value f a = ((if signOf f a then -(m * 2 ^ j : ℤ) else m * 2 ^ j : ℤ) : ℚ) := by
      rw [hv, exact]; cases signOf f a <;> simp
    rw [hz, intOf_intCast]
  · next he =>
    have hle := cutTo_le (md := md) (s := signOf f a) (lt_of_not_ge he) hm
    rw [hv, ← hint]
    simp only [negative_iff]
    generalize (cutTo md (signOf f a) m e 0).1 = n at hle
    split
    · next h0 =>
      have hz : value f (zeroOf f (signOf f a)) = 0 := by
        rw [← Rat.cast_inj (α := ℝ), value_eq, ← Nat.add_zero (zeroOf f _), magOf_add (signBit_pos f)]
        simp
      refine ⟨by rw [h0, hz]; cases signOf f a <;> simp, ?_, rfl⟩
      rw [← Nat.add_zero (zeroOf f _), signOf_add (signBit_pos f)]
    · next h0 =>
      obtain ⟨h1, h2⟩ := value_roundTo_int md (signOf f a) (Nat.pos_of_ne_zero h0) hle
      refine ⟨?_, by rw [h2], rfl⟩
      rw [h1, exact]
      cases signOf f a <;> simp

/-! ### Integers of a type (R104, R180) -/

theorem typeLo_eq (ty : Ty) : typeLo ty = tyLo ty := by cases ty <;> rfl
theorem typeHi_eq {ty : Ty} (h : ty.integral = true) : typeHi ty = tyHi ty := by
  cases ty with
  | s8 | z8 | s16 | z16 | s32 | z32 | s64 | z64 => rfl
  | f32 | f16 | bf16 => exact absurd h Bool.false_ne_true

/-- F2I of a finite number. -/
theorem fToInt_finite {f : Fmt} (md : Rm) {ty : Ty} {a : Nat} (ha : finite f a) (hty : ty.integral = true) :
    let n := intOf md (value f a)
    fToInt f ty md a = if n < typeLo ty then (typeLo ty, 16) else if typeHi ty < n then (typeHi ty, 16)
      else (n, if value f a = n then 0 else 1) := by
  obtain ⟨m, e, va, hv, -⟩ := fval_of_finite ha
  obtain ⟨hint, hix⟩ := cutTo_intOf md (signOf f a) m e
  dsimp only
  rw [typeLo_eq, typeHi_eq hty, hv]
  unfold fToInt
  rw [va]
  dsimp only
  rw [hint]
  generalize intOf md (exact (signOf f a) m e) = n at hix
  by_cases hx : exact (signOf f a) m e = n
  · rw [if_pos hx, if_neg (fun h => hix.1 h hx)]; rfl
  · rw [if_neg hx, if_pos (hix.2 hx)]; rfl

/-! ### Classes (R178) -/

/-- The mantissa a finite pattern is read as is zero just when both of its fields are. -/
theorem mantissa_eq_zero_iff {f : Fmt} {x m : Nat} {s : Bool} {e : ℤ} (h : fval f x = .fin s m e) :
    m = 0 ↔ expField f x = 0 ∧ fracField f x = 0 := by
  have hN : 0 < 2 ^ fracBits f := Nat.two_pow_pos _
  unfold fval at h
  dsimp only at h
  split at h
  · split at h <;> nomatch h
  · split at h
    · next h0 => rw [← (FVal.fin.inj h).2.1]; simp [h0]
    · next h0 =>
      rw [← (FVal.fin.inj h).2.1]
      exact iff_of_false (by omega) fun h1 => h0 h1.1

theorem fClass_eq {f : Fmt} {a : Nat} (ha : a < 2 ^ fmtWidth f) : ∃ k, fClass f a = 2 ^ k ∧
      (k = 0 ↔ a = infPat f true) ∧ (k = 1 ↔ finite f a ∧ negative f a ∧ expOf f a ≠ 0) ∧
      (k = 2 ↔ finite f a ∧ negative f a ∧ expOf f a = 0 ∧ fracOf f a ≠ 0) ∧ (k = 3 ↔ a = zeroPat f true) ∧
      (k = 4 ↔ a = zeroPat f false) ∧ (k = 5 ↔ finite f a ∧ ¬negative f a ∧ expOf f a = 0 ∧ fracOf f a ≠ 0) ∧
      (k = 6 ↔ finite f a ∧ ¬negative f a ∧ expOf f a ≠ 0) ∧ (k = 7 ↔ a = infPat f false) ∧ (k = 8 ↔ sigPat f a) ∧
      (k = 9 ↔ nanPat f a ∧ ¬sigPat f a) := by
  simp only [← fval_eq_inf_iff ha, ← fval_eq_zero_iff ha, ← fval_isSig_iff ha, ← fval_isNaN_iff ha, negative_iff, expOf_eq, fracOf_eq]
  unfold fClass
  obtain hn | ⟨s, rfl⟩ | hf := pattern_cases ha
  · obtain ⟨b, hb, -⟩ := fval_of_nan hn
    have hfin : ¬finite f a := fun h => h.2 hn.2.1
    rw [hb]
    cases b
    · exact ⟨9, rfl, by simp [hfin, FVal.isSig, FVal.isNaN]⟩
    · exact ⟨8, rfl, by simp [hfin, FVal.isSig, FVal.isNaN]⟩
  · have hfin : ¬finite f (infPat f s) := fun h => by
      obtain ⟨m, e, hv, -⟩ := fval_of_finite h
      rw [fval_infPat] at hv; nomatch hv
    rw [fval_infPat, signOf_infPat]
    cases s
    · exact ⟨7, rfl, by simp [hfin, FVal.isSig, FVal.isNaN]⟩
    · exact ⟨0, rfl, by simp [hfin, FVal.isSig, FVal.isNaN]⟩
  · obtain ⟨m, e, hv, -⟩ := fval_of_finite hf
    have hm := mantissa_eq_zero_iff hv
    rw [hv]
    dsimp only
    by_cases he : expField f a = 0
    · by_cases hfr : fracField f a = 0
      · obtain rfl : m = 0 := hm.2 ⟨he, hfr⟩
        cases signOf f a
        · exact ⟨4, rfl, by simp [he, hfr, FVal.isSig, FVal.isNaN]⟩
        · exact ⟨3, rfl, by simp [he, hfr, FVal.isSig, FVal.isNaN]⟩
      · have hm0 : m ≠ 0 := fun h => hfr (hm.1 h).2
        rw [if_neg hm0, if_pos he]
        cases signOf f a
        · exact ⟨5, rfl, by simp [hf, he, hfr, hm0, FVal.isSig, FVal.isNaN]⟩
        · exact ⟨2, rfl, by simp [hf, he, hfr, hm0, FVal.isSig, FVal.isNaN]⟩
    · have hm0 : m ≠ 0 := fun h => he (hm.1 h).1
      rw [if_neg hm0, if_neg he]
      cases signOf f a
      · exact ⟨6, rfl, by simp [hf, he, hm0, FVal.isSig, FVal.isNaN]⟩
      · exact ⟨1, rfl, by simp [hf, he, hm0, FVal.isSig, FVal.isNaN]⟩

/-- Settles O16: values are ordered as signed magnitudes are, and the integer part of a number is cut as its mode says. -/
theorem floatSelectionResults : Obligations.FloatSelectionResults := by
  intro f md ty cmp a b ha hb
  refine ⟨fun na nb => ⟨fMinMax_ordered ha hb na nb, fCmp_numbers ha hb cmp na nb⟩, fMinMax_nan_number ha hb, fMinMax_nans ha hb,
    fCmp_unordered ha hb cmp, fRnd_finite md, fToInt_finite md, fun h => ?_, fun hty x => ?_, fClass_eq ha⟩
  · obtain ⟨s, hs, -⟩ := fval_of_nan h
    rw [fToInt, hs]
    rfl
  · rw [fToInt, fval_infPat, typeLo_eq, typeHi_eq hty]
    rfl

end Sys2Proof.Machine

/-!
The packed 16-bit forms and VACSEL (O18; R105, R183 to R186): both lanes of a word, each on its own.
-/
namespace Sys2Proof.Machine
open Sys2Proof.Safety Sys2Proof.Terms

/-! ### Lanes of a word (R105) -/

theorem laneBits_eq (x : Word) (l : Nat) : laneBits x l = half x l := by
  rw [laneBits, half, pow_mul]; rfl

theorem half2_eq (op : Nat → Nat → Nat × Flags) (x y : Word) :
    half2 op x y = lanes (op (laneBits x 0) (laneBits y 0)) (op (laneBits x 1) (laneBits y 1)) := by
  simp only [laneBits_eq]; rfl

theorem half3_eq (op : Nat → Nat → Nat → Nat × Flags) (x y z : Word) :
    half3 op x y z = lanes (op (laneBits x 0) (laneBits y 0) (laneBits z 0)) (op (laneBits x 1) (laneBits y 1) (laneBits z 1)) := by
  simp only [laneBits_eq]; rfl

theorem otherHalf_eq {f : Fmt} (h : f ≠ .f32) : otherHalf f = half16 f := by
  cases f with
  | f32 => exact absurd rfl h
  | f16 | bf16 => rfl

/-- Two lanes put together, as bits and as a number. -/
theorem append_eq_pack2 (hi lo : Int) : BitVec.ofInt 16 hi ++ BitVec.ofInt 16 lo = pack2 (laneOf lo) (laneOf hi) := by
  apply BitVec.eq_of_toNat_eq
  rw [BitVec.toNat_append, BitVec.toNat_ofInt, BitVec.toNat_ofInt, pack2, BitVec.toNat_ofNat, laneOf, laneOf,
    ← Nat.shiftLeft_add_eq_or_of_lt (by omega), Nat.shiftLeft_eq]
  omega

theorem lanePair_eq (f : Nat → Int) : lanePair f = pack2 (laneOf (f 0)) (laneOf (f 1)) := append_eq_pack2 ..

section
variable {ty : Ty} (h : ty = .s16 ∨ ty = .z16)
include h

theorem laneNum_eq (x : Word) (l : Nat) : laneNum ty x l = extTy ty (half x l) := by
  have hlt : half x l < 65536 := Nat.mod_lt _ (by decide)
  rw [laneNum, laneBits_eq]
  generalize half x l = n at hlt
  obtain rfl | rfl := h
  · rw [extTy_signed _ _ rfl]
    change ((BitVec.ofNat 32 n).setWidth 16).toInt = _
    rw [BitVec.toInt_eq_toNat_bmod, BitVec.toNat_setWidth, BitVec.toNat_ofNat]
    congr 1
    omega
  · rw [extTy_plain _ _ rfl]
    change (((BitVec.ofNat 32 n).setWidth 16).toNat : ℤ) = ((n % 2 ^ 16 : ℕ) : ℤ)
    rw [BitVec.toNat_setWidth, BitVec.toNat_ofNat]
    omega

theorem satTy_eq (sat : Bool) (y : Int) : satTy ty sat y = if sat then clampTo ty y else y := by
  have hc : clampInt (tyLo ty) (tyHi ty) y = clampTo ty y := by
    obtain rfl | rfl := h <;> simp only [clampInt, tyLo, tyHi, Ty.signed, tyBits, clampTo] <;> norm_num <;> omega
  rw [satTy, hc]

/-- A packed integer operation on two lanes of numbers (R185). -/
theorem map2_eq (op : Int → Int → Int) (x y : Word) :
    map2 (fun m n => laneOf (op (extTy ty m) (extTy ty n))) x y = lanePair fun l => op (laneNum ty x l) (laneNum ty y l) := by
  rw [lanePair_eq, laneNum_eq h, laneNum_eq h, laneNum_eq h, laneNum_eq h, map2]
end

/-! ### VACSEL (R186) -/

theorem butterfly_eq (sat : Bool) (m x : Word) :
    butterfly sat m x = ((successor sat m x).2, if (successor sat m x).1 then 1 else 0) := by
  have hm : metric = add16 := rfl
  simp only [butterfly, successor, laneBits_eq, hm]
  split <;> rfl

/-- Two bits below a word moved up by two. -/
theorem shiftLeft_or (s c : Word) (hc : c.toNat < 4) : s <<< 2 ||| c = BitVec.ofNat 32 (4 * s.toNat + c.toNat) := by
  apply BitVec.eq_of_toNat_eq
  have hs : s.toNat <<< 2 % 2 ^ 32 = (s.toNat % 2 ^ 30) <<< 2 := by rw [Nat.shiftLeft_eq, Nat.shiftLeft_eq]; omega
  rw [BitVec.toNat_or, BitVec.toNat_shiftLeft, hs, ← Nat.shiftLeft_add_eq_or_of_lt hc, Nat.shiftLeft_eq, BitVec.toNat_ofNat]
  omega

/-- A new survivor word: the old one moved up by two bits, and the two decisions. -/
theorem survivors_eq (s : Word) (p q : Bool) :
    BitVec.ofNat 32 (4 * s.toNat + 2 * (if q then 1 else 0) + if p then 1 else 0) =
      s <<< 2 ||| (if q then 2 else 0) ||| if p then 1 else 0 := by
  have hc : ((if q then 2 else 0) ||| (if p then 1 else 0) : Word).toNat = 2 * (if q then 1 else 0) + if p then 1 else 0 := by
    cases p <;> cases q <;> rfl
  rw [BitVec.or_assoc, shiftLeft_or _ _ (by rw [hc]; cases p <;> cases q <;> decide), hc, Nat.add_assoc]

theorem lanePair_metrics (m n : Nat) : (lanePair fun l => if l = 0 then (m : ℤ) else n) = pack2 m n := by
  have hlane : ∀ n : Nat, laneOf n % 65536 = n % 65536 := fun n => by unfold laneOf; omega
  rw [lanePair_eq, if_pos rfl, if_neg one_ne_zero, pack2, pack2, hlane, hlane]

/-- VACSEL writes both metrics, and the decisions below the survivors before. -/
theorem vacselInto_eq (th : Thread) (sat : Bool) (d sv : Reg) (a b c : Word) :
    th.vacselInto sat d sv a b c =
      (th.wv d (lanePair fun l => if l = 0 then ((successor sat a b).2 : ℤ) else (successor sat a c).2)).wv sv
        (th.rv sv <<< 2 ||| (if (successor sat a c).1 then 2 else 0) ||| if (successor sat a b).1 then 1 else 0) := by
  rw [Thread.vacselInto, aluVacsel, butterfly_eq, butterfly_eq, lanePair_metrics, ← survivors_eq]

/-- HCVT2 by its sub-operation (R184). -/
theorem hcvt2Into_upk (th : Thread) (f : Fmt) (md : Rm) (d : Reg) (a b : Word) :
    th.hcvt2Into .upk f md d a b = flagged (th.ww d (BitVec.ofNat 32 (fConvert .f32 f .rn (laneBits a 1)).1 ++
      BitVec.ofNat 32 (fConvert .f32 f .rn (laneBits a 0)).1))
      ((fConvert .f32 f .rn (laneBits a 0)).2 ||| (fConvert .f32 f .rn (laneBits a 1)).2) := by
  simp only [laneBits_eq]; rfl

theorem hcvtX_eq {f : Fmt} (hf : f ≠ .f32) (md : Rm) (a : Word) :
    hcvtX f md a = lanes (fConvert f (half16 f) md (laneBits a 0)) (fConvert f (half16 f) md (laneBits a 1)) := by
  simp only [laneBits_eq, ← otherHalf_eq hf]; rfl

/-- Settles O18: every form is a function of its thread, lane by lane. -/
theorem packedForms : Obligations.PackedForms := by
  intro h f md ty sat d a b c sv hf hty
  refine ⟨?_, ?_, ?_, ?_, ?_, ?_, ?_, ?_, ?_, ?_, ?_, ?_, ?_, ?_⟩
  · exact rewrites_of_exec (fun _ _ th => th.wf d (half2 (fAdd f md) (th.rv a) (th.rv b))) (fun _ => rfl)
      fun _ _ _ => by rw [half2_eq]; rfl
  · exact rewrites_of_exec (fun _ _ th => th.wf d (half2 (fSub f md) (th.rv a) (th.rv b))) (fun _ => rfl)
      fun _ _ _ => by rw [half2_eq]; rfl
  · exact rewrites_of_exec (fun _ _ th => th.wf d (half2 (fMul f md) (th.rv a) (th.rv b))) (fun _ => rfl)
      fun _ _ _ => by rw [half2_eq]; rfl
  · exact rewrites_of_exec (fun _ _ th => th.wf d (half3 (fFma f md) (th.rv a) (th.rv b) (th.rv c))) (fun _ => rfl)
      fun _ _ _ => by rw [half3_eq]; rfl
  · exact rewrites_of_exec (fun _ _ th => th.wf d (half2 (fMinMax f false) (th.rv a) (th.rv b))) (fun _ => rfl)
      fun _ _ _ => by rw [half2_eq]; rfl
  · exact rewrites_of_exec (fun _ _ th => th.wf d (half2 (fMinMax f true) (th.rv a) (th.rv b))) (fun _ => rfl)
      fun _ _ _ => by rw [half2_eq]; rfl
  · exact rewrites_of_exec (fun _ _ th => th.hcvt2Into .pk f md d (th.rv a) (th.rv b)) (fun _ => rfl) fun _ _ _ => rfl
  · exact rewrites_of_exec (fun _ _ th => th.hcvt2Into .upk f md d (th.rv a) (th.rv b)) (fun _ => rfl)
      fun _ _ th => hcvt2Into_upk th f md d _ _
  · exact rewrites_of_exec (fun _ _ th => th.wf d (hcvtX f md (th.rv a))) (fun _ => rfl) fun _ _ _ => by rw [hcvtX_eq hf]; rfl
  · refine rewrites_of_exec (fun _ _ th => th.wv d (aluVadd2 ty sat (th.rv a) (th.rv b))) (fun _ => rfl) fun _ _ _ => ?_
    rw [aluVadd2, map2_eq hty fun x y => satTy ty sat (x + y)]
    simp only [satTy_eq hty]
  · refine rewrites_of_exec (fun _ _ th => th.wv d (aluVsub2 ty sat (th.rv a) (th.rv b))) (fun _ => rfl) fun _ _ _ => ?_
    rw [aluVsub2, map2_eq hty fun x y => satTy ty sat (x - y)]
    simp only [satTy_eq hty]
  · exact rewrites_of_exec (fun _ _ th => th.wv d (aluVmin2 ty (th.rv a) (th.rv b))) (fun _ => rfl)
      fun _ _ _ => by rw [aluVmin2, map2_eq hty min]
  · exact rewrites_of_exec (fun _ _ th => th.wv d (aluVmax2 ty (th.rv a) (th.rv b))) (fun _ => rfl)
      fun _ _ _ => by rw [aluVmax2, map2_eq hty max]
  · refine rewrites_of_exec (fun _ _ th => th.vacselInto sat d sv (th.rv a) (th.rv b) (th.rv c)) (fun _ => rfl) fun _ _ th => ?_
    rw [vacselInto_eq]

end Sys2Proof.Machine

/-!
Cross-lane instructions (O19; R112, R113, R187 to R191): the lanes of the present threads as the statements name them, the scan of a
list against that of its slots, and the votes.
-/
namespace Sys2Proof.Machine
open Sys2Proof.Safety Sys2Proof.Terms

/-! ### Instructions that read the fragment -/

/-- An instruction whose body changes its thread by a function of the fragment before and of the thread rewrites its threads by
any function that agrees with it on the threads of the fragment as they stand behind the instruction. -/
theorem rewrites_of_env {i : Instr} {f : Env → Nat → Thread → Thread} {g : State → Nat → Thread → Thread}
    (he : ∀ s, exec i s = issue i (onThread f) s)
    (hg : ∀ s k, f (envOf i s) k (advance i (s.thread k)) = g s k (advance i (s.thread k))) : Rewrites i g := by
  intro s hs
  obtain ⟨t, h1, h2, h3, h4, h5⟩ := issue_onThread hs f
  refine ⟨t, (he s).trans h1, h2, h3, h4, fun k hk => ?_⟩
  obtain ⟨th, tag, h6, h7⟩ := h5 k hk
  refine ⟨th, tag, h6, ?_⟩
  rw [h7, ← State.thread_of_lookup h6, hg]

/-! ### The present lanes (R187) -/

section
variable (i : Instr) (s : State) (k : Nat)

theorem envOf_levels : (envOf i s).levels k = levels s k := rfl

/-- The width is two to the number of levels. -/
theorem width_eq : (if (s.pktOf (s.thread k)).prot then 16 else 32) = 2 ^ levels s k := by
  unfold levels
  split <;> rfl
theorem envOf_width : (envOf i s).width k = 2 ^ levels s k := width_eq s k
theorem two_pow_levels_le : 2 ^ levels s k ≤ 32 := by
  rw [← width_eq]
  split <;> decide

/-- The lanes below the width are those of the fragment; no thread is present at the others. -/
theorem atLane_eq (j : Nat) : atLane s i.head k j = if j < 2 ^ levels s k then (envOf i s).atLane k j else none := by
  rw [← envOf_width i s k]
  rfl

theorem atLane_map {α : Type} (f : Nat → α) : (List.range ((envOf i s).width k)).map (fun j => ((envOf i s).atLane k j).map f) =
    (List.range (2 ^ levels s k)).map fun j => (atLane s i.head k j).map f := by
  rw [envOf_width]
  refine List.map_congr_left fun j hj => ?_
  rw [atLane_eq, if_pos (List.mem_range.1 hj)]

theorem envOf_slots (a : Reg) : (envOf i s).slots k a = (List.range (2 ^ levels s k)).map (slots s i.head k a) :=
  atLane_map i s k fun j => ((s.thread j).rv a, 0)

theorem envOf_votes (a : Reg) : (envOf i s).votes k a =
    (List.range (2 ^ levels s k)).map fun j => (atLane s i.head k j).map fun t => (s.thread t).rp a :=
  atLane_map i s k fun j => (s.thread j).rp a
end

/-! ### VSHF and VBFLY (R188) -/

/-- A shuffle as a function of its thread. -/
def shuffleInto (lane : Env → Nat → Nat → Option Nat) (d c a : Reg) (env : Env) (k : Nat) (th : Thread) : Thread :=
  match (lane env k (env.before.thread k).lane).bind fun j => if j < env.width k then env.atLane k j else none with
  | some j => (th.wv d ((env.before.thread j).rv a)).wp c true
  | none => (th.wv d ((env.before.thread k).rv a)).wp c false

theorem shuffle_eq (lane : Env → Nat → Nat → Option Nat) (d c a : Reg) :
    shuffle lane d c a = onThread (shuffleInto lane d c a) := by
  funext env k s
  unfold shuffle onThread shuffleInto
  dsimp only
  generalize (Option.bind _ _ : Option Nat) = o
  cases o <;> rfl

theorem shuffleInto_eq (i : Instr) (s : State) (k : Nat) (lane : Env → Nat → Nat → Option Nat) (d c a : Reg) {th : Thread}
    (hv : th.v = (s.thread k).v) :
    shuffleInto lane d c a (envOf i s) k th = shuffled s i.head k d c a (lane (envOf i s) k (s.thread k).lane) th := by
  have hb : (fun j => if j < (envOf i s).width k then (envOf i s).atLane k j else none) = atLane s i.head k := by
    funext j; rw [atLane_eq, envOf_width]
  have hr : (s.thread k).rv a = th.rv a := by rw [Thread.rv, Thread.rv, hv]
  unfold shuffleInto shuffled
  rw [hb, ← hr]
  rfl

/-! ### VRED and VSCAN (R112, R113, R189) -/

/-- The narrow results of the 32-bit types. -/
theorem word_eq_narrow {ty : Ty} (h : ty = .s32 ∨ ty = .z32) : (∀ x : Word, extTy ty x.toNat = num ty x) ∧
    (∀ y, narrowTy ty y = word ty y) ∧ ∀ sat y, satTy ty sat y = if sat then clampTo ty y else y := by
  refine ⟨fun x => ?_, fun y => ?_, fun sat y => ?_⟩
  · obtain rfl | rfl := h
    · exact extTy_s32 x
    · rw [extTy_plain _ _ rfl]; exact congrArg _ (Nat.mod_eq_of_lt x.isLt)
  · obtain rfl | rfl := h
    · exact narrowTy_s32 y
    · rw [narrowTy_plain _ _ rfl]; exact ofInt_of_emod (Int.emod_emod_of_dvd _ (dvd_refl _))
  · have hc : clampInt (tyLo ty) (tyHi ty) y = clampTo ty y := by
      obtain rfl | rfl := h <;> simp only [clampInt, tyLo, tyHi, Ty.signed, tyBits, clampTo] <;> norm_num <;> omega
    rw [satTy, hc]

/-- The combine of a reduction is R189's. -/
theorem reduceWord_eq_combine {ty : Ty} (h : ty = .s32 ∨ ty = .z32 ∨ ty = .f32) (op : RedOp) (sat : Bool) (md : Rm) :
    reduceWord op ty sat md = combine op ty sat md := by
  funext a b
  obtain h | rfl : (ty = .s32 ∨ ty = .z32) ∨ ty = .f32 := by tauto
  · obtain ⟨hx, hy, hs⟩ := word_eq_narrow h
    have hf : ty ≠ .f32 := by rintro rfl; simp at h
    refine (if_neg hf).trans (Eq.trans ?_ (if_neg hf).symm)
    refine congrArg (fun w => (w, (0 : Flags))) ?_
    cases op with
    | and | or | xor => rfl
    | add => rw [reduceInt, aluAdd, narrowSat, hx, hx, hs, hy]; rfl
    | min => rw [reduceInt, aluMin, hx, hx, hy]
    | max => rw [reduceInt, aluMax, hx, hx, hy]
  · cases op <;> rfl

theorem scanNode_eq (comb : Word → Word → Word × BitVec 5) (a b : Option (Word × BitVec 5)) :
    scanNode comb a b = nodeSlot comb a b := by
  cases a <;> cases b <;> rfl

/-- Level k of the scan of R113 over all slots. -/
def scanStep (comb : Word → Word → Word × BitVec 5) (y : Nat → Option (Word × BitVec 5)) (k : Nat) :
    Nat → Option (Word × BitVec 5) :=
  fun i => if 2 ^ k ≤ i then nodeSlot comb (y (i - 2 ^ k)) (y i) else y i

/-- One level of the scan of a list is that of its slots. -/
theorem scanLevel_range (comb : Word → Word → Word × BitVec 5) (n k : Nat) (y : Nat → Option (Word × BitVec 5)) :
    scanLevel comb (2 ^ k) ((List.range n).map y) = (List.range n).map (scanStep comb y k) := by
  unfold scanLevel scanStep
  generalize 2 ^ k = d
  refine List.ext_getElem? fun j => ?_
  rw [List.getElem?_append, List.length_take, List.length_map, List.length_range, List.getElem?_map]
  rcases Nat.lt_or_ge j n with hj | hj
  · rw [List.getElem?_range hj]
    by_cases hd : j < d
    · rw [if_pos (by omega), List.getElem?_take_of_lt hd, List.getElem?_map, List.getElem?_range hj]
      simp [Nat.not_le.2 hd]
    · have hdj : min d n = d := by omega
      rw [if_neg (by omega), hdj, List.getElem?_zipWith, List.getElem?_drop, Nat.add_sub_cancel' (Nat.not_lt.1 hd), List.getElem?_map,
        List.getElem?_map, List.getElem?_range hj, List.getElem?_range (by omega)]
      simp [Nat.not_lt.1 hd, scanNode_eq]
  · rw [List.getElem?_eq_none (l := List.range n) (by simpa using hj), if_neg (by omega), List.getElem?_eq_none]
    · rfl
    · simp only [List.length_zipWith, List.length_drop, List.length_map, List.length_range]
      omega

theorem scanLevels_range (comb : Word → Word → Word × BitVec 5) (n m k : Nat) (y : Nat → Option (Word × BitVec 5)) :
    scanLevels comb n k ((List.range m).map y) = (List.range m).map ((List.range' k n).foldl (scanStep comb) y) := by
  induction n generalizing k y with
  | zero => rfl
  | succ n ih => rw [scanLevels, scanLevel_range, ih, List.range'_succ, List.foldl_cons]

theorem scan_eq_foldl (comb : Word → Word → Word × BitVec 5) (n : Nat) (y : Nat → Option (Word × BitVec 5)) :
    scan comb n y = (List.range' 0 n).foldl (scanStep comb) y := by
  rw [← List.range_eq_range']
  rfl

/-- A slot of the list's scan is that of the scan of R113, below the width. -/
theorem scanLevels_getD (comb : Word → Word → Word × BitVec 5) (n m j : Nat) (y : Nat → Option (Word × BitVec 5)) :
    (scanLevels comb n 0 ((List.range m).map y)).getD j none = if j < m then scan comb n y j else none := by
  rw [scanLevels_range, ← scan_eq_foldl, List.getD_eq_getElem?_getD, List.getElem?_map]
  split
  · next h => rw [List.getElem?_range h]; rfl
  · next h => rw [List.getElem?_eq_none (by simpa using h)]; rfl

/-! ### VOTE (R190) -/

/-- The bits of a ballot over a list of lanes are set at the lanes that satisfy the test. -/
theorem ballot_range (f : Option Bool → Bool) (n : Nat) (g : Nat → Option Bool) :
    ballot f ((List.range n).map g) = (((List.range n).filter fun i => f (g i)).map fun i => 2 ^ i).sum := by
  induction n generalizing g with
  | zero => rfl
  | succ n ih =>
    have hdouble : ∀ l : List Nat, (l.map fun i => 2 ^ (i + 1)).sum = 2 * (l.map fun i => 2 ^ i).sum := fun l => by
      rw [← List.sum_map_mul_left]
      simp only [pow_succ']
    have hb : ballot f ((List.range (n + 1)).map g) = 2 * ballot f ((List.range n).map fun i => g (i + 1)) + (f (g 0)).toNat := by
      rw [List.range_succ_eq_map, List.map_cons, List.map_map]; rfl
    rw [hb, ih, List.range_succ_eq_map, List.filter_cons, List.filter_map, ← hdouble]
    cases f (g 0)
    · simp only [Bool.false_eq_true, if_false, List.map_map, Function.comp_def, Bool.toNat_false, Nat.add_zero]
    · simp only [if_true, List.map_cons, List.map_map, Function.comp_def, List.sum_cons, Bool.toNat_true, pow_zero, Nat.add_comm]

/-- Lanes at which a test fails add nothing to a mask. -/
theorem filter_range_of_false {p : Nat → Bool} {m n : Nat} (hmn : m ≤ n) (h : ∀ i, m ≤ i → p i = false) :
    (List.range n).filter p = (List.range m).filter p := by
  obtain ⟨d, rfl⟩ := Nat.exists_eq_add_of_le hmn
  rw [List.range_add, List.filter_append, (List.filter_eq_nil_iff (l := List.map _ _)).2 ?_, List.append_nil]
  intro i hi
  obtain ⟨j, -, rfl⟩ := List.mem_map.1 hi
  rw [h _ (Nat.le_add_right m j)]
  exact Bool.false_ne_true

section
variable (s : State) (h : Head) (k : Nat) (p : Nat → Bool)

theorem atLane_none {j : Nat} (hj : 2 ^ levels s k ≤ j) : atLane s h k j = none := by
  rw [atLane, width_eq, if_neg (Nat.not_lt.2 hj)]

/-- A mask over the lanes of the fragment. -/
theorem ballot_eq_maskOf (f : Option Bool → Bool) (hf : f none = false) :
    BitVec.ofNat 32 (ballot f ((List.range (2 ^ levels s k)).map fun j => (atLane s h k j).map p)) =
      maskOf fun j => f ((atLane s h k j).map p) := by
  have hle := two_pow_levels_le s k
  rw [ballot_range, maskOf, filter_range_of_false hle fun i hi => by rw [atLane_none s h k hi]; exact hf]

/-- A vote holds at some lane just when it does in some present thread. -/
theorem votes_any (b : Bool) :
    ((List.range (2 ^ levels s k)).map fun j => (atLane s h k j).map p).any (· == some b) =
      ((List.range 32).filterMap (atLane s h k)).any fun j => p j == b := by
  have hle := two_pow_levels_le s k
  rw [Bool.eq_iff_iff, List.any_eq_true, List.any_eq_true]
  constructor
  · rintro ⟨x, hx, hb⟩
    obtain ⟨j, hj, rfl⟩ := List.mem_map.1 hx
    obtain ⟨t, ht, htb⟩ := Option.map_eq_some_iff.1 (beq_iff_eq.1 hb)
    exact ⟨t, List.mem_filterMap.2 ⟨j, List.mem_range.2 ((List.mem_range.1 hj).trans_le hle), ht⟩, beq_iff_eq.2 htb⟩
  · rintro ⟨t, ht, hb⟩
    obtain ⟨j, -, hj⟩ := List.mem_filterMap.1 ht
    refine ⟨some b, List.mem_map.2 ⟨j, List.mem_range.2 ?_, ?_⟩, beq_self_eq_true _⟩
    · by_contra hn
      rw [atLane_none s h k (Nat.not_lt.1 hn)] at hj
      nomatch hj
    · rw [hj, Option.map_some, beq_iff_eq.1 hb]
end

/-- The result of a VOTE from the votes of the lanes (R190). -/
theorem voteInto_eq (s : State) (h : Head) (k : Nat) (v : VoteOp) (d : Reg) (p : Nat → Bool) (th : Thread) :
    th.voteInto v d ((List.range (2 ^ levels s k)).map fun j => (atLane s h k j).map p) =
      match v with
      | .any => th.wp d (((List.range 32).filterMap (atLane s h k)).any p)
      | .all => th.wp d (((List.range 32).filterMap (atLane s h k)).all p)
      | .uni => th.wp d (((List.range 32).filterMap (atLane s h k)).all p ||
          ((List.range 32).filterMap (atLane s h k)).all fun j => !p j)
      | .bal => th.wv d (maskOf fun i => (atLane s h k i).any p)
      | .act => th.wv d (maskOf fun i => (atLane s h k i).any fun _ => true) := by
  have hany := votes_any s h k p
  have hall : ((List.range (2 ^ levels s k)).map fun j => (atLane s h k j).map p).all (· != some false) =
      ((List.range 32).filterMap (atLane s h k)).all p := by
    rw [List.all_eq_not_any_not, List.all_eq_not_any_not]
    simpa [bne] using congrArg (!·) (hany false)
  cases v with
  | any => exact congrArg (th.wp d) ((hany true).trans (by simp))
  | all => exact congrArg (th.wp d) hall
  | uni =>
    refine congrArg (th.wp d) ?_
    rw [hany, hany, Bool.not_and, Bool.or_comm, List.all_eq_not_any_not, List.all_eq_not_any_not (l := _) (p := fun j => !p j)]
    simp
  | bal =>
    refine congrArg (th.wv d) ((ballot_eq_maskOf s h k p (· == some true) rfl).trans (congrArg maskOf (funext fun j => ?_)))
    cases atLane s h k j <;> simp
  | act =>
    refine congrArg (th.wv d) ((ballot_eq_maskOf s h k p Option.isSome rfl).trans (congrArg maskOf (funext fun j => ?_)))
    cases atLane s h k j <;> rfl

/-- Settles O19: each body reads the lanes of the fragment before, as the statement names them. -/
theorem crossLaneForms : Obligations.CrossLaneForms := by
  intro h op r ty sat md v d c a b mask
  refine ⟨?_, ?_, fun hty => ⟨?_, ?_⟩, ?_⟩
  · refine rewrites_of_env (f := shuffleInto (fun env k i => shfLane op i ((env.before.thread k).rv b).toNat) d c a)
      (fun _ => by rw [← shuffle_eq]; rfl) fun s k => ?_
    refine (shuffleInto_eq _ s k _ d c a (th := advance _ (s.thread k)) rfl).trans ?_
    cases op <;> rfl
  · refine rewrites_of_env (f := shuffleInto (fun _ _ i => some (i ^^^ mask.toNat)) d c a) (fun _ => by rw [← shuffle_eq]; rfl)
      fun s k => ?_
    refine (shuffleInto_eq _ s k _ d c a (th := advance _ (s.thread k)) rfl).trans ?_
    rfl
  · refine rewrites_of_env (f := fun env k th => th.takeSlot d (treeRoot (reduceWord r ty sat md) (env.levels k) (env.slots k a)))
      (fun _ => rfl) fun s k => ?_
    rw [envOf_levels, envOf_slots, treeRoot_eq_tree, reduceWord_eq_combine (by tauto)]
    rfl
  · refine rewrites_of_env
      (f := fun env k th => th.takeSlot d ((scanLevels (reduceWord r ty sat md) (env.levels k) 0 (env.slots k a)).getD th.lane none))
      (fun _ => rfl) fun s k => ?_
    rw [envOf_levels, envOf_slots, scanLevels_getD, reduceWord_eq_combine (by tauto)]
    split <;> rfl
  · refine rewrites_of_env (f := fun env k th => th.voteInto v d (env.votes k a)) (fun _ => rfl) fun s k => ?_
    rw [envOf_votes, voteInto_eq]
    cases v <;> rfl

end Sys2Proof.Machine

/-!
What a completed matrix pass writes (O35; R122 to R126, R220, R221): residue passes over the bytes of two rows, R125 on one
accumulator element, and the threads of all the quarters that complete together.
-/
namespace Sys2Proof.Machine
open Sys2Proof.Safety Sys2Proof.Terms

/-! ### Residue passes (R117, R122 to R124) -/

theorem block_eq (f : MxFmt) : MxFmt.block f = recordLen f := by cases f <;> rfl
theorem natural_eq (f : MxFmt) (kb : Nat) : f.natural kb = rowLen f kb := by cases f <;> rfl
theorem modulus_eq {i : Nat} (h : i < 4) : modulus i = [128, 127, 125, 121].getD i 1 := by interval_cases i <;> rfl

/-- A byte of a record is a byte of its row. -/
theorem byteAt_recordAt (f : MxFmt) (row : Bytes) (k : Nat) (low : Bool) {i : Nat} (h : i < 128) :
    byteAt (recordAt f row k low) i = rowByte row (recordLen f * k + (if low then 128 else 0) + i) := by
  rw [byteAt, rowByte, recordAt, List.getD_eq_getElem?_getD, List.getD_eq_getElem?_getD, List.getElem?_take_of_lt h,
    List.getElem?_drop, block_eq]

section
variable (fa fb : MxFmt) (a b : Bytes) (k : Nat) (la lb : Bool)

/-- Offset of a record in its row. -/
def recordOffset (f : MxFmt) (k : Nat) (low : Bool) : Nat := recordLen f * k + if low then 128 else 0

theorem planeSum_recordAt {i : Nat} (hi : i < 4) : planeSum (recordAt fa a k la) (recordAt fb b k lb) i =
    plane a (recordOffset fa k la) b (recordOffset fb k lb) i := by
  have h : ∀ j ∈ List.range 32, byteAt (recordAt fa a k la) (32 * i + j) % modulus i * (byteAt (recordAt fb b k lb) (32 * i + j) % modulus i) =
      rowByte a (recordOffset fa k la + 32 * i + j) % modulus i * (rowByte b (recordOffset fb k lb + 32 * i + j) % modulus i) := by
    intro j hj
    have : 32 * i + j < 128 := by have := List.mem_range.1 hj; omega
    rw [byteAt_recordAt _ _ _ _ this, byteAt_recordAt _ _ _ _ this, Nat.add_assoc (recordOffset ..), Nat.add_assoc (recordOffset ..)]
    rfl
  rw [planeSum, plane, List.map_congr_left h, modulus_eq hi]

theorem passOf_recordAt : passOf (recordAt fa a k la) (recordAt fb b k lb) =
    passValue a (recordOffset fa k la) b (recordOffset fb k lb) := by
  rw [passOf, planeSum_recordAt _ _ _ _ _ _ _ (by decide : 0 < 4), planeSum_recordAt _ _ _ _ _ _ _ (by decide : 1 < 4),
    planeSum_recordAt _ _ _ _ _ _ _ (by decide : 2 < 4), crt3, passValue]

/-- The check channel compares plane 3 with the sum (R126). -/
theorem passAgrees_iff (x y : Bytes) : passAgrees x y = true ↔ (planeSum x y 3 : ℤ) = passOf x y % 121 := by
  unfold passAgrees
  exact beq_iff_eq

theorem passAgrees_recordAt : passAgrees (recordAt fa a k la) (recordAt fb b k lb) = true ↔
    (plane a (recordOffset fa k la) b (recordOffset fb k lb) 3 : ℤ) =
      passValue a (recordOffset fa k la) b (recordOffset fb k lb) % 121 := by
  rw [passAgrees_iff, passOf_recordAt, planeSum_recordAt _ _ _ _ _ _ _ (by decide : 3 < 4)]

/-- The passes of a block with their weights, a pass by whether it takes the low records (R124). -/
def weighted (p : Bool → Bool → ℤ) : ℤ :=
  match fa, fb with
  | .bq, .bq => p false false
  | .bx, .bx => p false false * 2 ^ 14 + (p false true + p true false) * 2 ^ 7
  | .bx, .bq => p false false * 2 ^ 7 + p true false
  | .bq, .bx => p false false * 2 ^ 7 + p false true

theorem sum_blockPasses (P : Bytes → Bytes → ℤ) : ((blockPasses fa fb a b k).map fun p => p.1 * P p.2.1 p.2.2).sum =
    weighted fa fb fun la lb => P (recordAt fa a k la) (recordAt fb b k lb) := by
  cases fa <;> cases fb <;> simp [blockPasses, weighted] <;> ring

theorem blockInt_eq : blockInt fa fb a b k =
    weighted fa fb fun la lb => passValue a (recordOffset fa k la) b (recordOffset fb k lb) := by
  unfold blockInt
  generalize passValue = P
  cases fa <;> cases fb <;> rfl

theorem blockT_eq : blockT fa fb a b k = blockInt fa fb a b k := by
  have h : (fun la lb => passOf (recordAt fa a k la) (recordAt fb b k lb)) =
      fun la lb => passValue a (recordOffset fa k la) b (recordOffset fb k lb) := funext₂ fun la lb => passOf_recordAt ..
  rw [blockInt_eq, ← h]
  exact sum_blockPasses fa fb a b k passOf

/-- The check channel of a block compares the passes of R124. -/
theorem blockPasses_agree : ((blockPasses fa fb a b k).all fun p => passAgrees p.2.1 p.2.2) = true ↔
    ∀ o ∈ passOffsets fa fb k, (plane a o.1 b o.2 3 : ℤ) = passValue a o.1 b o.2 % 121 := by
  cases fa <;> cases fb <;>
    simp only [blockPasses, passOffsets, List.all_cons, List.all_nil, Bool.and_true, Bool.and_eq_true, passAgrees_recordAt, recordOffset,
      if_true, Bool.false_eq_true, if_false, Nat.add_zero, List.forall_mem_cons, List.not_mem_nil, false_imp_iff, implies_true, and_true]

theorem rowsAgree_iff (kb : Nat) : rowsAgree fa fb kb a b = true ↔ ∀ k, k < kb → ∀ o ∈ passOffsets fa fb k,
    (plane a o.1 b o.2 3 : ℤ) = passValue a o.1 b o.2 % 121 := by
  simp only [rowsAgree, List.all_eq_true (l := List.range kb), List.mem_range, blockPasses_agree]

theorem scaleAt_eq (f : MxFmt) (kb : Nat) (row : Bytes) : scaleAt f kb row k = scaleCode f kb row k := by
  rw [scaleAt, scaleCode, block_eq]
  rfl
end

/-! ### Accumulation (R125) -/

theorem exact_add_pos {s : Bool} {m n : Nat} {d e : ℤ} (hn : exact s n e ≠ 0) : exact s m d + exact s n e ≠ 0 := by
  have hn' : n ≠ 0 := fun h => hn ((exact_eq_zero_iff ..).2 h)
  have h1 : (0 : ℚ) ≤ m * 2 ^ d := by positivity
  have h2 : (0 : ℚ) < n * 2 ^ e := by positivity
  cases s <;> simp only [exact, if_true, Bool.false_eq_true, if_false] <;> intro h <;> linarith

/-- The sum of a block and a finite element (R125): rounded once, +0 where it is zero. -/
theorem addFin_block {s : Bool} {m : Nat} {d e : ℤ} {t : ℤ} (ht : t ≠ 0) :
    (exact s m d + t * 2 ^ e = 0 → (addFin .f32 .rn s m d (decide (t < 0)) t.natAbs e).1 = 0) ∧
    (exact s m d + t * 2 ^ e ≠ 0 →
      RoundsTo .f32 .rn ((exact s m d + t * 2 ^ e : ℚ) : ℝ) (addFin .f32 .rn s m d (decide (t < 0)) t.natAbs e).1) := by
  rw [← exact_of_int]
  refine ⟨fun h => ?_, fun h => addFin_roundsTo .f32 .rn h⟩
  have hne : exact (decide (t < 0)) t.natAbs e ≠ 0 := by rw [Ne, exact_eq_zero_iff]; omega
  have hs : s ≠ decide (t < 0) := fun hs => exact_add_pos hne (hs ▸ h)
  rw [addFin_zero _ _ h, if_neg hs]
  rfl

theorem accStep_blockStep {acc : Nat} (hacc : acc < 2 ^ 32) (sa sb : Nat) (t : ℤ) :
    BlockStep acc (accStep acc sa sb t) sa sb t ∧ accStep acc sa sb t < 2 ^ 32 := by
  have hn : (fval .f32 acc).isNaN = true ↔ nanPat .f32 acc := fval_isNaN_iff hacc
  by_cases h : sa = 511 ∨ sb = 511 ∨ nanPat .f32 acc
  · have hr : accStep acc sa sb t = 0x7FC00000 := if_pos (by simpa [hn, or_assoc] using h)
    rw [hr]
    exact ⟨⟨fun _ => rfl, fun h1 h2 h3 => absurd h (by tauto)⟩, by norm_num⟩
  have hr : accStep acc sa sb t = if t = 0 then acc else match fval .f32 acc with
      | .inf _ => acc
      | x => (addVal .f32 .rn x (.fin (decide (t < 0)) t.natAbs ((sa + sb : Nat) - 512 : Int))).1 :=
    if_neg (by simpa [hn, or_assoc] using h)
  by_cases h0 : t = 0
  · rw [hr, if_pos h0]
    exact ⟨⟨fun hc => absurd hc h, fun _ _ _ => ⟨fun _ => rfl, fun hc => absurd h0 hc⟩⟩, hacc⟩
  rw [if_neg h0] at hr
  rcases pattern_cases (f := .f32) hacc with hp | ⟨s, rfl⟩ | hf
  · exact absurd (.inr (.inr hp)) h
  · rw [fval_infPat] at hr
    rw [hr]
    refine ⟨⟨fun hc => absurd hc h, fun _ _ _ => ⟨fun _ => rfl, fun _ hf => ?_⟩⟩, hacc⟩
    obtain ⟨m, e, hv, -⟩ := fval_of_finite hf
    rw [fval_infPat] at hv
    cases hv
  · obtain ⟨m, e, hv, hx, -⟩ := fval_of_finite hf
    rw [hv] at hr
    obtain ⟨hz, hnz⟩ := addFin_block (s := signOf .f32 acc) (m := m) (d := e) (e := (sa : ℤ) + sb - 512) h0
    rw [← hx] at hz hnz
    have hr' : accStep acc sa sb t = (addFin .f32 .rn (signOf .f32 acc) m e (decide (t < 0)) t.natAbs ((sa : ℤ) + sb - 512)).1 := by
      rw [hr, ← Nat.cast_add]
      rfl
    rw [← hr'] at hz hnz
    refine ⟨⟨fun hc => absurd hc h, fun _ _ _ => ⟨fun hc => ?_, fun _ _ => ⟨hz, hnz⟩⟩⟩, ?_⟩
    · exact absurd hc (by tauto)
    · by_cases hy : value .f32 acc + t * 2 ^ ((sa : ℤ) + sb - 512) = 0
      · rw [hz hy]; norm_num
      · exact (hnz hy).1

section
variable (fa fb : MxFmt) (kb : Nat) (a b : Bytes) {acc : Nat}

/-- An accumulator element behind the first n of kb blocks. -/
def afterBlocks (acc : Nat) (n : Nat) : Nat :=
  (List.range n).foldl (fun e k => accStep e (scaleAt fa kb a k) (scaleAt fb kb b k) (blockT fa fb a b k)) acc

theorem afterBlocks_succ (n : Nat) : afterBlocks fa fb kb a b acc (n + 1) =
    accStep (afterBlocks fa fb kb a b acc n) (scaleCode fa kb a n) (scaleCode fb kb b n) (blockInt fa fb a b n) := by
  rw [afterBlocks, List.range_succ, List.foldl_append, List.foldl_cons, List.foldl_nil, scaleAt_eq, scaleAt_eq, blockT_eq]
  rfl

theorem afterBlocks_lt (h : acc < 2 ^ 32) (n : Nat) : afterBlocks fa fb kb a b acc n < 2 ^ 32 := by
  induction n with
  | zero => exact h
  | succ n ih =>
    rw [afterBlocks_succ]
    exact (accStep_blockStep ih ..).2

theorem accumulate_lt (h : acc < 2 ^ 32) : accumulate acc fa fb kb a b < 2 ^ 32 := afterBlocks_lt fa fb kb a b h kb

theorem accumulates_accumulate (h : acc < 2 ^ 32) : Accumulates fa fb kb a b acc (accumulate acc fa fb kb a b) := by
  refine ⟨afterBlocks fa fb kb a b acc, rfl, rfl, fun k _ => ?_⟩
  rw [afterBlocks_succ]
  exact (accStep_blockStep (afterBlocks_lt fa fb kb a b h k) ..).1
end

/-! ### Threads changed one after another -/

/-- Changing threads with distinct keys changes each of them once and nothing else. -/
theorem foldl_modThread_distinct {α : Type} (key : α → Nat) (f : α → Thread → Thread) (l : List α) (s : State) (h : (l.map key).Nodup) :
    l.foldl (fun t x => t.modThread (key x) (f x)) s =
      { s with threads := (l.foldl (fun t x => t.modThread (key x) (f x)) s).threads } ∧
    (∀ j, j ∉ l.map key → lookup (l.foldl (fun t x => t.modThread (key x) (f x)) s).threads j = lookup s.threads j) ∧
    ∀ x ∈ l, lookup (l.foldl (fun t x => t.modThread (key x) (f x)) s).threads (key x) = (lookup s.threads (key x)).map (f x) := by
  induction l generalizing s with
  | nil => exact ⟨rfl, fun _ _ => rfl, fun x hx => absurd hx List.not_mem_nil⟩
  | cons y l ih =>
    obtain ⟨hy, hl⟩ := List.nodup_cons.1 h
    obtain ⟨frame, others, changed⟩ := ih (s.modThread (key y) (f y)) hl
    rw [List.foldl_cons]
    refine ⟨by rw [frame]; rfl, fun j hj => ?_, fun x hx => ?_⟩
    · obtain ⟨hjy, hjl⟩ := not_or.1 (List.mem_cons.not.1 hj)
      rw [others j hjl, State.lookup_modThread, if_neg hjy]
    · rcases List.mem_cons.1 hx with rfl | hx
      · rw [others _ hy, State.lookup_modThread, if_pos rfl]
      · have hxy : key x ≠ key y := fun e => hy (e ▸ List.mem_map_of_mem hx)
        rw [changed x hx, State.lookup_modThread, if_neg hxy]

/-! ### Rows of accumulators (R220) -/

/-- A thread behind the accumulation of its row in a quarter, the operands in m. -/
def accWritten (m : Store) (q : Pass) (r : Nat × Nat) (th : Thread) : Thread :=
  th.warow (BitVec.ofNat 8 q.d) 0 ((List.range 16).map fun c =>
    BitVec.ofNat 32 (accumulate (if q.z then 0 else (th.ra (BitVec.ofNat 8 q.d) c).toNat) q.fa q.fb q.kb (m.read r.2 (q.fa.natural q.kb))
      ((q.columns.map fun o => m.read o (q.fb.natural q.kb)).getD c [])))

/-- The rows of some quarters, each with its quarter. -/
def rowsOf (all : List (Nat × Pass)) : List (Pass × Nat × Nat) := all.flatMap fun e => e.2.rows.map fun r => (e.2, r)

theorem mem_rowsOf {all : List (Nat × Pass)} {e : Nat × Pass} {r : Nat × Nat} (he : e ∈ all) (hr : r ∈ e.2.rows) :
    (e.2, r) ∈ rowsOf all := List.mem_flatMap.2 ⟨e, he, List.mem_map_of_mem hr⟩

theorem rowsOf_keys (all : List (Nat × Pass)) :
    (rowsOf all).map (fun x => x.2.1) = (all.flatMap fun e => e.2.rows).map Prod.fst := by
  simp [rowsOf, List.map_flatMap, Function.comp_def]

theorem foldl_rows_groups (m : Store) (q : Pass) (rows : List (Nat × Nat)) (s : State) :
    (rows.foldl (fun t r => t.modThread r.1 (accWritten m q r)) s).groups = s.groups := by
  induction rows generalizing s with
  | nil => rfl
  | cons r rows ih => exact ih _

/-- The quarters written one after another are their rows written one after another. -/
theorem foldl_writePass (all : List (Nat × Pass)) (s : State) : all.foldl (fun t e => t.writePass e.2) s =
    (rowsOf all).foldl (fun t x => t.modThread x.2.1 (accWritten (s.group x.1.gid).alloc x.1 x.2)) s := by
  suffices h : ∀ t : State, t.groups = s.groups → all.foldl (fun t e => t.writePass e.2) t =
      (rowsOf all).foldl (fun t x => t.modThread x.2.1 (accWritten (s.group x.1.gid).alloc x.1 x.2)) t from h s rfl
  induction all with
  | nil => exact fun _ _ => rfl
  | cons e all ih =>
    intro t ht
    have hw : t.writePass e.2 = e.2.rows.foldl (fun t r => t.modThread r.1 (accWritten (s.group e.2.gid).alloc e.2 r)) t := by
      rw [State.group, ← ht]
      rfl
    rw [List.foldl_cons, ih _ (by rw [hw, foldl_rows_groups, ht]), hw, rowsOf, rowsOf, List.flatMap_cons, List.foldl_append, List.foldl_map]

/-- What a row's accumulation writes: its own accumulator by R125, and no other register. -/
theorem accWritten_spec (m : Store) (q : Pass) (r : Nat × Nat) (th : Thread) :
    accWritten m q r th = { th with a := (accWritten m q r th).a } ∧ ∀ (d : Reg) (e : Nat), e < 16 →
      (d ≠ BitVec.ofNat 8 q.d → (accWritten m q r th).ra d e = th.ra d e) ∧
      (d = BitVec.ofNat 8 q.d → Accumulates q.fa q.fb q.kb (m.read r.2 (rowLen q.fa q.kb)) (m.read (q.bOff + e * q.sb) (rowLen q.fb q.kb))
        (if q.z then 0 else (th.ra d e).toNat) ((accWritten m q r th).ra d e).toNat) := by
  refine ⟨Sys2Proof.Machine.warow_eq .., fun d e he => ⟨fun hd => ?_, fun hd => ?_⟩⟩
  · rw [accWritten, Thread.ra_warow_zero _ _ _ (by simp) he, if_neg hd]
  · have hacc : (if q.z then 0 else (th.ra d e).toNat) < 2 ^ 32 := by
      split
      · norm_num
      · exact (th.ra d e).isLt
    rw [accWritten, Thread.ra_warow_zero _ _ _ (by simp) he, if_pos hd, ← hd]
    simp only [Pass.columns, natural_eq, List.getD_eq_getElem?_getD, List.getElem?_map, List.getElem?_range he, Option.map_some, Option.getD_some,
      BitVec.toNat_ofNat]
    rw [Nat.mod_eq_of_lt (accumulate_lt _ _ _ _ _ hacc)]
    exact accumulates_accumulate _ _ _ _ _ hacc

/-! ### The end of an instruction (R221) -/

/-- The state in which a matrix instruction has left its pins and its threads wait for it no more. -/
def State.unpinned (s : State) (inst : Nat) : State :=
  ((s.instPasses inst).flatMap fun e => e.2.rows).foldl (fun s r => s.modThread r.1 fun th => { th with pend := th.pend - 1 })
    ({ s with passes := keep (fun _ x => x.inst != inst) s.passes }.releaseScores fun e =>
      (s.instPasses inst).any fun x => e.owner == Holder.pass x.1)

/-- A thread that a matrix instruction lets go. -/
def letGo (th : Thread) : Thread := { retryWoken th with pend := th.pend - 1 }

theorem retryWoken_eq (th : Thread) : retryWoken th = { th with wait := (retryWoken th).wait } := by
  unfold retryWoken
  split <;> rfl

theorem letGo_eq (th : Thread) : letGo th = { th with wait := (retryWoken th).wait, pend := th.pend - 1 } := by
  rw [letGo, retryWoken_eq]

theorem letGo_ra (th : Thread) (d : Reg) (e : Nat) : (letGo th).ra d e = th.ra d e := by
  rw [letGo_eq]
  rfl

section
variable {s : State} {inst : Nat}

theorem unpinned_eq : s.unpinned inst = { s with
    passes := keep (fun _ x => x.inst != inst) s.passes
    cores := mapValues (fun _ (c : CoreState) => { c with score := c.score.filter fun e =>
      !((s.instPasses inst).any fun x => e.owner == Holder.pass x.1) }) s.cores
    threads := (s.unpinned inst).threads } := by
  rw [State.unpinned, foldl_modThread_eq]
  rfl

theorem lookup_unpinned (hn : (((s.instPasses inst).flatMap fun e => e.2.rows).map Prod.fst).Nodup) {r : Nat × Nat}
    (hr : r ∈ (s.instPasses inst).flatMap fun e => e.2.rows) :
    lookup (s.unpinned inst).threads r.1 = (lookup s.threads r.1).map letGo := by
  obtain ⟨-, -, h⟩ := foldl_modThread_distinct Prod.fst (fun _ th => { th with pend := th.pend - 1 }) _
    ({ s with passes := keep (fun _ x => x.inst != inst) s.passes }.releaseScores fun e =>
      (s.instPasses inst).any fun x => e.owner == Holder.pass x.1) hn
  rw [State.unpinned, h r hr, State.releaseScores, lookup_wakeRetry, Option.map_map]
  refine congrArg (Option.map · (lookup s.threads r.1)) (funext fun th => ?_)
  rw [Function.comp_apply, letGo, retryWoken_eq]

theorem unpinned_group (g : Nat) : (s.unpinned inst).group g = s.group g := by rw [unpinned_eq]; rfl

/-- No entry of the quarters stays. -/
theorem unpinned_score {e : Nat × Pass} (he : e ∈ s.instPasses inst) :
    ∀ c ∈ (s.unpinned inst).cores, ∀ x ∈ c.2.score, x.owner ≠ .pass e.1 := by
  rw [unpinned_eq]
  intro c hc x hx hw
  obtain ⟨c0, -, rfl⟩ := List.mem_map.1 hc
  have h := (List.mem_filter.1 hx).2
  simp only [Bool.not_eq_true', List.any_eq_false, beq_iff_eq] at h
  exact h e he hw

theorem passPoison_of_sound {q : Pass} (h : (s.group q.gid).alloc.bad = []) : s.passPoison q = none := by
  have hp : ∀ a n, (s.group q.gid).alloc.poisoned a n = false := fun a n => by rw [Store.poisoned, h]; rfl
  have hr : ∀ o f kb prot, rowPoisoned (s.group q.gid).alloc o f kb prot = false := by simp [rowPoisoned, hp]
  have hc : q.columns.find? (fun o => rowPoisoned (s.group q.gid).alloc o q.fb q.kb q.prot) = none :=
    List.find?_eq_none.2 fun o _ => by simp [hr]
  have ha : q.rows.find? (fun r => rowPoisoned (s.group q.gid).alloc r.2 q.fa q.kb q.prot) = none :=
    List.find?_eq_none.2 fun r _ => by simp [hr]
  rw [State.passPoison, hc]
  exact ha

/-- The check of R126 over a quarter. -/
theorem passClean_iff (q : Pass) : s.passClean q = true ↔ (q.prot = true → ∀ r ∈ q.rows, ∀ e, e < 16 → ∀ k, k < q.kb →
    ∀ o ∈ passOffsets q.fa q.fb k,
      (plane ((s.group q.gid).alloc.read r.2 (rowLen q.fa q.kb)) o.1
        ((s.group q.gid).alloc.read (q.bOff + e * q.sb) (rowLen q.fb q.kb)) o.2 3 : ℤ) =
      passValue ((s.group q.gid).alloc.read r.2 (rowLen q.fa q.kb)) o.1
        ((s.group q.gid).alloc.read (q.bOff + e * q.sb) (rowLen q.fb q.kb)) o.2 % 121) := by
  simp only [State.passClean, Bool.or_eq_true, Bool.not_eq_true', List.all_eq_true, Pass.columns, List.forall_mem_map, List.mem_range,
    rowsAgree_iff, natural_eq]
  rw [← Bool.not_eq_true, ← imp_iff_not_or]

/-- An instruction whose quarters have all left the engine, without poison: its accumulators are written, or the gang is killed. -/
theorem finishPass_due {id : Nat} {p : Pass} (hp : lookup s.passes id = some p) (hdue : ∀ e ∈ s.instPasses p.inst, e.2.due ≠ none)
    (hbad : ∀ e ∈ s.instPasses p.inst, (s.group e.2.gid).alloc.bad = []) :
    s.finishPass id = if (s.instPasses p.inst).all fun e => (s.unpinned p.inst).passClean e.2
      then (s.instPasses p.inst).foldl (fun t e => t.writePass e.2) (s.unpinned p.inst)
      else (s.unpinned p.inst).killGang (p.rows.headD (0, 0)).1 3 0 0 := by
  have hd : ((s.instPasses p.inst).any fun e => e.2.due.isNone) = false := by simpa [Option.isSome_iff_ne_none] using hdue
  have hq : ((s.instPasses p.inst).findSome? fun e => (s.unpinned p.inst).passPoison e.2) = none :=
    List.findSome?_eq_none_iff.2 fun e he => passPoison_of_sound (by rw [unpinned_group]; exact hbad e he)
  unfold State.finishPass
  rw [hp]
  dsimp only
  rw [if_neg (by simp [hd]), ← State.unpinned, hq]

theorem finishPass_waits {id : Nat} {p : Pass} (hp : lookup s.passes id = some p) (h : ∃ e ∈ s.instPasses p.inst, e.2.due = none) :
    s.finishPass id = s := by
  have hd : ((s.instPasses p.inst).any fun e => e.2.due.isNone) = true := by simpa [List.any_eq_true] using h
  unfold State.finishPass
  rw [hp]
  exact if_pos hd

end

/-- A kill of a gang is posted and nothing else happens. -/
theorem killGang_posts (s : State) (k c : Nat) (x pc : DWord) :
    ∃ hood pos, s.killGang k c x pc = { s with inbox := s.inbox ++ [.gangKill hood ⟨c, x, pc, pos⟩] } := ⟨_, _, rfl⟩

/-- The quarters of an instruction with all their rows written: threads of the rows alone change, each by R125. -/
theorem writePasses_spec (all : List (Nat × Pass)) (s : State) (hn : ((all.flatMap fun e => e.2.rows).map Prod.fst).Nodup) :
    all.foldl (fun t e => t.writePass e.2) s = { s with threads := (all.foldl (fun t e => t.writePass e.2) s).threads } ∧
    ∀ q ∈ all, ∀ r ∈ q.2.rows, lookup (all.foldl (fun t e => t.writePass e.2) s).threads r.1 =
      (lookup s.threads r.1).map (accWritten (s.group q.2.gid).alloc q.2 r) := by
  rw [foldl_writePass]
  obtain ⟨frame, -, changed⟩ := foldl_modThread_distinct (fun x : Pass × Nat × Nat => x.2.1)
    (fun x => accWritten (s.group x.1.gid).alloc x.1 x.2) (rowsOf all) s (by rwa [rowsOf_keys])
  exact ⟨frame, fun q hq r hr => changed _ (mem_rowsOf hq hr)⟩

/-- Settles O35: the rows of all the quarters are distinct threads, and each element goes through R125 block by block. -/
theorem matrixPassResults : Obligations.MatrixPassResults := by
  unfold Obligations.MatrixPassResults
  intro s id p hp all mem a b agree
  refine ⟨fun h => congrArg Host.Outcome.next (finishPass_waits hp h), fun hdue hn hbad => ?_⟩
  have hfin := finishPass_due hp hdue hbad
  have hclean : ∀ e : Nat × Pass, (s.unpinned p.inst).passClean e.2 = true ↔ (e.2.prot = true → agree e.2) := fun e => by
    rw [passClean_iff, unpinned_group]
  have hletGo : ∀ q ∈ all, ∀ r ∈ q.2.rows, ∀ th, lookup s.threads r.1 = some th →
      lookup (s.unpinned p.inst).threads r.1 = some (letGo th) := fun q hq r hr th hth => by
    rw [lookup_unpinned hn (List.mem_flatMap.2 ⟨q, hq, hr⟩), hth, Option.map_some]
  constructor
  · intro hagree
    obtain ⟨frame, written⟩ := writePasses_spec all (s.unpinned p.inst) hn
    rw [if_pos (List.all_eq_true.2 fun e he => (hclean e).2 (hagree e he))] at hfin
    refine ⟨_, congrArg Host.Outcome.next hfin, ?_, ?_, ?_, ?_, fun q hq r hr th hth => ?_⟩
    · rw [frame, unpinned_eq]
      exact ⟨rfl, rfl⟩
    · rw [frame, unpinned_eq]
    · rw [frame, unpinned_eq]
      intro e he
      simpa using (List.mem_filter.1 he).2
    · rw [frame]
      exact fun e he => unpinned_score he
    · obtain ⟨hw, hra⟩ := accWritten_spec (mem q.2) q.2 r (letGo th)
      simp only [letGo_ra] at hra
      refine ⟨accWritten (mem q.2) q.2 r (letGo th), ?_, ?_, ?_, ?_, ?_, ?_, hra⟩
      · rw [written q hq r hr, hletGo q hq r hr th hth, unpinned_group, Option.map_some]
      all_goals rw [hw, letGo_eq]
  · rintro ⟨e, he, hprot, hno⟩
    have hc : ¬(all.all fun e => (s.unpinned p.inst).passClean e.2) = true := fun h =>
      hno ((hclean e).1 (List.all_eq_true.1 h e he) hprot)
    obtain ⟨hood, pos, hk⟩ := killGang_posts (s.unpinned p.inst) (p.rows.headD (0, 0)).1 3 0 0
    rw [if_neg hc, hk] at hfin
    refine ⟨_, hood, pos, congrArg Host.Outcome.next hfin, ?_, fun q hq r hr th hth => ⟨_, hletGo q hq r hr th hth, ?_, ?_⟩⟩
    · rw [unpinned_eq]
    · rw [letGo_eq]
    · rw [letGo_eq]

end Sys2Proof.Machine

/-!
Decoding an encoded instruction (O50, O51; R129, R132 to R138): every code is read back from its field, every field from its place in
the word, and each row of the encoder is a row of the decoder's tables: its length is permitted (check 7 of R139), its reserved bits are
clear (check 9) and `build` reads the instruction (check 10). Where `simp` reads a field out of a concatenation, `Nat.reduceAdd` is left
out so that the widths stay the sums that the library's lemmas name.
-/
namespace Sys2Proof
open BitVec (extractLsb'_append_eq_of_le extractLsb'_append_eq_of_add_le)

/-! ### Codes (R136, R137 and each entry) -/

@[simp] theorem Ty.ofCode_code (code : Ty) : Ty.ofCode code.code = some code := by cases code <;> rfl
@[simp] theorem Rm.ofCode_code (code : Rm) : Rm.ofCode code.code = some code := by cases code <;> rfl
@[simp] theorem Ord.ofCode_code (code : Ord) : Ord.ofCode code.code = some code := by cases code <;> rfl
@[simp] theorem Scope.ofCode_code (code : Scope) : Scope.ofCode code.code = some code := by cases code <;> rfl
@[simp] theorem Carry.ofCode_code (code : Carry) : Carry.ofCode code.code = some code := by cases code <;> rfl
@[simp] theorem ICmp.ofCode_code (code : ICmp) : ICmp.ofCode code.code = some code := by cases code <;> rfl
@[simp] theorem FCmp.ofCode_code (code : FCmp) : FCmp.ofCode code.code = some code := by cases code <;> rfl
@[simp] theorem FshDir.ofCode_code (code : FshDir) : FshDir.ofCode code.code = some code := by cases code <;> rfl
@[simp] theorem LdSz.ofCode_code (code : LdSz) : LdSz.ofCode code.code = some code := by cases code <;> rfl
@[simp] theorem StSz.ofCode_code (code : StSz) : StSz.ofCode code.code = some code := by cases code <;> rfl
@[simp] theorem Aop.ofCode_code (code : Aop) : Aop.ofCode code.code = some code := by cases code <;> rfl
@[simp] theorem RedOp.ofCode_code (code : RedOp) : RedOp.ofCode code.code = some code := by cases code <;> rfl
@[simp] theorem VoteOp.ofCode_code (code : VoteOp) : VoteOp.ofCode code.code = some code := by cases code <;> rfl
@[simp] theorem ShfOp.ofCode_code (code : ShfOp) : ShfOp.ofCode code.code = some code := by cases code <;> rfl
@[simp] theorem HcvtOp.ofCode_code (code : HcvtOp) : HcvtOp.ofCode code.code = some code := by cases code <;> rfl
@[simp] theorem PrefLv.ofCode_code (code : PrefLv) : PrefLv.ofCode code.code = some code := by cases code <;> rfl
@[simp] theorem CfOp.ofCode_code (code : CfOp) : CfOp.ofCode code.code = some code := by cases code <;> rfl
@[simp] theorem Win.ofCode_code (code : Win) : Win.ofCode code.code = some code := by cases code <;> rfl
@[simp] theorem Comb.ofCode_code (code : Comb) : Comb.ofCode code.code = some code := by cases code <;> rfl
@[simp] theorem TretMode.ofCode_code (code : TretMode) : TretMode.ofCode code.code = some code := by cases code <;> rfl
@[simp] theorem TinvKind.ofCode_code (code : TinvKind) : TinvKind.ofCode code.code = some code := by cases code <;> rfl
@[simp] theorem CinvOp.ofCode_code (code : CinvOp) : CinvOp.ofCode code.code = some code := by cases code <;> rfl
@[simp] theorem MxFmt.ofCode_code (code : MxFmt) : MxFmt.ofCode code.code = some code := by cases code <;> rfl
@[simp] theorem CpFmt.ofCode_code (code : CpFmt) : CpFmt.ofCode code.code = some code := by cases code <;> rfl
@[simp] theorem Am.ofCode_code (x : Am) : Am.ofCode x.code = x := by cases x <;> rfl
@[simp] theorem Fmt.ofTyCode_tyCode (x : Fmt) : Fmt.ofTyCode x.tyCode = some x := by cases x <;> rfl
@[simp] theorem Fmt.ofSubCode_subCode (x : Fmt) : Fmt.ofSubCode x.subCode = some x := by cases x <;> rfl
@[simp] theorem wideOf_wideCode (wide : Bool) : wideOf (wideCode wide) = some wide := by cases wide <;> rfl
@[simp] theorem bitOfSub_bitSub (bit : Bool) : bitOfSub (bitSub bit) = some bit := by cases bit <;> rfl
@[simp] theorem barHood_barScope (hood : Bool) : barHood (barScope hood) = some hood := by cases hood <;> rfl
@[simp] theorem b1_true : b1 true = 1#1 := rfl
@[simp] theorem b1_false : b1 false = 0#1 := rfl
@[simp] theorem b1_beq_one (b : Bool) : (b1 b == 1#1) = b := by cases b <;> rfl

@[simp] theorem MxDesc.ofBits_bits (m : MxDesc) : MxDesc.ofBits m.bits = some m := by
  simp (disch := decide) [-Nat.reduceAdd, MxDesc.ofBits, MxDesc.bits, extractLsb'_append_eq_of_le, extractLsb'_append_eq_of_add_le]
@[simp] theorem CpDesc.ofBits_bits (m : CpDesc) : CpDesc.ofBits m.bits = some m := by
  simp (disch := decide) [-Nat.reduceAdd, CpDesc.ofBits, CpDesc.bits, extractLsb'_append_eq_of_le, extractLsb'_append_eq_of_add_le]
theorem CpDesc.fmt_bits (m : CpDesc) : m.bits.extractLsb' 60 4 = m.fmt.code := by
  simp (disch := decide) [-Nat.reduceAdd, CpDesc.bits, extractLsb'_append_eq_of_le]

/-! ### Bits that lie within a mask -/

/-- Every bit of x is one of the mask. -/
def Within {n : Nat} (x mask : BitVec n) : Prop := x &&& ~~~mask = 0

section
variable {n v w : Nat}

theorem within_iff {x mask : BitVec n} : Within x mask ↔ x &&& ~~~mask = 0 := Iff.rfl

theorem append_eq_zero_iff {hi : BitVec v} {lo : BitVec w} : hi ++ lo = 0#(v + w) ↔ hi = 0#v ∧ lo = 0#w := by
  refine ⟨fun h => ⟨?_, ?_⟩, fun ⟨h, l⟩ => by rw [h, l, BitVec.zero_append_zero]⟩
  · rw [← BitVec.extractLsb'_append_eq_left (a := hi) (b := lo), h, BitVec.extractLsb'_zero]
  · rw [← BitVec.extractLsb'_append_eq_right (a := hi) (b := lo), h, BitVec.extractLsb'_zero]

theorem within_append_iff {hi : BitVec v} {lo : BitVec w} {mask : BitVec (v + w)} :
    Within (hi ++ lo) mask ↔ Within hi (mask.extractLsb' w v) ∧ Within lo (mask.extractLsb' 0 w) := by
  have hm : mask = mask.extractLsb' w v ++ mask.extractLsb' 0 w := BitVec.extractLsb'_append_extractLsb'.symm
  rw [Within, hm, BitVec.not_append, BitVec.and_append, ← hm]
  exact append_eq_zero_iff

/-- A distance that is a multiple of 4 (R147). -/
theorem within_distance {x : BitVec 32} (h : x.toNat % 4 = 0) : Within x 0xFFFFFFFC := by
  have low : x.extractLsb' 0 2 = 0#2 := BitVec.eq_of_toNat_eq (by simpa using h)
  rw [← BitVec.extractLsb'_append_extractLsb' (w := 30) (len := 2) (x := x), low, within_append_iff]
  simp [within_iff]

/-- A 16-bit immediate (R174). -/
theorem within_half {x : BitVec 32} (h : x.toNat < 65536) : Within x 0xFFFF := by
  have high : x.extractLsb' 16 16 = 0#16 :=
    BitVec.eq_of_toNat_eq (by simp [Nat.shiftRight_eq_div_pow, Nat.div_eq_of_lt h])
  rw [← BitVec.extractLsb'_append_extractLsb' (w := 16) (len := 16) (x := x), high, within_append_iff]
  simp [within_iff]

end

/-! ### The fields and the word (R129, R132, R133) -/

theorem append_lt {v w k : Nat} {hi : BitVec v} {lo : BitVec w} (h : hi.toNat < 2 ^ k) : (hi ++ lo).toNat < 2 ^ (k + w) := by
  rw [BitVec.toNat_append, Nat.shiftLeft_eq]
  refine Nat.or_lt_two_pow ?_ (lo.isLt.trans_le (Nat.pow_le_pow_right Nat.two_pos (Nat.le_add_left w k)))
  rw [Nat.pow_add]
  exact Nat.mul_lt_mul_of_pos_right h (Nat.two_pow_pos w)

/-- A word whose extension has no bit above its LEN has none above its bytes. -/
theorem Raw.pack_lt {x : Raw} (h : x.ext.toNat < 2 ^ (32 * x.len.toNat)) : x.pack.toNat < 256 ^ lenBytes x.len := by
  have bytes : 256 ^ lenBytes x.len = 2 ^ (32 * x.len.toNat + 10 + 4 + 8 + 8 + 8 + 8 + 1 + 7 + 8 + 2) := by
    rw [show (256 : Nat) = 2 ^ 8 from rfl, ← Nat.pow_mul, lenBytes]
    congr 1
    omega
  rw [bytes, Raw.pack]
  iterate 10 apply append_lt
  exact h

/-- Every field is read back from its place; LEN cuts nothing from an extension that has no bit above it. -/
theorem Raw.unpack_pack {x : Raw} (h : x.ext.toNat < 2 ^ (32 * x.len.toNat)) : Raw.unpack x.pack = x := by
  have short : x.len = 0#2 → x.ext = 0#64 := fun hl => BitVec.eq_of_toNat_eq (by simpa [hl] using h)
  have word : x.len = 1#2 → x.ext &&& 0xFFFFFFFF#64 = x.ext := fun hl => by
    refine BitVec.eq_of_toNat_eq ?_
    rw [BitVec.toNat_and]
    exact Nat.and_two_pow_sub_one_of_lt_two_pow (n := 32) (by simpa [hl] using h)
  have ext : (if x.len = 0#2 then 0#64 else if x.len = 1#2 then x.ext &&& 0xFFFFFFFF#64 else x.ext) = x.ext := by
    split_ifs with h0 h1
    · exact (short h0).symm
    · exact word h1
    · rfl
  simp (disch := decide) [-Nat.reduceAdd, Raw.unpack, Raw.pack, extractLsb'_append_eq_of_le, extractLsb'_append_eq_of_add_le, ext]

theorem leBytes_length (n x : Nat) : (leBytes n x).length = n := by
  induction n generalizing x with
  | zero => rfl
  | succ n ih => rw [leBytes, List.length_cons, ih]

theorem leNat_leBytes (n x : Nat) : leNat (leBytes n x) = x % 256 ^ n := by
  induction n generalizing x with
  | zero => rw [Nat.pow_zero, Nat.mod_one]; rfl
  | succ n ih => rw [leBytes, leNat, ih, Nat.pow_succ', Nat.mod_mul, BitVec.toNat_ofNat]

/-! ### The rows of the encoder (R132 to R138) -/

/-- The reserved bits of the fields are clear (check 9 of R139). -/
def Raw.Fits (x : Raw) (u : Raw.Used) : Prop :=
  Within x.d u.d ∧ Within x.a u.a ∧ Within x.b u.b ∧ Within x.c u.c ∧ Within x.fn u.fn ∧ Within x.ext u.ext ∧
    (x.op = 0x94 → x.sub = 4 → x.a = 127)

theorem Raw.reservedBad_eq_false {x : Raw} {u : Used} (hu : x.used = u) (h : x.Fits u) : x.reservedBad = false := by
  obtain ⟨d, a, b, c, fn, ext, vote⟩ := h
  rw [within_iff] at d a b c fn ext
  simp only [Raw.reservedBad, hu, d, a, b, c, fn, ext]
  simpa using vote

theorem Raw.opCheck_eq_zero {x : Raw} (hl : x.len ≠ 3) (h : x.len ∈ permitted x.op) : x.opCheck = 0 := by
  have assigned : (permitted x.op).isEmpty = false := by simpa using List.ne_nil_of_mem h
  rw [opCheck, if_neg (by simpa using hl), assigned, if_neg Bool.false_ne_true, if_pos (List.contains_iff_mem.2 h)]

namespace Instr
variable {i : Instr}

theorem raw_head (h : i.raw.len ≠ 3) : i.raw.head = i.head := by
  revert h
  cases i <;> dsimp only [Instr.raw, Instr.head, Raw.head] <;> simp

/-- An encoded instruction has no bit above its LEN. -/
theorem raw_ext_lt (h : i.raw.len ≠ 3) : i.raw.ext.toNat < 2 ^ (32 * i.raw.len.toNat) := by
  have word {w : Nat} {x : BitVec w} (hw : w ≤ 32) : x.toNat < 4294967296 :=
    x.isLt.trans_le (Nat.pow_le_pow_right Nat.two_pos hw)
  revert h
  cases i with
  | movw | acas | rmac | rmag | cpi | cpo | cpl | cpr | cpf => exact fun _ => BitVec.isLt _
  | tlwCtr _ _ _ _ _ off =>
    cases off <;> dsimp only [Instr.raw, Off.len, Off.ext] <;> simp (disch := decide) [-Nat.reduceAdd, word]
  | _ =>
    dsimp only [Instr.raw]
    simp (disch := decide) [-Nat.reduceAdd, word]

/-- The opcode permits the length (checks 4 and 7 of R139; R145). -/
theorem raw_len_permitted (h : i.raw.len ≠ 3) : i.raw.len ∈ Raw.permitted i.raw.op := by
  revert h
  cases i with
  | tlwCtr _ _ _ _ _ off => cases off <;> dsimp only [Instr.raw, Off.len] <;> decide
  | _ => dsimp only [Instr.raw]; decide

/-- Where an instruction takes LA its opcode does (R141). -/
theorem laAllowed_of_takesLa (h : i.takesLa = true) : laAllowed i.raw.op = true := by
  revert h
  cases i <;> dsimp only [Instr.raw, Instr.takesLa] <;> decide

/-- The row of the decoder is the row of the encoder (check 10 of R139): `rfl` picks the branch of `build` by the opcode, and each code
and operand is read back from where the encoder put it. The branch begins with a code to read, or is the instruction itself, or asks for
the bit that tells the forms of one opcode apart. -/
theorem build_raw (h : i.raw.len ≠ 3) : i.raw.build = some i := by
  cases i with
  | iaddS | iaddW | isubS | isubW | imulS | imulW | imulhS | imulhW | imad | imadw | idivS | idivW | iremS | iremW | iminS | iminW
  | imaxS | imaxW | iabs | ineg | isad | iadd64S | iadd64W | isub64S | isub64W | imul64 | andS | andW | orS | orW | xorS | xorW
  | andnS | andnW | ornS | ornW | not | shlS | shlW | shrS | shrW | sarS | sarW | rotS | rotW | fsh | bfx | bfi | popc | clz | ctz
  | brev | permS | permW | isetS | isetW | isetvS | isetvW | sel | mov | movi | movw | p2v | v2p | br | faddS | faddW | fsubS | fsubW
  | fmulS | fmulW | ffma | fdiv | fminS | fminW | fmaxS | fmaxW | fsetS | fsetW | fsetvS | fsetvW | fcls | frnd | f2i | i2f | fcvt
  | rcp | rsq | sqrt | exp2 | log2 | fstat | hadd2 | hsub2 | hmul2 | hfma2 | hmin2 | hmax2 | hcvt2 | vadd2 | vsub2 | vmin2 | vmax2
  | vacsel | vshf | vbfly | vred | vscan | vote | ldS | ldW | stS | stW | atom | acas | red | prefS | prefW | cflushS | cflushW
  | fence | bar | bara | barw | subon | suboff | subq | subfl | rmac | rmag | acmul | cpi | cpo | cpl | cpr | cpf | hire | tret
  | tinv | cinvr =>
    dsimp only [Instr.raw]
    refine Eq.trans (b := Option.bind _ _) rfl ?_
    simp (disch := decide) [-Nat.reduceAdd, Raw.head, Raw.sub, Raw.satBit, Raw.rm, Raw.scope, Raw.ty, Raw.imm32,
      extractLsb'_append_eq_of_le, extractLsb'_append_eq_of_add_le]
  | getid | jmp | call | callr | ret | reform | exit | nopS | nopW | nopX | yield | nap | acz | acldS | acldW | acstS | acstW | acrd
  | acwr | cpq | cpk | tlr | tladv | hjoin | hsync | hrd | hret | hrel | lnch | trap | bkpt | tmfr | sysr | sysw | sysx | eret
  | waiti =>
    dsimp only [Instr.raw]
    refine Eq.trans (b := some _) rfl ?_
    simp (disch := decide) [-Nat.reduceAdd, Raw.head, Raw.ty, Raw.imm32, extractLsb'_append_eq_of_le, extractLsb'_append_eq_of_add_le]
  | plop _ tt =>
    have whole : tt.extractLsb' 5 3 ++ tt.extractLsb' 4 1 ++ tt.extractLsb' 0 4 = tt := by
      rw [BitVec.extractLsb'_append_extractLsb'_eq_extractLsb' (by rfl),
        BitVec.extractLsb'_append_extractLsb'_eq_extractLsb' (by rfl)]
      exact BitVec.extractLsb'_eq_self
    dsimp only [Instr.raw]
    refine Eq.trans (b := some _) rfl ?_
    simp (disch := decide) [-Nat.reduceAdd, Raw.head, Raw.sub, Raw.satBit, Raw.ty, whole,
      extractLsb'_append_eq_of_le, extractLsb'_append_eq_of_add_le]
  | bru _ _ _ tgt =>
    dsimp only [Instr.raw]
    refine Eq.trans (b := some _) rfl ?_
    cases tgt <;> simp (disch := decide) [-Nat.reduceAdd, Raw.head, Raw.imm32, BruTarget.regField, BruTarget.ext,
      BruTarget.isReg, b1_true, b1_false, extractLsb'_append_eq_of_le, extractLsb'_append_eq_of_add_le]
  | tlwS | tlwW =>
    dsimp only [Instr.raw]
    refine Eq.trans (b := ite _ _ _) rfl ?_
    simp (disch := decide) [-Nat.reduceAdd, Raw.head, Raw.scope, Raw.imm32, extractLsb'_append_eq_of_le, extractLsb'_append_eq_of_add_le]
  | tlwCtr _ _ _ _ _ off =>
    dsimp only [Instr.raw]
    refine Eq.trans (b := ite _ _ _) rfl ?_
    cases off <;> simp (disch := decide) [-Nat.reduceAdd, Raw.head, Raw.scope, Raw.imm32, Off.len, Off.cField, Off.ext,
      extractLsb'_append_eq_of_le, extractLsb'_append_eq_of_add_le]
  | _ => exact absurd rfl h

/-- Reserved bits are clear (check 9 of R139). Where the mask of a field depends on a code, the cases of that code show which field
`reservedOk` makes zero. -/
theorem reservedBad_raw (hr : i.reservedOk = true) (hd : i.distanceOk = true) : i.raw.reservedBad = false := by
  cases i with
  | iaddS _ _ _ code | iaddW _ _ _ code | isubS _ _ _ code | isubW _ _ _ code | hcvt2 _ code | vote _ code | tret _ code
  | tinv _ code =>
    dsimp only [Instr.raw, Instr.reservedOk] at hr ⊢
    refine Raw.reservedBad_eq_false (u := ⟨_, _, _, _, _, _⟩) rfl ?_
    simp (disch := decide) only [Raw.Fits, within_append_iff, Raw.sub, extractLsb'_append_eq_of_le, extractLsb'_append_eq_of_add_le]
    revert hr
    cases code <;> simp +contextual [within_iff, Carry.code, HcvtOp.code, VoteOp.code, TretMode.code, TinvKind.code]
  | hire _ _ comb =>
    have near := within_distance (beq_iff_eq.1 hd)
    dsimp only [Instr.raw, Instr.reservedOk] at hr ⊢
    refine Raw.reservedBad_eq_false (u := ⟨_, _, _, _, _, _⟩) rfl ?_
    simp (disch := decide) only [Raw.Fits, within_append_iff, extractLsb'_append_eq_of_le, extractLsb'_append_eq_of_add_le]
    revert hr near
    cases comb <;> simp +contextual [within_iff, Comb.code]
  | cpi _ _ _ _ _ desc | cpo _ _ _ _ _ desc =>
    dsimp only [Instr.raw, Instr.reservedOk] at hr ⊢
    refine Raw.reservedBad_eq_false (u := ⟨_, _, _, _, _, _⟩) rfl ?_
    rw [Raw.Fits, CpDesc.fmt_bits]
    revert hr
    cases desc.fmt <;> simp +contextual [within_iff, CpFmt.code, CpFmt.scaled]
  | cpl | cpr =>
    dsimp only [Instr.raw, Instr.reservedOk] at hr ⊢
    refine Raw.reservedBad_eq_false (u := ⟨_, _, _, _, _, _⟩) rfl ?_
    revert hr
    simp +contextual [Raw.Fits, within_iff]
  | faddW _ fmt | fsubW _ fmt | fmulW _ fmt | fminW _ fmt | fmaxW _ fmt | fsetW _ fmt | fsetvW _ fmt =>
    dsimp only [Instr.raw]
    refine Raw.reservedBad_eq_false (u := ⟨_, _, _, _, _, _⟩) rfl ?_
    simp (disch := decide) only [Raw.Fits, within_append_iff, Raw.ty, extractLsb'_append_eq_of_add_le]
    cases fmt <;> simp [within_iff, Fmt.tyCode] <;> simpa [within_iff] using within_half (of_decide_eq_true hr)
  | br | jmp | call | reform =>
    dsimp only [Instr.raw]
    refine Raw.reservedBad_eq_false (u := ⟨_, _, _, _, _, _⟩) rfl ?_
    simp only [Raw.Fits, within_append_iff]
    simpa [within_iff] using within_distance (beq_iff_eq.1 hd)
  | bru _ _ _ tgt =>
    dsimp only [Instr.raw]
    refine Raw.reservedBad_eq_false (u := ite _ _ _) rfl ?_
    simp (disch := decide) only [extractLsb'_append_eq_of_le, extractLsb'_append_eq_of_add_le]
    cases tgt with
    | imm dist =>
      simp only [Raw.Fits, within_append_iff, BruTarget.isReg, BruTarget.ext, BruTarget.regField, b1_false]
      simpa [within_iff] using within_distance (beq_iff_eq.1 hd)
    | reg b =>
      simp only [Raw.Fits, within_append_iff, BruTarget.isReg, BruTarget.ext, BruTarget.regField, b1_true]
      simp [within_iff]
  | tlwS | tlwW =>
    dsimp only [Instr.raw]
    refine Raw.reservedBad_eq_false (u := ite _ _ _) rfl ?_
    simp (disch := decide) only [Raw.Fits, within_append_iff, extractLsb'_append_eq_of_le]
    simp [within_iff]
  | tlwCtr _ _ _ _ _ off =>
    dsimp only [Instr.raw]
    refine Raw.reservedBad_eq_false (u := ite _ _ _) rfl ?_
    simp (disch := decide) only [Raw.Fits, within_append_iff, extractLsb'_append_eq_of_add_le]
    cases off <;> simp [within_iff, Off.len, Off.ext, Off.cField]
  | _ =>
    dsimp only [Instr.raw]
    refine Raw.reservedBad_eq_false (u := ⟨_, _, _, _, _, _⟩) rfl ?_
    simp only [Raw.Fits, within_append_iff, MxDesc.bits]
    simp [within_iff]

end Instr

/-! ### Decoding what was encoded (R129, R139) -/

/-- A well-formed instruction's fields pass every check and are read back. -/
theorem decode_raw {i : Instr} (hw : i.wellFormed = true) (hl : i.raw.len ≠ 3) : i.raw.decode = .ok i := by
  simp only [Instr.wellFormed, Bool.and_eq_true, Bool.or_eq_true, beq_iff_eq] at hw
  obtain ⟨⟨⟨⟨⟨hg, hfn⟩, hla⟩, hregs⟩, hdist⟩, hres⟩ := hw
  have head := Instr.raw_head hl
  have la : (i.raw.la != 0 && !laAllowed i.raw.op) = false := by
    rcases hla with hla | hla
    · have : i.raw.la = 0 := (congrArg Head.la head).trans hla
      rw [this, bne_self_eq_false, Bool.false_and]
    · rw [Instr.laAllowed_of_takesLa hla, Bool.not_true, Bool.and_false]
  have op := Raw.opCheck_eq_zero hl (Instr.raw_len_permitted hl)
  have len : (i.raw.len == 3) = false := by simpa using hl
  simp only [Raw.decode, len, head, hg, op, Instr.reservedBad_raw hres hdist, Instr.build_raw hl, hfn, la, hregs, bne_self_eq_false,
    Bool.not_true, Bool.false_eq_true, if_false]

theorem decodeWord_bits {i : Instr} (hw : i.wellFormed = true) (hl : i.raw.len ≠ 3) : decodeWord i.bits = .ok i := by
  rw [decodeWord, Instr.bits, Raw.unpack_pack (Instr.raw_ext_lt hl), decode_raw hw hl]

theorem decodeBytes_encode {i : Instr} (hl : i.raw.len ≠ 3) : decodeBytes (encode i) = decodeWord i.bits := by
  have short : i.size ≤ 16 := by
    rw [Instr.size, lenBytes]
    have : i.raw.len.toNat ≠ 3 := fun h => hl (BitVec.eq_of_toNat_eq h)
    have := i.raw.len.isLt
    omega
  have fits : i.bits.toNat < 256 ^ i.size := Raw.pack_lt (Instr.raw_ext_lt hl)
  rw [decodeBytes, encode, List.take_of_length_le (by rwa [leBytes_length]), leNat_leBytes, Nat.mod_eq_of_lt fits,
    BitVec.ofNat_toNat, BitVec.setWidth_eq]

/-- Settles O51: the word holds the fields (`Raw.unpack_pack`), the bytes hold the word (`decodeBytes_encode`), and the fields of a
well-formed instruction pass every check and are read back (`decode_raw`). -/
theorem encodeDecodeRoundTrip : Obligations.EncodeDecodeRoundTrip := by
  unfold Obligations.EncodeDecodeRoundTrip
  exact fun i hw hl => ⟨decodeWord_bits hw hl, (decodeBytes_encode hl).trans (decodeWord_bits hw hl)⟩

/-- A word that is an instruction's encoding decodes to it. -/
theorem decodeWord_of_bits {w : BitVec 128} {i : Instr} (hb : i.bits = w) (hw : i.wellFormed = true) (hl : i.raw.len ≠ 3) :
    decodeWord w = .ok i := hb ▸ decodeWord_bits hw hl

/-- Settles O50: each word is the encoding of its instruction, but for the last, whose SUB is no code of IADD. -/
theorem decodesSpecWords : Obligations.DecodesSpecWords := by
  unfold Obligations.DecodesSpecWords
  refine ⟨?_, ?_, ?_, ?_, ?_, ?_, ?_, ?_, ?_, ?_, ?_, ?_, by decide⟩
  all_goals exact decodeWord_of_bits (by decide) (by decide) (by decide)

end Sys2Proof
